-- ==== Sys2Proof/Word.lean ====
section
/-! DEFINITION. The word types of the node: bytes, halfwords, register words, quadwords, step numbers (R7, R13, R39). -/
namespace Sys2Proof

abbrev Byte := BitVec 8
abbrev Half := BitVec 16
abbrev Word := BitVec 32
abbrev Quad := BitVec 64
/-- A step number or an epoch (R39: 48 bits, wrapping). -/
abbrev Epoch := BitVec 48

end Sys2Proof
end

