-- ==== Sys2Proof/Syntax.lean ====
section
/-! DEFINITION. The commands of the node: one constructor per row of the opcode table, with the operands that come from outside. -/
namespace Sys2Proof

/-- Who issues a register access (R81, R590, R600). `tap` is REG_ACCESS in the production test state. -/
inductive Requester where
  | mgmt
  | core (c : Fin 4)
  | fm
  | vf (i : Fin 256)
  | tap
  deriving DecidableEq, Repr

/-- Which BAR a memory request addresses (R414). Virtual functions have BAR0 only. -/
inductive Bar where
  | bar0 | bar2
  deriving DecidableEq, Repr

/-- What a supply rail crosses (R558, R559): a tenth of nominal upward, its minimum upward, its minimum downward, a tenth downward. -/
inductive RailCross where
  | aboveTenth | valid | belowMin | off
  deriving DecidableEq, Repr

/-- The PCIe resets of R432. -/
inductive PcieReset where
  | hotReset | linkDown | perstN | vfEnableClear | pfFlr
  deriving DecidableEq, Repr

/-- A received 802.3 frame as the port sees it (R441, R446): header bytes are the 32 bytes of R442. -/
structure Frame where
  port : Fin 4
  fcsOk : Bool
  size : Nat
  tagged : Bool
  etherType : Half
  srcMac : BitVec 48
  hdr : List Byte
  payload : List Byte
  deriving DecidableEq, Repr

/-- A scan burst: the pseudo-channel of a block whose read is uncorrectable, and the candidates that the tiles have drained since the unit's last
burst or window boundary (R318). -/
structure Burst where
  poisoned : Bool
  drained : Nat
  deriving DecidableEq, Repr

/-- What the power block and the corridor network supply at an open instant (R44, R314, R563): readings in °C, `none` for a sensor
without a valid reading (R580), and the galleries whose step-open token is missing. -/
structure OpenEnv where
  galleryTemps : List (Option Nat)
  atriumTemps : List (Option Nat)
  stackTemps : List Nat
  tokenMissing : List (Fin 50)
  deriving DecidableEq, Repr

/-- The class-0 reservations and SEATS_PER_STEP (R390). -/
inductive C0Kind where
  | seats | tileShare | hbmShare | flashSlots | nbWindows | fabricSlots | seatsPerStep
  deriving DecidableEq, Repr

/-- The capacity fields of R328. -/
inductive CapKind where
  | hbmResv | flashResv | cacheFloor
  deriving DecidableEq, Repr

/-- The report of a read (R315, R348). -/
inductive ReadOutcome where
  | clean | corrected | uncorrectable
  deriving DecidableEq, Repr

/-- The report of an HBM read (R314, R315): as above, or a command or address parity error. -/
inductive HbmOutcome where
  | clean | corrected | uncorrectable | caParity
  deriving DecidableEq, Repr

/-- The structure that an HBM read addresses (R315, R332): the reader acts by its kind. Copy 0 is the primary, copy 1 the mirror. -/
inductive HbmStruct where
  | node (coll : Fin 4096) (level : Nat) (path : Word) (copy : Fin 2)
  | leaf (coll : Fin 4096) (path : Word) (block : Nat)
  | epochRecord (coll : Fin 4096) (copy : Fin 2)
  | channelEntry (chan : Fin 4096) (copy : Fin 2)
  | segment (coll : Fin 4096) (part : Fin 256) (weed : Bool) (idx : Nat)
  | mapPage (page : Nat) (copy : Fin 2)
  | cachePage (range : Nat) (page : Nat)
  | arrays (coll : Fin 4096) (slots : List Nat)
  | modelWeights (slot : Fin 64)
  | other
  deriving DecidableEq, Repr

/-- How a stack's training ends (R314, R335). -/
inductive StackTraining where
  | healthy | wrongConfig | failed
  deriving DecidableEq, Repr

/-- The inventory of a channel's accepted targets (R342, R356): raw capacity, LUNs per target, blocks per LUN, and the factory-marked bad blocks, each
as target × 4 + LUN and block. -/
structure FlashInventory where
  gib : Nat
  luns : Nat
  blocks : Nat
  bad : List (Fin 32 × Fin 65536)
  deriving DecidableEq, Repr

/-- Read-back of every page of a CLOSED block (R359): the most corrected bits that the target reports for a page, and the pages whose read is
uncorrectable. -/
structure VerifyResult where
  corrected : Nat
  unreadable : List Nat
  deriving DecidableEq, Repr

/-- What a flash page program held (R352, R357, R359, R361, R364): an update journal record, a spilled refinement record and its column, a 4 KiB unit
of a tier range, a whole plot, a checkpoint's blocks, an erase-intent record, the parity of a page of the row that a block opened in. -/
inductive ProgramKind where
  | journal (batch : Nat)
  | record (coll : Fin 4096) (slot column : Nat)
  | unit4k (range page : Nat)
  | plot (range plot : Nat)
  | checkpoint (coll : Fin 4096) (complete : Bool)
  | intent (die : Fin 1024) (block : Fin 65536)
  | parity (die : Fin 1024) (block : Fin 65536) (page : Nat)
  | other
  deriving DecidableEq, Repr

/-- What a flash read serves (R181, R324, R511). -/
inductive FlashReader where
  | refine (flight slot : Nat)
  | tier (range page : Nat)
  | media
  deriving DecidableEq, Repr

/-- The outcome of one stripe or unit of a rebuild (R367). -/
inductive StripeOutcome where
  | rebuilt
  | lost (range page pages : Nat)
  | system
  deriving DecidableEq, Repr

/-- The errors of tiles and gallery stores that strike a running stage (R120, R483), and the corrected errors of R523 that have no row of
their own: of a local store, of a gallery store, of a die-to-die lane. -/
inductive UnitError where
  | lsUe (tile : Fin 800) | seqIllegal (tile : Fin 800) | arrayParity (tile : Fin 800) | gsUe (gallery : Fin 50)
  | lsCe (tile : Fin 800) | gsCe (gallery : Fin 50) | d2dCe
  deriving DecidableEq, Repr

/-- AER classes (R437). -/
inductive AerKind where
  | corr | nonfatal | fatal
  deriving DecidableEq, Repr

/-- The bytes of a register write, and what happens in its cycle (R12, R23): `sets` are the bits of the written W1C word that hardware sets in the
same cycle; on a write that pops a queue it is not 0 when a push falls in the same cycle. The command of that error or push follows in the queue. -/
structure WData where
  bytes : List Byte
  sets : Quad
  deriving DecidableEq, Repr

/-- A pop of one of `n` queues; `push` when a push of that queue falls in the same cycle (R23), whose command follows. -/
structure PopAt (n : Nat) where
  unit : Fin n
  push : Bool
  deriving DecidableEq, Repr

/-- A PCIe function (R414). -/
inductive PciFn where
  | pf | vf (i : Fin 256)
  deriving DecidableEq, Repr

/-- What tray management may read (R569). -/
inductive TrayReg where
  | power (off : Nat) | faultStatus | serial
  deriving DecidableEq, Repr

/-- Which temperature sensor trips (R564). -/
inductive Sensor where
  | gallery (g : Fin 50) | atrium (a : Fin 4) | stack (n : Fin 8)
  deriving DecidableEq, Repr

/-- How a pattern test is aborted (R592, R594, R595). -/
inductive PatAbort where
  | laneEn | c0 | perstN
  deriving DecidableEq, Repr

/-- Where the core that a source is bound to stands when the source asserts (R530, R531): neither entering nor leaving a handler,
in a cycle of an entry sequence, or in an exit sequence. -/
inductive CorePhase where
  | steady | entering (cycle : Nat) | exiting
  deriving DecidableEq, Repr

/-- What Mladty finds after a reset: the SUSPECT blocks that fail (R363), and the collections whose latest checkpoint fails HDR_CRC in both copies
(R236). -/
structure RecoveryFound where
  suspectFailed : List Nat
  ckptFailed : List Nat
  deriving DecidableEq, Repr

/-- The commands: one constructor per row of the opcode table, in the table's order. -/
inductive Instr where
  | registerWrite (req : Requester) (bar : Bar) (addr : Nat) (data : WData)
  | rcRead (req : Requester) (bar : Bar) (addr len : Nat) (sameCycle : Nat)
  | mmioBadRequest (req : Requester) (isWrite : Bool) (addr len : Nat)
  | readback (req : Requester)
  | railTransition (rail : Fin 12) (cross : RailCross) (us : Nat)
  | railUv (rail : Fin 12)
  | powerCycle
  | resetNAssert
  | nodeReset (modeHall : Bool) (traySlot : Fin 8)
  | bootRomHandover (copy0Ok copy1Ok : Bool) (error level levelMin : Byte)
  | recovery (found : RecoveryFound)
  | pcieReset (kind : PcieReset)
  | vfFlr (vf : Fin 256)
  | flrComplete (vf : Fin 256)
  | busMasterDisable (vf : Fin 256)
  | busMasterEnable (vf : Fin 256)
  | pcieLinkChange (rate : Fin 7) (width : Nat) (flit : Bool)
  | internalTick
  | tickInEdge (ns : Nat)
  | flywheelTick
  | stepOpen (env : OpenEnv)
  | bgFence
  | preemptionPoint (flight stage progress : Nat)
  | stageComplete (flight stage : Nat) (gallery : Fin 50)
  | flightCancel (flight : Nat)
  | updateCommit (flight : Nat)
  | transplantGrid (carriers : List (Fin 50))
  | transplantSeal (coll : Fin 4096) (part : Fin 256) (leafStacks : List (Fin 8))
  | transplantPublish (coll : Fin 4096)
  | descriptorArrival (chan : Fin 4096) (desc buf keys : List Byte)
  | fetchError (chan : Fin 4096) (desc : Option (List Byte))
  | sqTail (chan : Fin 4096) (value : Word)
  | cqHead (chan : Fin 4096) (value : Word)
  | stepRun (run : Bool)
  | stepMark (f : Frame)
  | planLoad
  | planLoadDone
  | planRetire
  | planSlotEmptied
  | profileLoad
  | profileLoadDone
  | collLoadStart
  | collLoadContinue
  | collLoadAbort
  | collDrop
  | collChunkDone (data : Option (List Byte)) (leafStacks : List (Fin 8))
  | collLoadCommit
  | collDrained (coll : Fin 4096)
  | tableLoadStart
  | tableLoadContinue
  | tableLoadAbort
  | tableDrop
  | tableChunkDone (data : Option (List Byte))
  | tableLoadCommit
  | modelLoad
  | modelLoadDone
  | modelRetire
  | modelSlotEmptied
  | weightStageInDone (slot : Fin 64) (layer : Nat)
  | pinRelayDone (slot : Fin 64)
  | shardmapLoad
  | shardmapRetire
  | chanInval (chan : Fin 4096)
  | chanInvalDone
  | tenantAdmit
  | tenantRelease
  | guaranteeRankWrite (rank : Byte)
  | c0ReservationWrite (kind : C0Kind) (value : Word)
  | capacityReservationWrite (kind : CapKind) (value : Word)
  | meterLatch
  | flushWriteback (gallery : Fin 50) (bcast : Bool)
  | flushWbInval (gallery : Fin 50) (bcast : Bool)
  | flushInval (gallery : Fin 50) (bcast : Bool)
  | flushComplete (gallery : Fin 50)
  | scanWindow (stack : Fin 8) (drained : Nat) (reports : List (Nat × Bool × Nat))
  | scanBurst (stack : Fin 8) (burst : Burst)
  | hbmReadComplete (addr : Nat) (outcome : HbmOutcome) (what : HbmStruct) (otherOk : Bool)
  | pcRemapDone (stack : Fin 8) (pc : Fin 64)
  | stackFail (stack : Fin 8) (lost : List HbmStruct)
  | writebackDue (range page : Nat)
  | flashChannelTrained (ch : Fin 32) (rate : Fin 6) (targets : Byte) (inventoryOk : Bool) (inv : FlashInventory)
  | flashReadComplete (die : Fin 1024) (reader : FlashReader) (columns : Nat) (outcome : ReadOutcome)
  | eraseSuspend (die : Fin 1024)
  | flashProgramComplete (pa : BitVec 40) (kind : ProgramKind) (bytes : Nat) (ok last : Bool)
  | eraseComplete (die : Fin 1024) (block : Fin 65536) (ok : Bool)
  | blockVerify (die : Fin 1024) (block : Fin 65536) (result : VerifyResult)
  | dieTimeout (die : Fin 1024)
  | rebuildStripe (outcome : StripeOutcome) (last : Bool)
  | repairRetry (entry : Nat)
  | mapCheckpoint
  | mapRebuild (range page pages : Nat) (ok : Bool)
  | dataLossResend
  | portTrained (port : Fin 4) (lanes : Nat)
  | portLinkLoss (port : Fin 4) (lane : Option (Fin 4))
  | portRetrainTimer (port : Fin 4)
  | helloTimer (port : Fin 4)
  | hello (f : Frame)
  | fmReqRead (f : Frame)
  | fmReqWrite (f : Frame)
  | rakeQuery (f : Frame)
  | rakeContrib (f : Frame)
  | rowReq (f : Frame)
  | rowReply (f : Frame)
  | ownerRead (f : Frame)
  | ownerData (f : Frame)
  | gone (f : Frame)
  | dataLossAck (f : Frame)
  | mirrorPrep (f : Frame)
  | mirrorCommit (f : Frame)
  | mirrorAbort (f : Frame)
  | mirrorClose (f : Frame)
  | mirrorRows (f : Frame)
  | mirrorAck (f : Frame)
  | mirrorResend (pair : Fin 256)
  | shadowQuery (f : Frame)
  | shadowResult (f : Frame)
  | pairWrite
  | graftStart
  | graftStall
  | graftWindow
  | graftAbort
  | serve
  | fence
  | fenceTimeout
  | quiesce
  | quiesceEnd
  | faultClear (value : Quad)
  | flashWriteProtect (ch : Fin 32)
  | nodeFaultCompletions
  | histPop
  | goneClear (node : BitVec 15)
  | nodeId (node : BitVec 15)
  | hallLevelStep (high : Word)
  | routeWrite (port : Fin 4)
  | classWrite (port : Fin 4)
  | tableWriteComplete (port : Fin 4)
  | laneEn (port : Fin 4) (value : BitVec 4)
  | fallowRequest (gallery : Fin 50) (off : Bool)
  | fallowGate (gallery : Fin 50)
  | fallowWake (gallery : Fin 50)
  | fallowExit (gallery : Fin 50)
  | fallowAbort (gallery : Fin 50)
  | doze (tile : Fin 800)
  | droopStretch (gallery : Fin 50)
  | droopRelease (gallery : Fin 50)
  | thermTrip (sensor : Sensor)
  | avsAck (east : Bool)
  | avsTimeout (east : Bool)
  | interruptAssert (src : Fin 4096) (phase : CorePhase)
  | handlerReturn (core : Fin 4)
  | swTrigger (src : Fin 4096)
  | complete (core : Fin 4) (src : Fin 4096)
  | coreEn (core : Fin 4) (enable : Bool)
  | mcWdog (core : Fin 4)
  | mboxIn (n : Fin 4) (value : Quad)
  | mboxInPop (n : PopAt 4)
  | mboxOut (n : Fin 4) (value : Quad)
  | mboxOutPop (n : PopAt 4)
  | swPacket (unit : Fin 51) (value : Quad)
  | traceMergerPop (unit : PopAt 51)
  | summary (unit : Fin 51)
  | traceSync (unit : Fin 51)
  | patStart
  | patStop
  | patLimitExpired
  | patAbort (cause : PatAbort)
  | snap
  | eyeCaptureDone (trained : Bool) (heights widths : BitVec 30)
  | mbistStart
  | mbistDone (pass : Bool) (array : BitVec 5) (offset : BitVec 27)
  | trstN
  | idcode
  | samplePreload
  | extest
  | clamp
  | highz
  | extestPulse
  | extestTrain
  | prodTest
  | regAccess (word : BitVec 98)
  | bypass
  | i3cDynamicAddress (addr : BitVec 7)
  | trayManagementRead (reg : TrayReg)
  | lsUe (e : UnitError)
  | d2dFail
  | mcUe
  | collectorParity
  | corrUe (flight stage : Nat) (gallery : Fin 50)
  | aerError (kind : AerKind)
  | hbmStackTraining (stack : Fin 8) (result : StackTraining)
  | referenceClockStable
  | perstNDeassert
  | d3hot (fn : PciFn) (enter : Bool)
  | msixUnmask (fn : PciFn) (vector : Fin 64)
  | frameTransmitted (port : Fin 4) (queue : Fin 5)
  | receivedFrameDropped (f : Frame)
  | mirrorCopyRewritten
  | checkerLock
  | checkerLockLoss
  deriving DecidableEq, Repr

end Sys2Proof
end

