-- ==== Sys2Proof/Decode.lean ====
section
/-! DEFINITION. The opcode table gives no row any bits: a command comes from outside with its operands and has no encoding. -/
namespace Sys2Proof

/-- The command that a word spells by the table's bits: no row of the table has bits, so none. -/
def decodeTableWord (_nbits _w : Nat) : Option Instr := none

end Sys2Proof
end

