-- ==== Sys2Proof/Machine/Bits.lean ====
section
/-! DEFINITION. Bit fields, byte strings (little-endian, R7) and CRC-32C. -/
namespace Sys2Proof.Machine

/-- Bits [hi:lo] of a number (R6). -/
def bitsOf (w hi lo : Nat) : Nat := (w >>> lo) % 2 ^ (hi + 1 - lo)

/-- Bits [hi:lo] of a register word. -/
def fld (w : Word) (hi lo : Nat) : Nat := bitsOf w.toNat hi lo

/-- The mask of bits [hi:lo]. -/
def maskOf (hi lo : Nat) : Nat := (2 ^ (hi + 1 - lo) - 1) <<< lo

/-- A word with bits [hi:lo] replaced. -/
def withFld (w : Word) (hi lo v : Nat) : Word :=
  (w &&& ~~~(BitVec.ofNat 32 (maskOf hi lo))) ||| (BitVec.ofNat 32 ((v % 2 ^ (hi + 1 - lo)) <<< lo))

def testBit (w : Word) (i : Nat) : Bool := w.getLsbD i

def setBit (w : Word) (i : Nat) : Word := w ||| ((1 : Word) <<< i)

def clrBit (w : Word) (i : Nat) : Word := w &&& ~~~((1 : Word) <<< i)

def putBit (w : Word) (i : Nat) (b : Bool) : Word := if b then setBit w i else clrBit w i

def Bool.toN (b : Bool) : Nat := if b then 1 else 0

/-- The little-endian number that a byte string holds (R7). -/
def leNat : List Byte → Nat
  | [] => 0
  | b :: r => b.toNat + 256 * leNat r

/-- `n` little-endian bytes of a number. -/
def toLe : Nat → Nat → List Byte
  | 0, _ => []
  | n + 1, v => BitVec.ofNat 8 v :: toLe n (v / 256)

/-- `n` bytes from offset `off` of a structure. -/
def sub (bs : List Byte) (off n : Nat) : List Byte := (bs.drop off).take n

/-- The `n`-byte field at offset `off`. -/
def leAt (bs : List Byte) (off n : Nat) : Nat := leNat (sub bs off n)

/-- The byte at offset `off`. -/
def byteAt (bs : List Byte) (off : Nat) : Byte := bs.getD off 0

/-- A byte string with the bytes at `off` replaced. -/
def putAt (bs : List Byte) (off : Nat) (v : List Byte) : List Byte := bs.take off ++ v ++ bs.drop (off + v.length)

/-- A list padded to length `n`. -/
def padTo {α : Type} (l : List α) (n : Nat) (x : α) : List α := l ++ List.replicate (n - l.length) x

def zeros (n : Nat) : List Byte := List.replicate n 0

/-- One bit of CRC-32C (reflected polynomial of 0x1EDC6F41). -/
def crcBit (c : Word) : Word := if c.getLsbD 0 then (c >>> 1) ^^^ 0x82F63B78 else c >>> 1

/-- One byte of CRC-32C. -/
def crcByte (c : Word) (b : Byte) : Word :=
  let x := c ^^^ b.setWidth 32
  crcBit (crcBit (crcBit (crcBit (crcBit (crcBit (crcBit (crcBit x)))))))

/-- CRC-32C of a byte string: preset to ones, reflected, inverted. -/
def crc32c (bs : List Byte) : Word := ~~~(bs.foldl crcByte 0xFFFFFFFF)

/-- CRC-32C with `n` bytes at `off` taken as 0, as the headers of the manual say. -/
def crcWithout (bs : List Byte) (off n : Nat) : Word := crc32c (putAt bs off (zeros n))

def ceilDiv (a b : Nat) : Nat := (a + b - 1) / b

/-- `a` clamped to lo..hi. -/
def clampTo (a lo hi : Nat) : Nat := if a < lo then lo else if hi < a then hi else a

end Sys2Proof.Machine
end

