-- ==== Sys2Proof/Machine/RegNames.lean ====
section
/-! DEFINITION. The addresses of the named registers: BAR0 addresses of R597 plus the offsets of the register tables. A page with
instances takes the instance number first. -/
namespace Sys2Proof.Machine.Reg

abbrev atrium.PART_ID : Nat := 0x40
abbrev atrium.SERIAL : Nat := 0x48
abbrev atrium.STEP_CTRL : Nat := 0x100
abbrev atrium.STEP_STATUS : Nat := 0x104
abbrev atrium.STEP_COUNT : Nat := 0x108
abbrev atrium.TICK_GUARD : Nat := 0x110
abbrev atrium.TICK_EARLY : Nat := 0x114
abbrev atrium.TICK_MISSED : Nat := 0x118
abbrev atrium.STEP_MISMATCH : Nat := 0x11C
abbrev atrium.STEP_LOW : Nat := 0x120
abbrev atrium.SEAM_NS : Nat := 0x124
abbrev atrium.STEP_MARK : Nat := 0x140
abbrev atrium.NODE_ID : Nat := 0x180
abbrev atrium.RILTIK_ETHERTYPE : Nat := 0x184
abbrev atrium.FM_NODE : Nat := 0x188
abbrev atrium.FEATURE_LEVEL : Nat := 0x18C
abbrev atrium.HALL_LEVEL : Nat := 0x190
abbrev atrium.HALL_LEVEL_NEXT : Nat := 0x194
abbrev atrium.HALL_LEVEL_STEP : Nat := 0x198
abbrev atrium.RILTIK_VER : Nat := 0x1A0
abbrev atrium.NO_ROUTE : Nat := 0x1A4
abbrev atrium.MARK_LATE : Nat := 0x1A8
abbrev atrium.LOSS_PENDING : Nat := 0x1AC
abbrev atrium.TIMESTAMP : Nat := 0x1C0
abbrev atrium.MC_BOOT : Nat := 0x1C8
abbrev atrium.TRELLIS_EPOCH : Nat := 0x1D0
abbrev atrium.PIN_EPOCH : Nat := 0x1D8
abbrev sched.WAIT_STEPS : Nat := 0x1040
abbrev sched.BG_FENCE : Nat := 0x1044
abbrev sched.PLAN_LOAD_ADDR : Nat := 0x1048
abbrev sched.PLAN_LOAD_SLOT : Nat := 0x1050
abbrev sched.PLAN_STATUS : Nat := 0x1054
abbrev sched.PLAN_ABI : Nat := 0x1058
abbrev sched.PLAN_CMD : Nat := 0x105C
abbrev sched.OVERRUN_COUNT : Nat := 0x1060
abbrev sched.BACKSTAIR_COUNT : Nat := 0x1064
abbrev sched.WAIT_COUNT : Nat := 0x1068
abbrev sched.BG_LATE_YIELD : Nat := 0x106C
abbrev sched.LATE_DISCARD : Nat := 0x1070
abbrev sched.PROFILE_LOAD_ADDR : Nat := 0x1080
abbrev sched.PROFILE_CMD : Nat := 0x1088
abbrev sched.PROFILE_STATUS : Nat := 0x108C
abbrev sched.PROFILE_COUNT : Nat := 0x1090
abbrev sched.COLL_LOAD_ADDR : Nat := 0x10C0
abbrev sched.COLL_LOAD_BYTES : Nat := 0x10C8
abbrev sched.COLL_TARGET : Nat := 0x10CC
abbrev sched.COLL_CMD : Nat := 0x10D0
abbrev sched.COLL_STATUS : Nat := 0x10D4
abbrev sched.COLL_LOAD_OFFSET : Nat := 0x10D8
abbrev sched.COLL_LOAD_EPOCH : Nat := 0x10E0
abbrev sched.COLL_STATE_SEL : Nat := 0x10E8
abbrev sched.COLL_STATE : Nat := 0x10EC
abbrev sched.COLL_FMT : Nat := 0x10F0
abbrev sched.TRELLIS_CRC_FAIL : Nat := 0x10F4
abbrev sched.KEYMAP_FULL : Nat := 0x10F8
abbrev sched.TRELLIS_SPILL : Nat := 0x10FC
abbrev sched.SEED_USED : Nat := 0x1100
abbrev sched.WEED_USED : Nat := 0x1104
abbrev sched.SEED_THRESH : Nat := 0x1108
abbrev sched.WEED_THRESH : Nat := 0x110C
abbrev sched.SEED_AGE : Nat := 0x1110
abbrev sched.TP_LAG : Nat := 0x1114
abbrev sched.TP_GRID : Nat := 0x1118
abbrev sched.TP_CTRL : Nat := 0x111C
abbrev sched.DURABLE_EPOCH : Nat := 0x1120
abbrev sched.HORIZON : Nat := 0x1128
abbrev sched.TP_PUBLISHED : Nat := 0x1130
abbrev sched.TP_BLOCKED : Nat := 0x1134
abbrev sched.TP_LATE : Nat := 0x1138
abbrev sched.SLOT_HIST_USED : Nat := 0x113C
abbrev sched.UPD_REFUSED : Nat := 0x1140
abbrev sched.EPOCH_REC_FAIL : Nat := 0x1144
abbrev sched.SHARDMAP_ADDR : Nat := 0x1180
abbrev sched.SHARDMAP_CMD : Nat := 0x1188
abbrev sched.SHARDMAP_STATUS : Nat := 0x118C
abbrev sched.SHARDMAP_SEL : Nat := 0x1190
abbrev sched.MAP_GEN_CURRENT : Nat := 0x1194
abbrev sched.SHARD_COUNT : Nat := 0x1198
abbrev sched.PART_ADMITTED : Nat := 0x11A0
abbrev sched.PART_REFUSED : Nat := 0x11A4
abbrev sched.CONTRIB_MERGED : Nat := 0x11A8
abbrev sched.CONTRIB_NONE : Nat := 0x11AC
abbrev sched.CONTRIB_DUP : Nat := 0x11B0
abbrev sched.RAKE_CRC_FAIL : Nat := 0x11B4
abbrev sched.REPLAY_ISSUED : Nat := 0x11B8
abbrev sched.REPLAY_MERGED : Nat := 0x11BC
abbrev sched.MODEL_LOAD_ADDR : Nat := 0x1200
abbrev sched.MODEL_TARGET : Nat := 0x1208
abbrev sched.MODEL_CMD : Nat := 0x120C
abbrev sched.MODEL_STATUS : Nat := 0x1210
abbrev sched.PIN_FREE_KIB : Nat := 0x1214
abbrev sched.PIN_RELAY : Nat := 0x1218
abbrev sched.FEATURE_MISS : Nat := 0x121C
abbrev sched.TABLE_LOAD_ADDR : Nat := 0x1220
abbrev sched.TABLE_LOAD_BYTES : Nat := 0x1228
abbrev sched.TABLE_TARGET : Nat := 0x122C
abbrev sched.TABLE_CMD : Nat := 0x1230
abbrev sched.TABLE_STATUS : Nat := 0x1234
abbrev sched.TABLE_LOAD_OFFSET : Nat := 0x1238
abbrev sched.TABLE_SEL : Nat := 0x1240
abbrev sched.TABLE_STATE : Nat := 0x1244
abbrev sched.BATCH_PROGRESS : Nat := 0x1248
abbrev sched.BATCH_TAG : Nat := 0x124C
abbrev sched.ROWS_UPDATED : Nat := 0x1250
abbrev sched.ROW_LOST_COUNT : Nat := 0x1254
abbrev sched.CHAN_TABLE_BASE : Nat := 0x1300
abbrev sched.CHAN_INVAL : Nat := 0x1308
abbrev sched.CHAN_STATUS : Nat := 0x130C
abbrev sched.CHAN_SEL : Nat := 0x1310
abbrev sched.CHAN_VERSION : Nat := 0x1314
abbrev sched.CHAN_ENABLED : Nat := 0x1318
abbrev sched.CHAN_HITS : Nat := 0x131C
abbrev sched.CHAN_MISSES : Nat := 0x1320
abbrev sched.CHAN_CRC_FAIL : Nat := 0x1324
abbrev sched.CHAN_PINNED : Nat := 0x1328
abbrev sched.TENANT_SEL : Nat := 0x1340
abbrev sched.TENANT_CMD : Nat := 0x1344
abbrev sched.TENANT_STATUS : Nat := 0x1348
abbrev sched.GUARANTEE_RANK : Nat := 0x134C
abbrev sched.C0_SEATS : Nat := 0x1350
abbrev sched.C0_TILE_SHARE : Nat := 0x1354
abbrev sched.C0_HBM_SHARE : Nat := 0x1358
abbrev sched.C0_FLASH_SLOTS : Nat := 0x135C
abbrev sched.C0_NB_WINDOWS : Nat := 0x1360
abbrev sched.C0_FABRIC_SLOTS : Nat := 0x1364
abbrev sched.TENANT_KEPT : Nat := 0x1368
abbrev sched.GUAR_BREACH_STEPS : Nat := 0x136C
abbrev sched.C0_OVERFLOW : Nat := 0x1370
abbrev sched.THROTTLED_COUNT : Nat := 0x1374
abbrev sched.METER_SEL : Nat := 0x1378
abbrev sched.METER_LATCH : Nat := 0x137C
abbrev sched.METER_VALUE : Nat := 0x1380
abbrev sched.METER_EPOCH : Nat := 0x1388
abbrev sched.SEATS_PER_STEP : Nat := 0x13A0
abbrev sched.CLASS_WEIGHT : Nat := 0x13A4
abbrev sched.VTIME : Nat := 0x13A8
abbrev sched.PAST_CUT : Nat := 0x13B0
abbrev sched.TILE_STEP_CYCLES : Nat := 0x13B4
abbrev sched.FABRIC_SLOTS_STEP : Nat := 0x13B8
abbrev fault.CTRL : Nat := 0x2010
abbrev fault.FAULT_STATUS : Nat := 0x2040
abbrev fault.FAULT_C0_GROUPS : Nat := 0x2048
abbrev fault.FAULT_FIRST : Nat := 0x2050
abbrev fault.FAULT_FIRST_TS : Nat := 0x2058
abbrev fault.C0_FIRST : Nat := 0x2060
abbrev fault.C0_FIRST_TS : Nat := 0x2068
abbrev fault.FAULT_OVERFLOW : Nat := 0x2070
abbrev fault.C2_COUNT : Nat := 0x2074
abbrev fault.CLEAR_REFUSED : Nat := 0x2078
abbrev fault.GONE_RX : Nat := 0x207C
abbrev fault.HIST_ENTRY : Nat := 0x2080
abbrev fault.HIST_TS : Nat := 0x2088
abbrev fault.HIST_CTRL : Nat := 0x2090
abbrev fault.HIST_POP : Nat := 0x2094
abbrev fault.HIST_DROPPED : Nat := 0x2098
abbrev fault.NODE_CMD : Nat := 0x20A0
abbrev fault.NODE_CMD_STATUS : Nat := 0x20A4
abbrev fault.FENCE_STEPS : Nat := 0x20A8
abbrev fault.GRAFT_PASS : Nat := 0x20AC
abbrev fault.GRAFT_WINDOW : Nat := 0x20B0
abbrev fault.SHADOW_CTRL : Nat := 0x20B4
abbrev fault.GRAFT_GBPS : Nat := 0x20B8
abbrev fault.GRAFT_STALL : Nat := 0x20BC
abbrev fault.GRAFT_SNAP_EPOCH : Nat := 0x20C0
abbrev fault.GRAFT_BYTES : Nat := 0x20C8
abbrev fault.SHADOW_RUN : Nat := 0x20D0
abbrev fault.SHADOW_MATCHES : Nat := 0x20D4
abbrev fault.SHADOW_MISMATCHES : Nat := 0x20D8
abbrev fault.SHADOW_SKIPPED : Nat := 0x20DC
abbrev fault.FIRST_MISMATCH : Nat := 0x20E0
abbrev fault.RECORD_MISMATCH : Nat := 0x20E8
abbrev fault.REMOTE_FLASH_READS : Nat := 0x20EC
abbrev fault.GONE_CLEAR : Nat := 0x20F0
abbrev fault.STALE_FRAMES : Nat := 0x20F4
abbrev fault.PEER_SET_USED : Nat := 0x20F8
abbrev fault.PAIR_SEL : Nat := 0x2100
abbrev fault.PAIR_ENTRY : Nat := 0x2108
abbrev fault.PAIR_WRITE : Nat := 0x2110
abbrev fault.PAIR_STATUS : Nat := 0x2114
abbrev fault.CLOSED_EPOCH : Nat := 0x2118
abbrev fault.STREAM_RESENDS : Nat := 0x2120
abbrev intc.TIER_WIDTH : Nat := 0x3040
abbrev intc.SRC_SEL : Nat := 0x3044
abbrev intc.SRC_CFG : Nat := 0x3048
abbrev intc.SW_TRIGGER : Nat := 0x304C
abbrev intc.CORE_SOURCE (c : Nat) : Nat := 0x3050 + 16 * c
abbrev intc.COMPLETE (c : Nat) : Nat := 0x3054 + 16 * c
abbrev intc.CORE_STATE (c : Nat) : Nat := 0x3058 + 16 * c
abbrev intc.CORE_EN (c : Nat) : Nat := 0x305C + 16 * c
abbrev intc.RETARGETS : Nat := 0x3090
abbrev intc.HANDOFFS : Nat := 0x3094
abbrev intc.NEST_FULL : Nat := 0x3098
abbrev intc.MBOX_DROPPED : Nat := 0x309C
abbrev intc.MBOX_IN (c : Nat) : Nat := 0x30C0 + 8 * c
abbrev intc.MBOX_IN_POP (c : Nat) : Nat := 0x30E0 + 8 * c
abbrev intc.MBOX_OUT (c : Nat) : Nat := 0x3100 + 8 * c
abbrev intc.MBOX_OUT_POP (c : Nat) : Nat := 0x3120 + 8 * c
abbrev intc.MBOX_STATUS (c : Nat) : Nat := 0x3140 + 4 * c
abbrev power.FREQ_TARGET_MHZ : Nat := 0x4040
abbrev power.FREQ_MHZ : Nat := 0x4044
abbrev power.VCORE_MV : Nat := 0x4048
abbrev power.DROOP_THRESH : Nat := 0x404C
abbrev power.DROOP_EVENTS : Nat := 0x4050
abbrev power.THROTTLE_C : Nat := 0x4054
abbrev power.TEMP_MAX : Nat := 0x4058
abbrev power.TEMP_SEL : Nat := 0x405C
abbrev power.TEMP_C : Nat := 0x4060
abbrev power.THROTTLE_STEPS : Nat := 0x4064
abbrev power.FORCED_FALLOWS : Nat := 0x4068
abbrev power.SEQ_LOG : Nat := 0x406C
abbrev test.PAT_SEL : Nat := 0x5040
abbrev test.PAT_CTRL : Nat := 0x5044
abbrev test.PAT_USER : Nat := 0x5048
abbrev test.PAT_LIMIT_MS : Nat := 0x504C
abbrev test.PAT_STATUS : Nat := 0x5050
abbrev test.PAT_BITS : Nat := 0x5058
abbrev test.PAT_ERRORS : Nat := 0x5060
abbrev test.PAT_LOCK_LOSS : Nat := 0x5068
abbrev test.EYE_SEL : Nat := 0x5080
abbrev test.EYE_CTRL : Nat := 0x5084
abbrev test.EYE_H : Nat := 0x5088
abbrev test.EYE_W : Nat := 0x508C
abbrev test.MBIST_SEL : Nat := 0x50A0
abbrev test.MBIST_START : Nat := 0x50A4
abbrev test.MBIST_STATUS : Nat := 0x50A8
abbrev test.MBIST_FAIL_AT : Nat := 0x50AC
abbrev test.TAP_REFUSED : Nat := 0x50C0
abbrev pcie.MMIO_SHORT_WR : Nat := 0x6040
abbrev pcie.MMIO_SHORT_RD : Nat := 0x6044
abbrev pcie.MMIO_BAD : Nat := 0x6048
abbrev pcie.FETCH_ERRORS : Nat := 0x604C
abbrev pcie.DB_ERRORS : Nat := 0x6050
abbrev pcie.CQ_WAITS : Nat := 0x6054
abbrev pcie.DMA_DISCARDS : Nat := 0x6058
abbrev pcie.FLR_COUNT : Nat := 0x605C
abbrev ft.RAW_GIB : Nat := 0x7040
abbrev ft.MAPPED_GIB : Nat := 0x7044
abbrev ft.SPILL_GIB : Nat := 0x7048
abbrev ft.SPILL_FREE_MIB : Nat := 0x704C
abbrev ft.SPILL_BUCKETS : Nat := 0x7050
abbrev ft.BLOCKS_ERASED : Nat := 0x7054
abbrev ft.BLOCKS_SUSPECT : Nat := 0x7058
abbrev ft.BLOCKS_RETIRED : Nat := 0x705C
abbrev ft.ERASE_SUSPEND_MAX : Nat := 0x7060
abbrev ft.VERIFY_LIMIT : Nat := 0x7064
abbrev ft.MAP_CKPT_STEPS : Nat := 0x7068
abbrev ft.MAP_REBUILD_STEPS : Nat := 0x706C
abbrev ft.REBUILD_STATUS : Nat := 0x7070
abbrev ft.REBUILD_STRIPES : Nat := 0x7074
abbrev ft.LOST_MAP_ADDR : Nat := 0x7078
abbrev ft.LOST_RANGES : Nat := 0x7080
abbrev ft.LOST_BOTH_RANGES : Nat := 0x7084
abbrev ft.REPAIR_STEPS : Nat := 0x7088
abbrev ft.REPAIRED_RANGES : Nat := 0x708C
abbrev ft.RETIRE_COUNT : Nat := 0x7090
abbrev ft.SUSPECT_COUNT : Nat := 0x7094
abbrev ft.SPILL_HOLD : Nat := 0x7098
abbrev ft.HBM_SYSTEM_MIB : Nat := 0x7400
abbrev ft.HBM_RESERVABLE_MIB : Nat := 0x7404
abbrev ft.CACHE_FLOOR_MIB : Nat := 0x7408
abbrev ft.CACHE_MIB : Nat := 0x740C
abbrev ft.DIRTY_AGE : Nat := 0x7410
abbrev ft.DIRTY_MIB : Nat := 0x7414
abbrev ft.TENANT_SEL : Nat := 0x7418
abbrev ft.HBM_RESV_MIB : Nat := 0x741C
abbrev ft.HBM_USED_MIB : Nat := 0x7420
abbrev ft.FLASH_RESV_GIB : Nat := 0x7424
abbrev ft.FLASH_USED_GIB : Nat := 0x7428
abbrev ft.CACHE_HITS : Nat := 0x742C
abbrev ft.CACHE_MISSES : Nat := 0x7430
abbrev ft.WRITEBACKS : Nat := 0x7434
abbrev ft.MIRROR_SINGLE : Nat := 0x7438
abbrev ft.TP_RESERVE_MIB : Nat := 0x743C
abbrev ft.TP_NOCAP : Nat := 0x7440
abbrev ft.FLASH_OFFER_GIB : Nat := 0x7444
abbrev port.PORT_MAC (n : Nat) : Nat := 0x10040 + 0x1000 * n
abbrev port.ROUTE_SEL (n : Nat) : Nat := 0x10048 + 0x1000 * n
abbrev port.ROUTE_ENTRY (n : Nat) : Nat := 0x10050 + 0x1000 * n
abbrev port.CLASS_SEL (n : Nat) : Nat := 0x10058 + 0x1000 * n
abbrev port.CLASS_KEY (n : Nat) : Nat := 0x10060 + 0x1000 * n
abbrev port.CLASS_MASK (n : Nat) : Nat := 0x10068 + 0x1000 * n
abbrev port.CLASS_ATTR (n : Nat) : Nat := 0x10070 + 0x1000 * n
abbrev port.TABLE_CMD (n : Nat) : Nat := 0x10078 + 0x1000 * n
abbrev port.TABLE_STATUS (n : Nat) : Nat := 0x1007C + 0x1000 * n
abbrev port.ROUTE_INFLIGHT_OLD (n : Nat) : Nat := 0x10080 + 0x1000 * n
abbrev port.MULTI_MATCH (n : Nat) : Nat := 0x10084 + 0x1000 * n
abbrev port.NO_MATCH (n : Nat) : Nat := 0x10088 + 0x1000 * n
abbrev port.CLASS_DROP (n : Nat) : Nat := 0x1008C + 0x1000 * n
abbrev port.FM_DENIED (n : Nat) : Nat := 0x10090 + 0x1000 * n
abbrev port.HDR_CRC_FAIL (n : Nat) : Nat := 0x10094 + 0x1000 * n
abbrev port.VER_DROP (n : Nat) : Nat := 0x10098 + 0x1000 * n
abbrev port.TYPE_DROP (n : Nat) : Nat := 0x1009C + 0x1000 * n
abbrev port.MISDELIVER (n : Nat) : Nat := 0x100A0 + 0x1000 * n
abbrev port.FCS_DROP (n : Nat) : Nat := 0x100A4 + 0x1000 * n
abbrev port.ETYPE_DROP (n : Nat) : Nat := 0x100A8 + 0x1000 * n
abbrev port.FEC_CORR_CW (n : Nat) : Nat := 0x100AC + 0x1000 * n
abbrev port.FEC_UNCORR_CW (n : Nat) : Nat := 0x100B0 + 0x1000 * n
abbrev port.TX_DISCARD (n : Nat) : Nat := 0x100B4 + 0x1000 * n
abbrev port.EGRESS_STALL (n : Nat) : Nat := 0x100B8 + 0x1000 * n
abbrev port.LANE_EN (n : Nat) : Nat := 0x100BC + 0x1000 * n
abbrev port.TX_FRAMES (n : Nat) : Nat := 0x100C0 + 0x1000 * n
abbrev port.RX_FRAMES (n : Nat) : Nat := 0x100C8 + 0x1000 * n
abbrev hbm.PC_RETIRED_MASK (n : Nat) : Nat := 0x20040 + 0x1000 * n
abbrev hbm.UE_RETIRE (n : Nat) : Nat := 0x20048 + 0x1000 * n
abbrev hbm.CE_COUNT (n : Nat) : Nat := 0x2004C + 0x1000 * n
abbrev hbm.UE_COUNT (n : Nat) : Nat := 0x20050 + 0x1000 * n
abbrev hbm.MIRROR_REPAIR (n : Nat) : Nat := 0x20054 + 0x1000 * n
abbrev hbm.DIRTY_LOST (n : Nat) : Nat := 0x20058 + 0x1000 * n
abbrev hbm.TEMP_C (n : Nat) : Nat := 0x2005C + 0x1000 * n
abbrev nb.WIN_PER_STEP (n : Nat) : Nat := 0x30040 + 0x1000 * n
abbrev nb.WIN_BOOKED (n : Nat) : Nat := 0x30044 + 0x1000 * n
abbrev nb.BURSTS_PER_WIN (n : Nat) : Nat := 0x30048 + 0x1000 * n
abbrev nb.BURSTS (n : Nat) : Nat := 0x3004C + 0x1000 * n
abbrev nb.CREDIT_STALL (n : Nat) : Nat := 0x30050 + 0x1000 * n
abbrev nb.BURST_UE (n : Nat) : Nat := 0x30054 + 0x1000 * n
abbrev nb.CAND_HELD (n : Nat) : Nat := 0x30058 + 0x1000 * n
abbrev nb.PASS_FLIGHTS_MAX (n : Nat) : Nat := 0x3005C + 0x1000 * n
abbrev flashCh.RATE_MAX (n : Nat) : Nat := 0x40040 + 0x1000 * n
abbrev flashCh.DIE_FAILED_MASK (n : Nat) : Nat := 0x40044 + 0x1000 * n
abbrev flashCh.SLOTS_PER_STEP (n : Nat) : Nat := 0x40048 + 0x1000 * n
abbrev flashCh.PROG_SLOTS (n : Nat) : Nat := 0x4004C + 0x1000 * n
abbrev flashCh.DIE_TIMEOUT (n : Nat) : Nat := 0x40050 + 0x1000 * n
abbrev flashCh.READS (n : Nat) : Nat := 0x40054 + 0x1000 * n
abbrev flashCh.READ_CORR (n : Nat) : Nat := 0x40058 + 0x1000 * n
abbrev flashCh.READ_UNCORR (n : Nat) : Nat := 0x4005C + 0x1000 * n
abbrev flashCh.PROGRAMS (n : Nat) : Nat := 0x40060 + 0x1000 * n
abbrev flashCh.ERASES (n : Nat) : Nat := 0x40064 + 0x1000 * n
abbrev flashCh.SUSPENDS (n : Nat) : Nat := 0x40068 + 0x1000 * n
abbrev flashCh.SUSPEND_DENIED (n : Nat) : Nat := 0x4006C + 0x1000 * n
abbrev trace.CTRL (n : Nat) : Nat := 0x80010 + 0x1000 * n
abbrev trace.SW_PACKET (n : Nat) : Nat := 0x80040 + 0x1000 * n
abbrev trace.FIFO_CTRL (n : Nat) : Nat := 0x80048 + 0x1000 * n
abbrev trace.TRACE_LOST (n : Nat) : Nat := 0x8004C + 0x1000 * n
abbrev trace.POSTPONED (n : Nat) : Nat := 0x80050 + 0x1000 * n
abbrev trace.SUMMARY_STEPS (n : Nat) : Nat := 0x80054 + 0x1000 * n
abbrev trace.TRACE_BUF_ADDR (n : Nat) : Nat := 0x80080 + 0x1000 * n
abbrev trace.TRACE_BUF_BYTES (n : Nat) : Nat := 0x80088 + 0x1000 * n
abbrev trace.MERGE_CTRL (n : Nat) : Nat := 0x8008C + 0x1000 * n
abbrev trace.TRACE_WR_PTR (n : Nat) : Nat := 0x80090 + 0x1000 * n
abbrev trace.TRACE_RD_PTR (n : Nat) : Nat := 0x80098 + 0x1000 * n
abbrev trace.SYNC_STEPS (n : Nat) : Nat := 0x800A0 + 0x1000 * n
abbrev trace.SINK_DROPPED (n : Nat) : Nat := 0x800A4 + 0x1000 * n
abbrev trace.LOSS_PACKETS (n : Nat) : Nat := 0x800A8 + 0x1000 * n
abbrev gallery.GAL_FLUSH_BASE (n : Nat) : Nat := 0x1000100 + 0x20000 * n
abbrev gallery.GAL_FLUSH_BYTES (n : Nat) : Nat := 0x1000108 + 0x20000 * n
abbrev gallery.GAL_FLUSH_CTRL (n : Nat) : Nat := 0x100010C + 0x20000 * n
abbrev gallery.GAL_FLUSH_STATUS (n : Nat) : Nat := 0x1000110 + 0x20000 * n
abbrev gallery.FLUSH_LINES (n : Nat) : Nat := 0x1000114 + 0x20000 * n
abbrev gallery.FALLOW_REQ (n : Nat) : Nat := 0x1000140 + 0x20000 * n
abbrev gallery.FALLOW_STATUS (n : Nat) : Nat := 0x1000144 + 0x20000 * n
abbrev gallery.FALLOW_ENTRIES (n : Nat) : Nat := 0x1000148 + 0x20000 * n
abbrev gallery.FORCED_ENTRIES (n : Nat) : Nat := 0x100014C + 0x20000 * n
abbrev gallery.DOZE_ENTRIES (n : Nat) : Nat := 0x1000150 + 0x20000 * n
abbrev tile.PROFILE_ACTIVE (n : Nat) : Nat := 0x1001040 + 0x20000 * (n / 16) + 0x1000 * (n % 16)
abbrev tile.KERNEL_ACTIVE (n : Nat) : Nat := 0x1001044 + 0x20000 * (n / 16) + 0x1000 * (n % 16)
abbrev tile.SAT_TOTAL (n : Nat) : Nat := 0x1001048 + 0x20000 * (n / 16) + 0x1000 * (n % 16)
abbrev tile.NAN_TOTAL (n : Nat) : Nat := 0x100104C + 0x20000 * (n / 16) + 0x1000 * (n % 16)
abbrev tile.SAT_EVENTS (n : Nat) : Nat := 0x1001050 + 0x20000 * (n / 16) + 0x1000 * (n % 16)
abbrev tile.WIDEN_COUNT (n : Nat) : Nat := 0x1001054 + 0x20000 * (n / 16) + 0x1000 * (n % 16)
abbrev tile.STATS_DROPPED (n : Nat) : Nat := 0x1001058 + 0x20000 * (n / 16) + 0x1000 * (n % 16)
abbrev tile.LS_CE_COUNT (n : Nat) : Nat := 0x100105C + 0x20000 * (n / 16) + 0x1000 * (n % 16)
abbrev tstatus.READBACK (i : Nat) : Nat := 0x10001040 + 0x10000 * i
abbrev tstatus.DURABLE_EPOCH (i : Nat) : Nat := 0x10001048 + 0x10000 * i
abbrev tstatus.GUAR_BREACH_STEPS (i : Nat) : Nat := 0x10001050 + 0x10000 * i
abbrev tstatus.KEPT (i : Nat) : Nat := 0x10001054 + 0x10000 * i
abbrev tstatus.OFFER_VER (i : Nat) : Nat := 0x10001100 + 0x10000 * i
abbrev tstatus.ENABLE_VER (i : Nat) : Nat := 0x10001104 + 0x10000 * i
abbrev tstatus.DB_ERR (i : Nat) : Nat := 0x10001108 + 0x10000 * i

end Sys2Proof.Machine.Reg
end

