-- ==== Sys2Proof/Config.lean ====
section
/-! DEFINITION. What one part or one build fixes and the manual leaves open: opaque constants, with no value in the model. -/
namespace Sys2Proof.Config

/-- The fused serial number (R601, Reset "per part"). Log entry 3. -/
opaque serial : BitVec 64

/-- PAGE_VER.BUILD of a page kind (R15: implementation build, informational only). Log entry 4. -/
opaque pageBuild : Nat → BitVec 16

/-- PAGE_CAP of a page kind (R15: "defined per block", no block defines it). Log entry 4. -/
opaque pageCap : Nat → BitVec 64

/-- The millivolt set point for a wing frequency in MHz (R557: a table fused into the part). Log entry 5. -/
opaque voltTable : Nat → BitVec 16

/-- A 32-bit value the manual leaves open, drawn with the state's counter of free values. Log entry 6. -/
opaque freeWord : Nat → BitVec 32

/-- What a counter without a stated maximum holds after it counts past 0xFFFF_FFFF, by its address. Log entry 7. -/
opaque counterPast : Nat → BitVec 32

/-- The scale, as encoded, of a dynamic activation group whose format has no scale rule (R97 to R100 name the integer and MX formats), by the
group's amax as FP32. Log entry 14. -/
opaque openScale : BitVec 32 → BitVec 16

/-- The code of an element whose static scale is not a positive number (R99 states no code), by scale and element. Log entry 15. -/
opaque openCode : BitVec 32 → BitVec 32 → Nat

/-- The zero point of a weight group whose kernel sets W_ZP (R280 gives a layer's weights no place for it), by weight row and group.
Log entry 16. -/
opaque openZero : Nat → Nat → Nat

/-- KERNEL_ACTIVE of a running stage whose kernel the manual does not name, by the stage's kind. Log entry 24. -/
opaque openKernel : Nat → BitVec 4

/-- The number of a hall table at another node, by node and HALL_TABLE (R296: "the table number at the receiver", which nothing tells the sender).
Log entry 138. -/
opaque tableAt : Nat → BitVec 32 → BitVec 10

/-- The HBM address of a split plot's unit table, by tier range × 2^32 + plot (R350 names no place). Log entry 144. -/
opaque unitTableAt : Nat → BitVec 39

/-- The heat count at which Mladty promotes a 16 KiB unit into the cache (R324: "its promotion threshold", with no value). Log entry 132. -/
opaque promoteAt : Nat

/-- What a tile of a stage counts of the stage's saturations or NaN inputs (R101: the tile that converts; which one does follows from the
stage's code): by flight, stage, tile and the stage's count. Log entry 17. -/
opaque tileShare : Nat → Nat → Nat → Nat → Nat

end Sys2Proof.Config
end

