-- ==== Sys2Proof/Machine/State.lean ====
section
/-! DEFINITION. The state of the node as plain data: every register (in one sparse register file), queue, buffer and mode the
manual gives it, the queue of waiting commands, and the state right after reset. -/
namespace Sys2Proof.Machine

/-- A finite table by number. Canonical: numbers strictly rising (`Tbl.set` in Tables.lean keeps it). -/
abbrev Tbl (α : Type) := List (Nat × α)

/-! ## Flight plans, profiles (02, 03) -/

/-- A stage entry (R49). -/
structure StageDef where
  no : Nat
  off : Nat
  kind : Nat
  rset : Nat
  budget : Nat
  codeEntry : Nat
  entryLanding : Nat
  flags : Byte
  inBytes : Nat
  outBytes : Nat
  param : Nat
  deriving DecidableEq, Repr, Inhabited

/-- A landing entry (R51). -/
structure LandingDef where
  no : Nat
  off : Nat
  tests : Byte
  back : Nat
  waitOk : Bool
  quorum : Nat
  deriving DecidableEq, Repr, Inhabited

/-- A resource set entry (R52). -/
structure RSet where
  tileMask : Half
  galMask : Quad
  hbm : Nat
  flash : Nat
  fabric : Nat
  windows : Nat
  store : Nat
  deriving DecidableEq, Repr, Inhabited

/-- A back stair entry (R53). -/
structure BackDef where
  kind : Nat
  first : Nat
  last : Nat
  resume : Nat
  deriving DecidableEq, Repr, Inhabited

/-- A checked flight plan (R48 to R53). -/
structure Plan where
  id : Word
  profile : Nat
  period : Nat
  flags : Byte
  galleries : Nat
  span : Nat
  clockMhz : Nat
  margin : Nat
  stages : List StageDef
  landings : List LandingDef
  rsets : List RSet
  backs : List BackDef
  code : List Byte
  deriving DecidableEq, Repr, Inhabited

/-- A plan slot (R54, R55). -/
structure PlanSlot where
  plan : Plan
  retiring : Bool
  deriving DecidableEq, Repr, Inhabited

/-- A kernel entry (R106). -/
structure Kernel where
  wFmt : Nat
  aFmt : Nat
  group : Nat
  wScale : Nat
  aScale : Nat
  flags : Byte
  outFmt : Nat
  widen : Nat
  rule : Nat
  deriving DecidableEq, Repr, Inhabited

/-- A profile of the store (R104, R108); `image` is the image it came from, empty for a built-in one. -/
structure Profile where
  no : Nat
  kernels : List Kernel
  image : List Byte
  deriving DecidableEq, Repr, Inhabited

/-! ## Index structures (04, 06) -/

/-- A coarse record or a centroid (R133): codes, then per group the FP16 scale, code sum and zero point as stored. -/
structure Coarse where
  codes : List Nat
  scales : List Half
  sums : List Nat
  zps : List Nat
  deriving DecidableEq, Repr, Inhabited

/-- A refinement record (R134). -/
structure Refine where
  codes : List Byte
  scales : List Half
  sums : List Half
  key : Quad
  attr : Quad
  deriving DecidableEq, Repr, Inhabited

/-- An internal node (R139) with the HBM addresses and the health of its primary and its mirror copy (R144, R332). -/
structure NodeBlk where
  path : Word
  level : Nat
  epoch : Nat
  cents : List Coarse
  kids : List Nat
  addrs : Nat × Nat
  ok : Bool × Bool
  deriving DecidableEq, Repr, Inhabited

/-- A leaf (R137): records, slots, norms (L2 only), the HBM address of its block and its header's health. -/
structure LeafBlk where
  path : Word
  epoch : Nat
  recs : List Coarse
  slots : List Nat
  norms : List (Word × Word)
  addr : Nat
  ok : Bool
  deriving DecidableEq, Repr, Inhabited

/-- An epoch record and what it reaches (R224). `fold` and `blocked` are the partition table; `addrs` are the HBM addresses of its two copies, `prev`
the address of the record it superseded; `upTo` is the epoch of the record that superseded it, the last admission that binds this one (R225). -/
structure Version where
  epoch : Nat
  items : Nat
  fold : List Nat
  blocked : List Bool
  nodes : List NodeBlk
  leaves : List LeafBlk
  ok : Bool × Bool
  addrs : Nat × Nat
  prev : Nat
  upTo : Option Nat
  deriving DecidableEq, Repr, Inhabited

/-- A seedbed entry (R221) of one partition's chain; `held` names the flight whose COPY wrote it while its batch has neither committed nor ended. -/
structure SeedEntry where
  part : Nat
  seq : Nat
  epoch : Nat
  valid : Bool
  slot : Nat
  nc : Word
  nf : Word
  record : Coarse
  held : Option Nat
  deriving DecidableEq, Repr, Inhabited

/-- A weed entry (R221), `held` as above. -/
structure WeedEntry where
  part : Nat
  epoch : Nat
  valid : Bool
  slot : Nat
  held : Option Nat
  deriving DecidableEq, Repr, Inhabited

/-- A key map or row map entry (R142). -/
structure KeyEntry where
  key : Quad
  slot : Nat
  live : Bool
  deriving DecidableEq, Repr, Inhabited

/-- What a slot holds in the collection's arrays (R136, R219) and its refinement record; `programmed` once the record's
program has completed (R181), `held` as above. -/
structure SlotData where
  key : Quad
  attr : Quad
  part : Nat
  refine : Refine
  programmed : Bool
  held : Option Nat
  deriving DecidableEq, Repr, Inhabited

/-- A transplant in progress (R230): cut, publication epoch, whether it has sealed and whether it is late (R233), the
carried weed slot of R231, and the rebuilt partition. -/
structure Transplant where
  part : Nat
  cut : Nat
  pub : Nat
  sealed : Bool
  late : Bool
  carried : List Nat
  nodes : List NodeBlk
  leaves : List LeafBlk
  gallery : Nat
  deriving DecidableEq, Repr, Inhabited

/-- A segment of a partition's seedbed or weed chain (R221) at its HBM address. -/
structure Seg where
  part : Nat
  weed : Bool
  addr : Nat
  deriving DecidableEq, Repr, Inhabited

/-- A shard entry (R245). -/
structure Shard where
  node : Nat
  coll : Nat
  mirrorValid : Bool
  mirror : Nat
  mirrorColl : Nat
  down : Bool
  deriving DecidableEq, Repr, Inhabited

/-- A shard map (R245), current from tick count `since` (R247). -/
structure ShardMap where
  hallColl : Word
  gen : Nat
  self : Nat
  shards : List Shard
  since : Nat
  deriving DecidableEq, Repr, Inhabited

/-- The states of R150, for collections and tables. -/
inductive Life where
  | empty | loading | serving | draining
  deriving DecidableEq, Repr, Inhabited

/-- The projection (R128, R147); `sums` is its sum table, by row and group, written with the matrix and used as given (R92, R103). -/
structure Projection where
  rows : List (List Byte)
  scales : List (List Half)
  sums : List (List Int)
  bias : List Word
  crc : Word
  deriving DecidableEq, Repr, Inhabited

/-- What an index image header fixes (R146). -/
structure CollInfo where
  profile : Nat
  metric : Nat
  depth : Nat
  projDims : Nat
  refineDims : Nat
  slotLimit : Nat
  buckets : Nat
  beam : Nat
  probes : Nat
  deriving DecidableEq, Repr, Inhabited

/-- A collection. Versions newest first; the key map by bucket; a slot missing from `slots` is free. `projAddrs` are the HBM addresses of the
projection's two copies, `arrays` those of the key extents and of the attribute and partition extents (R136, R144, R219), `segs` the segments of
the chains, each partition's in order. `dying` lists the deleted slots whose weed
entry a publication has folded, with its epoch (R228); `blockNext` the partitions that the next epoch record marks BLOCKED (R232). `since` and `mapRetiring` (when the current map goes, R247) count ticks. -/
structure Coll where
  life : Life
  since : Nat
  tenant : Nat
  info : CollInfo
  proj : Projection
  projAddrs : Nat × Nat
  arrays : List Nat × List Nat
  segs : List Seg
  versions : List Version
  nextSeq : Nat
  slots : Tbl SlotData
  keymap : Tbl (List KeyEntry)
  seeds : List SeedEntry
  weeds : List WeedEntry
  dying : List (Nat × Nat)
  badSegs : List (Nat × Bool × Nat)
  lostSlots : List Nat
  stackHit : Bool
  tps : List Transplant
  blockNext : List Nat
  map : Option ShardMap
  mapNext : Option ShardMap
  mapRetiring : Option Nat
  oldMaps : List ShardMap
  deriving DecidableEq, Repr, Inhabited

/-- A load in progress (R151, R290): the size of the chunk that the last START or CONTINUE named, the bytes consumed so far, leaf stacks chosen, and
whether the last chunk has come. -/
structure Load where
  target : Nat
  tenant : Nat
  chunk : Nat
  bytes : List Byte
  leafStacks : List (Fin 8)
  last : Bool
  deriving DecidableEq, Repr, Inhabited

/-! ## Models and row tables (08) -/

/-- A layer descriptor (R280) with its quantiser control block (R110), and the sum table of its weights by row and group (R92). -/
structure Layer where
  op : Nat
  act : Nat
  inBuf : Nat
  auxBuf : Nat
  outBuf : Nat
  lflags : Byte
  k : Nat
  n : Nat
  heads : Nat
  headDim : Nat
  eps : Word
  outFmt : Nat
  wOff : Nat
  wBytes : Nat
  qMode : Nat
  stats : Bool
  kernel : Nat
  satThresh : Nat
  statsAddr : Nat
  statsBytes : Nat
  scaleOff : Nat
  wsums : List (List Int) := []
  deriving DecidableEq, Repr, Inhabited

/-- A model slot's content (R277 to R279). `staged` lists the layers now held in tile stores; `relay` marks a relay in
progress, `relayFail` a failed one (R289). -/
structure Model where
  tenant : Nat
  role : Nat
  staged : Bool
  profile : Nat
  inRows : Nat
  inCols : Nat
  outCols : Nat
  featCols : Nat
  featTable : Word
  params : Nat
  src : Nat
  layers : List Layer
  weights : List Byte
  relay : Bool
  relayFail : Bool
  lost : Bool
  retiring : Bool
  deriving DecidableEq, Repr, Inhabited

/-- A row (R291): codes, group scales, state vectors. -/
structure Row where
  codes : List Byte
  scales : List Half
  state : List (List Byte)
  deriving DecidableEq, Repr, Inhabited

/-- A row of a table: its key, its value now, and its value in flash, which a row created since has not yet (R305, R325). -/
structure RowSlot where
  key : Quad
  cur : Row
  flash : Option Row
  deriving DecidableEq, Repr, Inhabited

/-- A row table (R290). -/
structure Table where
  life : Life
  since : Nat
  tenant : Nat
  placement : Nat
  flags : Byte
  limit : Nat
  cols : Nat
  fmt : Nat
  stFmt : Nat
  opt : Nat
  stCount : Nat
  hall : Word
  self : Nat
  buckets : Nat
  owners : List (Nat × Bool × Nat)
  rows : Tbl RowSlot
  rowmap : Tbl (List KeyEntry)
  progress : Nat
  tag : Word
  lostSeen : List Nat
  deriving DecidableEq, Repr, Inhabited

/-! ## Flights (02, 05, 06, 07, 08) -/

/-- One group of an activation (R92, R164, R257): codes as encoded, the scale as encoded, zero point and row sum. -/
structure QGroup where
  codes : List Nat
  scale : Half
  zp : Nat
  sum : Int
  deriving DecidableEq, Repr, Inhabited

/-- A rake entry (R175) with the fields a contribution entry adds (R258). -/
structure RakeEntry where
  order : Nat
  key : Nat
  refined : Bool
  slot : Nat
  shard : Nat
  item : Quad
  deriving DecidableEq, Repr, Inhabited

/-- A sieve term (R186). -/
structure Term where
  op : Nat
  lsb : Nat
  width : Nat
  group : Nat
  value : Quad
  deriving DecidableEq, Repr, Inhabited

/-- The parameters of a search (R156, R256). -/
structure SParams where
  metric : Nat
  k : Nat
  refine : Nat
  overfetch : Nat
  beam : Nat
  probes : Nat
  sieve : Bool
  rerank : Bool
  hall : Bool
  terms : List Term
  deriving DecidableEq, Repr, Inhabited

/-- One item of an update batch as PROJECT, DESCEND and COPY leave it (R212, R214). -/
structure UpdItem where
  key : Quad
  attr : Quad
  coarse : Coarse
  refine : Refine
  nc : Word
  nf : Word
  part : Nat
  slot : Nat
  status : Nat
  deriving DecidableEq, Repr, Inhabited

/-- One row of a row batch (R293 to R297). -/
structure RowItem where
  key : Quad
  grad : List Byte
  status : Nat
  data : List Byte
  done : Bool
  remote : Nat
  deriving DecidableEq, Repr, Inhabited

/-- What a request of another node served in a step has booked: the step, tenant and class, and its ROW_REPLY or OWNER_DATA frames (R296, R334). -/
structure Served where
  id : Nat
  step : Nat
  tenant : Nat
  cls : Nat
  frames : Nat
  deriving DecidableEq, Repr, Inhabited

/-- A contribution gathered at the coordinator (R258, R259): its first fragment's header, and the fragments' entries by FRAG_NO. -/
structure Contrib where
  shard : Nat
  sender : Nat
  hdr : List Byte
  frags : Tbl (List RakeEntry)
  complete : Bool
  deriving DecidableEq, Repr, Inhabited

/-- Where the coordinator sent a shard (R249, R266). -/
structure Sent where
  shard : Nat
  node : Nat
  replayed : Bool
  deriving DecidableEq, Repr, Inhabited

/-- What a participant part holds of its RAKE_QUERY (R256): the coordinator, its flight number, the shard, whether it is a replay, whether
a source forwarded it as a shadow query (R512), and whether it has been admitted (R250) or only holds its pin (R251). -/
structure PartInfo where
  coord : Nat
  flightNo : Nat
  shard : Nat
  replay : Bool
  shadow : Bool
  admitted : Bool
  deriving DecidableEq, Repr, Inhabited

/-- The work of a flight: what its stages have produced. -/
structure Work where
  vec : List Word
  coarse : List QGroup
  fine : List QGroup
  leaves : List Word
  parts : List Nat
  rake : List RakeEntry
  arrived : Tbl Refine
  lost : List Nat
  lostBoth : List Nat
  keys : List Quad
  scores : List (Quad × Word × Nat)
  items : List UpdItem
  rows : List RowItem
  rowPos : Nat
  bufs : List (Nat × List (List Word))
  layerSat : Tbl Nat
  sat : Nat
  nan : Nat
  omitted : Nat
  scanned : Nat
  scannedLeaves : List Word
  poison : List (Word × Nat)
  narrowed : Bool
  deriving DecidableEq, Repr, Inhabited

/-- The result counts of a flight (R192, R263). -/
structure Counts where
  unrefined : Nat
  candidates : Nat
  survivors : Nat
  shardsExpected : Nat
  shardsContributed : Nat
  vecNan : Nat
  deriving DecidableEq, Repr, Inhabited

/-- The reservations of a batch (R214, R226). -/
structure Resv where
  seeds : Nat
  weeds : Nat
  hist : Nat
  deriving DecidableEq, Repr, Inhabited

/-- What kind of work a flight is. -/
inductive FlightKind where
  | search | score | insert | delete | lookup | scatter | participant | rowServe
  deriving DecidableEq, Repr, Inhabited

/-- One stage's run: galleries that have signalled completion, whether it has started, is suspended or skipped; told to yield; failed; the waits
that moved its booking; whether it overran (R69), and whether its start waits for the yield of a background stage (R72); the layers whose weights
have been staged in for it (R288). -/
structure StageRun where
  started : Bool
  done : List Nat
  complete : Bool
  suspended : Bool
  skipped : Bool
  yielding : Bool
  failed : Bool
  shift : Nat
  overrun : Bool
  delayed : Bool
  staged : List Nat
  deriving DecidableEq, Repr, Inhabited

/-- A channel-table entry (R385). -/
structure ChanEntry where
  enabled : Bool
  pin : Bool
  resetFull : Bool
  hallOk : Bool
  grant : Nat
  action : Nat
  mask : Byte
  version : Word
  sqAddr : Quad
  cqAddr : Quad
  sqLog : Nat
  cqLog : Nat
  vector : Nat
  weight : Nat
  backlog : Nat
  rate : Nat
  burst : Nat
  deriving DecidableEq, Repr, Inhabited

/-- A descriptor with its fetched buffers (R157, R396). `arrival` counts ticks. -/
structure Desc where
  chan : Nat
  sqSlot : Nat
  bytes : List Byte
  buf : List Byte
  keys : List Byte
  arrival : Nat
  order : Nat
  overLimit : Bool
  deriving DecidableEq, Repr, Inhabited

/-- A flight (R59): bound plan, gallery map, channel-table entry version, snapshot, class; its landings, waits, path and work; `shadow` while a
SHADOW_RESULT of it is to be sent (R512). `epoch` is its admission epoch, `start` the tick count that its step offsets count from. -/
structure Flight where
  id : Nat
  kind : FlightKind
  desc : Desc
  tenant : Nat
  cls : Nat
  epoch : Nat
  start : Nat
  entry : ChanEntry
  planSlot : Nat
  plan : Plan
  gmap : List Nat
  obj : Nat
  bound : Nat
  waits : Nat
  flags : Word
  cancel : Bool
  fault : Bool
  stages : List StageRun
  landed : List Nat
  params : SParams
  work : Work
  counts : Counts
  resv : Resv
  part : Option PartInfo
  map : Option ShardMap
  sent : List Sent
  contribs : List Contrib
  merged : Bool
  silent : Bool
  shadow : Bool
  deriving DecidableEq, Repr, Inhabited

/-! ## Tenants and channels (11, 12) -/

/-- A tenant (R382): state, what is in force, and its meters (R404, R405). The written reservation fields are banked registers. -/
structure Tenant where
  tstate : Nat
  rank : Nat
  seats : Nat
  tile : Nat
  hbm : Nat
  flash : Nat
  windows : Nat
  fabric : Nat
  c0Kept : Bool
  capKept : Bool
  seatsUsed : Nat
  meters : List Nat
  latched : List Nat
  latchEpoch : Nat
  latchPending : Bool
  deriving DecidableEq, Repr, Inhabited

/-- A completion entry's content before it is written (R421). -/
structure Cqe where
  tag : Word
  status : Nat
  opcode : Byte
  hdr : Bool
  sqSlot : Nat
  epoch : Nat
  count : Nat
  deriving DecidableEq, Repr, Inhabited

/-- A channel: the accepted entry, the entry in force (R387), the two active copies' health, ring state (R417), tokens (R393). -/
structure Chan where
  accepted : ChanEntry
  force : ChanEntry
  ok : Bool × Bool
  sqHead : Nat
  sqTail : Nat
  cqTail : Nat
  cqHead : Nat
  phase : Bool
  arm : Bool
  outstanding : Nat
  tokens : Nat
  shapeOf : Nat × Nat × Nat
  waiting : List Cqe
  deriving DecidableEq, Repr, Inhabited

/-- A queue of R397 that carries a start tag. -/
structure FairQ where
  tag : Nat
  blocked : Bool
  deriving DecidableEq, Repr, Inhabited

/-- A posted write or message toward the host (R423, R426, R538). -/
inductive HostMsg where
  | write (fn : PciFn) (addr : Quad) (data : List Byte)
  | msix (fn : PciFn) (vector : Nat)
  deriving DecidableEq, Repr

/-- A PCIe function's state (R412, R426, R433): Bus Master Enable, D3hot, its MSI-X mask and pending bits, and an FLR in progress. -/
structure PciState where
  bme : Bool
  d3 : Bool
  unmasked : BitVec 64
  pba : BitVec 64
  flr : Bool
  table : Tbl Word
  deriving DecidableEq, Repr, Inhabited

/-! ## Memory and flash (09, 10) -/

/-- A queued pass of a near-bank unit (R171, R317), for the scan step `step` by tick count. -/
structure Pass where
  coll : Nat
  version : Nat
  leaf : Word
  step : Nat
  flights : List Nat
  bursts : Nat
  done : Nat
  deriving DecidableEq, Repr, Inhabited

/-- A near-bank unit (R316 to R318): queued passes, the candidate queue's fill, the chains as last reported. -/
structure NearBank where
  queue : List Pass
  fill : Nat
  windowsRun : Nat
  burstsLeft : Nat
  reports : Tbl (Bool × Nat)
  deriving DecidableEq, Repr, Inhabited

/-- A stack's errors: uncorrectable reads per pseudo-channel (R335), pseudo-channels whose retirement awaits its remap, and whether it
reported another configuration at training (R314). -/
structure Stack where
  rejected : Bool
  ue : Tbl Nat
  remapping : List Nat
  deriving DecidableEq, Repr, Inhabited

/-- The states of a flash block (R356). -/
inductive BlkState where
  | erased | open_ | closed | verified | released | erasing | suspect | retired
  deriving DecidableEq, Repr, Inhabited

/-- A flash block (R356): state, erase count, mode, programmed pages, its bytes of spill region (R357), suspensions of its erase (R362); whether it
failed and retires once nothing maps to it (R359), and whether it holds system data. -/
structure Block where
  st : BlkState
  erases : Nat
  slc : Bool
  pages : Nat
  spill : Nat
  suspends : Nat
  suspended : Bool
  bad : Bool
  sys : Bool
  deriving DecidableEq, Repr, Inhabited

/-- A block row (R364): its parity group and mode, the blocks that opened together, those of them that are not VERIFIED yet, the blocks whose page each
stripe's XOR in HBM system memory holds, and where the parity pages lie in flash. -/
structure BlockRow where
  group : Nat
  slc : Bool
  blocks : List Nat
  waiting : List Nat
  acc : Tbl (List Nat)
  parity : Tbl Nat
  deriving DecidableEq, Repr, Inhabited

/-- One 4 KiB unit of a split plot (R351). -/
inductive UnitMap where
  | inPlot | unit (pa : Nat) | zero
  deriving DecidableEq, Repr, Inhabited

/-- A plot entry (R350) with its unit table when split, a whole copy that awaits its verify (R359) with the spill index entries that its fold
read (R375), and the health of its map page's two copies (R355). -/
structure Plot where
  whole : Option Nat
  units : Tbl UnitMap
  next : Option Nat
  folded : Tbl (Nat × Nat)
  ok : Bool × Bool
  deriving DecidableEq, Repr, Inhabited

/-- A LOST_MAP entry (R368): `kept` marks a kept-back one; its repair (R369): the step in which it was last asked for, REQ_NO, the bytes
that have come, and the node asked, plus 1. -/
structure Lost where
  range : Nat
  page : Nat
  pages : Nat
  both : Bool
  tenant : Nat
  object : Word
  epoch : Nat
  kept : Bool
  asked : Nat
  req : Nat
  got : Nat
  peer : Nat
  deriving DecidableEq, Repr, Inhabited

/-- A journal record of one committed batch (R234): what recovery replays, and what is still to be programmed. -/
structure Journal where
  batch : Nat
  coll : Nat
  epoch : Nat
  seeds : List SeedEntry
  weeds : List WeedEntry
  slots : List (Nat × SlotData)
  programmed : Bool
  recsLeft : List Nat
  deriving DecidableEq, Repr, Inhabited

/-- A data-loss report (R467). -/
structure Report where
  no : Nat
  entry : Lost
  sentAt : Nat
  waiting : Bool
  deriving DecidableEq, Repr, Inhabited

/-- The flash and its translation engine. `blocks` (die × 65,536 + block), `plots` (range × 2^32 + plot), `spill` (collection × 2^40 + slot: PA and
column), `journal`, `ckpts`, `tables`, `lost` and `batchNo` lie in flash or are rebuilt from it, and survive a node reset (R236, R354, R363).
`dies` counts the class-0 reads that a suspended erase waits for, `timeouts` a die's consecutive timeouts; `dirty` (range × 2^32 + page) gives
the step in which a page became dirty, `wb` what its running write-back holds of rows and `mapWb` of a key map bucket; `mapOld` is the flash
copy of a key map bucket that differs from it (R142, R324). -/
structure Flash where
  blocks : Tbl Block
  plots : Tbl Plot
  spill : Tbl (Nat × Nat)
  journal : List Journal
  ckpts : Tbl (List Coll)
  tables : Tbl Table
  lost : List Lost
  mapCkpt : Nat
  dies : Tbl Nat
  failedDies : List Nat
  timeouts : Tbl Nat
  rebuilding : Option Nat
  rebuildQ : List Nat
  running : Bool
  wpPending : List Nat
  wpLow : List Nat
  reports : List Report
  reportNo : Nat
  dirty : Tbl Nat
  wb : Tbl (List (Nat × Row))
  mapOld : Tbl (List KeyEntry)
  mapWb : Tbl (List KeyEntry)
  batchNo : Nat
  spillGib : Nat
  inventory : Tbl (List Nat × Nat)
  rows : List BlockRow
  nextGroup : Nat
  recheck : List Nat
  reading : List (Nat × Nat × Nat)
  cache : List Nat
  heat : Tbl Nat
  mapGen : Tbl Nat
  deriving DecidableEq, Repr, Inhabited

/-! ## Fabric (13) -/

/-- A frame in an egress queue (R449): its endpoint, the MAC and route generation it bound (R461; none for a HELLO or an FM_RESP,
which take no route entry), its header and payload. -/
structure EgFrame where
  dst : Nat
  mac : BitVec 48
  gen : Option Nat
  typ : Byte
  cls : Nat
  bytes : List Byte
  deriving DecidableEq, Repr, Inhabited

/-- A route entry (R459). -/
structure Route where
  valid : Bool
  gen : Nat
  mac : BitVec 48
  deriving DecidableEq, Repr, Inhabited

/-- A classification entry (R460). -/
structure ClassEntry where
  key : Quad
  mask : Quad
  valid : Bool
  gen : Nat
  prio : Nat
  action : Nat
  deriving DecidableEq, Repr, Inhabited

/-- A table write that waits for its generation (R462). -/
inductive TableWrite where
  | route (idx : Nat) (valid : Bool) (mac : BitVec 48)
  | cls (idx : Nat) (entry : ClassEntry)
  deriving DecidableEq, Repr, Inhabited

/-- A fabric port: state, the lanes in use and negotiated version (R450, R451), five egress queues (R449), its tables (R459, R460), a
waiting table write, the lane that failed (R440), pushes held at full, the queue whose head frame is being transmitted, and the frames that classes 1 to 3
have sent in the round (R449). -/
structure Port where
  st : Nat
  used : BitVec 4
  ver : Nat
  queues : List (List EgFrame)
  routes : Tbl Route
  classes : Tbl ClassEntry
  waitWrite : Option TableWrite
  badLane : Option (Fin 4)
  held : List EgFrame
  sending : Option Nat
  round : List Nat
  deriving DecidableEq, Repr, Inhabited

/-! ## Faults and pairs (14) -/

/-- A history entry (R489, R522). -/
structure HistEntry where
  entry : Quad
  ts : Quad
  deriving DecidableEq, Repr, Inhabited

/-- A mirror stream unit (R504, R507): its number, type, OP, epoch, class, entries, and its fragments by FRAG_NO, each with ENTRY_FIRST,
ENTRY_COUNT and body. On a source: when it was last and when it was first sent, whether it was acknowledged, and the flight it serves. -/
structure MUnit where
  seq : Nat
  typ : Nat
  op : Nat
  epoch : Nat
  cls : Nat
  entries : Nat
  fragCount : Nat
  frags : Tbl (Nat × Nat × List Byte)
  sentAt : Nat
  acked : Bool
  flight : Nat
  since : Nat
  deriving DecidableEq, Repr, Inhabited

/-- A pair entry in force (R496), the entry that takes effect next, and its stream: the last number sent; units not acknowledged, or on a
follower those held; CLOSED_EPOCH; the number a CLOSE that is due will name; the last number applied; DIVERGED (R505); the graft snapshot
(R508) and the object as it stood then. -/
structure Pair where
  role : Nat
  peer : Nat
  peerObj : Nat
  obj : Nat
  next : Option Quad
  seq : Nat
  units : List MUnit
  closed : Nat
  due : Option Nat
  applied : Nat
  diverged : Bool
  snap : Option Nat
  snapColl : Option Coll
  snapTable : Option Table
  deriving DecidableEq, Repr, Inhabited

/-- What waits for acknowledgements of a mirror stream (R498, R503): a completion, or a ROW_REPLY. -/
inductive Deferred where
  | finish (d : Desc) (status epoch cnt : Nat) (writes : List (Nat × List Byte)) (silent : Bool)
  | reply (cls dst object flow : Nat) (payload : List Byte)
  deriving DecidableEq, Repr

/-- A deferred action with its pair entry and the units it waits for. -/
structure Held where
  pair : Nat
  seqs : List Nat
  act : Deferred
  deriving DecidableEq, Repr

/-- A read of a tier range that a follower sent to its source (R511), or of a LOST row to the mirror node (R306): its flight or part, the slot or the
row's place in the batch, its place and size in the tier range, what has come, and the node, object and kind that it asks. -/
structure RemoteRead where
  flight : Nat
  row : Bool
  idx : Nat
  off : Nat
  size : Nat
  got : List Byte
  node : Nat
  object : Nat
  objKind : Nat
  deriving DecidableEq, Repr, Inhabited

/-- A graft in progress (R508 to R513): when SHADOW began and OWNER_DATA last came, HBM_DONE and FLASH_DONE, the images by pair as far as they
have come, with the offset asked up to and when; requests by REQ_NO, for images and for reads; the source's and this node's survivors. -/
structure Graft where
  active : Bool
  started : Nat
  lastData : Nat
  hbmDone : Bool
  flashDone : Bool
  images : Tbl (List Byte)
  results : Tbl (List Byte)
  own : Tbl (List Byte × List Quad)
  asked : Tbl (Nat × Nat)
  reqs : Tbl Nat
  reads : Tbl RemoteRead
  deriving DecidableEq, Repr, Inhabited

/-- The node's service state (R492) with what takes effect at the next open instant (R494, R508), the history queue (R489), the gone
set with the tick count at which each GONE frame came (R249, R485), the pairs (R496), the step in which each FAULT_STATUS bit became set (R478), steps without a route to the fabric manager
(R494), the queued descriptors and the flights that a C0 fault ended (R488), and what waits for a mirror's acknowledgement. -/
structure Faults where
  nodeState : Nat
  fenceAsked : Bool
  graftAsked : Bool
  hist : List HistEntry
  gone : List (Nat × Nat)
  pairs : Tbl Pair
  graft : Graft
  c1Set : Tbl Nat
  noRoute : Nat
  ended : List Desc
  endedFlights : List Flight
  held : List Held
  deriving DecidableEq, Repr, Inhabited

/-! ## Interrupts, trace, galleries (15) -/

/-- An interrupt source (R525 to R529). `full`: it has counted in NEST_FULL since it last waited (R527). -/
structure Src where
  urgency : Nat
  targets : BitVec 4
  sense : Nat
  enable : Bool
  last : Nat
  activeOn : Option Nat
  pending : Bool
  input : Bool
  bound : Option Nat
  full : Bool
  deriving DecidableEq, Repr, Inhabited

/-- A management core: CORE_EN, and its nest of handlers from the innermost out, each a source and its tier (R527). -/
structure CoreSt where
  enabled : Bool
  nest : List (Nat × Nat)
  deriving DecidableEq, Repr, Inhabited

/-- The interrupt controller: sources that differ from reset, four cores, and the mailboxes, each a queue of 16 (R533). -/
structure Intc where
  srcs : Tbl Src
  cores : List CoreSt
  mboxIn : List (List Quad)
  mboxOut : List (List Quad)
  deriving DecidableEq, Repr, Inhabited

/-- A trace unit (R535, R537): its FIFO of 16-byte entries, each marked when it begins a packet; whether the merger discards the rest of a
packet; its packet count; losses by reason (FIFO_FULL, FALLOW_FORCED, SINK_FULL) not yet reported, each with the timestamp of the first
(R539); doze activity since the last SUMMARY; the steps of the last SUMMARY and TRACE_SYNC. -/
structure TraceUnit where
  fifo : List (Bool × List Byte)
  skip : Bool
  seq : Nat
  losses : List (Nat × Nat)
  dozeN : Nat
  dozeTiles : Half
  lastSummary : Nat
  lastSync : Nat
  deriving DecidableEq, Repr, Inhabited

/-- What a dirty range of a gallery store belongs to (R320): a batch's seedbed entry, weed entry, or key, attribute or partition array entry. -/
inductive DirtyKind where
  | seed | weed | key | attr | part
  deriving DecidableEq, Repr

/-- A range of HBM whose lines a gallery's tiles wrote and its store has not written back (R320), with the collection and slot it serves and the flight of the
batch. -/
structure Dirty where
  addr : Nat
  bytes : Nat
  kind : DirtyKind
  coll : Nat
  slot : Nat
  flight : Nat
  deriving DecidableEq, Repr

/-- A gallery: fallow state (R542) and what is pending of it: leaving service at the next open instant (R61) or returning then (R543);
removed under R483 and its test failed; forced by the power block and still hot (R564); FALLOW_ENTER pushed, gating postponed (R541); whether
it wakes from OFF, a wake that waits for a self-test (R593); its retained-region tags (R544), dozing tiles (R540), a droop stretch (R562), the dirty lines of its store (R320), the range of a flush started here, the
galleries it still waits for and whether it only invalidates (R321), a self-test that runs and one that invalidated the regions (R586). -/
structure Gallery where
  fstate : Nat
  inService : Bool
  leave : Bool
  ret : Bool
  faulted : Bool
  failed : Bool
  forced : Bool
  hot : Bool
  postponed : Bool
  pushedEnter : Bool
  fromOff : Bool
  wakeAsked : Bool
  tags : List Nat
  dozing : BitVec 16
  stretched : Bool
  lines : List Dirty
  flushRange : Nat × Nat
  flushLeft : Option (List Nat)
  flushInv : Bool
  mbist : Bool
  invalid : Bool
  deriving DecidableEq, Repr, Inhabited

/-! ## Power, boot and test (16, 17) -/

/-- One supply rail as the detectors see it (R558). -/
structure Rail where
  above : Bool
  valid : Bool
  at_ : Nat
  deriving DecidableEq, Repr, Inhabited

/-- The VDD_AUX domain (R567): survives a node reset. -/
structure Aux where
  rails : List Rail
  seqViolation : Bool
  uvSeen : Bool
  rail : BitVec 4
  c0 : Bool
  thermTrip : Bool
  i3c : Option (BitVec 7)
  ibi : Nat
  clocks : Bool
  deriving DecidableEq, Repr, Inhabited

/-- A wing's regulator (R557, R561): a voltage write that waits for its acknowledgement, the frequency whose voltage the regulator has
acknowledged and the one last written, in MHz; and whether a timeout froze the wing. -/
structure Avs where
  waiting : Bool
  level : Nat
  target : Nat
  frozen : Bool
  deriving DecidableEq, Repr, Inhabited

/-- The power block: the wings' ceilings (R563), the readings of the 54 sensors at the last open instant, the regulators. -/
structure Power where
  ceilW : Nat
  ceilE : Nat
  temps : List Nat
  avsW : Avs
  avsE : Avs
  deriving DecidableEq, Repr, Inhabited

/-- The test access port (R587): instruction register and the REG_ACCESS read register; the production test state (R590), an eye capture in
progress (R585), the target of a running self-test (R586). -/
structure Test where
  ir : Byte
  readOut : Quad
  prod : Bool
  eyeRun : Bool
  mbistAt : Option Nat
  deriving DecidableEq, Repr, Inhabited

/-- Pins and reset (R29, R566, R570). -/
structure Pins where
  resetN : Bool
  perstN : Bool
  modeHall : Bool
  traySlot : Nat
  deriving DecidableEq, Repr, Inhabited

/-- The step (R34 to R47): STEP_COUNT, STEP_VALID, STEP_RUN, the seam, the flywheel and its run of missed ticks, the pending STEP_MARK
number, the run of mismatches (R46), whether stepping ever started (R40), the count from which a realignment starts (R46), an armed level
change (R456), and the yield signalled to background stages (R71). `ticks` counts the ticks since reset: the node's own count, on which admitted
flights run on through a realignment (R46). `lossRaised`: this run of flywheel ticks has raised its C1 fault (R38). `noToken`: the galleries that
did not receive this step's step-open token (R44). -/
structure Step where
  count : Epoch
  ticks : Nat
  lossRaised : Bool
  noToken : List Nat
  valid : Bool
  run : Bool
  seam : Bool
  flywheel : Bool
  missedRun : Nat
  mark : Option Epoch
  mismatchRun : Nat
  everRun : Bool
  realignFrom : Option Epoch
  levelArmed : Option Byte
  bgHold : Bool
  deriving DecidableEq, Repr, Inhabited

/-- The scheduler's flights, queues and stores, and the loads and retires in progress: a plan's address and slot, a slot being retired, a
profile's address, a model's address, slot and tenant, a model slot being retired. -/
structure Sched where
  plans : Tbl PlanSlot
  profiles : List Profile
  flights : List Flight
  ready : List Nat
  queued : List Desc
  nextFlight : Nat
  nextOrder : Nat
  fair : Tbl FairQ
  cache : List Nat
  planLoad : Option (Nat × Nat)
  planRetire : Option Nat
  profileLoad : Option Nat
  modelLoad : Option (Nat × Nat × Nat)
  modelRetire : Option Nat
  inval : Option Nat
  hist : List (Nat × Nat × Option Nat)
  parts : List Flight
  served : List Served
  deriving DecidableEq, Repr, Inhabited

/-- Everything the collections, tables and models hold. -/
structure Store where
  colls : Tbl Coll
  load : Option Load
  tables : Tbl Table
  tload : Option Load
  models : Tbl Model
  tenants : Tbl Tenant
  chans : Tbl Chan
  deriving DecidableEq, Repr, Inhabited

/-- The memories and the flash. `hbm` lists the bytes of HBM that differ from 0 (R313). -/
structure Mem where
  hbm : List Host.Cell
  stackSt : List Stack
  near : List NearBank
  flash : Flash
  deriving DecidableEq, Repr, Inhabited

/-- The host and fabric side. `out` is what the node has issued toward the host and `wire` the frames its ports have sent, oldest
first; `answer` is what the last read returned; `readbacks` are the reads of READBACK that wait for side effects, and `fmHeld` the fabric
manager's requests with such a read (R81, R453). -/
structure Links where
  pf : PciState
  vfs : Tbl PciState
  out : List HostMsg
  wire : List (Nat × List Byte)
  answer : Option Quad
  abort : Bool
  readbacks : List Requester
  fmHeld : List Frame
  ports : List Port
  reqNo : Nat
  ownerReads : List (List Byte)
  deriving DecidableEq, Repr, Inhabited

/-- The management side and the compute side's housekeeping. -/
structure Chip where
  aux : Aux
  pins : Pins
  power : Power
  test : Test
  intc : Intc
  trace : List TraceUnit
  mergeSeq : Nat
  galleries : List Gallery
  bootLevel : Byte × Byte
  free : Nat
  deriving DecidableEq, Repr, Inhabited

/-- The node. `regs` is the register file: words that differ from their reset value, by address (RegTables.lean); `staged` and
`latched` are the staged low words and latched high words of R13. -/
structure State where
  pending : List Instr
  regs : Tbl Word
  staged : Tbl Word
  latched : Tbl Word
  step : Step
  sched : Sched
  store : Store
  mem : Mem
  links : Links
  faults : Faults
  chip : Chip
  deriving DecidableEq, Repr

/-- Why a command faults. -/
inductive Fault where
  /-- An HBM access that does not lie in the 39-bit address space of R313 (raised by the readers of images); safe. -/
  | hbmAddress (addr : Nat)
  deriving DecidableEq, Repr

/-- Why a command has no meaning. -/
inductive Refusal where
  /-- The command has not been modelled (raised by the dispatch only); safe. -/
  | notModelled (mnemonic : String)
  deriving DecidableEq, Repr

/-! ## Reset -/

/-- The built-in kernel columns of R109, profile 1. -/
def builtin012 : List Kernel :=
  [⟨3, 3, 32, 0, 0, 0x00, 0x0D, 0, 0⟩, ⟨2, 4, 64, 0, 0, 0x03, 0x0D, 0, 0⟩, ⟨3, 3, 128, 0, 0, 0x00, 0x0D, 0, 0⟩]

/-- Built-in profile 1 (R109). -/
def profile1 : Profile :=
  ⟨1, builtin012 ++ [⟨1, 3, 32, 0, 0, 0x04, 0x0C, 0, 0⟩, ⟨3, 1, 32, 0, 0, 0x04, 0x0C, 3, 0⟩,
    ⟨5, 5, 32, 0, 0, 0x04, 0x0C, 0x0C, 0⟩, ⟨0x0C, 0x0C, 32, 2, 2, 0x00, 0x0C, 0, 0⟩], []⟩

/-- Built-in profile 2 (R109). -/
def profile2 : Profile :=
  ⟨2, builtin012 ++ [⟨8, 8, 32, 1, 1, 0x00, 0x0C, 0x0C, 1⟩, ⟨0x0A, 8, 32, 1, 1, 0x00, 0x0C, 0x0C, 1⟩,
    ⟨0x0C, 0x0C, 32, 2, 2, 0x00, 0x0C, 0, 0⟩], []⟩

/-- Classification entry 0 at reset (R460): FM_REQ from anyone, ACTION FM. -/
def class0 : ClassEntry := ⟨0x0800_0000, 0xFF00_0000, true, 0, 0, 2⟩

def Rail.off : Rail := ⟨false, false, 0⟩
/-- With every supply removed (R486). -/
def Aux.off : Aux := ⟨List.replicate 12 Rail.off, false, false, 0, false, false, none, 0, false⟩
/-- With every rail valid and the reference clocks stable, as RESET_N may be deasserted (R558, R565). -/
def Aux.reset : Aux := ⟨List.replicate 12 ⟨true, true, 0⟩, false, false, 0, false, false, none, 0, true⟩
def Pins.reset : Pins := ⟨true, false, false, 0⟩
def Avs.reset : Avs := ⟨false, 1250, 1250, false⟩
def Power.reset : Power := ⟨1250, 1250, List.replicate 54 0, Avs.reset, Avs.reset⟩
def Test.reset : Test := ⟨0x01, 0, false, false, none⟩
def Src.reset : Src := ⟨0, 0, 0, false, 3, none, false, false, none, false⟩
def CoreSt.reset (e : Bool) : CoreSt := ⟨e, []⟩
def Intc.reset : Intc :=
  ⟨[], [CoreSt.reset true, CoreSt.reset false, CoreSt.reset false, CoreSt.reset false],
   [[], [], [], []], [[], [], [], []]⟩
def TraceUnit.reset : TraceUnit := ⟨[], false, 0, [(0, 0), (0, 0), (0, 0)], 0, 0, 0, 0⟩
def Gallery.reset : Gallery :=
  { fstate := 0, inService := true, leave := false, ret := false, faulted := false, failed := false, forced := false, hot := false,
    postponed := false, pushedEnter := false, fromOff := false, wakeAsked := false, tags := List.replicate 16 0, dozing := 0,
    stretched := false, lines := [], flushRange := (0, 0), flushLeft := none, flushInv := false, mbist := false, invalid := false }
def Graft.reset : Graft := ⟨false, 0, 0, false, false, [], [], [], [], [], []⟩
def Faults.reset : Faults := ⟨0, false, false, [], [], [], Graft.reset, [], 0, [], [], []⟩
def Port.reset : Port := ⟨0, 0, 0, [[], [], [], [], []], [], [(0, class0)], none, none, [], none, [0, 0, 0]⟩
def PciState.reset : PciState := ⟨false, false, 0, 0, false, []⟩
def Links.reset : Links := ⟨PciState.reset, [], [], [], none, false, [], [], List.replicate 4 Port.reset, 0, []⟩
def NearBank.reset : NearBank := ⟨[], 0, 0, 0, []⟩
def Stack.reset : Stack := ⟨false, [], []⟩
def Flash.reset : Flash :=
  { blocks := [], plots := [], spill := [], journal := [], ckpts := [], tables := [], lost := [], mapCkpt := 0, dies := [], failedDies := [],
    timeouts := [], rebuilding := none, rebuildQ := [], running := false, wpPending := [], wpLow := [], reports := [], reportNo := 0, dirty := [], mapOld := [], mapWb := [],
    wb := [], batchNo := 0, spillGib := 128, inventory := [], rows := [], nextGroup := 0, recheck := [], reading := [], cache := [], heat := [], mapGen := [] }
def Mem.reset : Mem := ⟨[], List.replicate 8 Stack.reset, List.replicate 4 NearBank.reset, Flash.reset⟩
def Store.reset : Store := ⟨[], none, [], none, [], [], []⟩
def Sched.reset : Sched :=
  { plans := [], profiles := [profile1, profile2], flights := [], ready := [], queued := [], nextFlight := 1, nextOrder := 0, fair := [],
    cache := [], planLoad := none, planRetire := none, profileLoad := none, modelLoad := none, modelRetire := none, inval := none,
    hist := [], parts := [], served := [] }
def Step.reset : Step := ⟨0, 0, false, [], false, false, false, false, 0, none, 0, false, none, none, false⟩
def Chip.reset : Chip :=
  ⟨Aux.reset, Pins.reset, Power.reset, Test.reset, Intc.reset, List.replicate 51 TraceUnit.reset, 0,
   List.replicate 50 Gallery.reset, (0, 0), 0⟩

/-- The node right after reset: every register at the reset value of its table (an empty register file), no command waiting. -/
def State.reset : State :=
  { pending := [], regs := [], staged := [], latched := [], step := Step.reset, sched := Sched.reset,
    store := Store.reset, mem := Mem.reset, links := Links.reset, faults := Faults.reset, chip := Chip.reset }

end Sys2Proof.Machine
end

