-- ==== Sys2Proof/Machine/RegTables.lean ====
section
/-! DEFINITION. The register tables of the manual as data: per page kind the offset, reset value and access of every 32-bit word
(R9 to R15 and the tables of 02 to 18), and where the pages lie (R597, R21, R414, R603). -/
namespace Sys2Proof.Machine

/-- The page kinds of R20, and the two pages of a virtual function (R603). -/
inductive PageKind where
  | atrium | sched | fault | intc | power | test | pcie | ft | port | hbm | nb | flashCh | trace | gallery | tile | doorbell | tstatus
  deriving DecidableEq, Repr

/-- Whether a word is a register of its own or a half of a 64-bit one (R13). -/
inductive Wide where
  | one | low | high
  deriving DecidableEq, Repr

/-- One word of a page: reset value, the bits software sets (RW) and clears (W1C), whether a read clears it (RC), whether its table says it holds at its maximum. -/
structure RegDef where
  off : Nat
  reset : Nat
  rw : Nat
  w1c : Nat
  rc : Bool
  hold : Bool
  wide : Wide
  deriving DecidableEq, Repr

def atriumRegs0 : List RegDef := [
  ⟨0x18, 0x0, 0x0, 0x0, false, false, .one⟩,
  ⟨0x20, 0x0, 0x0, 0x0, false, false, .one⟩,
  ⟨0x24, 0x0, 0xFF, 0x0, false, false, .one⟩,
  ⟨0x28, 0x0, 0x0, 0xFF, false, false, .one⟩,
  ⟨0x30, 0x0, 0x0, 0x3F, false, false, .one⟩,
  ⟨0x34, 0x0, 0x2B, 0x0, false, false, .one⟩,
  ⟨0x38, 0x0, 0x0, 0x0, false, false, .one⟩,
  ⟨0x3C, 0x0, 0x0, 0x0, true, true, .one⟩,
  ⟨0x40, 0x840A100, 0x0, 0x0, false, false, .one⟩,
  ⟨0x48, 0x0, 0x0, 0x0, false, false, .low⟩,
  ⟨0x4C, 0x0, 0x0, 0x0, false, false, .high⟩,
  ⟨0x100, 0x1002, 0xFF07, 0x0, false, false, .one⟩,
  ⟨0x104, 0x10, 0x0, 0x0, false, false, .one⟩,
  ⟨0x108, 0x0, 0x0, 0x0, false, false, .low⟩,
  ⟨0x10C, 0x0, 0x0, 0x0, false, false, .high⟩,
  ⟨0x110, 0x7D0, 0xFFFFFFFF, 0x0, false, false, .one⟩,
  ⟨0x114, 0x0, 0x0, 0x0, true, true, .one⟩,
  ⟨0x118, 0x0, 0x0, 0x0, true, true, .one⟩,
  ⟨0x11C, 0x0, 0x0, 0x0, true, true, .one⟩,
  ⟨0x120, 0x0, 0x0, 0x0, false, false, .one⟩,
  ⟨0x124, 0xFA, 0x0, 0x0, false, false, .one⟩,
  ⟨0x140, 0x0, 0x0, 0x0, false, false, .low⟩,
  ⟨0x144, 0x0, 0x0, 0x0, false, false, .high⟩,
  ⟨0x180, 0x0, 0x7FFF, 0x0, false, false, .one⟩,
  ⟨0x184, 0x88B5, 0xFFFF, 0x0, false, false, .one⟩,
  ⟨0x188, 0x8000, 0xFFFF, 0x0, false, false, .one⟩,
  ⟨0x18C, 0x0, 0x0, 0x0, false, false, .one⟩,
  ⟨0x190, 0x0, 0x0, 0x0, false, false, .one⟩,
  ⟨0x194, 0x0, 0xFF, 0x0, false, false, .one⟩,
  ⟨0x198, 0x0, 0xFFFFFFFF, 0x0, false, false, .low⟩,
  ⟨0x19C, 0x0, 0xFFFF, 0x0, false, false, .high⟩,
  ⟨0x1A0, 0x101, 0x0, 0x0, false, false, .one⟩,
  ⟨0x1A4, 0x0, 0x0, 0x0, true, true, .one⟩,
  ⟨0x1A8, 0x0, 0x0, 0x0, true, false, .one⟩,
  ⟨0x1AC, 0x0, 0x0, 0x0, false, false, .one⟩,
  ⟨0x1C0, 0x0, 0x0, 0x0, false, false, .low⟩,
  ⟨0x1C4, 0x0, 0x0, 0x0, false, false, .high⟩,
  ⟨0x1C8, 0x0, 0xFF000000, 0x0, false, false, .one⟩,
  ⟨0x1D0, 0x0, 0x0, 0x0, false, false, .low⟩,
  ⟨0x1D4, 0x0, 0x0, 0x0, false, false, .high⟩]

def atriumRegs1 : List RegDef := [
  ⟨0x1D8, 0x0, 0x0, 0x0, false, false, .low⟩,
  ⟨0x1DC, 0x0, 0x0, 0x0, false, false, .high⟩]

def atriumRegs : List RegDef := atriumRegs0 ++ atriumRegs1

def schedRegs0 : List RegDef := [
  ⟨0x18, 0x0, 0x0, 0x0, false, false, .one⟩,
  ⟨0x20, 0x0, 0x0, 0x0, false, false, .one⟩,
  ⟨0x24, 0x0, 0x7FFF00, 0x0, false, false, .one⟩,
  ⟨0x28, 0x0, 0x0, 0x7FFF00, false, false, .one⟩,
  ⟨0x30, 0x0, 0x0, 0xF, false, false, .one⟩,
  ⟨0x34, 0x0, 0xF, 0x0, false, false, .one⟩,
  ⟨0x38, 0x0, 0x0, 0x0, false, false, .one⟩,
  ⟨0x3C, 0x0, 0x0, 0x0, true, true, .one⟩,
  ⟨0x40, 0x2, 0x7, 0x0, false, false, .one⟩,
  ⟨0x44, 0x800, 0xFFFF, 0x0, false, false, .one⟩,
  ⟨0x48, 0x0, 0xFFFFFFC0, 0x0, false, false, .low⟩,
  ⟨0x4C, 0x0, 0xFFFFFFFF, 0x0, false, false, .high⟩,
  ⟨0x50, 0x0, 0x3FF, 0x0, false, false, .one⟩,
  ⟨0x54, 0x0, 0x0, 0x0, false, false, .one⟩,
  ⟨0x58, 0x1000100, 0x0, 0x0, false, false, .one⟩,
  ⟨0x5C, 0x0, 0x0, 0x0, false, false, .one⟩,
  ⟨0x60, 0x0, 0x0, 0x0, true, true, .one⟩,
  ⟨0x64, 0x0, 0x0, 0x0, true, false, .one⟩,
  ⟨0x68, 0x0, 0x0, 0x0, true, false, .one⟩,
  ⟨0x6C, 0x0, 0x0, 0x0, true, false, .one⟩,
  ⟨0x70, 0x0, 0x0, 0x0, true, false, .one⟩,
  ⟨0x80, 0x0, 0xFFFFFFFF, 0x0, false, false, .low⟩,
  ⟨0x84, 0x0, 0xFFFFFFFF, 0x0, false, false, .high⟩,
  ⟨0x88, 0x0, 0x0, 0x0, false, false, .one⟩,
  ⟨0x8C, 0x0, 0x0, 0x0, false, false, .one⟩,
  ⟨0x90, 0x2, 0x0, 0x0, false, false, .one⟩,
  ⟨0xC0, 0x0, 0xFFFFFFFF, 0x0, false, false, .low⟩,
  ⟨0xC4, 0x0, 0xFFFFFFFF, 0x0, false, false, .high⟩,
  ⟨0xC8, 0x0, 0xFFFFFFFF, 0x0, false, false, .one⟩,
  ⟨0xCC, 0x0, 0xFF000FFF, 0x0, false, false, .one⟩,
  ⟨0xD0, 0x0, 0x0, 0x0, false, false, .one⟩,
  ⟨0xD4, 0x0, 0x0, 0x0, false, false, .one⟩,
  ⟨0xD8, 0x0, 0x0, 0x0, false, false, .low⟩,
  ⟨0xDC, 0x0, 0x0, 0x0, false, false, .high⟩,
  ⟨0xE0, 0x0, 0x0, 0x0, false, false, .low⟩,
  ⟨0xE4, 0x0, 0x0, 0x0, false, false, .high⟩,
  ⟨0xE8, 0x0, 0xFFF, 0x0, false, false, .one⟩,
  ⟨0xEC, 0x0, 0x0, 0x0, false, false, .one⟩,
  ⟨0xF0, 0x1000100, 0x0, 0x0, false, false, .one⟩,
  ⟨0xF4, 0x0, 0x0, 0x0, true, true, .one⟩]

def schedRegs1 : List RegDef := [
  ⟨0xF8, 0x0, 0x0, 0x0, true, true, .one⟩,
  ⟨0xFC, 0x0, 0x0, 0x0, false, false, .one⟩,
  ⟨0x100, 0x0, 0x0, 0x0, false, false, .one⟩,
  ⟨0x104, 0x0, 0x0, 0x0, false, false, .one⟩,
  ⟨0x108, 0x10000, 0xFFFFFFFF, 0x0, false, false, .one⟩,
  ⟨0x10C, 0x4000, 0xFFFFFFFF, 0x0, false, false, .one⟩,
  ⟨0x110, 0x9C40, 0xFFFFFFFF, 0x0, false, false, .one⟩,
  ⟨0x114, 0x100, 0xFFFF, 0x0, false, false, .one⟩,
  ⟨0x118, 0x40, 0xFFFF, 0x0, false, false, .one⟩,
  ⟨0x11C, 0x11, 0x1F, 0x0, false, false, .one⟩,
  ⟨0x120, 0x0, 0x0, 0x0, false, false, .low⟩,
  ⟨0x124, 0x0, 0x0, 0x0, false, false, .high⟩,
  ⟨0x128, 0x0, 0x0, 0x0, false, false, .low⟩,
  ⟨0x12C, 0x0, 0x0, 0x0, false, false, .high⟩,
  ⟨0x130, 0x0, 0x0, 0x0, true, true, .one⟩,
  ⟨0x134, 0x0, 0x0, 0x0, true, false, .one⟩,
  ⟨0x138, 0x0, 0x0, 0x0, true, false, .one⟩,
  ⟨0x13C, 0x0, 0x0, 0x0, false, false, .one⟩,
  ⟨0x140, 0x0, 0x0, 0x0, true, false, .one⟩,
  ⟨0x144, 0x0, 0x0, 0x0, true, false, .one⟩,
  ⟨0x180, 0x0, 0xFFFFFFFF, 0x0, false, false, .low⟩,
  ⟨0x184, 0x0, 0xFFFFFFFF, 0x0, false, false, .high⟩,
  ⟨0x188, 0x0, 0x0, 0x0, false, false, .one⟩,
  ⟨0x18C, 0x0, 0x0, 0x0, false, false, .one⟩,
  ⟨0x190, 0x0, 0xFFF, 0x0, false, false, .one⟩,
  ⟨0x194, 0x0, 0x0, 0x0, false, false, .one⟩,
  ⟨0x198, 0x0, 0x0, 0x0, false, false, .one⟩,
  ⟨0x1A0, 0x0, 0x0, 0x0, true, true, .one⟩,
  ⟨0x1A4, 0x0, 0x0, 0x0, true, false, .one⟩,
  ⟨0x1A8, 0x0, 0x0, 0x0, true, false, .one⟩,
  ⟨0x1AC, 0x0, 0x0, 0x0, true, false, .one⟩,
  ⟨0x1B0, 0x0, 0x0, 0x0, true, false, .one⟩,
  ⟨0x1B4, 0x0, 0x0, 0x0, true, false, .one⟩,
  ⟨0x1B8, 0x0, 0x0, 0x0, true, false, .one⟩,
  ⟨0x1BC, 0x0, 0x0, 0x0, true, false, .one⟩,
  ⟨0x200, 0x0, 0xFFFFFFFF, 0x0, false, false, .low⟩,
  ⟨0x204, 0x0, 0xFFFFFFFF, 0x0, false, false, .high⟩,
  ⟨0x208, 0x0, 0xFF00003F, 0x0, false, false, .one⟩,
  ⟨0x20C, 0x0, 0x0, 0x0, false, false, .one⟩,
  ⟨0x210, 0x0, 0x0, 0x0, false, false, .one⟩]

def schedRegs2 : List RegDef := [
  ⟨0x214, 0xA2800, 0x0, 0x0, false, false, .one⟩,
  ⟨0x218, 0x0, 0x0, 0x0, true, false, .one⟩,
  ⟨0x21C, 0x0, 0x0, 0x0, true, true, .one⟩,
  ⟨0x220, 0x0, 0xFFFFFFFF, 0x0, false, false, .low⟩,
  ⟨0x224, 0x0, 0xFFFFFFFF, 0x0, false, false, .high⟩,
  ⟨0x228, 0x0, 0xFFFFFFFF, 0x0, false, false, .one⟩,
  ⟨0x22C, 0x0, 0xFF0003FF, 0x0, false, false, .one⟩,
  ⟨0x230, 0x0, 0x0, 0x0, false, false, .one⟩,
  ⟨0x234, 0x0, 0x0, 0x0, false, false, .one⟩,
  ⟨0x238, 0x0, 0x0, 0x0, false, false, .low⟩,
  ⟨0x23C, 0x0, 0x0, 0x0, false, false, .high⟩,
  ⟨0x240, 0x0, 0x3FF, 0x0, false, false, .one⟩,
  ⟨0x244, 0x0, 0x0, 0x0, false, false, .one⟩,
  ⟨0x248, 0x0, 0x0, 0x0, false, false, .one⟩,
  ⟨0x24C, 0x0, 0x0, 0x0, false, false, .one⟩,
  ⟨0x250, 0x0, 0x0, 0x0, true, true, .one⟩,
  ⟨0x254, 0x0, 0x0, 0x0, true, false, .one⟩,
  ⟨0x300, 0x0, 0xFFFFFFFF, 0x0, false, false, .low⟩,
  ⟨0x304, 0x0, 0xFFFFFFFF, 0x0, false, false, .high⟩,
  ⟨0x308, 0x0, 0x0, 0x0, false, false, .one⟩,
  ⟨0x30C, 0x0, 0x0, 0x0, false, false, .one⟩,
  ⟨0x310, 0x0, 0xFFF, 0x0, false, false, .one⟩,
  ⟨0x314, 0x0, 0x0, 0x0, false, false, .one⟩,
  ⟨0x318, 0x0, 0x0, 0x0, false, false, .one⟩,
  ⟨0x31C, 0x0, 0x0, 0x0, true, true, .one⟩,
  ⟨0x320, 0x0, 0x0, 0x0, true, false, .one⟩,
  ⟨0x324, 0x0, 0x0, 0x0, true, false, .one⟩,
  ⟨0x328, 0x0, 0x0, 0x0, false, false, .one⟩,
  ⟨0x340, 0x0, 0xFF, 0x0, false, false, .one⟩,
  ⟨0x344, 0x0, 0x0, 0x0, false, false, .one⟩,
  ⟨0x348, 0x0, 0x0, 0x0, false, false, .one⟩,
  ⟨0x34C, 0x0, 0xFF, 0x0, false, false, .one⟩,
  ⟨0x350, 0x0, 0xFFFF, 0x0, false, false, .one⟩,
  ⟨0x354, 0x0, 0x7FF, 0x0, false, false, .one⟩,
  ⟨0x358, 0x0, 0x7FF, 0x0, false, false, .one⟩,
  ⟨0x35C, 0x0, 0xFFFF, 0x0, false, false, .one⟩,
  ⟨0x360, 0x0, 0xFFFF, 0x0, false, false, .one⟩,
  ⟨0x364, 0x0, 0xFFFF, 0x0, false, false, .one⟩,
  ⟨0x368, 0x0, 0x0, 0x0, false, false, .one⟩,
  ⟨0x36C, 0x0, 0x0, 0x0, false, false, .one⟩]

def schedRegs3 : List RegDef := [
  ⟨0x370, 0x0, 0x0, 0x0, true, false, .one⟩,
  ⟨0x374, 0x0, 0x0, 0x0, true, true, .one⟩,
  ⟨0x378, 0x0, 0xF, 0x0, false, false, .one⟩,
  ⟨0x37C, 0x0, 0x0, 0x0, false, false, .one⟩,
  ⟨0x380, 0x0, 0x0, 0x0, false, false, .low⟩,
  ⟨0x384, 0x0, 0x0, 0x0, false, false, .high⟩,
  ⟨0x388, 0x0, 0x0, 0x0, false, false, .low⟩,
  ⟨0x38C, 0x0, 0x0, 0x0, false, false, .high⟩,
  ⟨0x3A0, 0x100, 0xFFFF, 0x0, false, false, .one⟩,
  ⟨0x3A4, 0x10410, 0xFFFFFF, 0x0, false, false, .one⟩,
  ⟨0x3A8, 0x0, 0x0, 0x0, false, false, .low⟩,
  ⟨0x3AC, 0x0, 0x0, 0x0, false, false, .high⟩,
  ⟨0x3B0, 0x0, 0x0, 0x0, false, false, .one⟩,
  ⟨0x3B4, 0x440BE, 0x0, 0x0, false, false, .one⟩,
  ⟨0x3B8, 0x0, 0x0, 0x0, false, false, .one⟩]

def schedRegs : List RegDef := schedRegs0 ++ schedRegs1 ++ schedRegs2 ++ schedRegs3

def faultRegs0 : List RegDef := [
  ⟨0x10, 0x0, 0x3, 0x0, false, false, .one⟩,
  ⟨0x18, 0x0, 0x0, 0x0, false, false, .one⟩,
  ⟨0x20, 0x0, 0x0, 0x0, false, false, .one⟩,
  ⟨0x24, 0x0, 0xFFF, 0x0, false, false, .one⟩,
  ⟨0x28, 0x0, 0x0, 0xFFF, false, false, .one⟩,
  ⟨0x30, 0x0, 0x0, 0x1, false, false, .one⟩,
  ⟨0x34, 0x0, 0x0, 0x0, false, false, .one⟩,
  ⟨0x38, 0x0, 0x0, 0x0, false, false, .one⟩,
  ⟨0x3C, 0x0, 0x0, 0x0, true, true, .one⟩,
  ⟨0x40, 0x0, 0x0, 0xFFFFFFFF, false, false, .low⟩,
  ⟨0x44, 0x0, 0x0, 0xFFFFFFFF, false, false, .high⟩,
  ⟨0x48, 0x0, 0x0, 0x0, false, false, .low⟩,
  ⟨0x4C, 0x0, 0x0, 0x0, false, false, .high⟩,
  ⟨0x50, 0x0, 0x0, 0x0, false, false, .low⟩,
  ⟨0x54, 0x0, 0x0, 0x0, false, false, .high⟩,
  ⟨0x58, 0x0, 0x0, 0x0, false, false, .low⟩,
  ⟨0x5C, 0x0, 0x0, 0x0, false, false, .high⟩,
  ⟨0x60, 0x0, 0x0, 0x0, false, false, .low⟩,
  ⟨0x64, 0x0, 0x0, 0x0, false, false, .high⟩,
  ⟨0x68, 0x0, 0x0, 0x0, false, false, .low⟩,
  ⟨0x6C, 0x0, 0x0, 0x0, false, false, .high⟩,
  ⟨0x70, 0x0, 0x0, 0x1, false, false, .one⟩,
  ⟨0x74, 0x0, 0x0, 0x0, true, true, .one⟩,
  ⟨0x78, 0x0, 0x0, 0x0, true, false, .one⟩,
  ⟨0x7C, 0x0, 0x0, 0x0, true, false, .one⟩,
  ⟨0x80, 0x0, 0x0, 0x0, false, false, .low⟩,
  ⟨0x84, 0x0, 0x0, 0x0, false, false, .high⟩,
  ⟨0x88, 0x0, 0x0, 0x0, false, false, .low⟩,
  ⟨0x8C, 0x0, 0x0, 0x0, false, false, .high⟩,
  ⟨0x90, 0x10000000, 0x0, 0xC0000000, false, false, .one⟩,
  ⟨0x94, 0x0, 0x0, 0x0, false, false, .one⟩,
  ⟨0x98, 0x0, 0x0, 0x0, true, false, .one⟩,
  ⟨0xA0, 0x0, 0x0, 0x0, false, false, .one⟩,
  ⟨0xA4, 0x0, 0x0, 0x0, false, false, .one⟩,
  ⟨0xA8, 0x4, 0xFF, 0x0, false, false, .one⟩,
  ⟨0xAC, 0x1000, 0xFFFFFFFF, 0x0, false, false, .one⟩,
  ⟨0xB0, 0x9C40, 0xFFFFFFFF, 0x0, false, false, .one⟩,
  ⟨0xB4, 0x10, 0x1FF, 0x0, false, false, .one⟩,
  ⟨0xB8, 0x190, 0xFFFF, 0x0, false, false, .one⟩,
  ⟨0xBC, 0xFA0, 0xFFFFFFFF, 0x0, false, false, .one⟩]

def faultRegs1 : List RegDef := [
  ⟨0xC0, 0x0, 0x0, 0x0, false, false, .low⟩,
  ⟨0xC4, 0x0, 0x0, 0x0, false, false, .high⟩,
  ⟨0xC8, 0x0, 0x0, 0x0, false, false, .low⟩,
  ⟨0xCC, 0x0, 0x0, 0x0, false, false, .high⟩,
  ⟨0xD0, 0x0, 0x0, 0x0, false, false, .one⟩,
  ⟨0xD4, 0x0, 0x0, 0x0, true, true, .one⟩,
  ⟨0xD8, 0x0, 0x0, 0x0, true, true, .one⟩,
  ⟨0xDC, 0x0, 0x0, 0x0, true, true, .one⟩,
  ⟨0xE0, 0x0, 0x0, 0x0, false, false, .low⟩,
  ⟨0xE4, 0x0, 0x0, 0x0, false, false, .high⟩,
  ⟨0xE8, 0x0, 0x0, 0x0, true, false, .one⟩,
  ⟨0xEC, 0x0, 0x0, 0x0, true, true, .one⟩,
  ⟨0xF0, 0x0, 0x0, 0x0, false, false, .one⟩,
  ⟨0xF4, 0x0, 0x0, 0x0, true, false, .one⟩,
  ⟨0xF8, 0x0, 0x0, 0x0, false, false, .one⟩,
  ⟨0x100, 0x0, 0xFF, 0x0, false, false, .one⟩,
  ⟨0x108, 0x0, 0xFFFFFFFF, 0x0, false, false, .low⟩,
  ⟨0x10C, 0x0, 0xFFFFFFFF, 0x0, false, false, .high⟩,
  ⟨0x110, 0x0, 0x0, 0x0, false, false, .one⟩,
  ⟨0x114, 0x0, 0x0, 0x0, false, false, .one⟩,
  ⟨0x118, 0x0, 0x0, 0x0, false, false, .low⟩,
  ⟨0x11C, 0x0, 0x0, 0x0, false, false, .high⟩,
  ⟨0x120, 0x0, 0x0, 0x0, true, false, .one⟩]

def faultRegs : List RegDef := faultRegs0 ++ faultRegs1

def intcRegs0 : List RegDef := [
  ⟨0x18, 0x0, 0x0, 0x0, false, false, .one⟩,
  ⟨0x20, 0x0, 0x0, 0x0, false, false, .one⟩,
  ⟨0x24, 0x0, 0x1, 0x0, false, false, .one⟩,
  ⟨0x28, 0x0, 0x0, 0x1, false, false, .one⟩,
  ⟨0x30, 0x0, 0x0, 0x3, false, false, .one⟩,
  ⟨0x34, 0x0, 0x3, 0x0, false, false, .one⟩,
  ⟨0x38, 0x0, 0x0, 0x0, false, false, .one⟩,
  ⟨0x3C, 0x0, 0x0, 0x0, true, true, .one⟩,
  ⟨0x40, 0x8, 0xF, 0x0, false, false, .one⟩,
  ⟨0x44, 0x0, 0xFFF, 0x0, false, false, .one⟩,
  ⟨0x48, 0xC, 0xFF0F3100, 0x0, false, false, .one⟩,
  ⟨0x4C, 0x0, 0x0, 0x0, false, false, .one⟩,
  ⟨0x50, 0x0, 0x0, 0x0, false, false, .one⟩,
  ⟨0x54, 0x0, 0x0, 0x0, false, false, .one⟩,
  ⟨0x58, 0x10000, 0x0, 0x0, false, false, .one⟩,
  ⟨0x5C, 0x1, 0x1, 0x0, false, false, .one⟩,
  ⟨0x60, 0x0, 0x0, 0x0, false, false, .one⟩,
  ⟨0x64, 0x0, 0x0, 0x0, false, false, .one⟩,
  ⟨0x68, 0x10000, 0x0, 0x0, false, false, .one⟩,
  ⟨0x6C, 0x0, 0x1, 0x0, false, false, .one⟩,
  ⟨0x70, 0x0, 0x0, 0x0, false, false, .one⟩,
  ⟨0x74, 0x0, 0x0, 0x0, false, false, .one⟩,
  ⟨0x78, 0x10000, 0x0, 0x0, false, false, .one⟩,
  ⟨0x7C, 0x0, 0x1, 0x0, false, false, .one⟩,
  ⟨0x80, 0x0, 0x0, 0x0, false, false, .one⟩,
  ⟨0x84, 0x0, 0x0, 0x0, false, false, .one⟩,
  ⟨0x88, 0x10000, 0x0, 0x0, false, false, .one⟩,
  ⟨0x8C, 0x0, 0x1, 0x0, false, false, .one⟩,
  ⟨0x90, 0x0, 0x0, 0x0, true, true, .one⟩,
  ⟨0x94, 0x0, 0x0, 0x0, true, true, .one⟩,
  ⟨0x98, 0x0, 0x0, 0x0, true, false, .one⟩,
  ⟨0x9C, 0x0, 0x0, 0x0, true, false, .one⟩,
  ⟨0xC0, 0x0, 0x0, 0x0, false, false, .low⟩,
  ⟨0xC4, 0x0, 0x0, 0x0, false, false, .high⟩,
  ⟨0xC8, 0x0, 0x0, 0x0, false, false, .low⟩,
  ⟨0xCC, 0x0, 0x0, 0x0, false, false, .high⟩,
  ⟨0xD0, 0x0, 0x0, 0x0, false, false, .low⟩,
  ⟨0xD4, 0x0, 0x0, 0x0, false, false, .high⟩,
  ⟨0xD8, 0x0, 0x0, 0x0, false, false, .low⟩,
  ⟨0xDC, 0x0, 0x0, 0x0, false, false, .high⟩]

def intcRegs1 : List RegDef := [
  ⟨0xE0, 0x0, 0x0, 0x0, true, false, .low⟩,
  ⟨0xE4, 0x0, 0x0, 0x0, true, false, .high⟩,
  ⟨0xE8, 0x0, 0x0, 0x0, true, false, .low⟩,
  ⟨0xEC, 0x0, 0x0, 0x0, true, false, .high⟩,
  ⟨0xF0, 0x0, 0x0, 0x0, true, false, .low⟩,
  ⟨0xF4, 0x0, 0x0, 0x0, true, false, .high⟩,
  ⟨0xF8, 0x0, 0x0, 0x0, true, false, .low⟩,
  ⟨0xFC, 0x0, 0x0, 0x0, true, false, .high⟩,
  ⟨0x100, 0x0, 0x0, 0x0, false, false, .low⟩,
  ⟨0x104, 0x0, 0x0, 0x0, false, false, .high⟩,
  ⟨0x108, 0x0, 0x0, 0x0, false, false, .low⟩,
  ⟨0x10C, 0x0, 0x0, 0x0, false, false, .high⟩,
  ⟨0x110, 0x0, 0x0, 0x0, false, false, .low⟩,
  ⟨0x114, 0x0, 0x0, 0x0, false, false, .high⟩,
  ⟨0x118, 0x0, 0x0, 0x0, false, false, .low⟩,
  ⟨0x11C, 0x0, 0x0, 0x0, false, false, .high⟩,
  ⟨0x120, 0x0, 0x0, 0x0, true, false, .low⟩,
  ⟨0x124, 0x0, 0x0, 0x0, true, false, .high⟩,
  ⟨0x128, 0x0, 0x0, 0x0, true, false, .low⟩,
  ⟨0x12C, 0x0, 0x0, 0x0, true, false, .high⟩,
  ⟨0x130, 0x0, 0x0, 0x0, true, false, .low⟩,
  ⟨0x134, 0x0, 0x0, 0x0, true, false, .high⟩,
  ⟨0x138, 0x0, 0x0, 0x0, true, false, .low⟩,
  ⟨0x13C, 0x0, 0x0, 0x0, true, false, .high⟩,
  ⟨0x140, 0x5000000, 0x0, 0xF0000000, false, false, .one⟩,
  ⟨0x144, 0x5000000, 0x0, 0xF0000000, false, false, .one⟩,
  ⟨0x148, 0x5000000, 0x0, 0xF0000000, false, false, .one⟩,
  ⟨0x14C, 0x5000000, 0x0, 0xF0000000, false, false, .one⟩]

def intcRegs : List RegDef := intcRegs0 ++ intcRegs1

def powerRegs : List RegDef := [
  ⟨0x18, 0x4, 0x0, 0x0, false, false, .one⟩,
  ⟨0x20, 0x0, 0x0, 0x0, false, false, .one⟩,
  ⟨0x24, 0x0, 0x7, 0x0, false, false, .one⟩,
  ⟨0x28, 0x0, 0x0, 0x7, false, false, .one⟩,
  ⟨0x30, 0x0, 0x0, 0xF, false, false, .one⟩,
  ⟨0x34, 0x0, 0xC, 0x0, false, false, .one⟩,
  ⟨0x38, 0x0, 0x0, 0x0, false, false, .one⟩,
  ⟨0x3C, 0x0, 0x0, 0x0, true, true, .one⟩,
  ⟨0x40, 0x4E2, 0xFFFF, 0x0, false, false, .one⟩,
  ⟨0x44, 0x4E204E2, 0x0, 0x0, false, false, .one⟩,
  ⟨0x48, 0x2D002D0, 0x0, 0x0, false, false, .one⟩,
  ⟨0x4C, 0x28, 0xFF, 0x0, false, false, .one⟩,
  ⟨0x50, 0x0, 0x0, 0x0, true, true, .one⟩,
  ⟨0x54, 0x64, 0xFF, 0x0, false, false, .one⟩,
  ⟨0x58, 0x0, 0x0, 0x0, false, false, .one⟩,
  ⟨0x5C, 0x0, 0x3F, 0x0, false, false, .one⟩,
  ⟨0x60, 0x0, 0x0, 0x0, false, false, .one⟩,
  ⟨0x64, 0x0, 0x0, 0x0, true, true, .one⟩,
  ⟨0x68, 0x0, 0x0, 0x0, true, false, .one⟩,
  ⟨0x6C, 0x0, 0x0, 0x0, false, false, .one⟩]

def testRegs : List RegDef := [
  ⟨0x18, 0x0, 0x0, 0x0, false, false, .one⟩,
  ⟨0x20, 0x0, 0x0, 0x0, false, false, .one⟩,
  ⟨0x24, 0x0, 0x3, 0x0, false, false, .one⟩,
  ⟨0x28, 0x0, 0x0, 0x3, false, false, .one⟩,
  ⟨0x30, 0x0, 0x0, 0x3, false, false, .one⟩,
  ⟨0x34, 0x0, 0x3, 0x0, false, false, .one⟩,
  ⟨0x38, 0x0, 0x0, 0x0, false, false, .one⟩,
  ⟨0x3C, 0x0, 0x0, 0x0, true, true, .one⟩,
  ⟨0x40, 0x0, 0x7FFFFFF, 0x0, false, false, .one⟩,
  ⟨0x44, 0x0, 0xF1C, 0x0, false, false, .one⟩,
  ⟨0x48, 0x0, 0xFFFFFFFF, 0x0, false, false, .one⟩,
  ⟨0x4C, 0x0, 0xFFFFFFFF, 0x0, false, false, .one⟩,
  ⟨0x50, 0x0, 0x0, 0x0, false, false, .one⟩,
  ⟨0x58, 0x0, 0x0, 0x0, false, false, .low⟩,
  ⟨0x5C, 0x0, 0x0, 0x0, false, false, .high⟩,
  ⟨0x60, 0x0, 0x0, 0x0, false, false, .low⟩,
  ⟨0x64, 0x0, 0x0, 0x0, false, false, .high⟩,
  ⟨0x68, 0x0, 0x0, 0x0, false, false, .one⟩,
  ⟨0x80, 0x0, 0x1F, 0x0, false, false, .one⟩,
  ⟨0x84, 0x0, 0x0, 0x0, false, false, .one⟩,
  ⟨0x88, 0x0, 0x0, 0x0, false, false, .one⟩,
  ⟨0x8C, 0x0, 0x0, 0x0, false, false, .one⟩,
  ⟨0xA0, 0x0, 0xFF, 0x0, false, false, .one⟩,
  ⟨0xA4, 0x0, 0x0, 0x0, false, false, .one⟩,
  ⟨0xA8, 0x0, 0x0, 0x0, false, false, .one⟩,
  ⟨0xAC, 0x0, 0x0, 0x0, false, false, .one⟩,
  ⟨0xC0, 0x0, 0x0, 0x0, true, false, .one⟩]

def pcieRegs : List RegDef := [
  ⟨0x18, 0x0, 0x0, 0x0, false, false, .one⟩,
  ⟨0x20, 0x0, 0x0, 0x0, false, false, .one⟩,
  ⟨0x24, 0x0, 0x3, 0x0, false, false, .one⟩,
  ⟨0x28, 0x0, 0x0, 0x3, false, false, .one⟩,
  ⟨0x30, 0x0, 0x0, 0x1F, false, false, .one⟩,
  ⟨0x34, 0x0, 0x1F, 0x0, false, false, .one⟩,
  ⟨0x38, 0x0, 0x0, 0x0, false, false, .one⟩,
  ⟨0x3C, 0x0, 0x0, 0x0, true, true, .one⟩,
  ⟨0x40, 0x0, 0x0, 0x0, true, true, .one⟩,
  ⟨0x44, 0x0, 0x0, 0x0, true, true, .one⟩,
  ⟨0x48, 0x0, 0x0, 0x0, true, false, .one⟩,
  ⟨0x4C, 0x0, 0x0, 0x0, true, false, .one⟩,
  ⟨0x50, 0x0, 0x0, 0x0, true, false, .one⟩,
  ⟨0x54, 0x0, 0x0, 0x0, true, true, .one⟩,
  ⟨0x58, 0x0, 0x0, 0x0, true, false, .one⟩,
  ⟨0x5C, 0x0, 0x0, 0x0, true, false, .one⟩]

def ftRegs0 : List RegDef := [
  ⟨0x18, 0x0, 0x0, 0x0, false, false, .one⟩,
  ⟨0x20, 0x0, 0x0, 0x0, false, false, .one⟩,
  ⟨0x24, 0x0, 0x1F, 0x0, false, false, .one⟩,
  ⟨0x28, 0x0, 0x0, 0x1F, false, false, .one⟩,
  ⟨0x30, 0x0, 0x0, 0x3, false, false, .one⟩,
  ⟨0x34, 0x0, 0x3, 0x0, false, false, .one⟩,
  ⟨0x38, 0x0, 0x0, 0x0, false, false, .one⟩,
  ⟨0x3C, 0x0, 0x0, 0x0, true, true, .one⟩,
  ⟨0x40, 0x0, 0x0, 0x0, false, false, .one⟩,
  ⟨0x44, 0x0, 0x0, 0x0, false, false, .one⟩,
  ⟨0x48, 0x80, 0xFFFFFFFF, 0x0, false, false, .one⟩,
  ⟨0x4C, 0x0, 0x0, 0x0, false, false, .one⟩,
  ⟨0x50, 0x40000, 0x0, 0x0, false, false, .one⟩,
  ⟨0x54, 0x0, 0x0, 0x0, false, false, .one⟩,
  ⟨0x58, 0x0, 0x0, 0x0, false, false, .one⟩,
  ⟨0x5C, 0x0, 0x0, 0x0, false, false, .one⟩,
  ⟨0x60, 0x8, 0xFF, 0x0, false, false, .one⟩,
  ⟨0x64, 0x40, 0xFFFF, 0x0, false, false, .one⟩,
  ⟨0x68, 0xEA60, 0xFFFFFFFF, 0x0, false, false, .one⟩,
  ⟨0x6C, 0xFA0, 0xFFFFFFFF, 0x0, false, false, .one⟩,
  ⟨0x70, 0x0, 0x0, 0x0, false, false, .one⟩,
  ⟨0x74, 0x0, 0x0, 0x0, false, false, .one⟩,
  ⟨0x78, 0x0, 0x0, 0x0, false, false, .low⟩,
  ⟨0x7C, 0x0, 0x0, 0x0, false, false, .high⟩,
  ⟨0x80, 0x0, 0x0, 0x0, false, false, .one⟩,
  ⟨0x84, 0x0, 0x0, 0x0, false, false, .one⟩,
  ⟨0x88, 0xFA0, 0xFFFFFFFF, 0x0, false, false, .one⟩,
  ⟨0x8C, 0x0, 0x0, 0x0, true, false, .one⟩,
  ⟨0x90, 0x0, 0x0, 0x0, true, false, .one⟩,
  ⟨0x94, 0x0, 0x0, 0x0, true, false, .one⟩,
  ⟨0x98, 0x0, 0x0, 0x0, true, false, .one⟩,
  ⟨0x400, 0x8000, 0x0, 0x0, false, false, .one⟩,
  ⟨0x404, 0x68000, 0x0, 0x0, false, false, .one⟩,
  ⟨0x408, 0x10000, 0xFFFFFFFF, 0x0, false, false, .one⟩,
  ⟨0x40C, 0x10000, 0x0, 0x0, false, false, .one⟩,
  ⟨0x410, 0xFA0, 0xFFFFFFFF, 0x0, false, false, .one⟩,
  ⟨0x414, 0x0, 0x0, 0x0, false, false, .one⟩,
  ⟨0x418, 0x0, 0xFF, 0x0, false, false, .one⟩,
  ⟨0x41C, 0x0, 0xFFFFFFFF, 0x0, false, false, .one⟩,
  ⟨0x420, 0x0, 0x0, 0x0, false, false, .one⟩]

def ftRegs1 : List RegDef := [
  ⟨0x424, 0x0, 0xFFFFFFFF, 0x0, false, false, .one⟩,
  ⟨0x428, 0x0, 0x0, 0x0, false, false, .one⟩,
  ⟨0x42C, 0x0, 0x0, 0x0, true, true, .one⟩,
  ⟨0x430, 0x0, 0x0, 0x0, true, true, .one⟩,
  ⟨0x434, 0x0, 0x0, 0x0, true, true, .one⟩,
  ⟨0x438, 0x0, 0x0, 0x0, false, false, .one⟩,
  ⟨0x43C, 0x3000, 0x0, 0x0, false, false, .one⟩,
  ⟨0x440, 0x0, 0x0, 0x0, true, false, .one⟩,
  ⟨0x444, 0x0, 0x0, 0x0, false, false, .one⟩]

def ftRegs : List RegDef := ftRegs0 ++ ftRegs1

def portRegs0 : List RegDef := [
  ⟨0x18, 0x0, 0x0, 0x0, false, false, .one⟩,
  ⟨0x20, 0x0, 0x0, 0x0, false, false, .one⟩,
  ⟨0x24, 0x0, 0x7, 0x0, false, false, .one⟩,
  ⟨0x28, 0x0, 0x0, 0x7, false, false, .one⟩,
  ⟨0x30, 0x0, 0x0, 0xF, false, false, .one⟩,
  ⟨0x34, 0x0, 0xF, 0x0, false, false, .one⟩,
  ⟨0x38, 0x0, 0x0, 0x0, false, false, .one⟩,
  ⟨0x3C, 0x0, 0x0, 0x0, true, true, .one⟩,
  ⟨0x40, 0x0, 0xFFFFFFFF, 0x0, false, false, .low⟩,
  ⟨0x44, 0x0, 0xFFFF, 0x0, false, false, .high⟩,
  ⟨0x48, 0x0, 0xFFFF, 0x0, false, false, .one⟩,
  ⟨0x50, 0x0, 0xFFFFFFFF, 0x0, false, false, .low⟩,
  ⟨0x54, 0x0, 0xFFFFFFFF, 0x0, false, false, .high⟩,
  ⟨0x58, 0x0, 0xFF, 0x0, false, false, .one⟩,
  ⟨0x60, 0x0, 0xFF007FFF, 0x0, false, false, .low⟩,
  ⟨0x64, 0x0, 0xFFFFFFFF, 0x0, false, false, .high⟩,
  ⟨0x68, 0x0, 0xFF007FFF, 0x0, false, false, .low⟩,
  ⟨0x6C, 0x0, 0xFFFFFFFF, 0x0, false, false, .high⟩,
  ⟨0x70, 0x0, 0x80FF0003, 0x0, false, false, .one⟩,
  ⟨0x78, 0x0, 0x0, 0x0, false, false, .one⟩,
  ⟨0x7C, 0x0, 0x0, 0x0, false, false, .one⟩,
  ⟨0x80, 0x0, 0x0, 0x0, false, false, .one⟩,
  ⟨0x84, 0x0, 0x0, 0x0, true, true, .one⟩,
  ⟨0x88, 0x0, 0x0, 0x0, true, false, .one⟩,
  ⟨0x8C, 0x0, 0x0, 0x0, true, false, .one⟩,
  ⟨0x90, 0x0, 0x0, 0x0, true, false, .one⟩,
  ⟨0x94, 0x0, 0x0, 0x0, true, false, .one⟩,
  ⟨0x98, 0x0, 0x0, 0x0, true, false, .one⟩,
  ⟨0x9C, 0x0, 0x0, 0x0, true, false, .one⟩,
  ⟨0xA0, 0x0, 0x0, 0x0, true, false, .one⟩,
  ⟨0xA4, 0x0, 0x0, 0x0, true, true, .one⟩,
  ⟨0xA8, 0x0, 0x0, 0x0, true, false, .one⟩,
  ⟨0xAC, 0x0, 0x0, 0x0, true, true, .one⟩,
  ⟨0xB0, 0x0, 0x0, 0x0, true, false, .one⟩,
  ⟨0xB4, 0x0, 0x0, 0x0, true, false, .one⟩,
  ⟨0xB8, 0x0, 0x0, 0x0, true, false, .one⟩,
  ⟨0xBC, 0xF, 0xF, 0x0, false, false, .one⟩,
  ⟨0xC0, 0x0, 0x0, 0x0, true, false, .low⟩,
  ⟨0xC4, 0x0, 0x0, 0x0, true, false, .high⟩,
  ⟨0xC8, 0x0, 0x0, 0x0, true, false, .low⟩]

def portRegs1 : List RegDef := [
  ⟨0xCC, 0x0, 0x0, 0x0, true, false, .high⟩]

def portRegs : List RegDef := portRegs0 ++ portRegs1

def hbmRegs : List RegDef := [
  ⟨0x18, 0x3, 0x0, 0x0, false, false, .one⟩,
  ⟨0x20, 0x0, 0x0, 0x0, false, false, .one⟩,
  ⟨0x24, 0x0, 0x7, 0x0, false, false, .one⟩,
  ⟨0x28, 0x0, 0x0, 0x7, false, false, .one⟩,
  ⟨0x30, 0x0, 0x0, 0x1F, false, false, .one⟩,
  ⟨0x34, 0x0, 0x1F, 0x0, false, false, .one⟩,
  ⟨0x38, 0x0, 0x0, 0x0, false, false, .one⟩,
  ⟨0x3C, 0x0, 0x0, 0x0, true, true, .one⟩,
  ⟨0x40, 0x0, 0x0, 0x0, false, false, .low⟩,
  ⟨0x44, 0x0, 0x0, 0x0, false, false, .high⟩,
  ⟨0x48, 0x4, 0xFF, 0x0, false, false, .one⟩,
  ⟨0x4C, 0x0, 0x0, 0x0, true, true, .one⟩,
  ⟨0x50, 0x0, 0x0, 0x0, true, true, .one⟩,
  ⟨0x54, 0x0, 0x0, 0x0, true, false, .one⟩,
  ⟨0x58, 0x0, 0x0, 0x0, true, false, .one⟩,
  ⟨0x5C, 0x0, 0x0, 0x0, false, false, .one⟩]

def nbRegs : List RegDef := [
  ⟨0x18, 0x0, 0x0, 0x0, false, false, .one⟩,
  ⟨0x38, 0x0, 0x0, 0x0, false, false, .one⟩,
  ⟨0x3C, 0x0, 0x0, 0x0, true, true, .one⟩,
  ⟨0x40, 0xF1, 0x0, 0x0, false, false, .one⟩,
  ⟨0x44, 0x0, 0x0, 0x0, false, false, .one⟩,
  ⟨0x48, 0x500, 0x0, 0x0, false, false, .one⟩,
  ⟨0x4C, 0x0, 0x0, 0x0, true, true, .one⟩,
  ⟨0x50, 0x0, 0x0, 0x0, true, false, .one⟩,
  ⟨0x54, 0x0, 0x0, 0x0, true, false, .one⟩,
  ⟨0x58, 0x0, 0x0, 0x0, true, true, .one⟩,
  ⟨0x5C, 0x40, 0x0, 0x0, false, false, .one⟩]

def flashChRegs : List RegDef := [
  ⟨0x18, 0x1, 0x0, 0x0, false, false, .one⟩,
  ⟨0x20, 0x0, 0x0, 0x0, false, false, .one⟩,
  ⟨0x24, 0x0, 0x3, 0x0, false, false, .one⟩,
  ⟨0x28, 0x0, 0x0, 0x3, false, false, .one⟩,
  ⟨0x30, 0x0, 0x0, 0x1F, false, false, .one⟩,
  ⟨0x34, 0x0, 0x1F, 0x0, false, false, .one⟩,
  ⟨0x38, 0x0, 0x0, 0x0, false, false, .one⟩,
  ⟨0x3C, 0x0, 0x0, 0x0, true, true, .one⟩,
  ⟨0x40, 0x5, 0x7, 0x0, false, false, .one⟩,
  ⟨0x44, 0x0, 0x0, 0x0, false, false, .one⟩,
  ⟨0x48, 0x0, 0x0, 0x0, false, false, .one⟩,
  ⟨0x4C, 0x40, 0xFFFF, 0x0, false, false, .one⟩,
  ⟨0x50, 0x2710, 0xFFFF, 0x0, false, false, .one⟩,
  ⟨0x54, 0x0, 0x0, 0x0, true, true, .one⟩,
  ⟨0x58, 0x0, 0x0, 0x0, true, true, .one⟩,
  ⟨0x5C, 0x0, 0x0, 0x0, true, false, .one⟩,
  ⟨0x60, 0x0, 0x0, 0x0, true, true, .one⟩,
  ⟨0x64, 0x0, 0x0, 0x0, true, false, .one⟩,
  ⟨0x68, 0x0, 0x0, 0x0, true, false, .one⟩,
  ⟨0x6C, 0x0, 0x0, 0x0, true, false, .one⟩]

def traceRegs : List RegDef := [
  ⟨0x10, 0x0, 0xF, 0x0, false, false, .one⟩,
  ⟨0x18, 0x0, 0x0, 0x0, false, false, .one⟩,
  ⟨0x30, 0x0, 0x0, 0x1, false, false, .one⟩,
  ⟨0x34, 0x0, 0x1, 0x0, false, false, .one⟩,
  ⟨0x38, 0x0, 0x0, 0x0, false, false, .one⟩,
  ⟨0x3C, 0x0, 0x0, 0x0, true, true, .one⟩,
  ⟨0x40, 0x0, 0x0, 0x0, false, false, .low⟩,
  ⟨0x44, 0x0, 0x0, 0x0, false, false, .high⟩,
  ⟨0x48, 0x10000000, 0x0, 0xC0000000, false, false, .one⟩,
  ⟨0x4C, 0x0, 0x0, 0x0, true, true, .one⟩,
  ⟨0x50, 0x0, 0x0, 0x0, true, false, .one⟩,
  ⟨0x54, 0x40, 0xFFFF, 0x0, false, false, .one⟩,
  ⟨0x80, 0x0, 0xFFFFFFFF, 0x0, false, false, .low⟩,
  ⟨0x84, 0x0, 0xFFFFFFFF, 0x0, false, false, .high⟩,
  ⟨0x88, 0x10000, 0xFFFFFFFF, 0x0, false, false, .one⟩,
  ⟨0x8C, 0x0, 0x103, 0x0, false, false, .one⟩,
  ⟨0x90, 0x0, 0x0, 0x0, false, false, .low⟩,
  ⟨0x94, 0x0, 0x0, 0x0, false, false, .high⟩,
  ⟨0x98, 0x0, 0xFFFFFFFF, 0x0, false, false, .low⟩,
  ⟨0x9C, 0x0, 0xFFFFFFFF, 0x0, false, false, .high⟩,
  ⟨0xA0, 0x1000, 0x1FFF, 0x0, false, false, .one⟩,
  ⟨0xA4, 0x0, 0x0, 0x0, true, false, .one⟩,
  ⟨0xA8, 0x0, 0x0, 0x0, true, false, .one⟩]

def galleryRegs : List RegDef := [
  ⟨0x18, 0x0, 0x0, 0x0, false, false, .one⟩,
  ⟨0x20, 0x0, 0x0, 0x0, false, false, .one⟩,
  ⟨0x24, 0x0, 0x7, 0x0, false, false, .one⟩,
  ⟨0x28, 0x0, 0x0, 0x7, false, false, .one⟩,
  ⟨0x30, 0x0, 0x0, 0x7, false, false, .one⟩,
  ⟨0x34, 0x0, 0x7, 0x0, false, false, .one⟩,
  ⟨0x38, 0x0, 0x0, 0x0, false, false, .one⟩,
  ⟨0x3C, 0x0, 0x0, 0x0, true, true, .one⟩,
  ⟨0x100, 0x0, 0xFFFFFFFF, 0x0, false, false, .low⟩,
  ⟨0x104, 0x0, 0xFFFFFFFF, 0x0, false, false, .high⟩,
  ⟨0x108, 0x0, 0xFFFFFFFF, 0x0, false, false, .one⟩,
  ⟨0x10C, 0x0, 0xE, 0x0, false, false, .one⟩,
  ⟨0x110, 0x0, 0x0, 0x0, false, false, .one⟩,
  ⟨0x114, 0x0, 0x0, 0x0, true, true, .one⟩,
  ⟨0x140, 0x0, 0x3, 0x0, false, false, .one⟩,
  ⟨0x144, 0x0, 0x0, 0x0, false, false, .one⟩,
  ⟨0x148, 0x0, 0x0, 0x0, true, false, .one⟩,
  ⟨0x14C, 0x0, 0x0, 0x0, true, false, .one⟩,
  ⟨0x150, 0x0, 0x0, 0x0, true, true, .one⟩]

def tileRegs : List RegDef := [
  ⟨0x18, 0x0, 0x0, 0x0, false, false, .one⟩,
  ⟨0x20, 0x0, 0x0, 0x0, false, false, .one⟩,
  ⟨0x24, 0x0, 0x7, 0x0, false, false, .one⟩,
  ⟨0x28, 0x0, 0x0, 0x7, false, false, .one⟩,
  ⟨0x30, 0x0, 0x0, 0xF, false, false, .one⟩,
  ⟨0x34, 0x0, 0xF, 0x0, false, false, .one⟩,
  ⟨0x38, 0x0, 0x0, 0x0, false, false, .one⟩,
  ⟨0x3C, 0x0, 0x0, 0x0, true, true, .one⟩,
  ⟨0x40, 0x0, 0x0, 0x0, false, false, .one⟩,
  ⟨0x44, 0x0, 0x0, 0x0, false, false, .one⟩,
  ⟨0x48, 0x0, 0x0, 0x0, true, true, .one⟩,
  ⟨0x4C, 0x0, 0x0, 0x0, true, true, .one⟩,
  ⟨0x50, 0x0, 0x0, 0x0, true, false, .one⟩,
  ⟨0x54, 0x0, 0x0, 0x0, true, false, .one⟩,
  ⟨0x58, 0x0, 0x0, 0x0, true, false, .one⟩,
  ⟨0x5C, 0x0, 0x0, 0x0, true, true, .one⟩]

/-- The doorbell page holds write-only registers alone (R435). -/
def doorbellRegs : List RegDef := []

def tstatusRegs : List RegDef := [
  ⟨0x20, 0x0, 0x0, 0x0, false, false, .one⟩,
  ⟨0x24, 0x0, 0x1, 0x0, false, false, .one⟩,
  ⟨0x28, 0x0, 0x0, 0x1, false, false, .one⟩,
  ⟨0x40, 0x0, 0x0, 0x0, false, false, .one⟩,
  ⟨0x48, 0x0, 0x0, 0x0, false, false, .low⟩,
  ⟨0x4C, 0x0, 0x0, 0x0, false, false, .high⟩,
  ⟨0x50, 0x0, 0x0, 0x0, false, false, .one⟩,
  ⟨0x54, 0x0, 0x0, 0x0, false, false, .one⟩,
  ⟨0x100, 0x1010101, 0x0, 0x0, false, false, .one⟩,
  ⟨0x104, 0x1010101, 0xFFFFFF, 0x0, false, false, .one⟩,
  ⟨0x108, 0x0, 0x0, 0xFFFF, false, false, .one⟩,
  ⟨0x140, 0x80000000, 0x0, 0x0, false, false, .one⟩,
  ⟨0x144, 0x80000000, 0x0, 0x0, false, false, .one⟩,
  ⟨0x148, 0x80000000, 0x0, 0x0, false, false, .one⟩,
  ⟨0x14C, 0x80000000, 0x0, 0x0, false, false, .one⟩,
  ⟨0x150, 0x80000000, 0x0, 0x0, false, false, .one⟩,
  ⟨0x154, 0x80000000, 0x0, 0x0, false, false, .one⟩,
  ⟨0x158, 0x80000000, 0x0, 0x0, false, false, .one⟩,
  ⟨0x15C, 0x80000000, 0x0, 0x0, false, false, .one⟩,
  ⟨0x160, 0x80000000, 0x0, 0x0, false, false, .one⟩,
  ⟨0x164, 0x80000000, 0x0, 0x0, false, false, .one⟩,
  ⟨0x168, 0x80000000, 0x0, 0x0, false, false, .one⟩,
  ⟨0x16C, 0x80000000, 0x0, 0x0, false, false, .one⟩,
  ⟨0x170, 0x80000000, 0x0, 0x0, false, false, .one⟩,
  ⟨0x174, 0x80000000, 0x0, 0x0, false, false, .one⟩,
  ⟨0x178, 0x80000000, 0x0, 0x0, false, false, .one⟩,
  ⟨0x17C, 0x80000000, 0x0, 0x0, false, false, .one⟩]

/-- The words of a page. -/
def PageKind.regs : PageKind → List RegDef
  | .atrium => atriumRegs
  | .sched => schedRegs
  | .fault => faultRegs
  | .intc => intcRegs
  | .power => powerRegs
  | .test => testRegs
  | .pcie => pcieRegs
  | .ft => ftRegs
  | .port => portRegs
  | .hbm => hbmRegs
  | .nb => nbRegs
  | .flashCh => flashChRegs
  | .trace => traceRegs
  | .gallery => galleryRegs
  | .tile => tileRegs
  | .doorbell => doorbellRegs
  | .tstatus => tstatusRegs

end Sys2Proof.Machine
end

