-- ==== Sys2Proof/Machine/Tables.lean ====
section
/-! DEFINITION. Finite tables in canonical form (keys strictly rising), lists by position, and the byte memory of HBM. -/
namespace Sys2Proof.Machine

/-- The entry of a table, if it has one. -/
def Tbl.get {α : Type} (t : Tbl α) (k : Nat) : Option α :=
  match t with
  | [] => none
  | (j, v) :: r => if j = k then some v else Tbl.get r k

/-- The table with the entry `k` set; keys stay strictly rising. -/
def Tbl.set {α : Type} (t : Tbl α) (k : Nat) (v : α) : Tbl α :=
  match t with
  | [] => [(k, v)]
  | (j, w) :: r => if k < j then (k, v) :: (j, w) :: r else if k = j then (k, v) :: r else (j, w) :: Tbl.set r k v

/-- The table without the entry `k`. -/
def Tbl.del {α : Type} (t : Tbl α) (k : Nat) : Tbl α :=
  match t with
  | [] => []
  | (j, w) :: r => if j = k then Tbl.del r k else (j, w) :: Tbl.del r k

/-- The table with the entry `k` mapped through `f`, if it has one. -/
def Tbl.upd {α : Type} (t : Tbl α) (k : Nat) (f : α → α) : Tbl α :=
  match Tbl.get t k with
  | some v => Tbl.set t k (f v)
  | none => t

def Tbl.vals {α : Type} (t : Tbl α) : List α := t.map (·.2)

/-- Keys strictly rising: the canonical form of a table. -/
abbrev Tbl.wf {α : Type} (t : Tbl α) : Prop := List.Pairwise (fun a b => a.1 < b.1) t

/-- The list with position `i` mapped through `f`. -/
def updAt {α : Type} (l : List α) (i : Nat) (f : α → α) : List α :=
  match l, i with
  | [], _ => []
  | x :: r, 0 => f x :: r
  | x :: r, n + 1 => x :: updAt r n f

/-- What a byte of HBM that nothing has written reads as. Log entry 8 (DESIGN CHOICE: the manual gives no power-on contents). -/
def Memory.unlisted : Byte := 0

/-- One byte of HBM. -/
def Memory.read (m : List Host.Cell) (a : Nat) : Byte := (Tbl.get m a).getD Memory.unlisted

/-- A write keeps the canonical form: writing the unlisted value removes the entry. -/
def Memory.write (m : List Host.Cell) (a : Nat) (b : Byte) : List Host.Cell :=
  if b = Memory.unlisted then Tbl.del m a else Tbl.set m a b

/-- The canonical form: addresses strictly rising and no entry equal to what an unlisted address reads as. -/
abbrev Memory.wf (m : List Host.Cell) : Prop := Tbl.wf m ∧ ∀ c ∈ m, c.2 ≠ Memory.unlisted

/-- `n` bytes from address `a`. -/
def Memory.bytes (m : List Host.Cell) (a : Nat) : Nat → List Byte
  | 0 => []
  | n + 1 => Memory.read m a :: Memory.bytes m (a + 1) n

/-- A run of bytes written from address `a`. -/
def Memory.writes (m : List Host.Cell) (a : Nat) : List Byte → List Host.Cell
  | [] => m
  | b :: r => Memory.writes (Memory.write m a b) (a + 1) r

end Sys2Proof.Machine
end

