-- ==== Sys2Proof/Machine/Ops.lean ====
section
/-! DEFINITION. The named operations over the register file: reading and writing words as hardware and as software see them,
events (R17), counters (R11, R12, R19), and the free values. -/
namespace Sys2Proof.Machine

/-! ## Where a register lies -/

/-- Where the pages of the model lie beyond BAR0: a virtual function's 64 KiB (R414) at a model address of its own. -/
def vfBase (i : Nat) : Nat := 0x10000000 + 0x10000 * i

/-- A tenant's words behind the scheduler's TENANT_SEL window (R382, R411): one bank of the page per tenant. -/
def schedBank (t off : Nat) : Nat := 0x20000000 + 0x1000 * t + off

/-- A tenant's words behind the flash translation page's TENANT_SEL window (R328, R338). -/
def ftBank (t off : Nat) : Nat := 0x21000000 + 0x1000 * t + off

/-- The base address of a page (R597, R21, R414, R603). -/
def pageBase (k : PageKind) (n : Nat) : Nat :=
  match k with
  | .atrium => 0
  | .sched => 0x1000
  | .fault => 0x2000
  | .intc => 0x3000
  | .power => 0x4000
  | .test => 0x5000
  | .pcie => 0x6000
  | .ft => 0x7000
  | .port => 0x10000 + 0x1000 * n
  | .hbm => 0x20000 + 0x1000 * n
  | .nb => 0x30000 + 0x1000 * n
  | .flashCh => 0x40000 + 0x1000 * n
  | .trace => 0x80000 + 0x1000 * n
  | .gallery => 0x1000000 + 0x20000 * n
  | .tile => 0x1001000 + 0x20000 * (n / 16) + 0x1000 * (n % 16)
  | .doorbell => vfBase n
  | .tstatus => vfBase n + 0x1000

/-- The page that holds an address, its instance and the offset; `none` outside every page (R598). -/
def pageAt (a : Nat) : Option (PageKind × Nat × Nat) :=
  let o := a % 0x1000
  let p := a / 0x1000
  if a < 0x8000 then
    some (match p with
      | 0 => .atrium | 1 => .sched | 2 => .fault | 3 => .intc | 4 => .power | 5 => .test | 6 => .pcie | _ => .ft, 0, o)
  else if 0x10 ≤ p ∧ p < 0x14 then some (.port, p - 0x10, o)
  else if 0x20 ≤ p ∧ p < 0x28 then some (.hbm, p - 0x20, o)
  else if 0x30 ≤ p ∧ p < 0x38 then (if p % 2 = 0 then some (.nb, p - 0x30, o) else none)
  else if 0x40 ≤ p ∧ p < 0x60 then some (.flashCh, p - 0x40, o)
  else if 0x80 ≤ p ∧ p < 0xB3 then some (.trace, p - 0x80, o)
  else if 0x1000 ≤ p ∧ p < 0x1000 + 50 * 0x20 then
    let g := (p - 0x1000) / 0x20
    let i := (p - 0x1000) % 0x20
    if i = 0 then some (.gallery, g, o) else if i < 17 then some (.tile, 16 * g + (i - 1), o) else none
  else if 0x10000 ≤ p ∧ p < 0x10000 + 256 * 16 then
    let i := p % 16
    if i = 0 then some (.doorbell, (p - 0x10000) / 16, o)
    else if i = 1 then some (.tstatus, (p - 0x10000) / 16, o) else none
  else if 0x20000 ≤ p ∧ p < 0x20000 + 256 then some (.sched, 0, o)
  else if 0x21000 ≤ p ∧ p < 0x21000 + 256 then some (.ft, 0, o)
  else none

/-- The table entry of the word at an address. The merger's words exist in trace unit 50 alone (R553); only core 0 resets enabled (R552). -/
def regDefAt (a : Nat) : Option RegDef :=
  match pageAt a with
  | none => none
  | some (k, n, o) =>
    if k = .trace ∧ n ≠ 50 ∧ 0x80 ≤ o then none
    else
      match k.regs.find? (fun r => r.off == o) with
      | none => none
      | some r => if k = .intc ∧ (o = 0x6C ∨ o = 0x7C ∨ o = 0x8C) then some { r with reset := 0 } else some r

/-- The reset value of the word at an address (R9). -/
def resetOf (a : Nat) : Word :=
  match regDefAt a with
  | some r => BitVec.ofNat 32 r.reset
  | none => 0

/-! ## The register file -/

/-- The word in force at an address. -/
def rd (s : State) (a : Nat) : Word := (Tbl.get s.regs a).getD (resetOf a)

/-- The register file with one word set: a word equal to its reset value is not listed. -/
def RegFile.put (t : Tbl Word) (a : Nat) (w : Word) : Tbl Word := if w = resetOf a then Tbl.del t a else Tbl.set t a w

/-- The canonical form of the register file: addresses strictly rising, and no word listed that equals its reset value. -/
abbrev RegFile.wf (t : Tbl Word) : Prop := Tbl.wf t ∧ ∀ c ∈ t, c.2 ≠ resetOf c.1

/-- Hardware sets the word in force. -/
def wr (s : State) (a : Nat) (w : Word) : State := { s with regs := RegFile.put s.regs a w }

/-- Field [hi:lo] of the word in force. -/
def rdf (s : State) (a hi lo : Nat) : Nat := fld (rd s a) hi lo

/-- Hardware sets field [hi:lo]. -/
def wrf (s : State) (a hi lo v : Nat) : State := wr s a (withFld (rd s a) hi lo v)

/-- A 64-bit register in force (R13). -/
def rd64 (s : State) (a : Nat) : Nat := (rd s a).toNat + 0x100000000 * (rd s (a + 4)).toNat

/-- Hardware sets a 64-bit register. -/
def wr64 (s : State) (a v : Nat) : State := wr (wr s a (BitVec.ofNat 32 v)) (a + 4) (BitVec.ofNat 32 (v / 0x100000000))

/-- The counter's word holds at its maximum where its table says so (R19, R39, R67 …). -/
def holdsAt (a : Nat) : Bool :=
  match regDefAt a with
  | some r => r.hold
  | none => false

/-- A 32-bit counter counts one occurrence. Past its maximum it holds where its table says so; elsewhere the manual states no
value, and the value is free (log entry 7). -/
def counted (a : Nat) (w : Word) : Word :=
  if w = 0xFFFFFFFF then (if holdsAt a then w else Config.counterPast a) else w + 1

def count (s : State) (a : Nat) : State := wr s a (counted a (rd s a))

/-- `n` occurrences in one action. -/
def countN (s : State) (a : Nat) : Nat → State
  | 0 => s
  | n + 1 => countN (count s a) a n

/-- A counter that grows by `n` at once, for amounts that are not single occurrences (R250, R404 …). -/
def countBy (s : State) (a n : Nat) : State :=
  let v := (rd s a).toNat + n
  wr s a (if v < 0x100000000 then BitVec.ofNat 32 v else if holdsAt a then 0xFFFFFFFF else Config.counterPast a)

/-- A 64-bit counter counts one occurrence. -/
def count64 (s : State) (a : Nat) : State := wr64 s a ((rd64 s a + 1) % 2 ^ 64)

/-! ## Events (R17) -/

/-- A condition that lasts no time rises: it is latched if its enable bit is 1. -/
def raiseEvt (s : State) (base bit : Nat) : State :=
  if testBit (rd s (base + 0x24)) bit then wr s (base + 0x28) (setBit (rd s (base + 0x28)) bit) else s

/-- A lasting condition takes a value; its rise is an event. -/
def setCond (s : State) (base bit : Nat) (v : Bool) : State :=
  let rose := v && !(testBit (rd s (base + 0x20)) bit)
  let s1 := wr s (base + 0x20) (putBit (rd s (base + 0x20)) bit v)
  if rose then raiseEvt s1 base bit else s1

/-! ## Free values -/

/-- A value the manual leaves open: the state's counter advances, the value is opaque (log entry 6). -/
def freshWord (s : State) : Word × State :=
  (Config.freeWord s.chip.free, { s with chip := { s.chip with free := s.chip.free + 1 } })

/-- A 48-bit value the manual leaves open: DURABLE_EPOCH in the result of a batch that did not commit (R217; log entry 28). -/
def freshEpoch (s : State) : Nat × State :=
  let (lo, s1) := freshWord s
  let (hi, s2) := freshWord s1
  (lo.toNat + hi.toNat % 2 ^ 16 * 2 ^ 32, s2)

/-! ## Software's access to one word (R11, R19) -/

/-- What a software write of `v` makes of a word: RW bits take it, W1C bits clear where it is 1, the rest stays. -/
def writtenWord (r : RegDef) (old v : Word) : Word :=
  let rw := BitVec.ofNat 32 r.rw
  let w1c := BitVec.ofNat 32 r.w1c
  ((old &&& ~~~rw) ||| (v &&& rw)) &&& ~~~(v &&& w1c)

/-- ERR_FIRST.VALID returns to 0 once every bit of ERR_STAT reads 0 (R19); BIT keeps its value. -/
def releaseFirst (s : State) (base : Nat) : State :=
  if rd s (base + 0x30) = 0 then wr s (base + 0x38) (rd s (base + 0x38) &&& 0x7FFFFFFF) else s

/-- A software write of one word with no side effect beyond its bits. -/
def softWrite (s : State) (a : Nat) (v : Word) : State :=
  match regDefAt a with
  | none => s
  | some r =>
    let s1 := wr s a (writtenWord r (rd s a) v)
    if a % 0x1000 = 0x30 then releaseFirst s1 (a - 0x30) else s1

/-- A software write of a 64-bit RW register at once (R13): the staged low word equals the low word in force afterwards. -/
def softWrite64 (s : State) (a v : Nat) : State :=
  let s1 := softWrite (softWrite s a (BitVec.ofNat 32 v)) (a + 4) (BitVec.ofNat 32 (v / 0x100000000))
  { s1 with staged := Tbl.del s1.staged a }

/-! ## The modes that many rules test -/

def State.hall (s : State) : Bool := s.chip.pins.modeHall
def State.c0 (s : State) : Bool := s.chip.aux.c0
/-- The node runs: RESET_N is deasserted, and no sequencing violation holds the node in reset whatever RESET_N does (R559). -/
def State.running (s : State) : Bool := s.chip.pins.resetN && !s.chip.aux.seqViolation
def State.now (s : State) : Nat := s.step.count.toNat
/-- The ticks since reset, which offsets, arrivals and lives of objects are counted in (R46). -/
def State.ticks (s : State) : Nat := s.step.ticks
/-- The tick count of the step that STEP_COUNT numbers `e`. -/
def State.tickOf (s : State) (e : Nat) : Nat := s.step.ticks + e - s.now
def State.quiesce (s : State) : Bool := testBit (rd s Reg.fault.CTRL) 0

end Sys2Proof.Machine
end

