-- ==== Sys2Proof/Machine/Egress.lean ====
section
/-! DEFINITION. Frames the node sends: the Riltik header (R442), the choice of port (R448), the egress queues (R449, R461), and what
goes out to the host. -/
namespace Sys2Proof.Machine

def port (s : State) (p : Nat) : Port := s.links.ports.getD p Port.reset

def updPort (s : State) (p : Nat) (f : Port → Port) : State :=
  { s with links := { s.links with ports := updAt s.links.ports p f } }

/-- PORT_STATE codes (R450). -/
def Port.isUp (p : Port) : Bool := p.st == 3

/-- LANES_UP (R440). -/
def Port.lanes (p : Port) : Nat := ((List.range 4).filter fun i => p.used.getLsbD i).length

/-- The route table's index of an endpoint (R443, R459). -/
def routeIndex (dst : Nat) : Nat := if dst < 0x8000 then dst else 32768 + dst % 16

def routeOf (p : Port) (dst : Nat) : Route := (Tbl.get p.routes (routeIndex dst)).getD ⟨false, 0, 0⟩

def nodeIdValid (s : State) : Bool := testBit (rd s Reg.atrium.NODE_ID) 31

/-- The endpoint the node sends as SRC_NODE (R443). -/
def selfNode (s : State) : Nat := if nodeIdValid s then rdf s Reg.atrium.NODE_ID 14 0 else 0xFFFF

/-- The Riltik version of HALL_LEVEL: level 1, the only one defined, is version 1 (R454). -/
def levelVersion (_level : Nat) : Nat := 1

/-- The 32-byte header and payload of a frame with its HDR_CRC (R442, R445). -/
def frameBytes (rver typ flags cls src dst object step : Nat) (payload : List Byte) : List Byte :=
  let h := toLe 1 rver ++ toLe 1 typ ++ toLe 1 flags ++ toLe 1 cls ++ toLe 2 src ++ toLe 2 dst ++ toLe 4 object ++
    toLe 2 payload.length ++ toLe 2 0 ++ toLe 8 step ++ toLe 4 0
  let crc := if typ < 0x10 then crc32c (h ++ toLe 4 0 ++ payload) else crc32c (h ++ toLe 4 0)
  h ++ toLe 4 crc.toNat ++ payload

/-- The egress queue of a frame: 0 for types 0x01 to 0x0F, then one per class (R449). -/
def egressQueue (f : EgFrame) : Nat := if f.typ.toNat < 0x10 then 0 else 1 + f.cls

/-- CLASS_WEIGHT of classes 1 to 3; 0 acts as 1 (R411). -/
def classWeight (s : State) (cls : Nat) : Nat := max 1 (rdf s Reg.sched.CLASS_WEIGHT (8 * cls - 1) (8 * cls - 8))

/-- The queue that a port serves next, and its round: the control queue, the class-0 queue, then the lowest of classes 1 to 3 that has sent fewer frames in
the round than its weight; where none with frames has, a new round begins (R449, log entry 145). -/
def nextQueue (s : State) (t : Port) : Option (Nat × List Nat) :=
  let has (q : Nat) : Bool := !(t.queues.getD q []).isEmpty
  let serve (r : List Nat) (c : Nat) : Nat × List Nat := (c + 1, updAt r (c - 1) (· + 1))
  if has 0 then some (0, t.round)
  else if has 1 then some (1, t.round)
  else match [1, 2, 3].find? fun c => has (c + 1) && t.round.getD (c - 1) 0 < classWeight s c with
    | some c => some (serve t.round c)
    | none => ([1, 2, 3].find? fun c => has (c + 1)).map (serve [0, 0, 0])

/-- A port that transmits nothing begins with the next frame. -/
def startFrame (s : State) (p : Nat) : State :=
  match (port s p).sending, nextQueue s (port s p) with
  | none, some (q, r) => updPort s p fun t => { t with sending := some q, round := r }
  | _, _ => s

/-- A push at a port: at 256 frames it is held and counted (R449). -/
def pushEgress (s : State) (p : Nat) (f : EgFrame) : State :=
  let q := (port s p).queues.getD (egressQueue f) []
  if q.length < 256 then startFrame (updPort s p (fun t => { t with queues := updAt t.queues (egressQueue f) (· ++ [f]) })) p
  else updPort (count s (Reg.port.EGRESS_STALL p)) p (fun t => { t with held := t.held ++ [f] })

/-- The ports that are UP with a VALID route entry for an endpoint, ascending (R448). -/
def eligiblePorts (s : State) (dst : Nat) : List Nat :=
  (List.range 4).filter fun p => (port s p).isUp && (routeOf (port s p) dst).valid

/-- The frame as port `p` would send it, with its binding (R461). -/
def frameOn (s : State) (p typ flags cls dst object : Nat) (payload : List Byte) : EgFrame :=
  let r := routeOf (port s p) dst
  ⟨dst, r.mac, some r.gen, BitVec.ofNat 8 typ, cls,
    frameBytes (min (port s p).ver (levelVersion (rdf s Reg.atrium.HALL_LEVEL 7 0))) typ flags cls (selfNode s) dst object s.now payload⟩

/-- Send a frame to an endpoint on the port that R448 chooses; NO_ROUTE counts a frame with no eligible port. -/
def sendFrame (s : State) (typ flags cls dst object flow : Nat) (payload : List Byte) : State :=
  let ps := eligiblePorts s dst
  match ps[(dst % 0x8000 + flow) % ps.length]? with
  | none => count s Reg.atrium.NO_ROUTE
  | some p => pushEgress s p (frameOn s p typ flags cls dst object payload)

/-- The bytes on the wire: addresses, EtherType in network order, header, payload, padding to 60 bytes before the FCS (R441). -/
def wireBytes (s : State) (p : Nat) (f : EgFrame) : List Byte :=
  padTo ((toLe 6 f.mac.toNat).reverse ++ (toLe 6 (rd64 s (Reg.port.PORT_MAC p))).reverse ++
    (toLe 2 (rdf s Reg.atrium.RILTIK_ETHERTYPE 15 0)).reverse ++ f.bytes) 60 0

/-- The last bit of a frame is transmitted. -/
def transmit (s : State) (p : Nat) (f : EgFrame) : State :=
  let s1 := count64 s (Reg.port.TX_FRAMES p)
  { s1 with links := { s1.links with wire := s1.links.wire ++ [(p, wireBytes s p f)] } }

/-- A port leaves UP for a new state: its queued egress frames are discarded and counted, their bindings released, and LINK_CHANGE is
raised (R450, R461). From any other state only the state changes. -/
def leaveUp (s : State) (p st : Nat) : State :=
  let t := port s p
  let s1 := updPort s p (fun t => { t with st := st, used := 0, ver := 0 })
  if t.isUp then
    let n := (t.queues.map List.length).foldl (· + ·) 0 + t.held.length
    let s2 := updPort (countBy s1 (Reg.port.TX_DISCARD p) n) p (fun t => { t with queues := [[], [], [], [], []], held := [], sending := none })
    raiseEvt s2 (pageBase .port p) 0
  else s1

/-- A posted write toward the host (R423, R538). -/
def hostWrite (s : State) (fn : PciFn) (addr : Nat) (data : List Byte) : State :=
  { s with links := { s.links with out := s.links.out ++ [.write fn (BitVec.ofNat 64 addr) data] } }

def hostMsix (s : State) (fn : PciFn) (v : Nat) : State :=
  { s with links := { s.links with out := s.links.out ++ [.msix fn v] } }

def pciState (s : State) (fn : PciFn) : PciState :=
  match fn with
  | .pf => s.links.pf
  | .vf i => (Tbl.get s.links.vfs i.val).getD PciState.reset

def setPciState (s : State) (fn : PciFn) (x : PciState) : State :=
  match fn with
  | .pf => { s with links := { s.links with pf := x } }
  | .vf i => { s with links := { s.links with vfs := Tbl.set s.links.vfs i.val x } }

/-- One MSI-X message of a function's vector (R426): a masked vector, or a function without bus mastering or in D3hot, sets the pending
bit instead, to be sent on unmasking. -/
def sendMsix (s : State) (fn : PciFn) (v : Nat) : State :=
  let x := pciState s fn
  if x.unmasked.getLsbD v && !x.d3 && (x.bme || fn == .pf) then hostMsix s fn v
  else setPciState s fn { x with pba := x.pba ||| (1 <<< v) }

end Sys2Proof.Machine
end

