-- ==== Sys2Proof/Machine/Float.lean ====
section
/-! DEFINITION. The number formats of R86 to R90 and arithmetic on them: every operation forms the exact value and rounds once. -/
namespace Sys2Proof.Machine

/-- A binary format: exponent and fraction bits, and how its top exponent is used (R87, R88). -/
inductive FKind where
  | ieee | e4m3 | e2m1
  deriving DecidableEq, Repr

structure FFmt where
  eb : Nat
  fb : Nat
  kind : FKind
  deriving DecidableEq, Repr

def fp32 : FFmt := ⟨8, 23, .ieee⟩
def fp16 : FFmt := ⟨5, 10, .ieee⟩
def bf16 : FFmt := ⟨8, 7, .ieee⟩
def e5m2 : FFmt := ⟨5, 2, .ieee⟩
def e4m3 : FFmt := ⟨4, 3, .e4m3⟩
def e2m1 : FFmt := ⟨2, 1, .e2m1⟩

def FFmt.bias (f : FFmt) : Nat := 2 ^ (f.eb - 1) - 1

/-- A value: NaN, an infinity, or the signed dyadic m × 2^e (a zero keeps its sign, R89). -/
inductive FV where
  | nan
  | inf (neg : Bool)
  | num (neg : Bool) (m : Nat) (e : Int)
  deriving DecidableEq, Repr

/-- The value of an encoding. -/
def FFmt.decode (f : FFmt) (bits : Nat) : FV :=
  let neg := bits.testBit (f.eb + f.fb)
  let x := (bits >>> f.fb) % 2 ^ f.eb
  let m := bits % 2 ^ f.fb
  let top := 2 ^ f.eb - 1
  if f.kind = .ieee ∧ x = top then (if m = 0 then .inf neg else .nan)
  else if f.kind = .e4m3 ∧ x = top ∧ m = 7 then .nan
  else if x = 0 then .num neg m (1 - (f.bias : Int) - f.fb)
  else .num neg (m + 2 ^ f.fb) ((x : Int) - f.bias - f.fb)

/-- n ≥ d × 2^k. -/
def geScaled (n d : Nat) (k : Int) : Bool := if 0 ≤ k then d <<< k.toNat ≤ n else d ≤ n <<< (-k).toNat

/-- floor(log2(n / d)) for n, d > 0. -/
def floorLog2 (n d : Nat) : Int :=
  let k : Int := (Nat.log2 n : Int) - (Nat.log2 d : Int)
  if geScaled n d k then k else k - 1

/-- n / (d × 2^u) as a fraction. -/
def scaled (n d : Nat) (u : Int) : Nat × Nat := if 0 ≤ u then (n, d <<< u.toNat) else (n <<< (-u).toNat, d)

/-- Nearest integer of n / d, ties to even. -/
def roundNE (n d : Nat) : Nat :=
  let q := n / d
  let r := n % d
  if 2 * r < d then q else if d < 2 * r then q + 1 else q + q % 2

def roundCeil (n d : Nat) : Nat := (n + d - 1) / d

/-- The magnitude n / d rounded to the format's precision with an unbounded exponent above: (m, u) for m × 2^u. -/
def FFmt.roundMag (f : FFmt) (up : Bool) (n d : Nat) : Nat × Int :=
  let emin : Int := 1 - (f.bias : Int) - f.fb
  if n = 0 then (0, emin)
  else
    let u := max (floorLog2 n d - f.fb) emin
    let (a, b) := scaled n d u
    (if up then roundCeil a b else roundNE a b, u)

/-- The largest finite magnitude. -/
def FFmt.maxFinite (f : FFmt) : Nat × Int :=
  match f.kind with
  | .ieee => (2 ^ (f.fb + 1) - 1, (f.bias : Int) - f.fb)
  | .e4m3 => (14, 5)
  | .e2m1 => (3, 1)

/-- m × 2^u exceeds the largest finite magnitude. -/
def FFmt.over (f : FFmt) (m : Nat) (u : Int) : Bool :=
  let (a, e) := f.maxFinite
  let w := min u e
  a <<< (e - w).toNat < m <<< (u - w).toNat

/-- The encoding of a rounded magnitude that does not overflow. -/
def FFmt.packMag (f : FFmt) (m : Nat) (u : Int) : Nat :=
  if m < 2 ^ f.fb then m
  else
    let (m, u) := if m = 2 ^ (f.fb + 1) then (2 ^ f.fb, u + 1) else (m, u)
    (u + f.fb + f.bias).toNat * 2 ^ f.fb + (m - 2 ^ f.fb)

def FFmt.signBit (f : FFmt) (neg : Bool) : Nat := if neg then 2 ^ (f.eb + f.fb) else 0

def FFmt.infBits (f : FFmt) : Nat := (2 ^ f.eb - 1) * 2 ^ f.fb

/-- The NaN that the node writes (R90). E2M1 has none and no row in R90: DESIGN CHOICE (log entry 122), a NaN becomes code 0x7 (+6.0) and is not
counted. -/
def FFmt.nanBits (f : FFmt) : Nat :=
  match f.kind with
  | .ieee => f.infBits + 2 ^ (f.fb - 1)
  | .e4m3 | .e2m1 => 2 ^ (f.eb + f.fb) - 1

def FFmt.maxBits (f : FFmt) : Nat := f.packMag f.maxFinite.1 f.maxFinite.2

/-- What an overflow gives: saturated, or non-saturating (infinity; NaN for E4M3). -/
def FFmt.overBits (f : FFmt) (nonsat neg : Bool) : Nat :=
  if nonsat then (if f.kind = .ieee then f.infBits + f.signBit neg else f.nanBits) else f.maxBits + f.signBit neg

/-- Conversion under R90 and whether it counts as a saturation. -/
def FFmt.convert (f : FFmt) (nonsat : Bool) (v : FV) : Nat × Bool :=
  match v with
  | .nan => (f.nanBits, false)
  | .inf neg => (f.overBits nonsat neg, true)
  | .num neg m e =>
    let (a, b) := scaled m 1 (-e)
    let (r, u) := f.roundMag false a b
    if f.over r u then (f.overBits nonsat neg, true) else (f.packMag r u + f.signBit neg, false)

/-! ## FP32 arithmetic: rounded to nearest, ties to even, overflow to infinity -/

/-- The FP32 of a signed fraction. -/
def f32OfRat (neg : Bool) (n d : Nat) : Word :=
  let (r, u) := fp32.roundMag false n d
  BitVec.ofNat 32 ((if fp32.over r u then fp32.infBits else fp32.packMag r u) + fp32.signBit neg)

def f32nan : Word := 0x7FC00000

def f32 (w : Word) : FV := fp32.decode w.toNat

/-- round_fp32 of a value. -/
def toF32 (v : FV) : Word :=
  match v with
  | .nan => f32nan
  | .inf neg => BitVec.ofNat 32 (fp32.infBits + fp32.signBit neg)
  | .num neg m e => let (a, b) := scaled m 1 (-e); f32OfRat neg a b

def FV.neg : FV → FV
  | .nan => .nan
  | .inf s => .inf (!s)
  | .num s m e => .num (!s) m e

/-- The exact product. -/
def FV.mul (x y : FV) : FV :=
  match x, y with
  | .nan, _ | _, .nan => .nan
  | .inf a, .inf b => .inf (a != b)
  | .inf a, .num b m _ | .num b m _, .inf a => if m = 0 then .nan else .inf (a != b)
  | .num a m e, .num b n g => .num (a != b) (m * n) (e + g)

/-- A signed mantissa at exponent `e`. -/
def alignTo (neg : Bool) (m : Nat) (e w : Int) : Int :=
  let k : Int := (m <<< (e - w).toNat : Nat)
  if neg then -k else k

/-- The exact sum; a zero sum is −0 only when both terms are −0. -/
def FV.add (x y : FV) : FV :=
  match x, y with
  | .nan, _ | _, .nan => .nan
  | .inf a, .inf b => if a = b then .inf a else .nan
  | .inf a, .num .. | .num .., .inf a => .inf a
  | .num a m e, .num b n g =>
    let w := min e g
    let t := alignTo a m e w + alignTo b n g w
    if t = 0 then .num (a && b && m = 0 && n = 0) 0 w else .num (t < 0) t.natAbs w

def f32mul (a b : Word) : Word := toF32 ((f32 a).mul (f32 b))
def f32add (a b : Word) : Word := toF32 ((f32 a).add (f32 b))
def f32sub (a b : Word) : Word := toF32 ((f32 a).add (f32 b).neg)
def f32neg (a : Word) : Word := toF32 (f32 a).neg

/-- IEEE 754 division, rounded once. -/
def f32div (a b : Word) : Word :=
  match f32 a, f32 b with
  | .nan, _ | _, .nan => f32nan
  | .inf _, .inf _ => f32nan
  | .inf x, .num y _ _ => BitVec.ofNat 32 (fp32.infBits + fp32.signBit (x != y))
  | .num x _ _, .inf y => BitVec.ofNat 32 (fp32.signBit (x != y))
  | .num x m e, .num y n g =>
    if n = 0 then (if m = 0 then f32nan else BitVec.ofNat 32 (fp32.infBits + fp32.signBit (x != y)))
    else
      let (p, q) := scaled m n (g - e)
      f32OfRat (x != y) p q

/-- Integer square root, one bit at a time from bit `k`. -/
def isqrtBits (n acc : Nat) : Nat → Nat
  | 0 => acc
  | k + 1 => let t := acc + 2 ^ k; isqrtBits n (if t * t ≤ n then t else acc) k

def isqrt (n : Nat) : Nat := isqrtBits n 0 (Nat.log2 n / 2 + 1)

/-- IEEE 754 square root: the value with 60 extra bits below, a sticky bit keeping it off ties. -/
def f32sqrt (a : Word) : Word :=
  match f32 a with
  | .nan => f32nan
  | .inf neg => if neg then f32nan else a
  | .num neg m e =>
    if m = 0 then a
    else if neg then f32nan
    else
      let sh : Nat := if e % 2 = 0 then 60 else 61
      let n := m <<< sh
      let r := isqrt n
      let half : Int := (e - sh) / 2
      let (x, y) := scaled (2 * r + (if r * r = n then 0 else 1)) 1 (-(half - 1))
      f32OfRat false x y

/-- The integer `n` as FP32. -/
def f32OfInt (n : Int) : Word := f32OfRat (n < 0) n.natAbs 1

def f32isNan (w : Word) : Bool := f32 w == .nan
def f32isFinite (w : Word) : Bool :=
  match f32 w with
  | .num .. => true
  | _ => false

/-- a < b as IEEE 754 orders numbers; a NaN is not less. -/
def FV.lt (x y : FV) : Bool :=
  match x, y with
  | .nan, _ | _, .nan => false
  | .inf a, .inf b => a && !b
  | .inf a, .num .. => a
  | .num .., .inf b => !b
  | .num a m e, .num b n g => let w := min e g; alignTo a m e w < alignTo b n g w

def f32lt (a b : Word) : Bool := (f32 a).lt (f32 b)

/-- FP16 and BF16 widen exactly. -/
def f32OfHalf (h : Half) : Word := toF32 (fp16.decode h.toNat)
def f32OfBf16 (h : Half) : Word := BitVec.ofNat 32 (h.toNat * 65536)

end Sys2Proof.Machine
end

