-- ==== Sys2Proof/Machine/Quant.lean ====
section
/-! DEFINITION. Group dot products (R91 to R96) and the quantiser (R97 to R103, R118). -/
namespace Sys2Proof.Machine

/-! ## Element formats (R86) -/

def isIntFmt (c : Nat) : Bool := 1 ≤ c && c ≤ 4
def isMxFmt (c : Nat) : Bool := 7 ≤ c && c ≤ 0xA
def isSignedInt (c : Nat) : Bool := c == 1 || c == 3

/-- Bits of an element's code. -/
def elemBits (c : Nat) : Nat :=
  if c = 1 ∨ c = 2 ∨ c = 0xA then 4 else if c = 0xB ∨ c = 0xC then 16 else if c = 0xD then 32 else 8

/-- The floating-point format of an element code. -/
def elemFmt (c : Nat) : FFmt :=
  match c with
  | 5 | 8 => e4m3
  | 6 | 9 => e5m2
  | 0xA => e2m1
  | 0xB => fp16
  | 0xC => bf16
  | _ => fp32

/-- The integer that a code of an integer format (or MXINT8) stands for. -/
def intVal (c code : Nat) : Int :=
  if c = 1 then (if code < 8 then code else (code : Int) - 16)
  else if c = 3 ∨ c = 7 then (if code < 128 then code else (code : Int) - 256)
  else code

/-- The code of an integer. -/
def intCode (c : Nat) (v : Int) : Nat := (v % (2 ^ elemBits c : Nat)).toNat

/-- The `i`-th packed code of a byte string (R86). -/
def codeAt (c : Nat) (bs : List Byte) (i : Nat) : Nat :=
  if elemBits c = 4 then (if i % 2 = 0 then (byteAt bs (i / 2)).toNat % 16 else (byteAt bs (i / 2)).toNat / 16)
  else leAt bs (i * (elemBits c / 8)) (elemBits c / 8)

def codesOf (c : Nat) (bs : List Byte) (n : Nat) : List Nat := (List.range n).map (codeAt c bs)

/-- Two 4-bit codes to a byte, others whole. -/
def packCodes (c : Nat) (codes : List Nat) : List Byte :=
  if elemBits c = 4 then
    (List.range ((codes.length + 1) / 2)).map fun i => BitVec.ofNat 8 (codes.getD (2 * i) 0 % 16 + 16 * (codes.getD (2 * i + 1) 0 % 16))
  else codes.flatMap (toLe (elemBits c / 8))

/-- A list cut into pieces of `n`. -/
def chunkFuel {α : Type} (n : Nat) : Nat → List α → List (List α)
  | 0, _ => []
  | k + 1, l => if l.isEmpty then [] else l.take n :: chunkFuel n k (l.drop n)

def chunk {α : Type} (n : Nat) (l : List α) : List (List α) := chunkFuel n l.length l

/-- The code sums of a stored operand by group (R92): its sum table, where it has one. -/
def codeSums (f group : Nat) (codes : List Nat) : List Int := (chunk group codes).map fun g => (g.map (intVal f)).foldl (· + ·) 0

/-! ## Scales (R88, R95) -/

/-- E8M0: 2^(e − 127); 0xFF is NaN. -/
def e8m0 (e : Nat) : FV := if e = 255 then .nan else .num false 1 ((e : Int) - 127)

/-- The value of an encoded scale: 0 FP16, 1 E8M0, 2 NONE. -/
def scaleVal (fmt : Nat) (raw : Half) : FV :=
  match fmt with
  | 0 => fp16.decode raw.toNat
  | 1 => e8m0 (raw.toNat % 256)
  | _ => .num false 1 0

/-! ## Group dot products (R92 to R95) -/

/-- One group of a stored operand: codes, encoded scale, column sum as stored (R103), zero point. -/
structure WGroup where
  codes : List Nat
  scale : Half
  sum : Int
  zp : Nat
  deriving DecidableEq, Repr

/-- INT32 arithmetic. -/
def wrap32 (x : Int) : Int := x.bmod (2 ^ 32)

/-- The integer dot product of R92. -/
def intDot (wf xf : Nat) (w : WGroup) (x : QGroup) : Int :=
  let xw := ((w.codes.zip x.codes).map fun p => intVal wf p.1 * intVal xf p.2).foldl (· + ·) 0
  wrap32 (xw - x.zp * w.sum - w.zp * x.sum + (x.codes.length : Int) * w.zp * x.zp)

/-- The floating-point group sum of R94. -/
def floatDot (wf xf : Nat) (w : WGroup) (x : QGroup) : Word :=
  let ps := (w.codes.zip x.codes).map fun p => toF32 (((elemFmt wf).decode p.1).mul ((elemFmt xf).decode p.2))
  match ps with
  | [] => 0
  | p :: r => r.foldl f32add p

/-- p(g) of R95. -/
def groupTerm (k : Kernel) (w : WGroup) (x : QGroup) : Word :=
  let mx := k.wFmt = 7
  let t := if isIntFmt k.wFmt ∨ mx then f32OfInt (intDot k.wFmt k.aFmt w x) else floatDot k.wFmt k.aFmt w x
  let c :=
    if mx then toF32 ((e8m0 (w.scale.toNat % 256)).mul ((e8m0 (x.scale.toNat % 256)).mul (.num false 1 (-12))))
    else toF32 ((scaleVal k.wScale w.scale).mul (scaleVal k.aScale x.scale))
  f32mul c t

/-- acc of R95. -/
def accumulate (ps : List Word) : Word :=
  match ps with
  | [] => 0
  | p :: r => r.foldl f32add p

def dotProduct (k : Kernel) (w : List WGroup) (x : List QGroup) : Word := accumulate ((w.zip x).map fun p => groupTerm k p.1 p.2)

/-! ## The quantiser (R97 to R102) -/

/-- A dyadic as a signed mantissa and exponent. -/
structure Dy where
  m : Int
  e : Int
  deriving DecidableEq, Repr

def FV.dy : FV → Option Dy
  | .num s m e => some ⟨if s then -(m : Int) else m, e⟩
  | _ => none

def Dy.align (a : Dy) (w : Int) : Int := a.m * (2 ^ (a.e - w).toNat : Nat)
def Dy.lt (a b : Dy) : Bool := let w := min a.e b.e; a.align w < b.align w
def Dy.sub (a b : Dy) : Dy := let w := min a.e b.e; ⟨a.align w - b.align w, w⟩
def Dy.abs (a : Dy) : Dy := ⟨a.m.natAbs, a.e⟩
def Dy.zero : Dy := ⟨0, 0⟩
def Dy.max (a b : Dy) : Dy := if a.lt b then b else a
def Dy.min (a b : Dy) : Dy := if b.lt a then b else a

/-- |a| / (d × s) for a positive dyadic scale `s`, as a fraction. -/
def Dy.quot (a : Dy) (d : Nat) (s : Dy) : Nat × Nat := scaled a.m.natAbs (d * s.m.natAbs) (s.e - a.e)

/-- round(a / s), ties to even. -/
def Dy.roundDiv (a s : Dy) : Int :=
  let (n, d) := a.quot 1 s
  let r : Int := roundNE n d
  if a.m < 0 then -r else r

/-- RU_fp16(a / q), at most 65,504 (R97, R102). -/
def ruFp16 (a : Dy) (q : Nat) : Half :=
  let (n, d) := a.quot q ⟨1, 0⟩
  let (m, u) := fp16.roundMag true n d
  BitVec.ofNat 16 (if fp16.over m u then fp16.maxBits else fp16.packMag m u)

/-- 2^ceil(log2(a / q)) as E8M0, clamped to its range. -/
def ceilE8m0 (a : Dy) (q : Nat) : Half :=
  let (n, d) := a.quot q ⟨1, 0⟩
  let f := floorLog2 n d
  let c := if geScaled n d f && n = (scaled n d f).2 && 0 ≤ f || (scaled n d f).1 = (scaled n d f).2 then f else f + 1
  BitVec.ofNat 16 (clampTo (c + 127).toNat 0 254)

/-- A converted group with its counts: saturations and NaN. -/
structure QOut where
  g : QGroup
  sat : Nat
  nan : Nat
  deriving DecidableEq, Repr

def qmax (f : Nat) : Int := if f = 1 then 7 else if f = 2 then 15 else if f = 4 then 255 else 127

/-- One element of an integer conversion: code value, saturated, NaN. -/
def intElem (f : Nat) (s : Dy) (z : Nat) (zpOn : Bool) (x : FV) : Int × Bool × Bool :=
  let hi := qmax f
  let lo := if isSignedInt f ∨ f = 7 then -hi else 0
  match x with
  | .nan => (if isSignedInt f ∨ f = 7 then 0 else z, false, true)
  | .inf neg => (if neg then lo else hi, true, false)
  | .num sg m e =>
    let v : Dy := ⟨if sg then -(m : Int) else m, e⟩
    if s.m ≤ 0 then (lo + ((Config.openCode (toF32 (.num false s.m.natAbs s.e)) (toF32 x) : Nat) : Int) % (hi - lo + 1), false, false)
    else
      let q := v.roundDiv s + (if isSignedInt f ∨ f = 7 then 0 else (z : Int))
      let c := max lo (min hi q)
      (c, q ≠ c || (!(isSignedInt f) && f ≠ 7 && !zpOn && v.m < 0), false)

/-- One element of a floating-point conversion under R90. -/
def floatElem (f : Nat) (nonsat : Bool) (s : Dy) (x : FV) : Nat × Bool :=
  match x with
  | .num sg m e =>
    if s.m ≤ 0 then (Config.openCode (toF32 (.num false s.m.natAbs s.e)) (toF32 x) % 2 ^ elemBits f, false)
    else
      let v : Dy := ⟨m, e⟩
      let (n, d) := v.quot 1 s
      let fm := elemFmt f
      let (r, u) := fm.roundMag false n d
      if fm.over r u then (fm.overBits nonsat sg, true) else (fm.packMag r u + fm.signBit sg, false)
  | _ => (elemFmt f).convert nonsat x

def finites (xs : List FV) : List Dy := xs.filterMap FV.dy

def amaxOf (xs : List FV) : Dy := (finites xs).foldl (fun a v => a.max v.abs) Dy.zero

/-- Scale and zero point of a dynamic group; the element scale of an MX group is 2^E. R98 gives an unsigned group RU_fp16 only: DESIGN CHOICE (log
entry 120), an E8M0 scale rounds up to a power of two as R97 has it, and without a scale format the scale is 1.0 and the zero point 0. -/
def dynScale (f scaleFmt : Nat) (zpOn : Bool) (xs : List FV) : Half × Nat :=
  let amax := amaxOf xs
  let one : Half := if scaleFmt = 1 then 0x7F else 0x3C00
  let ru (a : Dy) (q : Nat) : Half := if scaleFmt = 1 then ceilE8m0 a q else ruFp16 a q
  if isMxFmt f then
    if amax.m = 0 then (0x7F, 0)
    else
      let emax : Int := if f = 8 then 8 else if f = 9 then 15 else if f = 0xA then 2 else 0
      let e := floorLog2 amax.m.natAbs 1 + amax.e - emax
      (BitVec.ofNat 16 (max (-127) (min 127 e) + 127).toNat, 0)
  else if scaleFmt = 2 then (0x3C00, 0)
  else if isSignedInt f then (if amax.m = 0 then (one, 0) else (ru amax (qmax f).toNat, 0))
  else if isIntFmt f then
    let lo := (finites xs).foldl Dy.min Dy.zero
    let hi := (finites xs).foldl Dy.max Dy.zero
    if zpOn then
      let w := hi.sub lo
      if w.m = 0 then (one, 0)
      else
        let s := ru w (qmax f).toNat
        let z := match (scaleVal scaleFmt s).dy with
          | some d => (max 0 (min (qmax f) ((⟨-lo.m, lo.e⟩ : Dy).roundDiv d))).toNat
          | none => 0
        (s, z)
    else if hi.m = 0 then (one, 0) else (ru hi (qmax f).toNat, 0)
  else (Config.openScale (toF32 (.num false amax.m.natAbs amax.e)), 0)

/-- A group converted with a given scale and zero point. `zero` marks a group of R102, whose finite elements all take code 0. -/
def convertGroup (f scaleFmt : Nat) (nonsat zpOn : Bool) (s : Half) (z : Nat) (zero : Bool) (xs : List FV) : QOut :=
  let sd : Dy := match (scaleVal scaleFmt s).dy with
    | some d => d
    | none => ⟨-1, 0⟩
  if isIntFmt f || f == 7 then
    let sd := if f = 7 then ⟨1, sd.e - 6 + floorLog2 (max 1 sd.m.natAbs) 1⟩ else sd
    let el := xs.map fun x => match x, zero with
      | .num sg m _, true => ((0 : Int), sg && m ≠ 0, false)
      | _, _ => intElem f sd z zpOn x
    ⟨⟨el.map fun e => intCode f e.1, s, z, (el.map (·.1)).foldl (· + ·) 0⟩, (el.filter (·.2.1)).length, (el.filter (·.2.2)).length⟩
  else
    let el := xs.map fun x => match x, zero with
      | .num .., true => (0, false)
      | _, _ => floatElem f nonsat sd x
    ⟨⟨el.map (·.1), s, 0, 0⟩, (el.filter (·.2)).length, 0⟩

/-- The group's range is 0 (R102): amax, hi − lo, or hi without a zero point. -/
def zeroRange (f : Nat) (zpOn : Bool) (xs : List FV) : Bool :=
  if isIntFmt f && !isSignedInt f && !zpOn then ((finites xs).foldl Dy.max Dy.zero).m == 0 else (amaxOf xs).m == 0

/-- Dynamic conversion of one group to format `f` with the given scale format. -/
def quantDyn (f scaleFmt : Nat) (nonsat zpOn : Bool) (xs : List FV) : QOut :=
  let (s, z) := dynScale f scaleFmt zpOn xs
  convertGroup f (if isMxFmt f then 1 else scaleFmt) (nonsat && !isMxFmt f) zpOn s z
    (zeroRange f zpOn xs && (isIntFmt f || isMxFmt f)) xs

/-- Conversion of one group to the activation format of a kernel; `st` is the static scale and zero point (R99). -/
def quantise (k : Kernel) (st : Option (Half × Nat)) (xs : List FV) : QOut :=
  let zpOn := k.flags.getLsbD 1
  let nonsat := k.flags.getLsbD 3
  match st with
  | some (s, z) => convertGroup k.aFmt k.aScale nonsat zpOn s (if zpOn then z else 0) false xs
  | none => quantDyn k.aFmt k.aScale nonsat zpOn xs

/-- A whole vector along the reduction dimension, converted dynamically. DESIGN CHOICE (log entry 121): kernels 0 to 2 have no layer and so no
static scale table (R99), and such a kernel with A_STATIC = 1 converts dynamically too. -/
def quantVec (k : Kernel) (xs : List FV) : List QOut := (chunk k.group xs).map (quantise k none)

def outGroups (os : List QOut) : List QGroup := os.map (·.g)
def outSat (os : List QOut) : Nat := (os.map (·.sat)).foldl (· + ·) 0
def outNan (os : List QOut) : Nat := (os.map (·.nan)).foldl (· + ·) 0

/-- NaN elements of a group (R119). -/
def nanElems (xs : List FV) : Nat := (xs.filter (· == FV.nan)).length

/-- The error statistic of R118 for one converted group; an MXINT8 element stands for its code × 2^-6 (R86). -/
def groupMse (k : Kernel) (xs : List FV) (q : QGroup) : Word :=
  let s := toF32 (scaleVal k.aScale q.scale)
  let term (x : FV) (c : Nat) : Option Word :=
    match x with
    | .num .. =>
      let v := if isIntFmt k.aFmt then f32OfInt (intVal k.aFmt c - q.zp)
        else if k.aFmt = 7 then toF32 (.num (intVal 7 c < 0) (intVal 7 c).natAbs (-6)) else toF32 ((elemFmt k.aFmt).decode c)
      let d := f32sub (toF32 x) (f32mul s v)
      some (f32mul d d)
    | _ => none
  let ts := (xs.zip q.codes).filterMap fun p => term p.1 p.2
  if ts.isEmpty then 0 else f32div (ts.foldl f32add 0) (f32OfInt ts.length)

end Sys2Proof.Machine
end

