-- ==== Sys2Proof/Machine/Sizes.lean ====
section
/-! DEFINITION. Sizes of the structures in memory and flash (R133 to R142, R291) and what a tenant uses of its reservations (R329). -/
namespace Sys2Proof.Machine

/-- A kernel of a profile in the store. -/
def kernelOf (s : State) (profile k : Nat) : Kernel :=
  match s.sched.profiles.find? (·.no == profile) with
  | some p => p.kernels.getD k default
  | none => default

def roundUp (a b : Nat) : Nat := ceilDiv a b * b

def insertBy {α : Type} (less : α → α → Bool) (x : α) : List α → List α
  | [] => [x]
  | y :: r => if less x y then x :: y :: r else y :: insertBy less x r

/-- A stable sort. -/
def sortBy {α : Type} (less : α → α → Bool) (l : List α) : List α := l.foldl (fun acc x => insertBy less x acc) []

/-! ## Sizes -/

/-- RECORD_BYTES (R133). -/
def recordBytes (pd : Nat) : Nat := 5 * pd / 8

/-- SLOT_OFFSET, NORM_OFFSET and LEAF_BYTES (R137). -/
def leafSlotOff (pd n : Nat) : Nat := roundUp (64 + n * recordBytes pd) 64
def leafNormOff (pd n : Nat) : Nat := roundUp (leafSlotOff pd n + 5 * n) 64
def leafSize (pd n : Nat) (l2 : Bool) : Nat := roundUp (if l2 then leafNormOff pd n + 8 * n else leafSlotOff pd n + 5 * n) 4096

/-- REF_OFFSET and NODE_BYTES (R139). -/
def nodeRefOff (pd n : Nat) : Nat := roundUp (64 + n * recordBytes pd) 64
def nodeSize (pd n : Nat) : Nat := roundUp (nodeRefOff pd n + 16 * n) 4096

/-- REFINE_BYTES, the stride S and RPU (R134, R135). -/
def refineBytes (rd : Nat) : Nat := rd + 4 * ceilDiv rd 128 + 16
def refineStride (rd : Nat) : Nat := roundUp (refineBytes rd) 32
def refineRpu (rd : Nat) : Nat := 16384 / refineStride rd
def refineUnits (rd n : Nat) : Nat := ceilDiv n (refineRpu rd)

/-- The PROJECTION section (R147). -/
def projSize (pd rd g0 : Nat) : Nat := pd * rd + 2 * pd * ceilDiv rd g0 + 4 * pd

/-- Slots per 64 MiB extent: of keys, and of attributes followed by their partition bytes (R136, R219; DESIGN CHOICE in the place of the bytes, log
entry 124). -/
def keyExtent : Nat := 0x4000000 / 8
def attrExtent : Nat := 0x4000000 / 9

/-- The arrays of `n` slots. -/
def arraysSize (n : Nat) : Nat := 0x4000000 * (ceilDiv n keyExtent + ceilDiv n attrExtent)

/-- Entries of a segment (R221). -/
def seedBytes (pd : Nat) : Nat := roundUp (32 + recordBytes pd) 16
def seedCap (pd : Nat) : Nat := (65536 - 64) / seedBytes pd
def weedCap : Nat := 4092

/-! ## Collections -/

def CollInfo.l2 (i : CollInfo) : Bool := i.metric == 1

def leafBytesOf (i : CollInfo) (l : LeafBlk) : Nat := leafSize i.projDims l.recs.length i.l2
def nodeBytesOf (i : CollInfo) (n : NodeBlk) : Nat := nodeSize i.projDims n.kids.length

def sumOf {α : Type} (l : List α) (f : α → Nat) : Nat := l.foldl (fun n x => n + f x) 0

/-- Leaves and both copies of internal nodes of a version. -/
def versionSize (i : CollInfo) (v : Version) : Nat := sumOf v.leaves (leafBytesOf i) + 2 * sumOf v.nodes (nodeBytesOf i)

/-- One above the highest slot in use. -/
def topSlot (c : Coll) : Nat := c.slots.foldl (fun n p => max n (p.1 + 1)) 0

def projHeld (p : Projection) : Nat := roundUp (sumOf p.rows List.length + 2 * sumOf p.scales List.length + 4 * p.bias.length) 4096

def collHbm (c : Coll) : Nat :=
  (match c.versions with
    | [] => 0
    | v :: _ => versionSize c.info v) + 2 * projHeld c.proj + arraysSize (topSlot c)

def collFlash (c : Coll) : Nat := 16384 * refineUnits c.info.refineDims (topSlot c) + 4096 * c.info.buckets

/-! ## Row tables and models -/

def elemBytes (f cols : Nat) : Nat := cols * elemBits f / 8
/-- CODES and SCALE of a row, and ROW_BYTES (R291). -/
def rowDataBytes (cols fmt : Nat) : Nat := elemBytes fmt cols + (if fmt = 1 ∨ fmt = 3 then 2 * cols / 32 else 0)
def rowBytes (cols fmt stFmt stCount : Nat) : Nat := roundUp (rowDataBytes cols fmt + stCount * (if stCount = 0 then 0 else elemBytes stFmt cols) + 8) 32
def tableRowBytes (t : Table) : Nat := rowBytes t.cols t.fmt t.stFmt t.stCount

def Table.pinHbm (t : Table) : Bool := t.flags.getLsbD 0
def Table.create (t : Table) : Bool := t.flags.getLsbD 1
def Table.readOnly (t : Table) : Bool := t.flags.getLsbD 2

def unitsOf (stride n : Nat) : Nat := ceilDiv n (16384 / stride)

/-- Rows in 16 KiB units, and the row map. -/
def tableSize (t : Table) : Nat := 16384 * unitsOf (tableRowBytes t) (t.rows.foldl (fun n p => max n (p.1 + 1)) 0) + 4096 * t.buckets

def modelHbm (m : Model) : Nat := if m.staged && m.src == 1 then 0 else roundUp m.weights.length 4096
def modelFlash (m : Model) : Nat := if m.staged && m.src == 1 then roundUp m.weights.length 4096 else 0

/-! ## What a tenant uses (R329) -/

/-- What the header of an image needs: HBM and flash (R152). -/
def imageNeed (b : List Byte) (g0 : Nat) : Nat × Nat :=
  let items := leAt b 32 8
  (2 * roundUp (projSize (leAt b 28 2) (leAt b 30 2) g0) 4096 + 2 * leAt b (128 + 32 + 16) 8 + leAt b (128 + 64 + 16) 8 + arraysSize items,
   16384 * refineUnits (leAt b 30 2) items + 4096 * leAt b 56 4)

/-- The group size of kernel 0 of a profile. -/
def projGroup (s : State) (profile : Nat) : Nat := (kernelOf s profile 0).group

def tableNeed (b : List Byte) : Nat × Nat :=
  let n := 16384 * unitsOf (leAt b 38 2) (leAt b 16 8) + 4096 * leAt b 48 4
  if (leAt b 7 1).testBit 0 then (n, 0) else (0, n)

/-- HBM and flash bytes in use by a tenant, loads in progress included. -/
def tenantUse (s : State) (t : Nat) : Nat × Nat :=
  let cs := (s.store.colls.filter fun p => p.2.tenant == t && p.2.life ≠ .loading && p.2.life ≠ .empty).map (·.2)
  let ts := (s.store.tables.filter fun p => p.2.tenant == t && p.2.life ≠ .loading && p.2.life ≠ .empty).map (·.2)
  let ms := (s.store.models.filter fun p => p.2.tenant == t).map (·.2)
  let ld := match s.store.load with
    | some l => if l.tenant = t ∧ l.bytes ≠ [] then imageNeed l.bytes (projGroup s (leAt l.bytes 24 2)) else (0, 0)
    | none => (0, 0)
  let tl := match s.store.tload with
    | some l => if l.tenant = t ∧ l.bytes ≠ [] then tableNeed l.bytes else (0, 0)
    | none => (0, 0)
  (sumOf cs collHbm + sumOf (ts.filter (·.pinHbm)) tableSize + sumOf ms modelHbm + ld.1 + tl.1,
   sumOf cs collFlash + sumOf (ts.filter fun x => !x.pinHbm) tableSize + sumOf ms modelFlash + ld.2 + tl.2)

def hbmResv (s : State) (t : Nat) : Nat := (rd s (ftBank t 0x41C)).toNat * 0x100000
def flashResv (s : State) (t : Nat) : Nat := (rd s (ftBank t 0x424)).toNat * 0x40000000

/-- The free reservation holds `h` more bytes of HBM and `f` of flash. -/
def roomFor (s : State) (t h f : Nat) : Bool := (tenantUse s t).1 + h ≤ hbmResv s t && (tenantUse s t).2 + f ≤ flashResv s t

/-- HBM_USED_MIB and FLASH_USED_GIB of a tenant, rounded up. -/
def setUse (s : State) (t : Nat) : State :=
  let u := tenantUse s t
  wr (wr s (ftBank t 0x420) (BitVec.ofNat 32 (ceilDiv u.1 0x100000))) (ftBank t 0x428) (BitVec.ofNat 32 (ceilDiv u.2 0x40000000))

end Sys2Proof.Machine
end

