-- ==== Sys2Proof/Machine/Collector.lean ====
section
/-! DEFINITION. Errors and the fault collector (R18, R19, R475 to R491): a page's error bits, the class of each, FAULT_STATUS, first-error
capture, and the C0 safe state. -/
namespace Sys2Proof.Machine

/-- The fault classes (R477), with their codes in a history entry (R522). -/
inductive FClass where
  | c0 | c1 | c2
  deriving DecidableEq, Repr

def FClass.code : FClass → Nat
  | .c0 => 0
  | .c1 => 1
  | .c2 => 2

/-- The class of an ERR_STAT bit (R482, R552, R553, R580, R596). -/
def errClass (k : PageKind) (bit : Nat) : FClass :=
  match k with
  | .atrium => if bit = 2 ∨ bit = 4 then .c0 else if bit = 1 then .c2 else .c1
  | .sched => if bit = 2 then .c1 else .c2
  | .fault => .c0
  | .intc => if bit = 1 then .c1 else .c2
  | .power => if bit ≤ 1 then .c0 else if bit = 2 then .c1 else .c2
  | .pcie => if bit = 2 then .c1 else .c2
  | .ft => if bit = 1 then .c1 else .c2
  | .hbm => if bit = 3 ∨ bit = 4 then .c1 else .c2
  | .flashCh => if bit = 4 then .c1 else .c2
  | .gallery => if bit = 2 then .c1 else .c2
  | .test | .port | .nb | .trace | .tile | .doorbell | .tstatus => .c2

/-- The FAULT_STATUS bit of a page (R476, R597). -/
def faultGroup (k : PageKind) (n : Nat) : Nat :=
  match k with
  | .atrium => 0
  | .sched => 1
  | .intc => 2
  | .fault => 3
  | .trace => 4
  | .power => 5
  | .test => 6
  | .pcie | .doorbell | .tstatus => 7
  | .port => 8 + n
  | .hbm | .nb => 16 + n
  | .ft => 24
  | .flashCh => 32 + n / 4
  | .gallery => 40 + n / 5
  | .tile => 40 + n / 80

/-- BLOCK_TYPE of a page (R20). -/
def blockType (k : PageKind) : Nat :=
  match k with
  | .atrium => 0x0001
  | .gallery => 0x0010
  | .tile => 0x0011
  | .hbm => 0x0020
  | .nb => 0x0021
  | .flashCh => 0x0030
  | .ft => 0x0031
  | .port => 0x0040
  | .pcie | .doorbell | .tstatus => 0x0041
  | .sched => 0x0050
  | .intc => 0x0060
  | .fault => 0x0061
  | .trace => 0x0062
  | .power => 0x0070
  | .test => 0x0080

/-- The entry that an occurrence leaves in HIST_ENTRY, FAULT_FIRST or C0_FIRST (R522). -/
def faultEntry (s : State) (k : PageKind) (n bit : Nat) (c : FClass) : Nat :=
  blockType k <<< 48 + n <<< 32 + (s.now % 0x10000) <<< 16 + faultGroup k n <<< 10 + c.code <<< 8 + 1 <<< 7 + bit

/-- Card mode's history queue: 32 entries, a push at full dropped and counted (R489, R24). -/
def pushHist (s : State) (e : HistEntry) : State :=
  if s.faults.hist.length < 32 then { s with faults := { s.faults with hist := s.faults.hist ++ [e] } }
  else wr (count s Reg.fault.HIST_DROPPED) Reg.fault.HIST_CTRL (setBit (rd s Reg.fault.HIST_CTRL) 31)

def timestamp (s : State) : Nat := rd64 s Reg.atrium.TIMESTAMP

/-- First-error capture: the history queue in card mode (C2 only with HIST_C2), FAULT_FIRST and FAULT_OVERFLOW in hall mode for C0 and
C1, and C0_FIRST in both (R489 to R491). -/
def capture (s : State) (k : PageKind) (n bit : Nat) (c : FClass) : State :=
  let e := faultEntry s k n bit c
  let s1 :=
    if s.hall then
      if c = .c2 then s
      else if bitsOf (rd64 s Reg.fault.FAULT_FIRST) 7 7 = 0 then
        wr64 (wr64 s Reg.fault.FAULT_FIRST e) Reg.fault.FAULT_FIRST_TS (timestamp s)
      else wr s Reg.fault.FAULT_OVERFLOW (setBit (rd s Reg.fault.FAULT_OVERFLOW) 0)
    else if c = .c2 ∧ testBit (rd s Reg.fault.CTRL) 1 = false then s
    else pushHist s ⟨BitVec.ofNat 64 e, BitVec.ofNat 64 (timestamp s)⟩
  if c = .c0 ∧ bitsOf (rd64 s Reg.fault.C0_FIRST) 7 7 = 0 then
    wr64 (wr64 s1 Reg.fault.C0_FIRST e) Reg.fault.C0_FIRST_TS (timestamp s)
  else s1

/-- FAULT_STATUS takes a group's bit, and the step is kept for R478. -/
def setFaultBit (s : State) (g : Nat) : State :=
  let s1 := wr64 s Reg.fault.FAULT_STATUS (rd64 s Reg.fault.FAULT_STATUS ||| 1 <<< g)
  if bitsOf (rd64 s Reg.fault.FAULT_STATUS) g g = 1 then s1
  else { s1 with faults := { s1.faults with c1Set := Tbl.set s1.faults.c1Set g s.now } }

def insertNat (l : List Nat) (x : Nat) : List Nat :=
  match l with
  | [] => [x]
  | y :: r => if x < y then x :: y :: r else if x = y then y :: r else y :: insertNat r x

/-- Distinct numbers in ascending order. -/
def sortNat (l : List Nat) : List Nat := l.foldl insertNat []

/-- The nodes a flight's owner reads and row requests are in progress with (R485). -/
def flightPeers (f : Flight) : List Nat := f.work.rows.filterMap fun r => if r.remote = 0 ∨ r.done then none else some (r.remote - 1)

/-- The peer set: pair peers, coordinators of participant parts, nodes with owner reads or row requests in progress, ascending within each
kind, 256 in all (R485). -/
def peerSet (s : State) : List Nat :=
  let a := sortNat ((s.faults.pairs.filter (·.2.role ≠ 0)).map (·.2.peer))
  let live := s.sched.flights ++ s.sched.parts
  let b := sortNat (live.filterMap fun f => f.part.map (·.coord))
  let c := sortNat (live.flatMap flightPeers ++ (s.links.ownerReads.map fun h => leAt h 0 2 % 0x8000) ++
    (live.filterMap fun f => if f.kind = .rowServe then some (leAt f.desc.buf 0 2 % 0x8000) else none) ++
    (s.mem.flash.lost.filterMap fun l => if l.peer = 0 ∨ l.both then none else some (l.peer - 1)) ++
    (if s.faults.graft.active then (s.faults.pairs.filter (·.2.role == 2)).map (·.2.peer) else []))
  ((a ++ b.filter (· ∉ a)) ++ c.filter (fun x => x ∉ a ∧ x ∉ b)).take 256

/-- One frame leaves at once on the port of R448, with FLOW 0: the GONE frames of the safe state. -/
def sendNow (s : State) (typ dst : Nat) (payload : List Byte) : State :=
  let ps := eligiblePorts s dst
  match ps[(dst % 0x8000) % ps.length]? with
  | none => count s Reg.atrium.NO_ROUTE
  | some p => transmit s p (frameOn s p typ 0 0 dst 0 payload)

/-- The C0 safe state (R484): GONE frames, then idle ports; every flight and part ended for NODE_FAULT (R488); every stage stopped; flash
stopped and write-protected once its arrays finish; HBM idle. -/
def safeState (s : State) : State :=
  let pay := toLe 8 (rd64 s Reg.fault.FAULT_STATUS) ++ toLe 8 (rd64 s Reg.fault.C0_FIRST)
  let s1 := if s.hall then (rdf s Reg.atrium.FM_NODE 15 0 :: peerSet s).foldl (fun t d => sendNow t 0x04 d pay) s else s
  let s2 := (List.range 4).foldl (fun t p => leaveUp t p 0) s1
  let flights := s2.sched.flights.filter (·.part.isNone)
  { s2 with
    links := { s2.links with ownerReads := [] }
    sched := { s2.sched with flights := [], parts := [], served := [], queued := [], ready := [] }
    faults := { s2.faults with
      ended := s2.faults.ended ++ s2.sched.queued, endedFlights := s2.faults.endedFlights ++ flights, graft := Graft.reset }
    mem := { s2.mem with
      near := s2.mem.near.map (fun u => { u with queue := [], fill := 0, burstsLeft := 0 })
      flash := { s2.mem.flash with running := false, wpPending := List.range 32 } } }

/-- The flash without what it holds of a tier range: the mapping, LOST_MAP's entries (R370), dirty pages, and a collection's journal and
checkpoints. -/
def Flash.release (f : Flash) (range : Nat) : Flash :=
  { f with
    plots := f.plots.filter (·.1 / 2 ^ 32 ≠ range), lost := f.lost.filter (·.range ≠ range), dirty := f.dirty.filter (·.1 / 2 ^ 32 ≠ range)
    wb := f.wb.filter (·.1 / 2 ^ 32 ≠ range), mapOld := f.mapOld.filter (·.1 / 2 ^ 32 ≠ range), mapWb := f.mapWb.filter (·.1 / 2 ^ 32 ≠ range)
    cache := f.cache.filter (· / 2 ^ 32 ≠ range), heat := f.heat.filter (·.1 / 2 ^ 32 ≠ range), mapGen := f.mapGen.filter (·.1 / 2 ^ 32 ≠ range), spill := f.spill.filter (·.1 / 2 ^ 40 ≠ range), ckpts := Tbl.del f.ckpts range
    journal := f.journal.filter (·.coll ≠ range) }

def updFlash (s : State) (f : Flash → Flash) : State := { s with mem := { s.mem with flash := f s.mem.flash } }

/-- An object becomes EMPTY: its tier range is released. -/
def releaseRange (s : State) (range : Nat) : State := { s with mem := { s.mem with flash := s.mem.flash.release range } }

/-- The collection load in hand is given up: COLL_STATUS reads ABORTED and the collection's blocks are released. -/
def abortCollLoad (s : State) : State :=
  match s.store.load with
  | none => s
  | some l =>
    setUse { wr (releaseRange s l.target) Reg.sched.COLL_STATUS 9 with store := { s.store with load := none, colls := Tbl.del s.store.colls l.target } } l.tenant

/-- The table load in hand is given up in the same way. -/
def abortTableLoad (s : State) : State :=
  match s.store.tload with
  | none => s
  | some l =>
    setUse (raiseEvt { wr (releaseRange s (4096 + l.target)) Reg.sched.TABLE_STATUS 9 with
      store := { s.store with tload := none, tables := Tbl.del s.store.tables l.target } } (pageBase .sched 0) 16) l.tenant

/-- A C0 or C1 fault aborts the loads in progress (R152, R290): what they placed is released, and RESULT reads ABORTED. -/
def abortLoads (s : State) : State := abortTableLoad (abortCollLoad s)

/-- An error reaches the collector (R477): C2 is counted; C1 and C0 set the group's bit; C0 latches FAULT_N in the VDD_AUX domain and puts
the node into the safe state. -/
def collect (s : State) (k : PageKind) (n bit : Nat) : State :=
  match errClass k bit with
  | .c2 => capture (raiseEvt (count s Reg.fault.C2_COUNT) (pageBase .fault 0) 2) k n bit .c2
  | .c1 => raiseEvt (setFaultBit (capture (abortLoads s) k n bit .c1) (faultGroup k n)) (pageBase .fault 0) 1
  | .c0 =>
    let g := faultGroup k n
    let s1 := raiseEvt (setFaultBit (capture (abortLoads s) k n bit .c0) g) (pageBase .fault 0) 0
    let s2 := wr64 s1 Reg.fault.FAULT_C0_GROUPS (rd64 s1 Reg.fault.FAULT_C0_GROUPS ||| 1 <<< g)
    let s3 := { s2 with chip := { s2.chip with aux := { s2.chip.aux with c0 := true, ibi := s2.chip.aux.ibi + (!s.c0).toNat } } }
    if s.c0 then s3 else safeState s3

/-- An error sets its ERR_STAT bit and counts in ERR_COUNT whether or not it is masked; unmasked it may be captured in ERR_FIRST and drives
the error line (R18, R19). A bit of class C0 cannot be masked (R475). -/
def raiseErr (s : State) (k : PageKind) (n bit : Nat) : State :=
  let b := pageBase k n
  let s1 := count (wr s (b + 0x30) (setBit (rd s (b + 0x30)) bit)) (b + 0x3C)
  if testBit (rd s (b + 0x34)) bit ∧ errClass k bit ≠ .c0 then s1
  else
    let s2 := if testBit (rd s1 (b + 0x38)) 31 then s1 else wr s1 (b + 0x38) (setBit (BitVec.ofNat 32 bit) 31)
    collect s2 k n bit

/-- Several errors of one page in the same cycle: the lowest unmasked one is captured (R19). -/
def raiseErrs (s : State) (k : PageKind) (n : Nat) (bits : List Nat) : State := (sortNat bits).foldl (fun t b => raiseErr t k n b) s

end Sys2Proof.Machine
end

