-- ==== Sys2Proof/Machine/Complete.lean ====
section
/-! DEFINITION. Descriptors and how they complete: field accessors (R156, R211, R293), result headers (R192, R217, R298), completion entries
(R421), and the completion ring (R416 to R427, R431, R433). -/
namespace Sys2Proof.Machine

/-! ## Descriptors -/

/-- The descriptor families (R428). -/
inductive Family where
  | query | update | row | unknown
  deriving DecidableEq, Repr

def Desc.u (d : Desc) (off n : Nat) : Nat := leAt d.bytes off n

def Desc.op (d : Desc) : Nat := d.u 0 1

def Desc.family (d : Desc) : Family :=
  if d.op = 0x10 ∨ d.op = 0x11 then .query else if d.op = 0x20 ∨ d.op = 0x21 then .update
  else if d.op = 0x30 ∨ d.op = 0x31 then .row else .unknown

def Desc.tag (d : Desc) : Word := BitVec.ofNat 32 (d.u 4 4)
/-- COLLECTION or TABLE. -/
def Desc.obj (d : Desc) : Nat := d.u 8 2
def Desc.planSlot (d : Desc) : Nat := d.u 10 2
def Desc.crcOk (d : Desc) : Bool := crcWithout d.bytes 60 4 == BitVec.ofNat 32 (d.u 60 4)

/-- Offset by family, for the fields that the three layouts hold at different places. -/
def Desc.at_ (d : Desc) (q u r n : Nat) : Nat :=
  match d.family with
  | .query | .unknown => d.u q n
  | .update => d.u u n
  | .row => d.u r n

def Desc.cls (d : Desc) : Nat := d.at_ 14 13 12 1
def Desc.flags (d : Desc) : Nat := d.at_ 15 14 13 1
def Desc.deadline (d : Desc) : Nat := d.at_ 26 20 20 2
def Desc.resultAddr (d : Desc) : Nat := d.at_ 40 32 40 8
def Desc.resultBytes (d : Desc) : Nat := d.at_ 56 40 48 4
def Desc.hallScope (d : Desc) : Bool := d.family == .query && (d.flags).testBit 0

/-- Whether R196 lets a header be written. -/
def Desc.hdrOk (d : Desc) : Bool := d.crcOk && 64 ≤ d.resultBytes && d.resultAddr % 64 == 0

/-- Status codes (R195, R218). -/
def ST_OK : Nat := 0
def ST_CRC_FAIL : Nat := 1
def ST_VERSION : Nat := 2
def ST_BAD_PARAM : Nat := 3
def ST_PLAN_MISMATCH : Nat := 4
def ST_NOT_READY : Nat := 5
def ST_NO_FABRIC : Nat := 6
def ST_THROTTLED : Nat := 7
def ST_EXPIRED : Nat := 8
def ST_LANDING_FAILED : Nat := 9
def ST_CANCELLED : Nat := 0xA
def ST_STALE : Nat := 0xB
def ST_FETCH_ERROR : Nat := 0xC
def ST_NODE_FAULT : Nat := 0xD
def ST_INDEX_FULL : Nat := 0x101
def ST_SEEDBED_FULL : Nat := 0x102
def ST_WEED_FULL : Nat := 0x103

/-! ## Results -/

/-- A header's 60 bytes with its HDR_CRC over the header and `covered` further bytes. -/
def withHdrCrc (h covered : List Byte) : List Byte := h ++ toLe 4 (crc32c (h ++ zeros 4 ++ covered)).toNat

/-- What a query result header says beyond its descriptor (R192). -/
structure QueryHdr where
  epoch : Nat := 0
  flags : Word := 0
  count : Nat := 0
  profile : Nat := 0
  planId : Word := 0
  unrefined : Nat := 0
  waits : Nat := 0
  detail : Nat := 0
  expected : Nat := 0
  contributed : Nat := 0
  nan : Nat := 0
  omitted : Nat := 0
  leaves : Nat := 0
  candidates : Nat := 0
  survivors : Nat := 0

/-- The 64-byte result header of a search or score request (R192). -/
def queryHeader (op status tag : Nat) (h : QueryHdr) : List Byte :=
  withHdrCrc (toLe 1 op ++ toLe 1 1 ++ toLe 2 status ++ toLe 4 tag ++ toLe 8 h.epoch ++ toLe 4 h.flags.toNat ++ toLe 2 h.count ++
    toLe 2 h.profile ++ toLe 4 h.planId.toNat ++ toLe 2 h.unrefined ++ toLe 1 h.waits ++ toLe 1 h.detail ++ toLe 2 h.expected ++
    toLe 2 h.contributed ++ toLe 4 (min h.nan 0xFFFFFFFF) ++ toLe 8 h.omitted ++ toLe 4 h.leaves ++ toLe 2 h.candidates ++
    toLe 2 h.survivors ++ zeros 4) []

/-- What an update result says beyond its descriptor (R217): ACK_EPOCH, the item statuses, SEQ_FIRST, counts and DURABLE_EPOCH. -/
structure UpdHdr where
  ack : Nat := 0
  items : List Nat := []
  seqFirst : Nat := 0
  sat : Nat := 0
  nan : Nat := 0
  durable : Nat := 0

def countIn (l : List Nat) (p : Nat → Bool) : Nat := (l.filter p).length

/-- The update result: header and status bytes (R217). -/
def updateResult (op status tag : Nat) (h : UpdHdr) : List Byte :=
  let st := h.items.flatMap (toLe 1 ·)
  withHdrCrc (toLe 1 op ++ toLe 1 1 ++ toLe 2 status ++ toLe 4 tag ++ toLe 8 h.ack ++ toLe 2 h.items.length ++
    toLe 2 (countIn h.items (· ≤ 1)) ++ toLe 2 (countIn h.items (· == 1)) ++ toLe 2 (countIn h.items fun x => 2 ≤ x && x ≤ 4) ++
    toLe 8 h.seqFirst ++ toLe 4 h.sat ++ toLe 4 h.nan ++ toLe 8 h.durable ++ zeros 12) st ++ st

/-- The row batch result: header and status bytes (R298). -/
def rowResult (op status tag epoch : Nat) (rows : List Nat) : List Byte :=
  let st := rows.flatMap (toLe 1 ·)
  withHdrCrc (toLe 1 op ++ toLe 1 1 ++ toLe 2 status ++ toLe 4 tag ++ toLe 8 epoch ++ toLe 4 rows.length ++
    toLe 4 (countIn rows fun x => x ≠ 4 && x ≠ 5 && x ≠ 7) ++ toLe 4 (countIn rows (· == 0)) ++ toLe 4 (countIn rows (· == 1)) ++
    toLe 4 (countIn rows (· == 2)) ++ toLe 4 (countIn rows (· == 3)) ++ toLe 4 (countIn rows fun x => 5 ≤ x && x ≤ 7) ++ zeros 16) st ++ st

/-- A result whose header takes another STATUS; HDR_CRC is computed again. -/
def restamp (b : List Byte) (status : Nat) : List Byte :=
  withHdrCrc (b.take 2 ++ toLe 2 status ++ (b.drop 4).take 56) (b.drop 64) ++ b.drop 64

/-- The statuses of a batch that was not admitted, where its buffer has room for them: NOT_APPLIED for an update batch (R214) and for a
SCATTER (R297); a LOOKUP has none (log entry 11). -/
def Desc.refusedItems (d : Desc) : List Nat :=
  match d.family with
  | .update => let n := d.u 16 2; if 1 ≤ n ∧ n ≤ 1024 ∧ 64 + n ≤ d.resultBytes then List.replicate n 5 else []
  | .row => let n := d.u 16 4; if d.op = 0x31 ∧ 1 ≤ n ∧ n ≤ 65536 ∧ 64 + n ≤ d.resultBytes then List.replicate n 4 else []
  | _ => []

/-- The result of a descriptor that completes without admission. -/
def Desc.refusal (d : Desc) (status detail durable : Nat) : List Byte :=
  match d.family with
  | .update => updateResult d.op status d.tag.toNat { items := d.refusedItems, durable := durable }
  | .row => rowResult d.op status d.tag.toNat 0 d.refusedItems
  | .query | .unknown => queryHeader d.op status d.tag.toNat { detail := detail }

/-! ## Channels -/

def ChanEntry.zero : ChanEntry := ⟨false, false, false, false, 0, 0, 0, 0, 0, 0, 0, 0, 0, 0, 0, 0, 0⟩

/-- A channel that no CHAN_INVAL has accepted. -/
def Chan.none_ : Chan :=
  { accepted := ChanEntry.zero, force := ChanEntry.zero, ok := (true, true), sqHead := 0, sqTail := 0,
    cqTail := 0, cqHead := 0, phase := true, arm := false, outstanding := 0, tokens := 0, shapeOf := (0, 0, 0), waiting := [] }

def chan (s : State) (c : Nat) : Chan := (Tbl.get s.store.chans c).getD Chan.none_

def updChan (s : State) (c : Nat) (f : Chan → Chan) : State :=
  { s with store := { s.store with chans := Tbl.set s.store.chans c (f (chan s c)) } }

/-- The virtual function of a channel (R381). -/
def vfOf (c : Nat) : PciFn := .vf (Fin.ofNat 256 (c / 16))

/-- The node may issue requests for a function: bus mastering on, not in D3hot (R413, R433). -/
def busOk (s : State) (fn : PciFn) : Bool := (pciState s fn).bme && !(pciState s fn).d3

/-- The ring state that enabling a channel sets (R417). -/
def Chan.ringReset (ch : Chan) : Chan := { ch with sqHead := 0, sqTail := 0, cqTail := 0, cqHead := 0, phase := true, arm := false }

/-! ## Completion entries (R421 to R426) -/

/-- The 32 bytes of a completion entry, with CQE_CRC. -/
def cqeBytes (c : Nat) (ch : Chan) (q : Cqe) : List Byte :=
  let h := toLe 4 q.tag.toNat ++ toLe 2 q.status ++ [q.opcode] ++ toLe 1 (ch.phase.toNat + 2 * q.hdr.toNat) ++ toLe 2 q.sqSlot ++
    toLe 2 ch.sqHead ++ toLe 2 c ++ zeros 2 ++ toLe 8 q.epoch ++ toLe 4 q.count
  h ++ toLe 4 (crc32c (h ++ zeros 4)).toNat

def cqFull (ch : Chan) : Bool := (ch.cqTail + 1) % 2 ^ ch.accepted.cqLog == ch.cqHead

/-- One entry is written at CQ_TAIL; the phase inverts when the tail wraps; an armed channel sends its message once. -/
def putCqe (s : State) (c : Nat) (q : Cqe) : State :=
  let ch := chan s c
  let t := (ch.cqTail + 1) % 2 ^ ch.accepted.cqLog
  let s1 := hostWrite s (vfOf c) (ch.accepted.cqAddr.toNat + 32 * ch.cqTail) (cqeBytes c ch q)
  let s2 := updChan s1 c fun x => { x with
    cqTail := t, phase := (if t = 0 then !x.phase else x.phase), outstanding := x.outstanding - 1, arm := false }
  if ch.arm then sendMsix s2 (vfOf c) ch.accepted.vector else s2

/-- Waiting completions are written in order while the ring has room. -/
def drainCq (s : State) (c : Nat) : List Cqe → State
  | [] => updChan s c fun x => { x with waiting := [] }
  | q :: r => if cqFull (chan s c) then updChan s c fun x => { x with waiting := q :: r } else drainCq (putCqe s c q) c r

/-- What a completion is discarded for (R431, R433): each write suppressed counts. -/
def discardCompletion (s : State) (c : Nat) (hdr : Bool) : State :=
  updChan (countBy s Reg.pcie.DMA_DISCARDS (1 + hdr.toNat)) c fun x => { x with outstanding := x.outstanding - 1 }

/-- A completion entry falls due (R424). -/
def postCqe (s : State) (c : Nat) (q : Cqe) : State :=
  let ch := chan s c
  if ch.waiting.isEmpty && !cqFull ch then putCqe s c q
  else updChan (count s Reg.pcie.CQ_WAITS) c fun x => { x with waiting := x.waiting ++ [q] }

/-- A descriptor completes: every write of its result, then its completion entry (R423). `writes` are the result buffer writes; those of a
flight that an FLR silenced, or of a function that may not issue requests, are discarded. -/
def complete (s : State) (d : Desc) (status epoch cnt : Nat) (writes : List (Nat × List Byte)) (silent : Bool) : State :=
  let hdr := !writes.isEmpty
  if silent || !busOk s (vfOf d.chan) then discardCompletion s d.chan hdr
  else
    let s1 := writes.foldl (fun t w => hostWrite t (vfOf d.chan) w.1 w.2) s
    postCqe s1 d.chan ⟨d.tag, status, BitVec.ofNat 8 d.op, hdr, d.sqSlot, epoch, if hdr then cnt else 0⟩

/-- A descriptor completes without admission: its header where R195 and R196 write one. -/
def refuse (s : State) (d : Desc) (status detail : Nat) : State :=
  let hdr := d.hdrOk && status ≠ ST_CRC_FAIL && status ≠ ST_VERSION
  let (durable, s1) := freshEpoch s
  complete s1 d status 0 d.refusedItems.length (if hdr then [(d.resultAddr, d.refusal status detail durable)] else []) false

end Sys2Proof.Machine
end

