-- ==== Sys2Proof/Machine/Rings.lean ====
section
/-! DEFINITION. The host's rings: doorbells (R418, R425), descriptor fetches (R157, R160 orders 1 to 3, R388, R420), channel-table entries
(R385 to R388, R416, R417), the resets of the PCIe functions (R431 to R433, R413) and MSI-X (R426). -/
namespace Sys2Proof.Machine

/-- `n` bytes of HBM. -/
def hbmBytes (s : State) (a n : Nat) : List Byte := Memory.bytes s.mem.hbm a n

/-- HBM has a 39-bit address space (R313). -/
def inHbm (a n : Nat) : Bool := a + n ≤ 2 ^ 39

def allZero (bs : List Byte) : Bool := bs.all (· == 0)

/-! ## The channel table (R385, R386, R388, R416) -/

/-- The entry's fields. -/
def parseEntry (b : List Byte) : ChanEntry :=
  let f := leAt b 5 1
  { enabled := f.testBit 0, pin := f.testBit 1, resetFull := f.testBit 2, hallOk := f.testBit 3, grant := leAt b 9 1, action := leAt b 10 1,
    mask := byteAt b 11, version := BitVec.ofNat 32 (leAt b 12 4), sqAddr := BitVec.ofNat 64 (leAt b 16 8),
    cqAddr := BitVec.ofNat 64 (leAt b 24 8), sqLog := leAt b 32 1, cqLog := leAt b 33 1, vector := leAt b 34 2, weight := leAt b 36 2,
    backlog := leAt b 38 2, rate := leAt b 40 4, burst := leAt b 44 2 }

/-- The ring rules of R416, for an entry with ENABLED = 1. -/
def ringOk (ch : Chan) (e : ChanEntry) : Bool :=
  2 ≤ e.sqLog && e.sqLog ≤ 12 && 2 ≤ e.cqLog && e.cqLog ≤ 14 && e.sqAddr ≠ 0 && e.cqAddr ≠ 0 && e.sqAddr.toNat % 4096 == 0 &&
  e.cqAddr.toNat % 4096 == 0 &&
  (if ch.accepted.enabled then
    e.sqAddr == ch.accepted.sqAddr && e.cqAddr == ch.accepted.cqAddr && e.sqLog == ch.accepted.sqLog && e.cqLog == ch.accepted.cqLog
  else ch.outstanding == 0)

/-- The fields of a channel-table entry lie in their ranges and its reserved bytes are 0 (order 4 of R386). -/
def entryFormed (ch : Chan) (c : Nat) (b : List Byte) : Bool :=
  let e := parseEntry b
  leAt b 6 2 == c && leAt b 8 1 == c / 16 && leAt b 5 1 < 16 && e.grant ≤ 3 && e.action ≤ 2 && e.mask.toNat < 64 && e.version == 0 &&
  e.vector ≤ 15 && 1 ≤ e.weight && 1 ≤ e.backlog && 1 ≤ e.burst && allZero (sub b 46 14) && allZero (sub b 64 192) &&
  (!e.enabled || ringOk ch e)

def tenantState (s : State) (t : Nat) : Nat :=
  match Tbl.get s.store.tenants t with
  | some x => x.tstate
  | none => 0

/-- RESULT of a CHAN_INVAL (R386). -/
def invalResult (s : State) (c : Nat) (b : List Byte) : Nat :=
  let e := parseEntry b
  if leAt b 0 4 ≠ 0x4843564B then 1
  else if crcWithout b 60 4 ≠ BitVec.ofNat 32 (leAt b 60 4) then 2
  else if leAt b 4 1 ≠ 1 then 3
  else if entryFormed (chan s c) c b = false then 4
  else if e.enabled ∧ tenantState s (c / 16) ≠ 1 then 5
  else if e.enabled ∧ e.grant = 0 ∧ rdf s (schedBank (c / 16) 0x350) 15 0 = 0 then 6
  else if e.pin ∧ 64 ≤ (s.store.chans.filter fun p => p.1 ≠ c ∧ p.2.accepted.pin = true).length then 7
  else 0

/-- An entry is accepted: VERSION one above; a disabling version keeps the rings (R427); an enabling one resets them (R417). -/
def acceptEntry (ch : Chan) (e : ChanEntry) : Chan :=
  let v := ch.accepted.version + 1
  if e.enabled then
    let x := { ch with accepted := { e with version := v }, ok := (true, true) }
    if ch.accepted.enabled then x else x.ringReset
  else { ch with ok := (true, true), accepted := { e with
    version := v, sqAddr := ch.accepted.sqAddr, cqAddr := ch.accepted.cqAddr, sqLog := ch.accepted.sqLog, cqLog := ch.accepted.cqLog } }

/-- CHAN_INVAL: the check starts unless one is in progress (R386). -/
def chanInval (s : State) (c : Nat) : State :=
  match s.sched.inval with
  | some _ => s
  | none => { wrf s Reg.sched.CHAN_STATUS 31 31 1 with sched := { s.sched with inval := some c } }

def execChanInval (c : Fin 4096) (s : State) : Host.Outcome State Fault Refusal := .next (chanInval s c.val)

/-- CHAN_INVAL_DONE: the edit entry is accepted or refused; CHAN_DONE is raised in both cases. -/
def chanInvalDone (s : State) (c : Nat) : State :=
  let b := hbmBytes s (rd64 s Reg.sched.CHAN_TABLE_BASE + 256 * c) 256
  let r := invalResult s c b
  let s1 := wr { s with sched := { s.sched with inval := none } } Reg.sched.CHAN_STATUS (BitVec.ofNat 32 r)
  let s2 := if r = 0 then updChan s1 c fun x => acceptEntry x (parseEntry b) else s1
  raiseEvt s2 (pageBase .sched 0) 20

/-- The channel is enabled: an entry of which neither active copy is good and which the cache does not hold acts as disabled (R388). -/
def chanOn (s : State) (c : Nat) : Bool :=
  (chan s c).accepted.enabled && ((chan s c).ok.1 || (chan s c).ok.2 || s.sched.cache.contains c)

/-! ## The entry cache (R388) -/

/-- Without its least recently used unpinned entry, the list being in order of use, newest first. -/
def evictOne (s : State) (l : List Nat) : List Nat :=
  match l.reverse.find? (fun c => !(chan s c).accepted.pin) with
  | some v => l.filter (· ≠ v)
  | none => l.dropLast

/-- A look-up: a hit moves the entry to the front; a miss fills it from an active copy. -/
def cacheLookup (s : State) (c : Nat) : State :=
  if s.sched.cache.contains c then
    { count s Reg.sched.CHAN_HITS with sched := { s.sched with cache := c :: s.sched.cache.filter (· ≠ c) } }
  else
    let l := if 128 ≤ s.sched.cache.length then evictOne s s.sched.cache else s.sched.cache
    let s1 := count s Reg.sched.CHAN_MISSES
    if (chan s c).ok.1 || (chan s c).ok.2 then { s1 with sched := { s1.sched with cache := c :: l } } else s1

/-! ## Descriptor fetches (R157, R160, R395, R419, R420) -/

/-- DESC_VER is negotiated for the descriptor's family (R428). -/
def verNegotiated (s : State) (d : Desc) : Bool :=
  let v := d.u 1 1
  let i := match d.family with
    | .query | .unknown => 0
    | .update => 8
    | .row => 16
  let t := d.chan / 16
  1 ≤ v && v ≤ 8 && testBit (rd s (Reg.tstatus.OFFER_VER t)) (i + v - 1) && testBit (rd s (Reg.tstatus.ENABLE_VER t)) (i + v - 1)

/-- Orders 1 to 3 of R160; 0 when they pass. -/
def earlyStatus (s : State) (d : Desc) : Nat :=
  if d.crcOk = false then ST_CRC_FAIL
  else if d.family = .unknown ∨ verNegotiated s d = false ∨ d.u 2 2 ≠ 256 then ST_VERSION
  else if s.faults.nodeState ≠ 3 then ST_STALE
  else 0

/-- The node fetches from a channel's ring (R418, R424, R427, R431, R433). -/
def mayFetch (s : State) (c : Nat) : Bool :=
  let ch := chan s c
  chanOn s c && busOk s (vfOf c) && !(pciState s (vfOf c)).flr && ch.waiting.isEmpty && ch.sqHead ≠ ch.sqTail

/-- A channel's backlog: fetched descriptors neither admitted nor completed (R395). -/
def backlog (s : State) (c : Nat) : Nat := (s.sched.queued.filter (·.chan == c)).length

/-- The next slot of the ring is taken. -/
def takeSlot (s : State) (c : Nat) : State :=
  updChan s c fun x => { x with sqHead := (x.sqHead + 1) % 2 ^ x.accepted.sqLog, outstanding := x.outstanding + 1 }

/-- Bytes of the buffers that a descriptor names: vector or item array, and key list. A buffer whose size fields are out of their ranges is not fetched
(R157, R212). A SCATTER's gradients have DATA_BYTES bytes (R293). -/
def Desc.bufferBytes (d : Desc) : Nat × Nat :=
  let fmtOk (f : Nat) : Bool := f == 0x0B || f == 0x0C || f == 0x0D
  let dimsOk (n : Nat) : Bool := 64 ≤ n && n ≤ 4096
  let wide (f : Nat) : Nat := if f = 0x0D then 4 else 2
  let n := d.u 16 2
  match d.family with
  | .query =>
    if fmtOk (d.u 13 1) && dimsOk (d.u 28 2) && (d.op == 0x10 || (1 ≤ n && n ≤ 1024)) then
      (d.u 28 2 * wide (d.u 13 1), if d.op = 0x11 then 8 * n else 0)
    else (0, 0)
  | .update =>
    if 1 ≤ n && n ≤ 1024 then
      if d.op = 0x21 then (8 * n, 0)
      else if fmtOk (d.u 12 1) && dimsOk (d.u 18 2) then (n * roundUp (16 + d.u 18 2 * wide (d.u 12 1)) 64, 0) else (0, 0)
    else (0, 0)
  | .row => if 1 ≤ d.u 16 4 ∧ d.u 16 4 ≤ 65536 then (if d.op = 0x31 then d.u 52 4 else 0, 8 * d.u 16 4) else (0, 0)
  | .unknown => (0, 0)

/-- What a read of `n` bytes of host memory returned. -/
def fetched (n : Nat) (b : List Byte) : List Byte := (padTo b n 0).take n

/-- A descriptor and its buffers have arrived: it completes at orders 1 to 3, completes with NODE_FAULT after a C0 fault (R434), or is queued
with its arrival step. -/
def arrive (s : State) (c : Nat) (desc buf keys : List Byte) : State :=
  let d0 : Desc := ⟨c, (chan s c).sqHead, fetched 256 desc, [], [], s.ticks, s.sched.nextOrder, (chan s c).accepted.backlog ≤ backlog s c⟩
  let d := { d0 with buf := fetched d0.bufferBytes.1 buf, keys := fetched d0.bufferBytes.2 keys }
  let s1 := cacheLookup (takeSlot s c) c
  let st := if s.c0 then ST_NODE_FAULT else earlyStatus s1 d
  if st ≠ 0 then refuse s1 d st 0
  else { s1 with sched := { s1.sched with queued := s1.sched.queued ++ [d], nextOrder := s1.sched.nextOrder + 1 } }

/-- A fetch failed: FETCH_ERROR without TAG and OPCODE when the descriptor itself could not be read (R420). A descriptor that names no buffer to fetch
has arrived whole (R157). -/
def fetchError (s : State) (c : Nat) (desc : Option (List Byte)) : State :=
  let slot := (chan s c).sqHead
  let s1 := count (raiseErr (takeSlot s c) .pcie 0 4) Reg.pcie.FETCH_ERRORS
  match desc with
  | some b =>
    let d : Desc := ⟨c, slot, fetched 256 b, [], [], s.ticks, 0, false⟩
    if d.bufferBytes = (0, 0) then arrive s c b [] [] else refuse s1 d ST_FETCH_ERROR 0
  | none => complete s1 ⟨c, slot, zeros 256, [], [], s.ticks, 0, false⟩ ST_FETCH_ERROR 0 0 [] false

def execFetchError (c : Fin 4096) (desc : Option (List Byte)) (s : State) : Host.Outcome State Fault Refusal :=
  .next (if mayFetch s c.val then fetchError s c.val desc else s)

/-! ## Doorbells (R418, R425, R426) -/

/-- A doorbell write is ignored: DB_ERR and DB_ERRORS. -/
def doorbellError (s : State) (c : Nat) : State :=
  let a := Reg.tstatus.DB_ERR (c / 16)
  count (wr s a (setBit (rd s a) (c % 16))) Reg.pcie.DB_ERRORS

/-- How far `x` lies past `head` in a ring of 2^`log` entries. -/
def ringDist (x head log : Nat) : Nat := (x + 2 ^ log - head) % 2 ^ log

def sqTailOk (s : State) (c v : Nat) : Bool :=
  let ch := chan s c
  chanOn s c && v < 2 ^ ch.accepted.sqLog && ringDist ch.sqTail ch.sqHead ch.accepted.sqLog ≤ ringDist v ch.sqHead ch.accepted.sqLog

def sqTail (s : State) (c : Nat) (w : Word) : State :=
  if (pciState s (vfOf c)).d3 then s
  else if sqTailOk s c (fld w 11 0) then updChan s c fun x => { x with sqTail := fld w 11 0 } else doorbellError s c

def execSqTail (c : Fin 4096) (value : Word) (s : State) : Host.Outcome State Fault Refusal := .next (sqTail s c.val value)

def cqHeadOk (s : State) (c v : Nat) : Bool :=
  let ch := chan s c
  v < 2 ^ ch.accepted.cqLog && ringDist v ch.cqHead ch.accepted.cqLog ≤ ringDist ch.cqTail ch.cqHead ch.accepted.cqLog

/-- An accepted CQ_HEAD write: the head moves; ARM with entries waiting to be read sends the message at once; waiting completions follow. -/
def acceptHead (s : State) (c v : Nat) (arm : Bool) : State :=
  let now := arm && (chan s c).cqTail ≠ v
  let s1 := updChan s c fun x => { x with cqHead := v, arm := (x.arm || arm) && !now }
  let s2 := if now then sendMsix s1 (vfOf c) (chan s c).accepted.vector else s1
  drainCq s2 c (chan s2 c).waiting

def cqHead (s : State) (c : Nat) (w : Word) : State :=
  if (pciState s (vfOf c)).d3 then s
  else if cqHeadOk s c (fld w 13 0) then acceptHead s c (fld w 13 0) (testBit w 31) else doorbellError s c

def execCqHead (c : Fin 4096) (value : Word) (s : State) : Host.Outcome State Fault Refusal := .next (cqHead s c.val value)

/-! ## MSI-X and power states (R426, R413) -/

/-- A pending vector that may now be sent is sent (PCIe's rule for the PBA, R426). -/
def flushVector (fn : PciFn) (s : State) (v : Nat) : State :=
  let x := pciState s fn
  if x.pba.getLsbD v && x.unmasked.getLsbD v && !x.d3 && (x.bme || fn == .pf) then
    hostMsix (setPciState s fn { x with pba := x.pba &&& ~~~((1 : BitVec 64) <<< v) }) fn v
  else s

def flushMsix (s : State) (fn : PciFn) : State := (List.range 64).foldl (flushVector fn) s

/-- The mask bit of a vector changes. A VF has 16 vectors (R412). -/
def setVectorMask (s : State) (fn : PciFn) (v : Nat) (masked : Bool) : State :=
  if fn ≠ .pf ∧ 16 ≤ v then s
  else
    let x := pciState s fn
    let m : BitVec 64 := 1 <<< v
    flushVector fn (setPciState s fn { x with unmasked := if masked then x.unmasked &&& ~~~m else x.unmasked ||| m }) v

def execMsixUnmask (fn : PciFn) (vector : Fin 64) (s : State) : Host.Outcome State Fault Refusal :=
  .next (setVectorMask s fn vector.val false)

/-- A function in D3hot acts as with Memory Space Enable and Bus Master Enable 0; back in D0 it returns with its state (No_Soft_Reset). -/
def d3hot (s : State) (fn : PciFn) (enter : Bool) : State :=
  let s1 := setPciState s fn { pciState s fn with d3 := enter }
  if enter then s1 else flushMsix s1 fn

def execD3hot (fn : PciFn) (enter : Bool) (s : State) : Host.Outcome State Fault Refusal := .next (d3hot s fn enter)

def execBusMasterDisable (vf : Fin 256) (s : State) : Host.Outcome State Fault Refusal :=
  .next (setPciState s (.vf vf) { pciState s (.vf vf) with bme := false })

def execBusMasterEnable (vf : Fin 256) (s : State) : Host.Outcome State Fault Refusal :=
  .next (flushMsix (setPciState s (.vf vf) { pciState s (.vf vf) with bme := true }) (.vf vf))

/-! ## Function Level Reset (R431, R432) -/

/-- Flights of a tenant's channels are cancelled and write nothing more. -/
def silenceFlight (t : Nat) (f : Flight) : Flight :=
  if f.part.isNone && f.desc.chan / 16 == t then { f with cancel := true, silent := true } else f

/-- The channel whose completion waits. -/
def Deferred.chan : Deferred → Option Nat
  | .finish d _ _ _ _ _ => some d.chan
  | .reply _ _ _ _ _ => none

/-- A waiting completion of the tenant writes nothing any more. -/
def Deferred.silenced (t : Nat) : Deferred → Deferred
  | .finish d st e n ws si => .finish d st e n ws (si || d.chan / 16 == t)
  | .reply c d o f p => .reply c d o f p

/-- One channel's ring state after an FLR; its cancelled flights stay outstanding until they end. -/
def flrChan (s : State) (c : Nat) : State :=
  match Tbl.get s.store.chans c with
  | none => s
  | some ch =>
    let live := ((s.sched.flights ++ s.faults.endedFlights).filter fun f => f.part.isNone && f.desc.chan == c).length +
      (s.faults.held.filter fun h => h.act.chan == some c).length
    let s1 := countBy s Reg.pcie.DMA_DISCARDS ch.waiting.length
    updChan s1 c fun x => { x.ringReset with waiting := [], outstanding := live }

/-- VF_FLR: fetching stops, unadmitted descriptors are discarded, flights cancelled, rings, DB_ERR, DESC_VER_ENABLE and the MSI-X table
reset. -/
def vfFlr (s : State) (i : Fin 256) : State :=
  let t := i.val
  let s1 := { s with
    sched := { s.sched with queued := s.sched.queued.filter (·.chan / 16 ≠ t), flights := s.sched.flights.map (silenceFlight t) }
    faults := { s.faults with
      ended := s.faults.ended.filter (·.chan / 16 ≠ t), endedFlights := s.faults.endedFlights.map (silenceFlight t)
      held := s.faults.held.map fun h => { h with act := h.act.silenced t } } }
  let s2 := (List.range 16).foldl (fun u q => flrChan u (16 * t + q)) s1
  let s3 := wr (wr s2 (Reg.tstatus.DB_ERR t) 0) (Reg.tstatus.ENABLE_VER t) 0x01010101
  setPciState s3 (.vf i) { pciState s3 (.vf i) with flr := true, unmasked := 0, pba := 0, table := [] }

def execVfFlr (vf : Fin 256) (s : State) : Host.Outcome State Fault Refusal := .next (vfFlr s vf)

/-- FLR_COMPLETE: once the last cancelled flight has ended. -/
def flrComplete (s : State) (i : Fin 256) : State :=
  let x := pciState s (.vf i)
  if x.flr && !((s.sched.flights ++ s.faults.endedFlights).any fun f => f.part.isNone && f.desc.chan / 16 == i.val) then
    raiseEvt (count (setPciState s (.vf i) { x with flr := false }) Reg.pcie.FLR_COUNT) (pageBase .pcie 0) 1
  else s

def execFlrComplete (vf : Fin 256) (s : State) : Host.Outcome State Fault Refusal := .next (flrComplete s vf)

def pcieStatusReg : Nat := pageBase .pcie 0 + 0x18

/-- PCIE_LINK_CHANGE: STATUS reports the trained values; LINK_CHANGE when LINK_UP, RATE or WIDTH changed (R437). -/
def linkChange (s : State) (rate width : Nat) (flit : Bool) : State :=
  let w : Word := if rate = 0 then 0 else BitVec.ofNat 32 (flit.toNat * 512 + (width % 32) * 16 + rate * 2 + 1)
  let old := rd s pcieStatusReg
  let s1 := wr s pcieStatusReg w
  if fld old 8 0 ≠ fld w 8 0 then raiseEvt s1 (pageBase .pcie 0) 0 else s1

def execPcieLinkChange (rate : Fin 7) (width : Nat) (flit : Bool) (s : State) : Host.Outcome State Fault Refusal :=
  .next (linkChange s rate.val width flit)

/-- An FLR of every virtual function. -/
def flrAll (s : State) : State := (List.finRange 256).foldl vfFlr s

/-- The virtual functions' configuration space is reset: bus mastering off, D0. -/
def clearVfs (s : State) : State :=
  let clear (x : PciState) : PciState := { x with bme := false, d3 := false }
  { s with links := { s.links with vfs := s.links.vfs.map fun p => (p.1, clear p.2) } }

/-- The physical function's configuration space is reset. -/
def clearPf (s : State) : State := { s with links := { s.links with pf := { PciState.reset with flr := s.links.pf.flr } } }

def perstLow (s : State) : State := { s with chip := { s.chip with pins := { s.chip.pins with perstN := false } } }

/-- The resets of R432: an FLR of every VF, configuration space included; the resets that take the link out of L0 set LINK_DOWN. -/
def pcieReset (s : State) (k : PcieReset) : State :=
  let vfs := clearVfs (flrAll s)
  match k with
  | .vfEnableClear => vfs
  | .pfFlr => clearPf vfs
  | .hotReset => raiseErr (clearPf vfs) .pcie 0 3
  | .linkDown => raiseErr (linkChange (clearPf vfs) 0 0 false) .pcie 0 3
  | .perstN => raiseErr (linkChange (perstLow (clearPf vfs)) 0 0 false) .pcie 0 3

def execPcieReset (kind : PcieReset) (s : State) : Host.Outcome State Fault Refusal := .next (pcieReset s kind)

end Sys2Proof.Machine
end

