-- ==== Sys2Proof/Machine/Capacity.lean ====
section
/-! DEFINITION. What a step holds (R68, R316, R346, R390, R411), bookings (R58, R317, R391), and the capacity of HBM and flash (R328, R337,
R342). -/
namespace Sys2Proof.Machine

/-! ## What a period holds -/

/-- PERIOD_ACTIVE (R34). -/
def periodSel (s : State) : Nat := rdf s Reg.atrium.STEP_STATUS 5 4

def periodNs (sel : Nat) : Nat := 125000 * 2 ^ sel

/-- The stage limit of R68. -/
def stageLimit (sel mhz margin : Nat) : Nat := (periodNs sel - 2250) * mhz / 1000 * (100 - margin) / 100

/-- Scan windows per step (R316). -/
def winPerStep (sel : Nat) : Nat := (periodNs sel - 2250) / 1024

/-- Frames of 9,216 bytes per step at `lanes` lanes (R411). -/
def fabricSlots (sel lanes : Nat) : Nat := lanes * 25 * (periodNs sel - 2250) / 9216

/-- The rate in MT/s of a CH_RATE code (R379). -/
def rateMt (code : Nat) : Nat :=
  match code with
  | 0 => 0
  | 1 => 800
  | 2 => 1600
  | 3 => 2400
  | 4 => 3200
  | _ => 3600

/-- SLOTS_PER_STEP of R346. -/
def slotsPerStep (sel code prog : Nat) : Nat := rateMt code * (periodNs sel - 2250) / (1000 * 1152) - prog

def lanesUp (s : State) : Nat := (s.links.ports.filter Port.isUp).foldl (fun n p => n + p.lanes) 0

def chanStatusReg (n : Nat) : Nat := pageBase .flashCh n + 0x18
/-- CH_STATE is ONLINE (R379). -/
def flashOnline (s : State) (n : Nat) : Bool := rdf s (chanStatusReg n) 1 0 == 2

def stackStatusReg (n : Nat) : Nat := pageBase .hbm n + 0x18
/-- STACK_STATE: 0 HEALTHY, 1 DEGRADED, 2 FAILED, 3 UNTRAINED (R335). -/
def stackState (s : State) (n : Nat) : Nat := rdf s (stackStatusReg n) 1 0
def nearReady (s : State) (n : Nat) : Bool := stackState s n ≤ 1
def nearStatusReg (n : Nat) : Nat := pageBase .nb n + 0x18

/-- The registers that follow the period, the lanes up and the flash rates. -/
def setStepRates (s : State) : State :=
  let p := periodSel s
  let s1 := wr s Reg.sched.TILE_STEP_CYCLES (BitVec.ofNat 32 (stageLimit p 1250 10))
  let s2 := wr s1 Reg.sched.FABRIC_SLOTS_STEP (BitVec.ofNat 32 (if s.hall then fabricSlots p (lanesUp s) else 0))
  let s3 := [0, 2, 4, 6].foldl (fun t n => wr t (Reg.nb.WIN_PER_STEP n) (BitVec.ofNat 32 (winPerStep p))) s2
  (List.range 32).foldl (fun t n => wr t (Reg.flashCh.SLOTS_PER_STEP n) (BitVec.ofNat 32
    (if flashOnline t n then slotsPerStep p (rdf t (chanStatusReg n) 4 2) (rdf t (Reg.flashCh.PROG_SLOTS n) 15 0) else 0))) s3

/-! ## Bookings (R52, R58, R317, R391) -/

/-- The step a stage occupies, by tick count: its offset from the admission step, shifted by the waits it has moved with (R64). -/
def stageStep (f : Flight) (d : StageDef) : Nat := f.start + d.off + ((f.stages.getD d.no default).shift)

/-- What one stage takes of a step (by tick count): tiles by number 16 × gallery + local tile, with cycles; HBM share, flash slots, fabric frames,
windows; galleries, with bytes of gallery store in each. -/
structure Booking where
  step : Nat
  tiles : List Nat
  cycles : Nat
  hbm : Nat
  flash : Nat
  fabric : Nat
  windows : Nat
  galleries : List Nat
  store : Nat

/-- The tiles of a resource set on a gallery map. -/
def setTiles (r : RSet) (gmap : List Nat) : List Nat :=
  (List.range 50).flatMap fun i =>
    match gmap[i]? with
    | some g => if r.galMask.getLsbD i then (List.range 16).filterMap fun t => if r.tileMask.getLsbD t then some (16 * g + t) else none else []
    | none => []

/-- The galleries that a stage runs on. -/
def stageGalleries (p : Plan) (gmap : List Nat) (d : StageDef) : List Nat :=
  match p.rsets[d.rset]? with
  | some r => (List.range 50).filterMap fun i => if r.galMask.getLsbD i then gmap[i]? else none
  | none => []

def stageBooking (p : Plan) (gmap : List Nat) (at_ : Nat) (d : StageDef) : Booking :=
  match p.rsets[d.rset]? with
  | some r => ⟨at_, setTiles r gmap, d.budget, r.hbm, r.flash, r.fabric, r.windows, stageGalleries p gmap d, r.store⟩
  | none => ⟨at_, [], d.budget, 0, 0, 0, 0, [], 0⟩

/-- The bookings of a flight that are not released: background flights book nothing (R71). -/
def flightBookings (f : Flight) : List Booking :=
  if f.plan.flags.getLsbD 2 then []
  else f.plan.stages.filterMap fun d =>
    let r := f.stages.getD d.no default
    if r.skipped then none else some (stageBooking f.plan f.gmap (stageStep f d) d)

/-- A stage that runs: started, and neither complete nor stopped. -/
def StageRun.runs (r : StageRun) : Bool := r.started && !r.complete && !r.suspended && !r.skipped && !r.failed

/-- The stage is not to be waited for: complete or skipped. -/
def StageRun.over (r : StageRun) : Bool := r.complete || r.skipped

/-- A stage that would have started, or resumed, on a tile that a background stage has not yielded (R72). -/
def StageRun.waitsForYield (r : StageRun) : Bool := r.delayed && !r.complete && !r.skipped && !r.failed

/-- The stages that run on a tile, with their flights. -/
def tileStages (s : State) (t : Nat) : List (Flight × StageDef) :=
  (s.sched.flights ++ s.sched.parts).flatMap fun f => (f.plan.stages.filter fun d =>
    let r := f.stages.getD d.no default
    r.runs && !r.done.contains (t / 16) && (match f.plan.rsets[d.rset]? with
      | some x => (setTiles x f.gmap).contains t
      | none => false)).map fun d => (f, d)

def tileBusy (s : State) (t : Nat) : Bool := !(tileStages s t).isEmpty

/-- A sum over bookings of one step. -/
def booked (bs : List Booking) (t : Nat) (sel : Booking → Nat) : Nat := (bs.filter (·.step == t)).foldl (fun n b => n + sel b) 0

def bookedCycles (bs : List Booking) (t tile : Nat) : Nat := booked bs t fun b => if b.tiles.contains tile then b.cycles else 0

/-- The bytes of store booked on a gallery in a step. -/
def bookedStore (bs : List Booking) (t g : Nat) : Nat := booked bs t fun b => if b.galleries.contains g then b.store else 0

/-- The bytes of a gallery store (R52, R278). -/
def galleryStoreBytes : Nat := 8388608

/-- New bookings find room in every gallery store they use, beside those held. -/
def storeFits (held new : List Booking) : Bool :=
  new.all fun b => b.galleries.all fun g => bookedStore (held ++ new) b.step g ≤ galleryStoreBytes

/-- What a set of bookings may hold in any step. -/
structure Limits where
  cycles : Nat
  hbm : Nat
  flash : Nat
  fabric : Nat
  windows : Nat

/-- New bookings fit beside those held, in every step they touch. -/
def fits (l : Limits) (held new : List Booking) : Bool :=
  new.all fun b =>
    let all := held ++ new
    booked all b.step (·.hbm) ≤ l.hbm && booked all b.step (·.flash) ≤ l.flash && booked all b.step (·.fabric) ≤ l.fabric &&
    booked all b.step (·.windows) ≤ l.windows && b.tiles.all fun t => bookedCycles all b.step t ≤ l.cycles

/-! ## Capacity now and at full health (R390) -/

def pcActive (s : State) : Nat := (List.range 8).foldl (fun n k => n + rdf s (stackStatusReg k) 8 2) 0

/-- Flash runs: the channels of a half are all ONLINE (R341). -/
def flashRunning (s : State) : Bool := s.mem.flash.running

/-- SPILL_FREE_MIB (R357, R380). -/
def spillFree (s : State) : Nat :=
  if flashRunning s then 1024 * s.mem.flash.spillGib - ceilDiv (s.mem.flash.blocks.foldl (fun n b => n + b.2.spill) 0) 0x100000 else 0

/-- INSERT batches are held: the spill region is nearly full, or the spill index holds more than 75 % of its entries (R357). -/
def spillHeld (s : State) : Bool :=
  16 * spillFree s < 1024 * s.mem.flash.spillGib || 3 * 252 * (rd s Reg.ft.SPILL_BUCKETS).toNat < 4 * s.mem.flash.spill.length

/-- The least SLOTS_PER_STEP over the ONLINE channels; 0 if flash is not running. -/
def leastSlots (s : State) : Nat :=
  let l := (List.range 32).filter (flashOnline s)
  if flashRunning s then l.foldl (fun m n => min m (rdf s (Reg.flashCh.SLOTS_PER_STEP n) 15 0)) 65535 else 0

/-- The least SLOTS_PER_STEP over all 32 channels at RATE_MAX. -/
def fullSlots (s : State) : Nat :=
  (List.range 32).foldl (fun m n => min m
    (slotsPerStep (periodSel s) (rdf s (Reg.flashCh.RATE_MAX n) 2 0) (rdf s (Reg.flashCh.PROG_SLOTS n) 15 0))) 65535

def capacityNow (s : State) : Limits :=
  ⟨rd s Reg.sched.TILE_STEP_CYCLES |>.toNat, 1024 * pcActive s / 512, leastSlots s,
   if s.hall then (rd s Reg.sched.FABRIC_SLOTS_STEP).toNat else 0,
   if [0, 2, 4, 6].any (nearReady s) then winPerStep (periodSel s) else 0⟩

/-! ## HBM (R328, R335, R337) -/

/-- HBM lost to failed stacks, stacks left UNTRAINED (R314) and retired pseudo-channels, in MiB. -/
def hbmLost (s : State) : Nat :=
  (List.range 8).foldl (fun n k => n + (if stackState s k = 2 ∨ (s.mem.stackSt.getD k Stack.reset).rejected = true then 65536
    else if stackState s k = 1 then 1024 * (64 - rdf s (stackStatusReg k) 8 2) else 0)) 0

def floorInForce (s : State) (floor : Nat) : Nat := max 16384 (floor - hbmLost s)

/-- HBM_RESERVABLE_MIB: the HBM in service less system memory and the floor in force. -/
def hbmReservable (s : State) (floor : Nat) : Nat :=
  524288 - hbmLost s - (rd s Reg.ft.HBM_SYSTEM_MIB).toNat - floorInForce s floor

def setHbmCapacity (s : State) : State :=
  let f := (rd s Reg.ft.CACHE_FLOOR_MIB).toNat
  wr (wr s Reg.ft.HBM_RESERVABLE_MIB (BitVec.ofNat 32 (hbmReservable s f))) Reg.ft.CACHE_MIB (BitVec.ofNat 32 (floorInForce s f))

end Sys2Proof.Machine
end

