-- ==== Sys2Proof/Machine/Interrupts.lean ====
section
/-! DEFINITION. The interrupt controller and the mailboxes (R524 to R533, R546 to R548, R552). -/
namespace Sys2Proof.Machine

/-! ## Sources and cores -/

def getSrc (s : State) (n : Nat) : Src := (Tbl.get s.chip.intc.srcs n).getD Src.reset

def setIntc (s : State) (x : Intc) : State := { s with chip := { s.chip with intc := x } }

/-- A source equal to its reset value is not listed. -/
def putSrc (s : State) (n : Nat) (x : Src) : State :=
  setIntc s { s.chip.intc with
    srcs := if x = Src.reset then Tbl.del s.chip.intc.srcs n else Tbl.set s.chip.intc.srcs n x }

def getCore (s : State) (c : Nat) : CoreSt := s.chip.intc.cores.getD c (CoreSt.reset false)

def updCore (s : State) (c : Nat) (f : CoreSt → CoreSt) : State :=
  setIntc s { s.chip.intc with cores := updAt s.chip.intc.cores c f }

/-- The register page that drives a source (R524). -/
def sourcePage (n : Nat) : Option Nat :=
  if n = 0 then some (pageBase .atrium 0)
  else if n = 1 then some (pageBase .sched 0)
  else if n = 2 then some (pageBase .fault 0)
  else if n = 3 then some (pageBase .power 0)
  else if n = 4 then some (pageBase .test 0)
  else if n = 5 then some (pageBase .pcie 0)
  else if 8 ≤ n ∧ n ≤ 11 then some (pageBase .port (n - 8))
  else if 16 ≤ n ∧ n ≤ 23 then some (pageBase .hbm (n - 16))
  else if 24 ≤ n ∧ n ≤ 27 then some (pageBase .nb (2 * (n - 24)))
  else if 32 ≤ n ∧ n ≤ 63 then some (pageBase .flashCh (n - 32))
  else if n = 64 then some (pageBase .ft 0)
  else if n = 65 then some (pageBase .intc 0)
  else if 128 ≤ n ∧ n ≤ 177 then some (pageBase .gallery (n - 128))
  else if 192 ≤ n ∧ n ≤ 242 then some (pageBase .trace (n - 192))
  else if 256 ≤ n ∧ n ≤ 1055 then some (pageBase .tile (n - 256))
  else none

def isMailboxSource (n : Nat) : Bool := 72 ≤ n && n ≤ 75

def isSoftSource (n : Nat) : Bool := 2048 ≤ n && n ≤ 4095

/-- The input of a source as the controller sees it: its page's EVT_PEND (R17), or its mailbox (R533). -/
def sourceInput (s : State) (n : Nat) : Bool :=
  match sourcePage n with
  | some b => rd s (b + 0x28) ≠ 0
  | none => isMailboxSource n && !(s.chip.intc.mboxIn.getD (n - 72) []).isEmpty

def isAssigned (n : Nat) : Bool := (sourcePage n).isSome || isMailboxSource n || isSoftSource n

/-- Whether a source is pending (R525): latched, or LEVEL-sensed with its input asserted while not active. -/
def Src.isPending (x : Src) : Bool := x.pending || (x.sense == 0 && x.input && x.activeOn.isNone)

/-- TIER_WIDTH in force: 0 and values above 8 act as 8 (R552). -/
def tierWidth (s : State) : Nat :=
  let w := rdf s Reg.intc.TIER_WIDTH 3 0
  if w = 0 ∨ 8 < w then 8 else w

/-- Tier and tiebreak of an urgency (R526). -/
def tierOf (s : State) (u : Nat) : Nat := u / 2 ^ (8 - tierWidth s)
def tiebreakOf (s : State) (u : Nat) : Nat := u % 2 ^ (8 - tierWidth s)

/-- A target is enabled when its bit is set in TARGETS and its CORE_EN is 1 (R529). -/
def enabledTarget (s : State) (x : Src) (c : Nat) : Bool := x.targets.getLsbD c && (getCore s c).enabled

/-- The first enabled target after LAST_CORE, wrapping (R529). -/
def bindTarget (s : State) (x : Src) : Option Nat :=
  ([1, 2, 3, 4].map fun i => (x.last + i) % 4).find? (enabledTarget s x)

/-- A LEVEL source is pending only while its input is asserted (R525): a deassertion is seen at once. -/
def Src.levelNow (x : Src) (s : State) (n : Nat) : Src := if x.sense = 0 then { x with input := x.input && sourceInput s n } else x

/-- One source bound or bound again (R529): a takeable source without an enabled core takes the next enabled target. -/
def rebind (s : State) (n : Nat) (y : Src) : Src :=
  let x := y.levelNow s n
  if !(isAssigned n) || !x.isPending || x.activeOn.isSome then { x with bound := none }
  else
    match x.bound with
    | some c => if enabledTarget s x c then x else { x with bound := bindTarget s x }
    | none => { x with bound := bindTarget s x }

def rebindAll (s : State) : State :=
  setIntc s { s.chip.intc with srcs := s.chip.intc.srcs.map fun p => (p.1, rebind s p.1 p.2) }

/-- Whether source `a` ranks above `b` (R526): higher tier, then higher tiebreak, then lower number. -/
def ranksAbove (s : State) (a b : Nat × Src) : Bool :=
  let ta := tierOf s a.2.urgency
  let tb := tierOf s b.2.urgency
  let ka := tiebreakOf s a.2.urgency
  let kb := tiebreakOf s b.2.urgency
  tb < ta || (ta == tb && (kb < ka || (ka == kb && a.1 < b.1)))

/-- The source the controller selects for a core (R526); a disabled source is never taken (R552). -/
def selected (s : State) (c : Nat) : Option (Nat × Src) :=
  (s.chip.intc.srcs.filter fun p => p.2.bound == some c && p.2.enable && p.2.activeOn.isNone && p.2.isPending).foldl
    (fun best p => match best with
      | none => some p
      | some b => if ranksAbove s p b then some p else some b) none

/-- Whether a tier pre-empts a nest: the core idle, or the tier strictly above the running one (R527). -/
def preempts (s : State) (nest : List (Nat × Nat)) (u : Nat) : Bool :=
  match nest with
  | [] => true
  | (_, t) :: _ => t < tierOf s u

/-- A core takes a source: it becomes active, its latch clears, LAST_CORE becomes the core (R528, R529). -/
def takeSource (s : State) (c n : Nat) : State :=
  let x := getSrc s n
  let s1 := putSrc s n { x with pending := false, activeOn := some c, bound := none, last := c, full := false }
  updCore s1 c fun k => { k with nest := (n, tierOf s x.urgency) :: k.nest }

/-- A core takes its selected source if it pre-empts (R527); a source that would need a ninth level stays pending and counts in NEST_FULL, once. -/
def enterCore (s : State) (c : Nat) : State :=
  match selected s c with
  | none => s
  | some (n, x) =>
    if (getCore s c).enabled && preempts s (getCore s c).nest x.urgency then
      if (getCore s c).nest.length < 8 then takeSource s c n
      else if x.full then s
      else raiseEvt (count (putSrc s n { x with full := true }) Reg.intc.NEST_FULL) (pageBase .intc 0) 0
    else s

/-- Bind every takeable source, then let every core enter what it would take. -/
def settle (s : State) : State := [0, 1, 2, 3].foldl enterCore (rebindAll s)

/-- The edge a source senses (R525). -/
def sensedEdge (sense : Nat) (old new : Bool) : Bool :=
  match sense with
  | 1 => !old && new
  | 2 => old && !new
  | 3 => old != new
  | _ => false

/-- An entry retargeted in cycles 1 to 10 (R530): the displaced source stays pending, the new one is entered in its place. -/
def retarget (s : State) (c : Nat) : State :=
  match selected s c, (getCore s c).nest with
  | some (n, x), (m, t) :: r =>
    if t < tierOf s x.urgency then
      let d := getSrc s m
      let s1 := putSrc s m { d with pending := d.sense ≠ 0 || !d.input, activeOn := none, bound := some c }
      count (takeSource (updCore s1 c fun k => { k with nest := r }) c n) Reg.intc.RETARGETS
    else s
  | _, _ => s

/-- An exit sequence abandoned for a source that pre-empts the context being restored (R531). -/
def handoff (s : State) (c : Nat) : State :=
  match selected s c with
  | none => s
  | some (n, x) =>
    if preempts s (getCore s c).nest x.urgency && (getCore s c).enabled then count (takeSource s c n) Reg.intc.HANDOFFS else s

/-- INTERRUPT_ASSERT (R525, R529, R530): the controller sees the input of a source (a page's from EVT_PEND, a mailbox's from its depth), an edge
latches, the source is bound, and its core enters it, retargets the entry it is in, or hands off the exit it is in. -/
def assertSource (s : State) (n : Nat) (phase : CorePhase) : State :=
  if !(isAssigned n) || isSoftSource n then s
  else
    let x := getSrc s n
    let inp := sourceInput s n
    let s1 := rebindAll (putSrc s n { x with input := inp, pending := x.pending || sensedEdge x.sense x.input inp })
    match (getSrc s1 n).bound with
    | none => settle s1
    | some c =>
      match phase with
      | .steady => settle s1
      | .entering k => if 1 ≤ k ∧ k ≤ 10 then settle (retarget s1 c) else settle s1
      | .exiting => settle (handoff s1 c)

def execInterruptAssert (src : Fin 4096) (phase : CorePhase) (s : State) : Host.Outcome State Fault Refusal :=
  .next (assertSource s src.val phase)

/-- HANDLER_RETURN (R531): the handler's context is restored, or handed off to a pending source that would pre-empt it. -/
def handlerReturn (s : State) (c : Nat) : State :=
  match (getCore s c).nest with
  | [] => s
  | _ :: r => settle (handoff (rebindAll (updCore s c fun k => { k with nest := r })) c)

def execHandlerReturn (core : Fin 4) (s : State) : Host.Outcome State Fault Refusal := .next (handlerReturn s core.val)

/-- SW_TRIGGER (R525): PENDING of a source is set as an edge would; an unassigned source never fires (R524). -/
def swTrigger (s : State) (n : Nat) : State :=
  if isAssigned n then settle (putSrc s n { getSrc s n with pending := true }) else s

def execSwTrigger (src : Fin 4096) (s : State) : Host.Outcome State Fault Refusal := .next (swTrigger s src.val)

/-- COMPLETE (R528): a source active on the writing core is active no more; any other sets BAD_COMPLETE. -/
def completeSource (s : State) (c n : Nat) : State :=
  let x := getSrc s n
  if x.activeOn = some c then settle (putSrc s n { x with activeOn := none }) else raiseErr s .intc 0 0

def execComplete (core : Fin 4) (src : Fin 4096) (s : State) : Host.Outcome State Fault Refusal :=
  .next (completeSource s core.val src.val)

/-- A write of CORE_EN (R529). -/
def setCoreEn (s : State) (c : Nat) (e : Bool) : State := settle (updCore s c fun k => { k with enabled := e })

def execCoreEn (core : Fin 4) (enable : Bool) (s : State) : Host.Outcome State Fault Refusal := .next (setCoreEn s core.val enable)

/-- The sources active on a core become inactive and pending (R548). -/
def releaseActive (c : Nat) (x : Src) : Src :=
  if x.activeOn = some c then { x with activeOn := none, pending := true } else x

/-- MC_WDOG (R548, R523): the restarted core loses CORE_EN and its nest; its active sources are bound again. -/
def mcWdog (s : State) (c : Nat) : State :=
  let s1 := raiseErr s .atrium 0 5
  let s2 := updCore s1 c fun _ => ⟨false, []⟩
  settle (setIntc s2 { s2.chip.intc with srcs := s2.chip.intc.srcs.map fun p => (p.1, releaseActive c p.2) })

def execMcWdog (core : Fin 4) (s : State) : Host.Outcome State Fault Refusal := .next (mcWdog s core.val)

/-! ## The SRC_CFG window (R552) -/

/-- SRC_CFG as read: the configuration of the selected source with LAST_CORE, ACTIVE and PENDING. -/
def srcCfg (x : Src) : Word :=
  BitVec.ofNat 32 (x.urgency * 2 ^ 24 + x.targets.toNat * 2 ^ 16 + x.sense * 2 ^ 12 + x.enable.toNat * 2 ^ 8 + x.last * 4 +
    x.activeOn.isSome.toNat * 2 + x.isPending.toNat)

/-- A write of SRC_CFG: stored for any source; targets and enable may bind and take at once. -/
def writeSrcCfg (s : State) (v : Word) : State :=
  let n := rdf s Reg.intc.SRC_SEL 11 0
  settle (putSrc s n { getSrc s n with
    urgency := fld v 31 24, targets := BitVec.ofNat 4 (fld v 19 16), sense := fld v 13 12, enable := testBit v 8 })

/-! ## Mailboxes (R533, R23 to R25) -/

def setMboxIn (s : State) (n : Nat) (q : List Quad) : State :=
  setIntc s { s.chip.intc with mboxIn := updAt s.chip.intc.mboxIn n fun _ => q }

def setMboxOut (s : State) (n : Nat) (q : List Quad) : State :=
  setIntc s { s.chip.intc with mboxOut := updAt s.chip.intc.mboxOut n fun _ => q }

def setMboxBit (s : State) (n bit : Nat) : State := wr s (Reg.intc.MBOX_STATUS n) (setBit (rd s (Reg.intc.MBOX_STATUS n)) bit)

def answerQ (s : State) (v : Quad) : State := { s with links := { s.links with answer := some v, abort := false } }

/-- MBOX_IN: a push at 16 is refused and counted. -/
def mboxIn (s : State) (n : Nat) (v : Quad) : State :=
  let q := s.chip.intc.mboxIn.getD n []
  if q.length < 16 then setMboxIn s n (q ++ [v]) else setMboxBit (count s Reg.intc.MBOX_DROPPED) n 29

def execMboxIn (n : Fin 4) (value : Quad) (s : State) : Host.Outcome State Fault Refusal := .next (mboxIn s n.val value)

/-- MBOX_IN_POP: the head, or 0 at depth 0, with UNDERFLOW unless a push falls in the same cycle (R23, R24). -/
def mboxInPop (s : State) (n : Nat) (push : Bool) : State :=
  match s.chip.intc.mboxIn.getD n [] with
  | [] => answerQ (if push then s else setMboxBit s n 28) 0
  | v :: r => answerQ (setMboxIn s n r) v

def execMboxInPop (n : PopAt 4) (s : State) : Host.Outcome State Fault Refusal := .next (mboxInPop s n.unit.val n.push)

/-- MBOX_OUT: the push that makes the queue non-empty sends PF MSI-X vector n. -/
def mboxOut (s : State) (n : Nat) (v : Quad) : State :=
  let q := s.chip.intc.mboxOut.getD n []
  if q.length < 16 then
    let s1 := setMboxOut s n (q ++ [v])
    if q.isEmpty then sendMsix s1 .pf n else s1
  else setMboxBit (count s Reg.intc.MBOX_DROPPED) n 31

def execMboxOut (n : Fin 4) (value : Quad) (s : State) : Host.Outcome State Fault Refusal := .next (mboxOut s n.val value)

def mboxOutPop (s : State) (n : Nat) (push : Bool) : State :=
  match s.chip.intc.mboxOut.getD n [] with
  | [] => answerQ (if push then s else setMboxBit s n 30) 0
  | v :: r => answerQ (setMboxOut s n r) v

def execMboxOutPop (n : PopAt 4) (s : State) : Host.Outcome State Fault Refusal := .next (mboxOutPop s n.unit.val n.push)

/-- The mailbox status word as read: sticky bits, and depth, empty and full of both queues (R552). -/
def mboxStatus (s : State) (n : Nat) : Word :=
  let i := (s.chip.intc.mboxIn.getD n []).length
  let o := (s.chip.intc.mboxOut.getD n []).length
  BitVec.ofNat 32 (fld (rd s (Reg.intc.MBOX_STATUS n)) 31 28 * 2 ^ 28 + (o == 16).toNat * 2 ^ 27 + (o == 0).toNat * 2 ^ 26 +
    (i == 16).toNat * 2 ^ 25 + (i == 0).toNat * 2 ^ 24 + o * 2 ^ 16 + i)

/-- A core's CORE_SOURCE and state words as read (R552). -/
def coreSource (s : State) (c : Nat) : Word :=
  match (getCore s c).nest with
  | [] => 0
  | (n, _) :: _ => setBit (BitVec.ofNat 32 n) 31

def coreState (s : State) (c : Nat) : Word :=
  match (getCore s c).nest with
  | [] => 0x10000
  | (_, t) :: r => BitVec.ofNat 32 (t * 2 ^ 8 + (r.length + 1))

end Sys2Proof.Machine
end

