-- ==== Sys2Proof/Machine/Trace.lean ====
section
/-! DEFINITION. Trace units and the merger (R534 to R539, R550, R553). Unit 50 is the management complex; 0 to 49 are the galleries. -/
namespace Sys2Proof.Machine

def traceUnit (s : State) (u : Nat) : TraceUnit := s.chip.trace.getD u TraceUnit.reset

def updTrace (s : State) (u : Nat) (f : TraceUnit → TraceUnit) : State :=
  { s with chip := { s.chip with trace := updAt s.chip.trace u f } }

/-- One more loss of a reason at the present timestamp (R539). -/
def addLoss (s : State) (u reason n : Nat) : State :=
  if n = 0 then s
  else updTrace s u fun t => { t with losses := updAt t.losses reason fun l => (l.1 + n, if l.1 = 0 then timestamp s else l.2) }

/-- The 8-byte header of a packet (R535). -/
def packetHeader (s : State) (typ unit seq : Nat) (long : Bool) : List Byte :=
  toLe 1 typ ++ toLe 1 unit ++ toLe 1 long.toNat ++ toLe 1 (seq % 256) ++ toLe 4 (timestamp s)

/-- A unit emits a packet (R536, R537): a unit with TRACE_EN 0 pushes nothing; a packet without room for all its entries is dropped whole. -/
def emit (s : State) (u typ : Nat) (payload : List Byte) : State :=
  if testBit (rd s (Reg.trace.CTRL u)) 0 = false then s
  else
    let t := traceUnit s u
    let bs := packetHeader s typ u t.seq (8 < payload.length) ++ payload
    let es := if 8 < payload.length then [(true, bs.take 16), (false, bs.drop 16)] else [(true, bs)]
    if t.fifo.length + es.length ≤ 64 then updTrace s u fun t => { t with fifo := t.fifo ++ es, seq := t.seq + 1 }
    else
      let s1 := wr (count s (Reg.trace.TRACE_LOST u)) (Reg.trace.FIFO_CTRL u) (setBit (rd s (Reg.trace.FIFO_CTRL u)) 31)
      addLoss s1 u 0 1

/-- FIFO_CTRL as read: sticky bits, FULL, EMPTY and DEPTH (R553). -/
def fifoStatus (s : State) (u : Nat) : Word :=
  let n := (traceUnit s u).fifo.length
  BitVec.ofNat 32 (fld (rd s (Reg.trace.FIFO_CTRL u)) 31 30 * 2 ^ 30 + (n == 64).toNat * 2 ^ 29 + (n == 0).toNat * 2 ^ 28 + n)

def stepEpochs (s : State) : List Byte := toLe 8 s.now ++ toLe 8 (rd64 s Reg.atrium.TRELLIS_EPOCH)

/-- A TRACE_SYNC packet (R536). -/
def emitSync (s : State) (u : Nat) : State :=
  updTrace (emit s u 0x12 (toLe 8 (timestamp s) ++ stepEpochs s)) u fun t => { t with lastSync := s.now }

/-- A STAGE packet (R536), when STAGE_EN is 1. -/
def emitStage (s : State) (u chan admitStep stage tile sflags kind : Nat) : State :=
  if testBit (rd s (Reg.trace.CTRL u)) 1 then
    emit s u 0x01 (toLe 2 chan ++ toLe 2 admitStep ++ toLe 1 stage ++ toLe 1 tile ++ toLe 1 sflags ++ toLe 1 kind)
  else s

/-- A LANDING packet (R536), when LANDING_EN is 1. -/
def emitLanding (s : State) (u chan admitStep landing outcome : Nat) : State :=
  if testBit (rd s (Reg.trace.CTRL u)) 2 then
    emit s u 0x02 (toLe 2 chan ++ toLe 2 admitStep ++ toLe 1 landing ++ toLe 1 outcome ++ toLe 2 0)
  else s

/-- SW_PACKET: an SW packet with the written value. -/
def execSwPacket (unit : Fin 51) (value : Quad) (s : State) : Host.Outcome State Fault Refusal :=
  .next (emit s unit.val 0x03 (toLe 8 value.toNat))

/-- SUMMARY (R536): every SUMMARY_STEPS steps (0 acts as 1) while SUMMARY_EN is 1. DOZE_CYCLES counts clock cycles, which the model does not
have: it is a free value (log entry 6). -/
def summaryPacket (s : State) (u : Nat) : State :=
  let every := Nat.max 1 (rdf s (Reg.trace.SUMMARY_STEPS u) 15 0)
  if testBit (rd s (Reg.trace.CTRL u)) 3 ∧ every ≤ s.now - (traceUnit s u).lastSummary then
    let t := traceUnit s u
    let (lo, s1) := freshWord s
    let (hi, s2) := freshWord s1
    let s3 := emit s2 u 0x04 (toLe 6 s.now ++ toLe 2 0 ++ toLe 4 t.dozeN ++ toLe 2 t.dozeTiles.toNat ++ toLe 2 0 ++ toLe 4 lo.toNat ++ toLe 4 hi.toNat)
    updTrace s3 u fun t => { t with dozeN := 0, dozeTiles := 0, lastSummary := s.now }
  else s

def execSummary (unit : Fin 51) (s : State) : Host.Outcome State Fault Refusal := .next (summaryPacket s unit.val)

/-- Whether a gallery's unit is in fallow, so that no TRACE_SYNC is due (R550). -/
def inFallow (s : State) (u : Nat) : Bool :=
  match s.chip.galleries[u]? with
  | some g => g.fstate != 0
  | none => false

/-- TRACE_SYNC (R536, R550): every SYNC_STEPS steps. -/
def execTraceSync (unit : Fin 51) (s : State) : Host.Outcome State Fault Refusal :=
  .next (if rdf s (Reg.trace.SYNC_STEPS 50) 12 0 ≤ s.now - (traceUnit s unit.val).lastSync ∧ inFallow s unit.val = false
    then emitSync s unit.val else s)

/-! ## The merger (R538, R539) -/

def bufSize (s : State) : Nat := (rd s (Reg.trace.TRACE_BUF_BYTES 50)).toNat

def sinkMode (s : State) : Nat := rdf s (Reg.trace.MERGE_CTRL 50) 1 0

/-- Whether the buffer has room for `n` bytes: the write pointer would not reach the read pointer; WRAP always has. -/
def bufRoom (s : State) (n : Nat) : Bool :=
  let z := bufSize s
  let w := rd64 s (Reg.trace.TRACE_WR_PTR 50)
  let r := rd64 s (Reg.trace.TRACE_RD_PTR 50)
  sinkMode s == 0 || (w + z - r % z) % z + n < z

/-- Bytes written at TRACE_WR_PTR of the host buffer. -/
def bufWrite (s : State) (bs : List Byte) : State :=
  let w := rd64 s (Reg.trace.TRACE_WR_PTR 50)
  wr64 (hostWrite s .pf (rd64 s (Reg.trace.TRACE_BUF_ADDR 50) + w) bs) (Reg.trace.TRACE_WR_PTR 50) ((w + bs.length) % bufSize s)

/-- One LOSS packet of a unit and reason, if it lost packets and the buffer has room (R539): two entries, since the buffer may wrap between them. -/
def writeLoss (s : State) (u reason : Nat) : State :=
  let l := (traceUnit s u).losses.getD reason (0, 0)
  if l.1 = 0 ∨ bufRoom s 32 = false then s
  else
    let bs := packetHeader s 0x20 0xFF s.chip.mergeSeq true ++ toLe 1 u ++ toLe 1 (reason + 1) ++ toLe 2 0 ++ toLe 4 l.1 ++ toLe 8 l.2 ++ toLe 8 0
    let s1 := count (bufWrite (bufWrite s (bs.take 16)) (bs.drop 16)) (Reg.trace.LOSS_PACKETS 50)
    updTrace { s1 with chip := { s1.chip with mergeSeq := s1.chip.mergeSeq + 1 } } u
      fun t => { t with losses := updAt t.losses reason fun _ => (0, 0) }

def writeLosses (s : State) : State :=
  (List.range 51).foldl (fun t u => [0, 1, 2].foldl (fun t r => writeLoss t u r) t) s

/-- One entry leaves a FIFO: to the buffer, or discarded in STOP mode when the buffer is full (counted once per packet). -/
def popEntry (s : State) (u : Nat) (head : Bool) (bs : List Byte) : State :=
  let long := byteAt bs 2 == 1
  let full := head && !(bufRoom s (if long then 32 else 16))
  let drop := if head then full else (traceUnit s u).skip
  let s1 := updTrace s u fun t => { t with fifo := t.fifo.drop 1, skip := drop }
  if drop then (if head then addLoss (count s1 (Reg.trace.SINK_DROPPED 50)) u 2 1 else s1) else bufWrite s1 bs

/-- The merger pops one entry of a unit (R538): nothing while MERGE_EN is 0, nor in HOLD mode when the buffer is full. A pop at depth 0 sets
UNDERFLOW unless a push falls in the same cycle (R23). -/
def mergerPop (s : State) (u : Nat) (push : Bool) : State :=
  if testBit (rd s (Reg.trace.MERGE_CTRL 50)) 8 = false then s
  else
    match (traceUnit s u).fifo with
    | [] => if push then s else wr s (Reg.trace.FIFO_CTRL u) (setBit (rd s (Reg.trace.FIFO_CTRL u)) 30)
    | (head, bs) :: _ =>
      if sinkMode s == 2 && head && !(bufRoom s (if byteAt bs 2 == 1 then 32 else 16)) then s
      else writeLosses (popEntry s u head bs)

/-- The unit the merger serves: one that drains for fallow comes first (R538). -/
def mergerUnit (s : State) (u : Nat) : Nat :=
  match (List.range 50).find? (fun g =>
      (s.chip.galleries.getD g Gallery.reset).pushedEnter && !(traceUnit s g).fifo.isEmpty) with
  | some g => g
  | none => u

def execTraceMergerPop (unit : PopAt 51) (s : State) : Host.Outcome State Fault Refusal :=
  .next (mergerPop s (mergerUnit s unit.unit.val) unit.push)

/-- The merger drains a unit as far as it can within 2 µs: every entry, unless it holds (R541). -/
def drainUnit (s : State) (u : Nat) : Nat → State
  | 0 => s
  | n + 1 => if (traceUnit s u).fifo.isEmpty then s else drainUnit (mergerPop s u false) u n

end Sys2Proof.Machine
end

