-- ==== Sys2Proof/Machine/Fallow.lean ====
section
/-! DEFINITION. Galleries: flushes of their stores (R320 to R323), doze (R540), fallow entry, gating and waking (R541 to R545, R61), leaving
and returning to service (R483, R289). -/
namespace Sys2Proof.Machine

def gallery (s : State) (g : Nat) : Gallery := s.chip.galleries.getD g Gallery.reset

def updGallery (s : State) (g : Nat) (f : Gallery → Gallery) : State :=
  { s with chip := { s.chip with galleries := updAt s.chip.galleries g f } }

/-- The galleries in service, ascending (R52). -/
def inServiceList (s : State) : List Nat := (List.range 50).filter fun g => (gallery s g).inService

/-- Whether an admitted flight or part booked a gallery (R61). -/
def galleryBooked (s : State) (g : Nat) : Bool :=
  (s.sched.flights ++ s.sched.parts.filter fun f => f.part.any (·.admitted)).any fun f => f.gmap.any (· == g)

/-! ## Relays (R289) -/

/-- A change of the galleries in service starts a relay of every pinned model. -/
def relayModel (m : Model) : Model := if m.staged then m else { m with relay := true, relayFail := false }

def startRelays (s : State) : State :=
  let n := (s.store.models.filter fun p => !p.2.staged).length
  countBy { s with store := { s.store with models := s.store.models.map fun p => (p.1, relayModel p.2) } } Reg.sched.PIN_RELAY n

/-- A gallery leaves service at once: R61 for its stages, R289 for pinned models. -/
def removeGallery (s : State) (g : Nat) : State :=
  if (gallery s g).inService then startRelays (updGallery s g fun x => { x with inService := false, leave := false }) else s

/-- A flight's stages booked on a gallery that a forced fallow or a fault takes away fail (R61): those of this step and of later ones, and one of an
earlier step that is not complete (a suspended, late or background stage). -/
def failStages (now g : Nat) (f : Flight) : Flight :=
  { f with stages := f.stages.zipIdx.map fun x =>
    match f.plan.stages[x.2]? with
    | some d =>
      if (stageGalleries f.plan f.gmap d).contains g && (decide (now ≤ stageStep f d) || !x.1.over) then { x.1 with failed := true } else x.1
    | none => x.1 }

/-- A gallery is taken away at once: its stages fail, and a transplant that it carries ends without publishing (R242). -/
def takeGallery (s : State) (g : Nat) : State :=
  let s1 := removeGallery s g
  { s1 with
    sched := { s1.sched with
      flights := s1.sched.flights.map (failStages s1.ticks g), parts := s1.sched.parts.map (failStages s1.ticks g) }
    store := { s1.store with colls := s1.store.colls.map fun (p : Nat × Coll) =>
      (p.1, { p.2 with tps := p.2.tps.filter fun t => t.sealed || t.gallery ≠ g }) } }

/-! ## Dirty lines and flushes (R320 to R323) -/

/-- The range of `n` bytes at `a` shares a byte with `x`. -/
def meets (a n : Nat) (x : Nat × Nat) : Bool := a < x.1 + x.2 && x.1 < a + n

/-- A dirty line that is dropped unwritten: HBM keeps what it held before (R320), no entry of the batch, and zeros in the arrays (log entry 127). -/
def dropLine (s : State) (d : Dirty) : State :=
  { s with store := { s.store with colls := Tbl.upd s.store.colls d.coll fun c =>
    match d.kind with
    | .seed => { c with seeds := c.seeds.filter fun e => !(e.held == some d.flight && e.slot == d.slot) }
    | .weed => { c with weeds := c.weeds.filter fun e => !(e.held == some d.flight && e.slot == d.slot) }
    | .key => { c with slots := Tbl.upd c.slots d.slot fun x => { x with key := 0 } }
    | .attr => { c with slots := Tbl.upd c.slots d.slot fun x => { x with attr := 0 } }
    | .part => { c with slots := Tbl.upd c.slots d.slot fun x => { x with part := 0 } } } }

/-- Dirty lines of a gallery are written to HBM. How many lines they are depends on the size of a line, which the manual does not give: FLUSH_LINES
takes a free increment (log entry 6). -/
def writeLines (s : State) (g : Nat) (which : Dirty → Bool) : State :=
  if (gallery s g).lines.any which then
    let (w, s1) := freshWord s
    countBy (updGallery s1 g fun x => { x with lines := x.lines.filter fun d => !which d }) (Reg.gallery.FLUSH_LINES g) w.toNat
  else s

/-- Dirty lines of a gallery are dropped. -/
def dropLines (s : State) (g : Nat) (which : Dirty → Bool) : State :=
  ((gallery s g).lines.filter which).foldl dropLine (updGallery s g fun x => { x with lines := x.lines.filter fun d => !which d })

/-- A broadcast INVAL of a range, before its block is allocated again (R322). -/
def invalRange (s : State) (r : Nat × Nat) : State := (List.range 50).foldl (fun t g => dropLines t g fun d => meets d.addr d.bytes r) s

/-- Whether a range may be flushed: 4 KiB aligned, 4,096 bytes to 1 GiB, within one stack (64 GiB, R313). -/
def flushRangeOk (base bytes : Nat) : Bool :=
  base % 4096 == 0 && bytes % 4096 == 0 && bytes != 0 && bytes ≤ 2 ^ 30 && base / 2 ^ 36 == (base + bytes - 1) / 2 ^ 36 && base < 2 ^ 39

/-- GO: BAD_RANGE completes at once; otherwise BUSY until every gallery of the flush completes. `op` is OP as written, `bcast` BCAST. -/
def startFlush (s : State) (g op : Nat) (bcast : Bool) : State :=
  let st := Reg.gallery.GAL_FLUSH_STATUS g
  if testBit (rd s st) 31 then s
  else
    let s1 := wr s (Reg.gallery.GAL_FLUSH_CTRL g) (BitVec.ofNat 32 (bcast.toNat * 8 + op * 2))
    if flushRangeOk (rd64 s (Reg.gallery.GAL_FLUSH_BASE g)) (rd s (Reg.gallery.GAL_FLUSH_BYTES g)).toNat then
      updGallery (wr s1 st (setBit 0 31)) g fun x => { x with
        flushRange := (rd64 s (Reg.gallery.GAL_FLUSH_BASE g), (rd s (Reg.gallery.GAL_FLUSH_BYTES g)).toNat)
        flushLeft := some (if bcast then inServiceList s else [g]), flushInv := op == 2 }
    else wr s1 st 1

def execFlushWriteback (g : Fin 50) (bcast : Bool) (s : State) : Host.Outcome State Fault Refusal := .next (startFlush s g.val 0 bcast)
def execFlushWbInval (g : Fin 50) (bcast : Bool) (s : State) : Host.Outcome State Fault Refusal := .next (startFlush s g.val 1 bcast)
def execFlushInval (g : Fin 50) (bcast : Bool) (s : State) : Host.Outcome State Fault Refusal := .next (startFlush s g.val 2 bcast)

/-- A gallery's share of the flush started at page `p` is acknowledged: its dirty lines of the range have been written back, or an INVAL has dropped
them; BUSY returns to 0 with the last. -/
def flushShareDone (g : Nat) (s : State) (p : Nat) : State :=
  match (gallery s p).flushLeft with
  | none => s
  | some l =>
    if l.contains g then
      let rest := l.filter (· ≠ g)
      let hit (d : Dirty) : Bool := meets d.addr d.bytes (gallery s p).flushRange
      let s1 := if (gallery s p).flushInv then dropLines s g hit else writeLines s g hit
      let s2 := updGallery s1 p fun x => { x with flushLeft := if rest.isEmpty then none else some rest }
      if rest.isEmpty then wr s2 (Reg.gallery.GAL_FLUSH_STATUS p) 0 else s2
    else s

def execFlushComplete (g : Fin 50) (s : State) : Host.Outcome State Fault Refusal :=
  .next ((List.range 50).foldl (flushShareDone g.val) s)

/-! ## Doze (R540) -/

/-- A tile that runs no stage stops its clock; it counts once per entry. -/
def dozeTile (s : State) (t : Nat) : State :=
  let g := gallery s (t / 16)
  if g.dozing.getLsbD (t % 16) || tileBusy s t || 2 ≤ g.fstate && g.fstate ≤ 3 then s
  else
    let s1 := updGallery (count s (Reg.gallery.DOZE_ENTRIES (t / 16))) (t / 16) fun x => { x with dozing := x.dozing ||| (1 <<< (t % 16)) }
    updTrace s1 (t / 16) fun u => { u with dozeN := u.dozeN + 1, dozeTiles := u.dozeTiles ||| (1 <<< (t % 16)) }

def execDoze (tile : Fin 800) (s : State) : Host.Outcome State Fault Refusal := .next (dozeTile s tile.val)

/-! ## Entering fallow (R541, R61) -/

/-- FSTATE codes: 0 ACTIVE, 1 ENTERING, 2 RETAIN, 3 OFF, 4 WAKING. -/
def fallowMode (s : State) (g : Nat) : Nat := rdf s (Reg.gallery.FALLOW_REQ g) 1 0

/-- Steps 2 and 3 of the entry: WB_INVAL of the store and FALLOW_ENTER, once no flight that booked the gallery is left (a forced entry does not
wait). -/
def pushEnter (s : State) (g : Nat) : State :=
  let x := gallery s g
  if x.fstate = 1 ∧ x.pushedEnter = false ∧ (x.forced = true ∨ galleryBooked s g = false) then
    let mode := if x.forced then 1 else fallowMode s g
    let reason := if x.forced then 2 else 1
    let s1 := emit (writeLines s g fun _ => true) g 0x10 (toLe 8 (timestamp s) ++ toLe 6 (rd64 s Reg.atrium.TRELLIS_EPOCH) ++ toLe 1 reason ++ toLe 1 mode ++ toLe 8 s.now)
    updGallery s1 g fun x => { x with pushedEnter := true }
  else s

/-- FALLOW_REQUEST (R542): RETAIN or OFF is accepted from ACTIVE only; the gallery leaves service at the next open instant (R61). -/
def fallowRequest (s : State) (g : Nat) (off : Bool) : State :=
  if (gallery s g).fstate ≠ 0 then s
  else
    let s1 := wr s (Reg.gallery.FALLOW_REQ g) (if off then 2 else 1)
    updGallery s1 g fun x => { x with fstate := 1, leave := x.inService, ret := false, pushedEnter := false, postponed := false, forced := false }

def execFallowRequest (g : Fin 50) (off : Bool) (s : State) : Host.Outcome State Fault Refusal := .next (fallowRequest s g.val off)

/-- The gallery gates (step 5 of R541): counters, REASON and the FALLOW_ENTER event; tile local stores are lost. -/
def gate (s : State) (g : Nat) : State :=
  let x := gallery s g
  let off := !x.forced && fallowMode s g == 2
  let s1 := count s (Reg.gallery.FALLOW_ENTRIES g)
  let s2 := if x.forced then count s1 (Reg.gallery.FORCED_ENTRIES g) else s1
  let s3 := wrf s2 (Reg.gallery.FALLOW_STATUS g) 31 24 (if x.forced then 2 else 1)
  let s4 := raiseEvt s3 (pageBase .gallery g) 0
  updGallery s4 g fun x => { x with fstate := if off then 3 else 2, fromOff := off, postponed := false, pushedEnter := false, dozing := 0 }

/-- A forced fallow drops what is left in the FIFO and reports it (R541). -/
def dropFifo (s : State) (g : Nat) : State :=
  let n := ((traceUnit s g).fifo.filter (·.1)).length
  addLoss (updTrace (countBy s (Reg.trace.TRACE_LOST g) n) g fun t => { t with fifo := [], skip := false }) g 1 n

/-- FALLOW_GATE (R541): the unit drains for 2 µs; empty, the gallery gates; otherwise a scheduled fallow is postponed, counted once, and a
forced one drops the rest and gates. -/
def fallowGate (s : State) (g : Nat) : State :=
  let s1 := pushEnter s g
  if (gallery s1 g).pushedEnter = false then s1
  else
    let s2 := drainUnit s1 g 64
    if (traceUnit s2 g).fifo.isEmpty then gate s2 g
    else if (gallery s2 g).forced then gate (dropFifo s2 g) g
    else if (gallery s2 g).postponed then s2
    else updGallery (raiseEvt (count s2 (Reg.trace.POSTPONED g)) (pageBase .gallery g) 2) g fun x => { x with postponed := true }

def execFallowGate (g : Fin 50) (s : State) : Host.Outcome State Fault Refusal := .next (fallowGate s g.val)

/-- A forced fallow ordered by the power block (R564, R541, R549, R579): a gallery already in RETAIN or OFF stays where it is; one in service
stops at once. The 2 µs of its entry pass within the order (log entry 146). -/
def forceFallow (s : State) (g : Nat) : State :=
  let s1 := raiseEvt (count s Reg.power.FORCED_FALLOWS) (pageBase .power 0) 2
  let x := gallery s1 g
  if x.fstate = 2 ∨ x.fstate = 3 then updGallery s1 g fun x => { x with hot := true }
  else
    let s2 := updGallery (takeGallery s1 g) g fun x => { x with
      fstate := 1, forced := true, hot := true, leave := false, ret := false }
    fallowGate s2 g

/-! ## Waking (R543 to R545, R551, R593) -/

/-- The retained regions kept by a wake (R545): the tag is not 0 and equals the current epoch of its kind; none from OFF or after a self-test. -/
def keptRegion (s : State) (x : Gallery) (i : Nat) : Bool :=
  let tag := x.tags.getD i 0
  !x.fromOff && !x.invalid && tag ≠ 0 && tag == (if i < 4 then rd64 s Reg.atrium.TRELLIS_EPOCH else rd64 s Reg.atrium.PIN_EPOCH)

def keptMask (s : State) (x : Gallery) : Nat := (List.range 16).foldl (fun m i => if keptRegion s x i then m + 2 ^ i else m) 0

/-- Power-up and the check of the retained regions; a wake during a self-test begins when the test completes (R593). -/
def wakeGallery (s : State) (g : Nat) : State :=
  let x := gallery s g
  if x.fstate ≠ 2 ∧ x.fstate ≠ 3 then s
  else if x.mbist then updGallery s g fun x => { x with wakeAsked := true }
  else
    let k := keptMask s x
    let s1 := wrf s (Reg.gallery.FALLOW_STATUS g) 15 0 k
    updGallery s1 g fun x => { x with
      fstate := 4, wakeAsked := false, invalid := false, forced := false
      tags := (List.range 16).map fun i => if k.testBit i then x.tags.getD i 0 else 0 }

/-- FALLOW_WAKE (R542): a write of ACTIVE from RETAIN or OFF; from OFF a hot gallery is held until the power block releases it. -/
def fallowWake (s : State) (g : Nat) : State :=
  let x := gallery s g
  if x.fstate = 2 ∨ x.fstate = 3 then
    let s1 := wr s (Reg.gallery.FALLOW_REQ g) 0
    if x.fstate = 3 ∧ x.hot = true then updGallery s1 g fun x => { x with wakeAsked := true } else wakeGallery s1 g
  else s

def execFallowWake (g : Fin 50) (s : State) : Host.Outcome State Fault Refusal := .next (fallowWake s g.val)

/-- The power block releases a gallery that has cooled (R564): a forced fallow wakes; a scheduled one stays until its own release (R579). -/
def thermalRelease (s : State) (g : Nat) : State :=
  let x := gallery s g
  let s1 := updGallery s g fun x => { x with hot := false }
  if x.forced ∨ x.wakeAsked then wakeGallery s1 g else s1

/-- TRACE_SYNC, then FALLOW_EXIT; the gallery returns to service at the next open instant unless its self-test has not passed (R543, R542). -/
def exitPackets (s : State) (g kept mode : Nat) : State :=
  let s1 := emit (emitSync s g) g 0x11 (toLe 2 kept ++ toLe 1 mode ++ toLe 5 0)
  raiseEvt (updGallery s1 g fun x => { x with ret := true }) (pageBase .gallery g) 1

/-- The tile pages of a woken gallery return to their reset values (R602). -/
def resetTilePages (s : State) (g : Nat) : State :=
  { s with regs := s.regs.filter fun p => !(0x1001000 + 0x20000 * g ≤ p.1 && p.1 < 0x1011000 + 0x20000 * g) }

def fallowExit (s : State) (g : Nat) : State :=
  if (gallery s g).fstate = 4 ∧ (gallery s g).ret = false then
    exitPackets (resetTilePages s g) g (rdf s (Reg.gallery.FALLOW_STATUS g) 15 0) (if (gallery s g).fromOff then 2 else 1)
  else s

def execFallowExit (g : Fin 50) (s : State) : Host.Outcome State Fault Refusal := .next (fallowExit s g.val)

/-- FALLOW_ABORT (R542): ACTIVE during ENTERING, before gating. -/
def fallowAbort (s : State) (g : Nat) : State :=
  if (gallery s g).fstate = 1 then
    let s1 := wrf (wr s (Reg.gallery.FALLOW_REQ g) 0) (Reg.gallery.FALLOW_STATUS g) 15 0 0xFFFF
    exitPackets (updGallery s1 g fun x => { x with fstate := 4, leave := false, forced := false, postponed := false, pushedEnter := false }) g 0xFFFF (if (gallery s g).forced then 1 else fallowMode s g)
  else s

def execFallowAbort (g : Fin 50) (s : State) : Host.Outcome State Fault Refusal := .next (fallowAbort s g.val)

/-- A write of FALLOW_REQ.MODE (R542): any write the table does not accept is ignored. -/
def writeFallowReq (s : State) (g mode : Nat) : State :=
  if mode = 1 then fallowRequest s g false
  else if mode = 2 then fallowRequest s g true
  else if mode = 0 then (if (gallery s g).fstate = 1 then fallowAbort s g else fallowWake s g)
  else s

/-- At an open instant: galleries requested to leave service leave (R61), and those that may return do (R543, R483). -/
def openGallery (s : State) (g : Nat) : State :=
  let s1 := if (gallery s g).leave then removeGallery s g else s
  let x := gallery s1 g
  if x.ret ∧ x.fstate = 4 ∨ x.ret ∧ x.fstate = 0 then
    let back := !x.faulted && !x.failed
    let s2 := updGallery s1 g fun x => { x with ret := false, fstate := 0, inService := back }
    if back ∧ x.inService = false then startRelays s2 else s2
  else pushEnter s1 g

/-- FALLOW_STATUS as read: REASON, FSTATE, RETAIN_KEPT (R554). -/
def fallowStatus (s : State) (g : Nat) : Word := withFld (rd s (Reg.gallery.FALLOW_STATUS g)) 18 16 (gallery s g).fstate

/-! ## Errors that take a gallery out of service (R483) -/

/-- The gallery leaves service at once and awaits its self-test. -/
def faultGallery (s : State) (g : Nat) : State :=
  updGallery (takeGallery s g) g fun x => { x with faulted := true, ret := false }

def unitError (s : State) (e : UnitError) : State :=
  match e with
  | .lsUe t => faultGallery (raiseErr s .tile t.val 1) (t.val / 16)
  | .seqIllegal t => faultGallery (raiseErr s .tile t.val 2) (t.val / 16)
  | .arrayParity t => faultGallery (raiseErr s .tile t.val 3) (t.val / 16)
  | .gsUe g => faultGallery (raiseErr s .gallery g.val 1) g.val
  | .lsCe t => count (raiseErr s .tile t.val 0) (Reg.tile.LS_CE_COUNT t.val)
  | .gsCe g => raiseErr s .gallery g.val 0
  | .d2dCe => raiseErr s .atrium 0 1

def execLsUe (e : UnitError) (s : State) : Host.Outcome State Fault Refusal := .next (unitError s e)

/-! ## Droop (R562) -/

/-- DROOP_STRETCH: the gallery's clock goes to half rate; each stretch counts once. -/
def droopStretch (s : State) (g : Nat) : State :=
  if (gallery s g).stretched then s
  else updGallery (raiseEvt (count s Reg.power.DROOP_EVENTS) (pageBase .power 0) 0) g fun x => { x with stretched := true }

def execDroopStretch (g : Fin 50) (s : State) : Host.Outcome State Fault Refusal := .next (droopStretch s g.val)

def execDroopRelease (g : Fin 50) (s : State) : Host.Outcome State Fault Refusal :=
  .next (updGallery s g.val fun x => { x with stretched := false })

end Sys2Proof.Machine
end

