-- ==== Sys2Proof/Machine/Power.lean ====
section
/-! DEFINITION. Rails and their detectors (R556 to R560), wing clocks and voltages (R557, R561), temperature (R563, R564), pins (R570), tray
management (R569). -/
namespace Sys2Proof.Machine

def updAux (s : State) (f : Aux → Aux) : State := { s with chip := { s.chip with aux := f s.chip.aux } }
def updPower (s : State) (f : Power → Power) : State := { s with chip := { s.chip with power := f s.chip.power } }

/-! ## Rails (R558, R559) -/

/-- The kind of a rail: 0 always on, 1 core, 2 analogue, 3 I/O (R556). -/
def railKind (r : Nat) : Nat := if r = 0 then 0 else if r ≤ 4 then 1 else if r ≤ 7 then 2 else 3

def kindRails (k : Nat) : List Nat := (List.range 12).filter fun r => railKind r == k

def kindValid (rs : List Rail) (k : Nat) : Bool := (kindRails k).all fun r => (rs.getD r Rail.off).valid

def validTimes (rs : List Rail) (k : Nat) : List Nat := (kindRails k).filterMap fun r =>
  if (rs.getD r Rail.off).valid then some (rs.getD r Rail.off).at_ else none

def firstTime (l : List Nat) : Nat := l.foldl Nat.min (l.headD 0)
def lastTime (l : List Nat) : Nat := l.foldl Nat.max 0

/-- A rail that becomes valid at time `us` breaks R558: a kind before it is not all valid, or a maximum is exceeded. -/
def railOffends (rs : List Rail) (r us : Nat) : Bool :=
  let k := railKind r
  !((List.range k).all (kindValid rs)) ||
  (match k with
    | 1 => !(validTimes rs 1).isEmpty && 5000 < us - firstTime (validTimes rs 1)
    | 2 => 50000 < us - lastTime (validTimes rs 1)
    | 3 => 50000 < us - lastTime (validTimes rs 2)
    | _ => false)

/-- SEQ_LOG keeps the first offending rail (R559). -/
def logRail (x : Aux) (r : Nat) : Aux := if x.seqViolation || x.uvSeen then x else { x with rail := BitVec.ofNat 4 r }

/-- RAIL_TRANSITION: a rail crosses a level at `us` microseconds. VDD_AUX off clears its domain; the C0 latch needs every supply removed
(R486). A falling rail sets nothing (R560). -/
def railMove (x : Aux) (r : Nat) (c : RailCross) (us : Nat) : Aux :=
  match c with
  | .aboveTenth => { x with rails := updAt x.rails r fun q => { q with above := true } }
  | .valid =>
    let y := if railOffends x.rails r us then { logRail x r with seqViolation := true } else x
    { y with rails := updAt y.rails r fun _ => ⟨true, true, us⟩ }
  | .belowMin => { x with rails := updAt x.rails r fun q => { q with valid := false } }
  | .off =>
    let rs := updAt x.rails r fun _ => Rail.off
    let c0 := x.c0 && rs.any (·.above)
    if r ≠ 0 then { x with rails := rs, c0 := c0 } else { Aux.off with rails := rs, c0 := c0 }

def execRailTransition (rail : Fin 12) (cross : RailCross) (us : Nat) (s : State) : Host.Outcome State Fault Refusal :=
  .next (updAux s fun x => railMove x rail.val cross us)

/-- RAIL_UV (R559): while RESET_N is deasserted, UV_SEEN and RAIL are recorded and RAIL_UV, a C0 fault, is raised. -/
def railUv (s : State) (r : Nat) : State :=
  if s.chip.pins.resetN then raiseErr (updAux s fun x => { logRail x r with uvSeen := true }) .power 0 1 else s

def execRailUv (rail : Fin 12) (s : State) : Host.Outcome State Fault Refusal := .next (railUv s rail.val)

/-- REFERENCE_CLOCK_STABLE (R565). -/
def execReferenceClockStable (s : State) : Host.Outcome State Fault Refusal := .next (updAux s fun x => { x with clocks := true })

/-! ## Voltage and clock (R557, R561) -/

def getAvs (s : State) (east : Bool) : Avs := if east then s.chip.power.avsE else s.chip.power.avsW
def updAvs (s : State) (east : Bool) (f : Avs → Avs) : State :=
  updPower s fun p => if east then { p with avsE := f p.avsE } else { p with avsW := f p.avsW }

def ceiling (s : State) (east : Bool) : Nat := if east then s.chip.power.ceilE else s.chip.power.ceilW
def setCeiling (s : State) (east : Bool) (c : Nat) : State :=
  updPower s fun p => if east then { p with ceilE := c } else { p with ceilW := c }

def freqTarget (s : State) : Nat := rdf s Reg.power.FREQ_TARGET_MHZ 15 0

def wingFreq (s : State) (east : Bool) : Nat :=
  if east then rdf s Reg.power.FREQ_MHZ 31 16 else rdf s Reg.power.FREQ_MHZ 15 0

def setWingFreq (s : State) (east : Bool) (f : Nat) : State :=
  if east then wrf s Reg.power.FREQ_MHZ 31 16 f else wrf s Reg.power.FREQ_MHZ 15 0 f

/-- A voltage write for a frequency goes to the wing's regulator. -/
def avsWrite (s : State) (east : Bool) (f : Nat) : State :=
  let a := getAvs s east
  if a.target = f ∨ a.frozen then s
  else wrf (updAvs s east fun a => { a with waiting := true, target := f }) Reg.power.VCORE_MV (if east then 31 else 15) (if east then 16 else 0)
    (Config.voltTable f).toNat

/-- AVS_ACK: the regulator acknowledges the write; AVS_OK reads 1 again once neither wing is frozen. -/
def avsAck (s : State) (east : Bool) : State :=
  let s1 := updAvs s east fun a => { a with waiting := false, level := a.target, frozen := false }
  if (getAvs s1 true).frozen || (getAvs s1 false).frozen then s1
  else wr s1 (pageBase .power 0 + 0x18) (setBit (rd s1 (pageBase .power 0 + 0x18)) 2)

def execAvsAck (east : Bool) (s : State) : Host.Outcome State Fault Refusal :=
  .next (if (getAvs s east).waiting then avsAck s east else s)

/-- AVS_TIMEOUT (R557): a write not acknowledged within 1 ms sets AVS_FAIL and freezes the wing. -/
def avsTimeout (s : State) (east : Bool) : State :=
  if (getAvs s east).waiting then
    let s1 := updAvs s east fun a => { a with frozen := true }
    raiseErr (wr s1 (pageBase .power 0 + 0x18) (clrBit (rd s1 (pageBase .power 0 + 0x18)) 2)) .power 0 2
  else s

def execAvsTimeout (east : Bool) (s : State) : Host.Outcome State Fault Refusal := .next (avsTimeout s east)

/-- CLOCK_SET (R561): the wing's clock for the step is the lower of the target and the ceiling the last evaluation left; a raise waits for the
regulator. THROTTLE_STEPS counts a wing-step below target because of its ceiling (R563). -/
def clockSet (s : State) (east : Bool) : State :=
  let want := Nat.min (freqTarget s) (ceiling s east)
  let f := wingFreq s east
  let a := getAvs s east
  let s1 := if want < f then avsWrite (setWingFreq s east want) east want
    else if f < want ∧ a.frozen = false ∧ want ≤ a.level then setWingFreq s east want
    else if f < want then avsWrite s east want else s
  if ceiling s east < freqTarget s then count s1 Reg.power.THROTTLE_STEPS else s1

/-! ## Temperature (R563, R564, R580) -/

/-- A sensor without a valid reading sets SENSOR_FAIL and counts as reading THROTTLE_C. -/
def takeReading (s : State) (r : Option Nat) : Nat × State :=
  match r with
  | some t => (t, s)
  | none => (rdf s Reg.power.THROTTLE_C 7 0, raiseErr s .power 0 3)

/-- Every gallery and atrium sensor read, in order. -/
def readSensors (s : State) (l : List (Option Nat)) : List Nat × State :=
  match l with
  | [] => ([], s)
  | r :: q =>
    let (t, s1) := takeReading s r
    let (ts, s2) := readSensors s1 q
    (t :: ts, s2)

def wingTemps (ts : List Nat) (east : Bool) : List Nat := if east then (ts.drop 25).take 25 else ts.take 25
def wingStacks (st : List Nat) (east : Bool) : List Nat := if east then (st.drop 4).take 4 else st.take 4

/-- The next ceiling of a wing (R563). -/
def nextCeiling (throttle target ceil : Nat) (gs st : List Nat) : Nat :=
  if gs.any (throttle ≤ ·) || st.any (95 ≤ ·) then Nat.max 600 (ceil - 50)
  else if gs.all (· < throttle - 5) && st.all (· < 90) then (if ceil < target then Nat.min target (ceil + 50) else ceil)
  else ceil

/-- A ceiling takes its next value; a change raises THROTTLE, and a rise writes the higher voltage at once (R561). -/
def evalWing (s : State) (ts st : List Nat) (east : Bool) : State :=
  let old := ceiling s east
  let c := nextCeiling (rdf s Reg.power.THROTTLE_C 7 0) (freqTarget s) old (wingTemps ts east) (wingStacks st east)
  let s1 := setCeiling s east c
  let s2 := if c = old then s1 else raiseEvt s1 (pageBase .power 0) 1
  if old < c ∧ wingFreq s2 east < Nat.min (freqTarget s2) c then avsWrite s2 east (Nat.min (freqTarget s2) c) else s2

/-- A gallery's reading orders or releases a forced fallow (R564). -/
def galleryHeat (s : State) (gt : Nat × Nat) : State :=
  let x := gallery s gt.1
  if 105 ≤ gt.2 ∧ x.hot = false then forceFallow s gt.1
  else if gt.2 < rdf s Reg.power.THROTTLE_C 7 0 - 5 ∧ x.hot = true then thermalRelease s gt.1
  else s

/-- THERMAL_EVALUATE at an open instant. -/
def thermalEvaluate (s : State) (e : OpenEnv) : State :=
  let (ts, s1) := readSensors s (padTo e.galleryTemps 50 none |>.take 50 |> (· ++ (padTo e.atriumTemps 4 none).take 4))
  let st := (padTo e.stackTemps 8 0).take 8
  let s2 := (List.range 8).foldl (fun t n => wr t (Reg.hbm.TEMP_C n) (BitVec.ofNat 32 (st.getD n 0 % 256))) s1
  let s3 := updPower s2 fun p => { p with temps := ts }
  let s4 := wr s3 Reg.power.TEMP_MAX (BitVec.ofNat 32 ((lastTime (wingTemps ts true) % 256) * 256 + lastTime (wingTemps ts false) % 256))
  let s5 := evalWing (evalWing s4 ts st false) ts st true
  ((List.range 50).zip (ts.take 50)).foldl galleryHeat s5

/-- THERM_TRIP (R564, R578): the comparator latches THERM_TRIP_N and raises the C0 fault, in reset too. -/
def execThermTrip (_sensor : Sensor) (s : State) : Host.Outcome State Fault Refusal :=
  .next (raiseErr (updAux s fun x => { x with thermTrip := true, ibi := x.ibi + 1 }) .power 0 0)

/-! ## Pins and tray management (R569, R570) -/

/-- FAULT_N and THERM_TRIP_N are low once latched, in every state of the VDD_AUX domain. -/
def faultN (s : State) : Bool := !s.chip.aux.c0
def thermTripN (s : State) : Bool := !s.chip.aux.thermTrip

/-- A fabric lane is in electrical idle without termination in reset, in card mode, and after a C0 fault. -/
def fabricIdle (s : State) : Bool := !s.running || !s.hall || s.c0

/-- WP_N of a channel: driven high while the node runs, low once it is write-protected after a C0 fault; not driven in reset. -/
def wpN (s : State) (ch : Nat) : Option Bool := if s.running then some (!(s.mem.flash.wpLow.contains ch)) else none

/-- I3C_DYNAMIC_ADDRESS: SETDASA or ENTDAA. -/
def execI3cDynamicAddress (addr : BitVec 7) (s : State) : Host.Outcome State Fault Refusal :=
  .next (updAux s fun x => { x with i3c := some addr })

/-- SEQ_LOG as read: the VDD_AUX domain's record (R580). -/
def seqLog (s : State) : Word :=
  putBit (putBit (BitVec.ofNat 32 s.chip.aux.rail.toNat) 30 s.chip.aux.uvSeen) 31 s.chip.aux.seqViolation

/-- What tray management reads: the power page from 0x040 to 0x06F, FAULT_STATUS, the serial number; nothing else answers. -/
def trayRead (s : State) (r : TrayReg) : Option Quad :=
  match r with
  | .power off =>
    if 0x40 ≤ off ∧ off < 0x70 ∧ off % 4 = 0 then
      some ((if off = 0x6C then seqLog s
        else if off = 0x60 then BitVec.ofNat 32 (s.chip.power.temps.getD (rdf s Reg.power.TEMP_SEL 5 0) 0 % 256)
        else rd s (pageBase .power 0 + off)).setWidth 64)
    else none
  | .faultStatus => some (BitVec.ofNat 64 (rd64 s Reg.fault.FAULT_STATUS))
  | .serial => some Config.serial

def execTrayManagementRead (r : TrayReg) (s : State) : Host.Outcome State Fault Refusal :=
  .next { s with links := { s.links with answer := trayRead s r } }

end Sys2Proof.Machine
end

