-- ==== Sys2Proof/Machine/TestAccess.lean ====
section
/-! DEFINITION. Link patterns, eye capture, memory self-test and the test access port (R581 to R596). -/
namespace Sys2Proof.Machine

def updTest (s : State) (f : Test → Test) : State := { s with chip := { s.chip with test := f s.chip.test } }

/-! ## Pattern tests (R581 to R584, R592 to R595) -/

def patKind (s : State) : Nat := rdf s Reg.test.PAT_SEL 26 24
def patIndex (s : State) : Nat := rdf s Reg.test.PAT_SEL 15 0
def patRunning (s : State) : Bool := testBit (rd s Reg.test.PAT_STATUS) 31
def patLocked (s : State) : Bool := testBit (rd s Reg.test.PAT_STATUS) 30

/-- Whether PAT_TARGET names a target that exists. -/
def patTargetOk (s : State) : Bool :=
  match patKind s with
  | 1 | 2 | 3 => patIndex s < 16
  | 4 => patIndex s < 32 && rdf s Reg.test.PAT_SEL 23 16 < 8
  | 5 => patIndex s < 256
  | _ => false

/-- Whether the target is in the state of R581. -/
def patTargetIdle (s : State) : Bool :=
  match patKind s with
  | 1 => !s.hall || rdf s (Reg.port.LANE_EN (patIndex s / 4)) 3 0 == 0
  | 2 => !(testBit (rd s (pageBase .pcie 0 + 0x18)) 0) && s.chip.pins.perstN
  | _ => s.chip.test.prod

/-- Whether the kind accepts the pattern (R582) and mode (kind 2 is GEN_ONLY only, R583). -/
def patPatternOk (kind pattern mode : Nat) : Bool :=
  match kind with
  | 1 => 1 ≤ pattern && pattern ≤ 4
  | 2 => (pattern == 5 || pattern == 6) && mode == 1
  | 3 => pattern == 7 || pattern == 8
  | 4 => 9 ≤ pattern && pattern ≤ 0xD
  | 5 => pattern == 0xE
  | _ => false

/-- PAT_START: the target, its state, then the pattern; an accepted test clears its counts and runs. Ignored while RUNNING is 1. -/
def patStart (s : State) : State :=
  if patRunning s then s
  else if patTargetOk s = false then wrf s Reg.test.PAT_STATUS 7 0 2
  else if patTargetIdle s = false then wrf s Reg.test.PAT_STATUS 7 0 1
  else if patPatternOk (patKind s) (rdf s Reg.test.PAT_CTRL 11 8) (rdf s Reg.test.PAT_CTRL 3 2) = false then
    wrf s Reg.test.PAT_STATUS 7 0 3
  else wr (wr (wr64 (wr64 s Reg.test.PAT_BITS 0) Reg.test.PAT_ERRORS 0) Reg.test.PAT_LOCK_LOSS 0) Reg.test.PAT_STATUS 0x80000000

def execPatStart (s : State) : Host.Outcome State Fault Refusal := .next (patStart s)

/-- What a locked checker has counted: the bits a lane carried come from outside, so PAT_BITS and PAT_ERRORS take free values (log entry 6). -/
def patCounted (s : State) : State :=
  if patLocked s then
    let (a, s1) := freshWord s
    let (b, s2) := freshWord s1
    let (c, s3) := freshWord s2
    let (d, s4) := freshWord s3
    wr (wr (wr (wr s4 Reg.test.PAT_BITS a) (Reg.test.PAT_BITS + 4) b) Reg.test.PAT_ERRORS c) (Reg.test.PAT_ERRORS + 4) d
  else s

/-- A test ends: RUNNING returns to 0 and PAT_DONE is raised. -/
def patEnd (s : State) : State :=
  raiseEvt (wrf (patCounted s) Reg.test.PAT_STATUS 31 30 0) (pageBase .test 0) 0

def execPatStop (s : State) : Host.Outcome State Fault Refusal := .next (if patRunning s then patEnd s else s)

def execPatLimitExpired (s : State) : Host.Outcome State Fault Refusal :=
  .next (if patRunning s ∧ rd s Reg.test.PAT_LIMIT_MS ≠ 0 then patEnd s else s)

/-- A test ends with RESULT ABORTED and PAT_ABORT set. -/
def patAborted (s : State) : State := raiseErr (wrf (patEnd s) Reg.test.PAT_STATUS 7 0 4) .test 0 0

/-- Whether a cause aborts the running test: LANE_EN of the port under test, a C0 fault, PERST_N during a PCIe test. -/
def abortApplies (s : State) (c : PatAbort) : Bool :=
  match c with
  | .laneEn => patKind s == 1 && rdf s (Reg.port.LANE_EN (patIndex s / 4)) 3 0 != 0 && s.hall
  | .c0 => s.c0
  | .perstN => patKind s == 2 && !s.chip.pins.perstN

def execPatAbort (c : PatAbort) (s : State) : Host.Outcome State Fault Refusal :=
  .next (if patRunning s && abortApplies s c then patAborted s else s)

/-- CHECKER_LOCK: after 64 error-free bits on every line the checker counts; a test that only sends has no checker. -/
def execCheckerLock (s : State) : Host.Outcome State Fault Refusal :=
  .next (if patRunning s ∧ rdf s Reg.test.PAT_CTRL 3 2 ≠ 1 then wrf s Reg.test.PAT_STATUS 30 30 1 else s)

def execCheckerLockLoss (s : State) : Host.Outcome State Fault Refusal :=
  .next (if patRunning s ∧ patLocked s then count (wrf (patCounted s) Reg.test.PAT_STATUS 30 30 0) Reg.test.PAT_LOCK_LOSS else s)

/-! ## Eye capture (R585) -/

def execSnap (s : State) : Host.Outcome State Fault Refusal :=
  .next (updTest (wr s Reg.test.EYE_CTRL 0) fun t => { t with eyeRun := true })

/-- A D2D group reports its worst lane in the middle field alone. -/
def eyeField (d2d : Bool) (v : BitVec 30) : Word :=
  if d2d then BitVec.ofNat 32 (bitsOf v.toNat 19 10 * 1024) else v.setWidth 32

def eyeDone (s : State) (trained : Bool) (h w : BitVec 30) : State :=
  if s.chip.test.eyeRun = false then s
  else
    let d := testBit (rd s Reg.test.EYE_SEL) 4
    let s1 := updTest s fun t => { t with eyeRun := false }
    if trained then wr (wr (wr s1 Reg.test.EYE_H (eyeField d h)) Reg.test.EYE_W (eyeField d w)) Reg.test.EYE_CTRL 0x80000000
    else wr (wr (wr s1 Reg.test.EYE_H 0) Reg.test.EYE_W 0) Reg.test.EYE_CTRL 0

def execEyeCaptureDone (trained : Bool) (heights widths : BitVec 30) (s : State) : Host.Outcome State Fault Refusal :=
  .next (eyeDone s trained heights widths)

/-! ## Memory self-test (R586, R483, R593) -/

def mbistAccepts (s : State) (t : Nat) : Bool :=
  if t < 50 then
    let g := gallery s t
    g.fstate == 2 || g.fstate == 3 || (g.faulted && !g.inService)
  else (t == 0x40 || t == 0x41) && s.chip.test.prod

def mbistStart (s : State) : State :=
  if testBit (rd s Reg.test.MBIST_STATUS) 31 then s
  else
    let t := rdf s Reg.test.MBIST_SEL 7 0
    if mbistAccepts s t then
      updGallery (updTest (wr (dropLines s t fun _ => true) Reg.test.MBIST_STATUS 0x80000000) fun x => { x with mbistAt := some t }) t
        fun g => { g with mbist := true }
    else wr s Reg.test.MBIST_STATUS 2

def execMbistStart (s : State) : Host.Outcome State Fault Refusal := .next (mbistStart s)

/-- The tested gallery: its arrays are zero and its retained regions invalid; a pass ends R483's removal, a failure keeps it out. -/
def mbistGallery (s : State) (g : Nat) (pass : Bool) : State :=
  let s1 := updGallery s g fun x => { x with
    mbist := false, invalid := true, tags := List.replicate 16 0
    faulted := x.faulted && !pass, failed := x.failed || !pass
    ret := x.ret || (x.faulted && pass && x.fstate == 0) }
  if (gallery s1 g).wakeAsked then wakeGallery s1 g else s1

def mbistDone (s : State) (pass : Bool) (array : BitVec 5) (offset : BitVec 27) : State :=
  match s.chip.test.mbistAt with
  | none => s
  | some t =>
    let s1 := updTest s fun x => { x with mbistAt := none }
    let s2 := if pass then wr s1 Reg.test.MBIST_STATUS 0
      else raiseErr (wr (wr s1 Reg.test.MBIST_STATUS 1) Reg.test.MBIST_FAIL_AT (BitVec.ofNat 32 (array.toNat * 2 ^ 27 + offset.toNat))) .test 0 1
    raiseEvt (if t < 50 then mbistGallery s2 t pass else s2) (pageBase .test 0) 1

def execMbistDone (pass : Bool) (array : BitVec 5) (offset : BitVec 27) (s : State) : Host.Outcome State Fault Refusal :=
  .next (mbistDone s pass array offset)

/-! ## The test access port (R587, R588) -/

/-- An instruction loaded under its condition is in the register; otherwise it acts as BYPASS and counts in TAP_REFUSED. -/
def tapLoad (s : State) (op : Byte) (ok : Bool) : State :=
  if ok then updTest s fun t => { t with ir := op }
  else updTest (count s Reg.test.TAP_REFUSED) fun t => { t with ir := 0xFF }

def inReset (s : State) : Bool := !s.chip.pins.resetN

/-- TRST_N holds the TAP in Test-Logic-Reset, where 1149.1 selects the identification register (PRESUMED, log entry 9). -/
def execTrstN (s : State) : Host.Outcome State Fault Refusal := .next (updTest s fun t => { t with ir := 0x01 })

/-- IDCODE reads 0x1840_0A5F. -/
def execIdcode (s : State) : Host.Outcome State Fault Refusal :=
  .next { tapLoad s 0x01 true with links := { s.links with answer := some 0x18400A5F } }

def execSamplePreload (s : State) : Host.Outcome State Fault Refusal := .next (tapLoad s 0x02 true)
def execExtest (s : State) : Host.Outcome State Fault Refusal := .next (tapLoad s 0x03 (inReset s))
def execClamp (s : State) : Host.Outcome State Fault Refusal := .next (tapLoad s 0x04 (inReset s))
def execHighz (s : State) : Host.Outcome State Fault Refusal := .next (tapLoad s 0x05 (inReset s))
def execExtestPulse (s : State) : Host.Outcome State Fault Refusal := .next (tapLoad s 0x06 (inReset s))
def execExtestTrain (s : State) : Host.Outcome State Fault Refusal := .next (tapLoad s 0x07 (inReset s))
def execProdTest (s : State) : Host.Outcome State Fault Refusal := .next (tapLoad s 0x10 (inReset s))
def execBypass (s : State) : Host.Outcome State Fault Refusal := .next (tapLoad s 0xFF true)

end Sys2Proof.Machine
end

