-- ==== Sys2Proof/Machine/Boot.lean ====
section
/-! DEFINITION. Node reset, power cycle, boot and handover (R29, R455, R486, R532, R566 to R568, R590). -/
namespace Sys2Proof.Machine

/-! ## What outlives a reset -/

/-- A block in an erase becomes SUSPECT (R363); a block being programmed stays open (R372). -/
def blockAfterReset (b : Block) : Block :=
  { b with st := (if b.st = .erasing then .suspect else b.st), suspended := false }

/-- A row as flash holds it; one created since its page was last written back is not there (R325). -/
def rowAfterReset (r : RowSlot) : Option RowSlot := r.flash.map fun v => { r with cur := v }

/-- A table as flash holds it. -/
def tableAfterReset (t : Table) : Table :=
  let rows := t.rows.filterMap fun x => (rowAfterReset x.2).map fun r => (x.1, r)
  { t with
    rows := rows, lostSeen := [], progress := 0, tag := 0
    rowmap := (t.rowmap.map fun b => (b.1, b.2.filter fun e => rows.any fun r => r.1 == e.slot)).filter fun b => !b.2.isEmpty }

/-- The tables that RECOVERY brings back: those SERVING at the reset, and those an earlier reset left waiting. -/
def tablesAfterReset (s : State) : Tbl Table :=
  (s.store.tables.filter fun p => p.2.life == .serving).foldl (fun t p => Tbl.set t p.1 (tableAfterReset p.2)) s.mem.flash.tables

/-- The ranges of objects that are EMPTY after a reset: those that were LOADING or DRAINING; Mladty frees their flash blocks during boot (R155). -/
def emptiedRanges (s : State) : List Nat :=
  let out (l : Life) : Bool := l == .loading || l == .draining
  (s.store.colls.filter fun p => out p.2.life).map (·.1) ++ (s.store.tables.filter fun p => out p.2.life).map (4096 + ·.1)

/-- The flash contents and what is rebuilt from them survive; the engine's own work does not (R236, R354, R363, R372). A collection that was
draining is not recovered. -/
def flashAfterReset (s : State) (f0 : Flash) : Flash :=
  let f := (emptiedRanges s).foldl Flash.release f0
  { Flash.reset with
    blocks := f.blocks.map (fun p => (p.1, blockAfterReset p.2)), plots := f.plots, spill := f.spill, mapGen := f.mapGen
    journal := f.journal, ckpts := f.ckpts.filter fun p => !((Tbl.get s.store.colls p.1).any fun c => c.life == .draining)
    tables := tablesAfterReset s, lost := f.lost, batchNo := f.batchNo, rows := f.rows.map (fun r => { r with acc := [] })
    recheck := (f.blocks.filter fun p => p.2.st == .open_ || p.2.st == .closed).map (·.1) }

/-- The node out of a reset: State.reset with the commands that wait, the VDD_AUX domain, the straps, the flash, and the record of what was
issued outside (log entry 10: HBM loses its contents). In hall mode the fabric ports train (R450). -/
def afterReset (s : State) (aux : Aux) (pins : Pins) (ir : Byte) : State :=
  { State.reset with
    pending := s.pending
    mem := { Mem.reset with flash := flashAfterReset s s.mem.flash }
    links := { Links.reset with
      out := s.links.out, wire := s.links.wire
      ports := List.replicate 4 { Port.reset with st := if pins.modeHall then 1 else 0 } }
    chip := { Chip.reset with aux := aux, pins := pins, free := s.chip.free, test := { Test.reset with ir := ir } } }

/-- The TAP leaves a pin instruction for BYPASS when RESET_N deasserts (R587). -/
def tapAfterReset (ir : Byte) : Byte := if 3 ≤ ir.toNat ∧ ir.toNat ≤ 7 then 0xFF else ir

/-- NODE_RESET: RESET_N deasserts and the straps are sampled. A latched C0 fault or sequencing violation leaves everything as it was (R567);
without stable reference clocks the node stays in reset (R565). -/
def nodeReset (s : State) (modeHall : Bool) (slot : Nat) : State :=
  if s.chip.aux.clocks = false then s
  else if s.c0 ∨ s.chip.aux.seqViolation = true then
    { s with chip := { s.chip with pins := { s.chip.pins with resetN := true } } }
  else afterReset s s.chip.aux ⟨true, s.chip.pins.perstN, modeHall, slot⟩ (tapAfterReset s.chip.test.ir)

def execNodeReset (modeHall : Bool) (traySlot : Fin 8) (s : State) : Host.Outcome State Fault Refusal :=
  .next (nodeReset s modeHall traySlot.val)

/-- POWER_CYCLE: every supply is removed; every latch ends (R486, R559). The board holds RESET_N asserted (R571). -/
def execPowerCycle (s : State) : Host.Outcome State Fault Refusal :=
  .next (afterReset s Aux.off ⟨false, false, false, 0⟩ 0x01)

/-- RESET_N_ASSERT: the pins take their in-reset states (R570). -/
def execResetNAssert (s : State) : Host.Outcome State Fault Refusal :=
  .next { s with chip := { s.chip with pins := { s.chip.pins with resetN := false } } }

/-- PERST_N_DEASSERT (R568). -/
def execPerstNDeassert (s : State) : Host.Outcome State Fault Refusal :=
  .next { s with chip := { s.chip with pins := { s.chip.pins with perstN := true } } }

/-! ## Boot (R532, R568, R590) -/

/-- STAGE codes of MC_BOOT: 0 ROM, 1 LOADED, 2 HANDOVER, 3 RUNNING, 0x0F FAILED. -/
def bootStage (s : State) : Nat := rdf s Reg.atrium.MC_BOOT 31 24

/-- BOOT_ROM_HANDOVER: a good image is handed over, unless PROD_TEST is loaded; with both copies bad STAGE reads FAILED. `level` and `levelMin`
are the levels of the Mladty build, reported once boot completes (R455). -/
def romHandover (s : State) (good : Bool) (error level levelMin : Byte) : State :=
  if bootStage s ≠ 0 then s
  else if good = false then wrf (wrf s Reg.atrium.MC_BOOT 31 24 0x0F) Reg.atrium.MC_BOOT 7 0 error.toNat
  else if s.chip.test.ir = 0x10 then updTest (wrf s Reg.atrium.MC_BOOT 31 24 1) fun t => { t with prod := true }
  else
    let s1 := wrf s Reg.atrium.MC_BOOT 31 24 2
    let s2 := wr s1 Reg.intc.TIER_WIDTH 8
    { s2 with chip := { s2.chip with intc := Intc.reset, bootLevel := (level, levelMin) } }

def execBootRomHandover (copy0Ok copy1Ok : Bool) (error level levelMin : Byte) (s : State) : Host.Outcome State Fault Refusal :=
  .next (romHandover s (copy0Ok || copy1Ok) error level levelMin)

/-- Boot completes when Mladty writes STAGE to RUNNING: the feature levels are reported (R455, R456), and in card mode the node is SERVING
(R492). -/
def bootComplete (s : State) : State :=
  let l := s.chip.bootLevel
  let s1 := wr s Reg.atrium.FEATURE_LEVEL (BitVec.ofNat 32 (l.2.toNat * 256 + l.1.toNat))
  let s2 := wr s1 Reg.atrium.HALL_LEVEL (if s.hall then l.2.setWidth 32 else l.1.setWidth 32)
  if s.hall then s2 else { s2 with faults := { s2.faults with nodeState := 3 } }

/-- A write of STAGE: from the management cores only (R555). -/
def writeStage (s : State) (req : Requester) (v : Nat) : State :=
  match req with
  | .core _ =>
    let s1 := wrf s Reg.atrium.MC_BOOT 31 24 v
    if v = 3 then bootComplete s1 else s1
  | _ => s

/-- The node idles for one period of its time base: TIMESTAMP advances by 8 every 8 ns (R534; log entry 1). In reset it stands. -/
def idleTick (s : State) : State :=
  if s.running then wr64 s Reg.atrium.TIMESTAMP ((rd64 s Reg.atrium.TIMESTAMP + 8) % 2 ^ 64) else s

end Sys2Proof.Machine
end

