-- ==== Sys2Proof/Machine/Tenants.lean ====
section
/-! DEFINITION. Tenants (R382 to R384), their reservations (R328, R390), the evaluation of the guarantees (R399 to R402), meters (R404, R405)
and the shapers (R393, R394). -/
namespace Sys2Proof.Machine

def Tenant.none_ : Tenant := ⟨0, 0, 0, 0, 0, 0, 0, 0, false, false, 0, List.replicate 9 0, List.replicate 9 0, 0, false⟩

def tenant (s : State) (t : Nat) : Tenant := (Tbl.get s.store.tenants t).getD Tenant.none_

def updTenant (s : State) (t : Nat) (f : Tenant → Tenant) : State :=
  { s with store := { s.store with tenants := Tbl.set s.store.tenants t (f (tenant s t)) } }

/-- ADMITTED tenants, in order of number. -/
def admittedList (s : State) : List Nat := (s.store.tenants.filter fun p => p.2.tstate == 1).map (·.1)

/-- GUARANTEE_RANK as written (R383). -/
def rankReg (s : State) (t : Nat) : Nat := rdf s (schedBank t 0x34C) 7 0

def rankTaken (s : State) (t r : Nat) : Bool := (admittedList s).any fun u => u ≠ t && rankReg s u == r

/-- A tenant command ends with its RESULT, and TENANT_DONE is raised. -/
def tenantDone (s : State) (t r : Nat) : State :=
  raiseEvt (wrf s (schedBank t 0x348) 7 0 r) (pageBase .sched 0) 21

/-- TENANT_ADMIT (R382, R383): the tenant in TENANT_SEL. No evaluation has cut it yet (R399). -/
def tenantAdmit (s : State) (t : Nat) : State :=
  if tenantState s t ≠ 0 then tenantDone s t 1
  else if rankTaken s t (rankReg s t) then tenantDone s t 2
  else
    let s1 := updTenant s t fun x => { x with
      tstate := 1, meters := List.replicate 9 0, c0Kept := true, capKept := true }
    let s2 := wr (wr s1 (schedBank t 0x36C) 0) (Reg.tstatus.GUAR_BREACH_STEPS t) 0
    tenantDone s2 t 0

def tenantSel (s : State) : Nat := rdf s Reg.sched.TENANT_SEL 7 0

def execTenantAdmit (s : State) : Host.Outcome State Fault Refusal := .next (tenantAdmit s (tenantSel s))

/-- A tenant's channels are disabled and its collections, tables and model slots EMPTY (R384). -/
def tenantIdle (s : State) (t : Nat) : Bool :=
  !(s.store.chans.any fun p => p.1 / 16 == t && p.2.accepted.enabled) &&
  !(s.store.colls.any fun p => p.2.life ≠ .empty && p.2.tenant == t) &&
  !(s.store.tables.any fun p => p.2.life ≠ .empty && p.2.tenant == t) && !(s.store.models.any fun p => p.2.tenant == t)

/-- TENANT_RELEASE (R384). -/
def tenantRelease (s : State) (t : Nat) : State :=
  if tenantState s t ≠ 1 then tenantDone s t 1
  else if tenantIdle s t = false then tenantDone s t 3
  else tenantDone (updTenant s t fun x => { x with tstate := 2 }) t 0

def execTenantRelease (s : State) : Host.Outcome State Fault Refusal := .next (tenantRelease s (tenantSel s))

/-- GUARANTEE_RANK_WRITE (R383): ignored when an ADMITTED tenant would take another's rank. -/
def guaranteeRankWrite (s : State) (t r : Nat) : State :=
  if tenantState s t = 1 ∧ rankTaken s t r = true then s else wr s (schedBank t 0x34C) (BitVec.ofNat 32 r)

def execGuaranteeRankWrite (rank : Byte) (s : State) : Host.Outcome State Fault Refusal :=
  .next (guaranteeRankWrite s (tenantSel s) rank.toNat)

/-! ## Reservations (R328, R390) -/

/-- Offset and width of a class-0 field in the tenant's bank. -/
def c0Field (k : C0Kind) : Nat × Nat :=
  match k with
  | .seats => (0x350, 15)
  | .tileShare => (0x354, 10)
  | .hbmShare => (0x358, 10)
  | .flashSlots => (0x35C, 15)
  | .nbWindows => (0x360, 15)
  | .fabricSlots => (0x364, 15)
  | .seatsPerStep => (0x3A0, 15)

/-- The full-health capacity of R390. -/
def fullHealth (s : State) (k : C0Kind) : Nat :=
  match k with
  | .seats => rdf s Reg.sched.SEATS_PER_STEP 15 0
  | .tileShare | .hbmShare => 1024
  | .flashSlots => fullSlots s
  | .nbWindows => winPerStep (periodSel s)
  | .fabricSlots => if s.hall then fabricSlots (periodSel s) 16 else 0
  | .seatsPerStep => 4096

def c0Reg (s : State) (t : Nat) (k : C0Kind) : Nat := rdf s (schedBank t (c0Field k).1) (c0Field k).2 0

/-- The sum of a field over ADMITTED tenants, tenant `t` with the value `v`. -/
def sumWith (s : State) (t v : Nat) (k : C0Kind) : Nat :=
  (admittedList s).foldl (fun n u => n + (if u = t then v else c0Reg s u k)) 0

/-- C0_RESERVATION_WRITE (R390): ignored when the sum would pass the full-health capacity, or for a FREE tenant (R382). -/
def c0ReservationWrite (s : State) (t : Nat) (k : C0Kind) (w : Word) : State :=
  let v := fld w (c0Field k).2 0
  match k with
  | .seatsPerStep =>
    if 1 ≤ v ∧ v ≤ 4096 ∧ sumWith s 256 0 .seats ≤ v then wr s Reg.sched.SEATS_PER_STEP (BitVec.ofNat 32 v) else s
  | _ =>
    if tenantState s t ≠ 0 ∧ sumWith s t v k ≤ fullHealth s k then wr s (schedBank t (c0Field k).1) (BitVec.ofNat 32 v) else s

def execC0ReservationWrite (kind : C0Kind) (value : Word) (s : State) : Host.Outcome State Fault Refusal :=
  .next (c0ReservationWrite s (tenantSel s) kind value)

/-- The sum of a capacity field over tenants that are not FREE, tenant `t` with the value `v`. -/
def capSum (s : State) (off t v : Nat) : Nat :=
  (s.store.tenants.filter fun p => p.2.tstate ≠ 0).foldl (fun n p => n + (if p.1 = t then v else (rd s (ftBank p.1 off)).toNat)) 0

/-- CAPACITY_RESERVATION_WRITE (R328): the flash translation page's own TENANT_SEL names the tenant. -/
def capacityReservationWrite (s : State) (k : CapKind) (w : Word) : State :=
  let t := rdf s Reg.ft.TENANT_SEL 7 0
  let v := w.toNat
  match k with
  | .hbmResv =>
    if tenantState s t ≠ 0 ∧ (rd s (ftBank t 0x420)).toNat ≤ v ∧ capSum s 0x41C t v ≤ (rd s Reg.ft.HBM_RESERVABLE_MIB).toNat
    then wr s (ftBank t 0x41C) w else s
  | .flashResv =>
    if tenantState s t ≠ 0 ∧ (rd s (ftBank t 0x428)).toNat ≤ v ∧ capSum s 0x424 t v ≤ (rd s Reg.ft.FLASH_OFFER_GIB).toNat
    then wr s (ftBank t 0x424) w else s
  | .cacheFloor =>
    if 16384 ≤ v ∧ v ≤ 131072 ∧ capSum s 0x41C 256 0 ≤ hbmReservable s v then setHbmCapacity (wr s Reg.ft.CACHE_FLOOR_MIB w) else s

def execCapacityReservationWrite (kind : CapKind) (value : Word) (s : State) : Host.Outcome State Fault Refusal :=
  .next (capacityReservationWrite s kind value)

/-! ## Meters (R404, R405) -/

/-- A meter of a tenant grows. -/
def meter (s : State) (t i n : Nat) : State :=
  match Tbl.get s.store.tenants t with
  | none => s
  | some _ => updTenant s t fun x => { x with meters := updAt x.meters i (· + n) }

def execMeterLatch (s : State) : Host.Outcome State Fault Refusal :=
  .next (updTenant s (tenantSel s) fun x => { x with latchPending := true })

/-- A pending latch takes effect at the open instant. -/
def latchTenant (s : State) (t : Nat) : State :=
  if (tenant s t).latchPending then
    raiseEvt (updTenant s t fun x => { x with latched := x.meters, latchEpoch := s.now, latchPending := false }) (pageBase .sched 0) 22
  else s

/-! ## The evaluation of the guarantees (R399 to R402, R409) -/

/-- Written fields take force at the open instant (R383, R390). -/
def forceTenant (s : State) (t : Nat) : State :=
  updTenant s t fun x => { x with
    rank := rankReg s t, seats := c0Reg s t .seats, tile := c0Reg s t .tileShare, hbm := c0Reg s t .hbmShare,
    flash := c0Reg s t .flashSlots, windows := c0Reg s t .nbWindows, fabric := c0Reg s t .fabricSlots, seatsUsed := 0 }

def insertRank (s : State) (t : Nat) : List Nat → List Nat
  | [] => [t]
  | u :: r => if (tenant s t).rank < (tenant s u).rank then t :: u :: r else u :: insertRank s t r

/-- ADMITTED tenants in ascending GUARANTEE_RANK. -/
def byRank (s : State) : List Nat := (admittedList s).foldl (fun l t => insertRank s t l) []

def Tenant.holdsC0 (x : Tenant) : Bool := x.seats + x.tile + x.hbm + x.flash + x.windows + x.fabric ≠ 0

/-- The first loop of R399: capacity reservations, `none` after the cut. -/
def capLoop (s : State) (left : Option (Nat × Nat)) : List Nat → State
  | [] => s
  | t :: r =>
    let h := (rd s (ftBank t 0x41C)).toNat
    let f := (rd s (ftBank t 0x424)).toNat
    match left with
    | some (a, b) =>
      if h ≤ a ∧ f ≤ b then capLoop (updTenant s t fun x => { x with capKept := true }) (some (a - h, b - f)) r
      else capLoop (updTenant s t fun x => { x with capKept := false }) none r
    | none => capLoop (updTenant s t fun x => { x with capKept := false }) none r

/-- What the second loop hands out: seats, tile share, HBM share, flash slots, windows, fabric slots. -/
def c0Avail (s : State) : List Nat :=
  let n := capacityNow s
  [rdf s Reg.sched.SEATS_PER_STEP 15 0, 1024, n.hbm, n.flash, n.windows, n.fabric]

def Tenant.c0List (x : Tenant) : List Nat := [x.seats, x.tile, x.hbm, x.flash, x.windows, x.fabric]

/-- The second loop of R399: class-0 reservations; a tenant without any is kept. -/
def c0Loop (s : State) (left : Option (List Nat)) : List Nat → State
  | [] => s
  | t :: r =>
    let need := (tenant s t).c0List
    if (tenant s t).holdsC0 = false then c0Loop (updTenant s t fun x => { x with c0Kept := true }) left r
    else
      match left with
      | some av =>
        if (need.zip av).all fun p => p.1 ≤ p.2 then
          c0Loop (updTenant s t fun x => { x with c0Kept := true }) (some ((av.zip need).map fun p => p.1 - p.2)) r
        else c0Loop (updTenant s t fun x => { x with c0Kept := false }) none r
      | none => c0Loop (updTenant s t fun x => { x with c0Kept := false }) none r

/-- TENANT_KEPT, GUAR_BREACH_STEPS and the tenant's own view after an evaluation; GUAR_BREACH in the status page of a tenant that changed. -/
def publishTenant (old : Tbl Tenant) (s : State) (t : Nat) : State :=
  let x := tenant s t
  let o := (Tbl.get old t).getD Tenant.none_
  let w : Word := BitVec.ofNat 32 (x.capKept.toNat * 2 + x.c0Kept.toNat)
  let s1 := wr (wr s (schedBank t 0x368) w) (Reg.tstatus.KEPT t) w
  let s2 := if x.tstate = 1 ∧ x.c0Kept = false then count (count s1 (schedBank t 0x36C)) (Reg.tstatus.GUAR_BREACH_STEPS t) else s1
  if x.c0Kept ≠ o.c0Kept ∨ x.capKept ≠ o.capKept then raiseEvt s2 (pageBase .tstatus t) 0 else s2

def cutSets (s : State) (ts : Tbl Tenant) : List Nat × List Nat :=
  ((admittedList s).filter fun t => ((Tbl.get ts t).getD Tenant.none_).holdsC0 && !((Tbl.get ts t).getD Tenant.none_).c0Kept,
   (admittedList s).filter fun t => !((Tbl.get ts t).getD Tenant.none_).capKept)

/-- evaluate_guarantees (R399): capacity, then class 0, in rank order, with a strict cut; GUAR_BREACH when the sets past the cuts change. -/
def evaluateGuarantees (s : State) : State :=
  let s1 := (admittedList s).foldl forceTenant s
  let order := byRank s1
  let s2 := capLoop s1 (some ((rd s Reg.ft.HBM_RESERVABLE_MIB).toNat, (rd s Reg.ft.FLASH_OFFER_GIB).toNat)) order
  let s3 := c0Loop s2 (some (c0Avail s2)) order
  let s4 := (admittedList s).foldl (publishTenant s.store.tenants) s3
  let (c, p) := cutSets s4 s4.store.tenants
  let s5 := wr s4 Reg.sched.PAST_CUT (BitVec.ofNat 32 (c.length * 65536 + p.length))
  if cutSets s s.store.tenants ≠ (c, p) then raiseEvt s5 (pageBase .sched 0) 19 else s5

/-- A RELEASING tenant becomes FREE at the first open instant with none of its work admitted (R384). -/
def freeTenant (s : State) (t : Nat) : State :=
  if tenantState s t = 2 ∧ (s.sched.flights ++ s.sched.parts).any (fun f => f.tenant == t) = false then
    let s1 := [0x350, 0x354, 0x358, 0x35C, 0x360, 0x364, 0x368].foldl (fun u o => wr u (schedBank t o) 0) s
    let s2 := wr (wr (wr s1 (ftBank t 0x41C) 0) (ftBank t 0x424) 0) (Reg.tstatus.KEPT t) 0
    raiseEvt (updTenant s2 t fun x => { Tenant.none_ with meters := x.meters, latched := x.latched, latchEpoch := x.latchEpoch })
      (pageBase .sched 0) 21
  else s

/-! ## Shapers (R393, R394) -/

/-- The bucket is refilled, or reset when a version with a changed shaper, or a newly enabled one, is in force. -/
def refillChan (ch : Chan) : Chan :=
  let e := ch.force
  let depth := e.burst * 256
  let key := if e.enabled then (e.action + 1, e.rate, e.burst) else (0, 0, 0)
  if key = ch.shapeOf then { ch with tokens := min depth (ch.tokens + e.rate) }
  else { ch with shapeOf := key, tokens := if e.resetFull then depth else 0 }

def refillAll (s : State) : State :=
  { s with store := { s.store with chans := s.store.chans.map fun p => (p.1, refillChan p.2) } }

end Sys2Proof.Machine
end

