-- ==== Sys2Proof/Machine/Fabric.lean ====
section
/-! DEFINITION. Fabric ports: ingress checks (R446), bring-up (R440, R450, R451, R474), route and classification tables (R459 to R462), egress
(R449, R461), step marks (R45, R465), feature levels (R456), the node ID (R473) and data-loss reports (R467). -/
namespace Sys2Proof
open Machine

/-! ## The header of a received frame (R442) -/

def Frame.u (f : Frame) (off n : Nat) : Nat := leAt f.hdr off n
def Frame.typ (f : Frame) : Nat := f.u 1 1
def Frame.cls (f : Frame) : Nat := f.u 3 1
def Frame.src (f : Frame) : Nat := f.u 4 2
def Frame.object (f : Frame) : Word := BitVec.ofNat 32 (f.u 8 4)
/-- The payload without padding. -/
def Frame.body (f : Frame) : List Byte := f.payload.take (f.u 12 2)

/-- HDR_CRC covers the payload for types 0x01 to 0x0F and the header alone for the others (R445). -/
def Frame.crcGood (f : Frame) : Bool :=
  let h := putAt f.hdr 28 (zeros 4)
  crc32c (if f.typ < 0x10 then h ++ f.body else h) == BitVec.ofNat 32 (f.u 28 4)

/-- TYPE is defined under R444. -/
def typeDefined (t : Nat) : Bool :=
  t ∈ [0x01, 0x02, 0x03, 0x04, 0x05, 0x06, 0x08, 0x09, 0x20, 0x21, 0x30, 0x31, 0x40, 0x41] || (0x50 ≤ t && t ≤ 0x5F)

/-- The fields that a classification entry compares: OBJECT, TYPE, SRC_NODE [14:0]. -/
def Frame.key (f : Frame) : Quad :=
  (f.object.setWidth 64 <<< 32) ||| (BitVec.ofNat 64 (f.typ <<< 24)) ||| (BitVec.ofNat 64 (f.src % 0x8000))

end Sys2Proof

namespace Sys2Proof.Machine

/-! ## Classification (R460) -/

/-- The compared bits of a MASK: bits [23:15] are reserved. -/
def classBits : Quad := 0xFFFFFFFFFF007FFF

def ClassEntry.matches (e : ClassEntry) (k : Quad) : Bool := e.valid && ((e.key ^^^ k) &&& e.mask &&& classBits) == 0

/-- The matching entries by index. -/
def matching (p : Port) (k : Quad) : List (Nat × ClassEntry) := p.classes.filter fun e => e.2.matches k

/-- The highest PRIORITY, lowest index first. -/
def winner (l : List (Nat × ClassEntry)) : Option ClassEntry :=
  (l.foldl (fun b e => match b with
    | none => some e.2
    | some x => if x.prio < e.2.prio then some e.2 else some x) none)

def tied (l : List (Nat × ClassEntry)) : Bool :=
  match winner l with
  | none => false
  | some w => 2 ≤ (l.filter fun e => e.2.prio == w.prio).length

/-! ## Ingress (R446) -/

/-- The first check that fails counts and drops the frame; a frame that passes them all is delivered (`true`). Only an UP port carries frames
other than HELLO (R450); HELLO takes checks 1 to 4 only. In card mode the ports are in electrical idle without receiver termination, and no frame
reaches one (R30). -/
def ingress (s : State) (f : Frame) : State × Bool :=
  let p := f.port.val
  let t := port s p
  let l := matching t f.key
  if s.hall = false then (s, false)
  else if f.tagged then (count s (Reg.port.TYPE_DROP p), false)
  else if f.fcsOk = false then (count (raiseErr s .port p 2) (Reg.port.FCS_DROP p), false)
  else if f.size < 64 ∨ 9216 < f.size then (count s (Reg.port.FCS_DROP p), false)
  else if f.etherType.toNat ≠ rdf s Reg.atrium.RILTIK_ETHERTYPE 15 0 then (count s (Reg.port.ETYPE_DROP p), false)
  else if f.crcGood = false then (count (raiseErr s .port p 1) (Reg.port.HDR_CRC_FAIL p), false)
  else if f.u 0 1 < rdf s Reg.atrium.RILTIK_VER 15 8 ∨ rdf s Reg.atrium.RILTIK_VER 7 0 < f.u 0 1 then (count s (Reg.port.VER_DROP p), false)
  else if f.typ = 0x01 then (count64 s (Reg.port.RX_FRAMES p), true)
  else if t.isUp = false then (s, false)
  else if ¬(f.u 6 2 = 0xFFFF ∧ f.typ = 0x08) ∧ ¬(nodeIdValid s = true ∧ f.u 6 2 = selfNode s) then (count s (Reg.port.MISDELIVER p), false)
  else
    let s1 := if tied l then count s (Reg.port.MULTI_MATCH p) else s
    match winner l with
    | none => (count s1 (Reg.port.NO_MATCH p), false)
    | some w =>
      if w.action ≠ 1 ∧ w.action ≠ 2 then (count s1 (Reg.port.CLASS_DROP p), false)
      else if (f.typ = 0x02 ∨ f.typ = 0x06 ∨ f.typ = 0x08) ∧ w.action ≠ 2 then (count s1 (Reg.port.FM_DENIED p), false)
      else if typeDefined f.typ = false then (count s1 (Reg.port.TYPE_DROP p), false)
      else (count64 s1 (Reg.port.RX_FRAMES p), true)

/-- A received frame of the given type: the ingress checks, then its agent. A frame of another type is not this command's. -/
def receive (s : State) (f : Frame) (typ : Nat) (agent : State → State) : State :=
  if f.typ ≠ typ then s
  else
    let (s1, ok) := ingress s f
    if ok then agent s1 else s1

/-- RECEIVED_FRAME_DROPPED: the counters of a frame that fails a check; a frame that passes is not dropped. -/
def execReceivedFrameDropped (f : Frame) (s : State) : Host.Outcome State Fault Refusal :=
  .next (let (t, ok) := ingress s f; if ok then s else t)

/-! ## Bringing a port up (R440, R450, R451, R474) -/

/-- The lanes a port uses at a width: within LANE_EN, and without the lane that failed on a pair or a single lane; `none` where that width is not
possible. -/
def lanesFor (n : Nat) (en : BitVec 4) (bad : Option (Fin 4)) : Option (BitVec 4) :=
  let good (m : BitVec 4) : Bool := m &&& en == m && (match bad with | some b => !m.getLsbD b.val | none => true)
  match n with
  | 4 => if good 0xF then some 0xF else none
  | 2 => [0x3, 0xC].find? good
  | 1 => [0x1, 0x2, 0x4, 0x8].find? good
  | _ => none

def laneEn (s : State) (p : Nat) : BitVec 4 := BitVec.ofNat 4 (rdf s (Reg.port.LANE_EN p) 3 0)

/-- PORT_TRAINED: from TRAINING to NEGOTIATE at the width reached, or to DOWN. -/
def portTrained (s : State) (p n : Nat) : State :=
  if (port s p).st ≠ 1 then s
  else if n = 0 then updPort s p fun t => { t with st := 5 }
  else
    match lanesFor n (laneEn s p) (port s p).badLane with
    | none => s
    | some m =>
      let s1 := updPort s p fun t => { t with st := 2, used := m, ver := 0 }
      if n < 4 then raiseEvt s1 (pageBase .port p) 1 else s1

def execPortTrained (p : Fin 4) (lanes : Nat) (s : State) : Host.Outcome State Fault Refusal := .next (portTrained s p.val lanes)

/-- PORT_LINK_LOSS: an UP port leaves service and retrains. -/
def portLinkLoss (s : State) (p : Nat) (lane : Option (Fin 4)) : State :=
  if (port s p).isUp then
    updPort (raiseErr (leaveUp s p 1) .port p 0) p fun t => { t with badLane := lane }
  else s

def execPortLinkLoss (p : Fin 4) (lane : Option (Fin 4)) (s : State) : Host.Outcome State Fault Refusal := .next (portLinkLoss s p.val lane)

/-- PORT_RETRAIN_TIMER: a DOWN or NEG_FAIL port retrains, unless LANE_EN is 0x0. -/
def portRetrain (s : State) (p : Nat) : State :=
  if ((port s p).st = 5 ∨ (port s p).st = 4) ∧ laneEn s p ≠ 0 then
    updPort s p fun t => { t with st := 1, used := 0, badLane := none }
  else s

def execPortRetrainTimer (p : Fin 4) (s : State) : Host.Outcome State Fault Refusal := .next (portRetrain s p.val)

/-- LANE_EN (R474): clearing a lane in use takes an UP port out of service; 0x0 to non-zero starts training at once. -/
def writeLaneEn (s : State) (p : Nat) (v : BitVec 4) : State :=
  let old := laneEn s p
  let t := port s p
  let s1 := wr s (Reg.port.LANE_EN p) (v.setWidth 32)
  if s.hall = false ∨ s.c0 = true then s1
  else if t.isUp ∧ t.used &&& v ≠ t.used then updPort (leaveUp s1 p (if v = 0 then 5 else 1)) p fun t => { t with badLane := none }
  else if old = 0 ∧ v ≠ 0 ∧ t.isUp = false then updPort s1 p fun t => { t with st := 1, used := 0, badLane := none }
  else s1

def execLaneEn (p : Fin 4) (value : BitVec 4) (s : State) : Host.Outcome State Fault Refusal := .next (writeLaneEn s p.val value)

/-- The HELLO frame of R451. It goes to the reserved group address, takes no route entry, and carries version 1 before UP (log entry 12). -/
def helloFrame (s : State) (p : Nat) : EgFrame :=
  let pay := toLe 1 (rdf s Reg.atrium.RILTIK_VER 15 8) ++ toLe 1 (rdf s Reg.atrium.RILTIK_VER 7 0) ++
    toLe 1 (rdf s Reg.atrium.FEATURE_LEVEL 7 0) ++ toLe 1 (rdf s Reg.atrium.FEATURE_LEVEL 15 8) ++ toLe 1 p ++
    toLe 1 s.chip.pins.traySlot ++ toLe 2 ((nodeIdValid s).toNat * 0x8000 + rdf s Reg.atrium.NODE_ID 14 0) ++
    toLe 8 Config.serial.toNat ++ zeros 16
  ⟨0xFFFF, 0x0180C200000E, none, 0x01, 0, frameBytes 1 0x01 0 0 (selfNode s) 0xFFFF 0 s.now pay⟩

def execHelloTimer (p : Fin 4) (s : State) : Host.Outcome State Fault Refusal :=
  .next (if (port s p.val).st = 2 then pushEgress s p.val (helloFrame s p.val) else s)

/-- A HELLO in NEGOTIATE: LINK_VER is the highest common version, one further HELLO goes out and the port is UP; or NEG_FAIL. -/
def hello (s : State) (f : Frame) : State :=
  let p := f.port.val
  if (port s p).st ≠ 2 then s
  else
    let lo := max (rdf s Reg.atrium.RILTIK_VER 15 8) (leAt f.body 0 1)
    let hi := min (rdf s Reg.atrium.RILTIK_VER 7 0) (leAt f.body 1 1)
    if lo ≤ hi then
      raiseEvt (updPort (pushEgress s p (helloFrame s p)) p fun t => { t with st := 3, ver := hi }) (pageBase .port p) 0
    else raiseEvt (updPort s p fun t => { t with st := 4 }) (pageBase .port p) 2

def execHello (f : Frame) (s : State) : Host.Outcome State Fault Refusal := .next (receive s f 0x01 fun t => hello t f)

/-! ## Egress (R449, R461) -/

/-- A push held by back-pressure enters its queue and binds its route then. -/
def releaseHeld (s : State) (p q : Nat) : State :=
  let t := port s p
  match t.held.find? fun f => egressQueue f == q with
  | none => s
  | some f =>
    let r := routeOf t f.dst
    let g := match f.gen with
      | none => f
      | some _ => { f with mac := r.mac, gen := some r.gen }
    updPort s p fun t => { t with held := t.held.erase f, queues := updAt t.queues q (· ++ [g]) }

/-- FRAME_TRANSMITTED: the last bit of the head frame of the queue being served leaves, and the next frame begins (R449, R461). -/
def frameTransmitted (s : State) (p q : Nat) : State :=
  match (port s p).sending == some q, (port s p).queues.getD q [] with
  | true, f :: r =>
    startFrame (releaseHeld (transmit (updPort s p fun t => { t with queues := updAt t.queues q fun _ => r, sending := none }) p f) p q) p
  | _, _ => s

def execFrameTransmitted (p : Fin 4) (queue : Fin 5) (s : State) : Host.Outcome State Fault Refusal :=
  .next (frameTransmitted s p.val queue.val)

/-- ROUTE_INFLIGHT_OLD (R461): queued frames whose bound generation is no longer current. -/
def inflightOld (t : Port) : Nat :=
  (t.queues.flatten.filter fun f => match f.gen with
    | some g => g ≠ (routeOf t f.dst).gen
    | none => false).length

/-! ## Table writes (R459 to R462) -/

/-- A frame is still bound to generation `g` of a route entry. -/
def boundTo (t : Port) (idx g : Nat) : Bool := t.queues.flatten.any fun f => routeIndex f.dst == idx && f.gen == some g

/-- A write completes: the entry holds the new contents with the next generation. -/
def completeWrite (t : Port) (w : TableWrite) : Port :=
  match w with
  | .route i v m =>
    { t with waitWrite := none, routes := Tbl.set t.routes i ⟨v, (((Tbl.get t.routes i).getD ⟨false, 0, 0⟩).gen + 1) % 16, m⟩ }
  | .cls i e =>
    { t with waitWrite := none, classes := Tbl.set t.classes i { e with
      gen := ((match Tbl.get t.classes i with | some x => x.gen | none => 0) + 1) % 16 } }

/-- A table write waits while a frame is bound to the generation it takes. -/
def startWrite (s : State) (p : Nat) (w : TableWrite) : State :=
  let t := port s p
  match t.waitWrite with
  | some _ => s
  | none =>
    let waits := match w with
      | .route i _ _ => boundTo t i ((((Tbl.get t.routes i).getD ⟨false, 0, 0⟩).gen + 1) % 16)
      | .cls _ _ => false
    updPort s p fun t => if waits then { t with waitWrite := some w } else completeWrite t w

/-- ROUTE_WRITE: the staged entry of ROUTE_SEL; entries end at 32,783. -/
def routeWrite (s : State) (p : Nat) : State :=
  let i := rdf s (Reg.port.ROUTE_SEL p) 15 0
  let e := rd64 s (Reg.port.ROUTE_ENTRY p)
  if i < 32784 then startWrite s p (.route i (bitsOf e 63 63 == 1) (BitVec.ofNat 48 (bitsOf e 47 0))) else s

def execRouteWrite (p : Fin 4) (s : State) : Host.Outcome State Fault Refusal := .next (routeWrite s p.val)

/-- CLASS_WRITE: the staged entry of CLASS_SEL. -/
def classWrite (s : State) (p : Nat) : State :=
  let a := rd s (Reg.port.CLASS_ATTR p)
  startWrite s p (.cls (rdf s (Reg.port.CLASS_SEL p) 7 0) ⟨BitVec.ofNat 64 (rd64 s (Reg.port.CLASS_KEY p)),
    BitVec.ofNat 64 (rd64 s (Reg.port.CLASS_MASK p)), testBit a 31, 0, fld a 23 16, fld a 1 0⟩)

def execClassWrite (p : Fin 4) (s : State) : Host.Outcome State Fault Refusal := .next (classWrite s p.val)

/-- TABLE_WRITE_COMPLETE: a waiting write completes once no frame is bound to the generation it reuses. -/
def tableWriteComplete (s : State) (p : Nat) : State :=
  match (port s p).waitWrite with
  | none => s
  | some w => startWrite (updPort s p fun t => { t with waitWrite := none }) p w

/-! ## Step marks (R45, R46, R465), node ID (R473), levels (R456) -/

/-- A STEP_MARK number becomes PENDING, or is late. Before alignment the first one stands; after it, the last. -/
def stepMark (s : State) (f : Frame) : State :=
  let n := BitVec.ofNat 48 (leAt f.body 0 6)
  if s.step.valid ∧ n = s.step.count then count s Reg.atrium.MARK_LATE
  else if s.step.valid = false ∧ s.step.mark.isSome then s
  else wr64 { s with step := { s.step with mark := some n } } Reg.atrium.STEP_MARK (2 ^ 63 + n.toNat)

def execStepMark (f : Frame) (s : State) : Host.Outcome State Fault Refusal :=
  .next (receive s f 0x02 fun t => if t.hall then stepMark t f else t)

/-- NODE_ID: the first write stands until node reset. -/
def writeNodeId (s : State) (n : BitVec 15) : State :=
  if nodeIdValid s then s else raiseEvt (wr s Reg.atrium.NODE_ID (setBit (n.setWidth 32) 31)) (pageBase .atrium 0) 5

def execNodeId (node : BitVec 15) (s : State) : Host.Outcome State Fault Refusal := .next (writeNodeId s node)

/-- HALL_LEVEL_STEP: the high-word write puts the staged low word in force and arms HALL_LEVEL_NEXT in hall mode. -/
def hallLevelStep (s : State) (high : Word) : State :=
  let a := Reg.atrium.HALL_LEVEL_STEP
  let low := (Tbl.get s.staged a).getD (rd s a)
  let s0 := wr (wr s a low) (a + 4) (high &&& 0xFFFF)
  let s1 := { s0 with staged := Tbl.del s0.staged a }
  let n := rdf s Reg.atrium.HALL_LEVEL_NEXT 7 0
  if s.hall = false then s1
  else if n < rdf s Reg.atrium.FEATURE_LEVEL 15 8 ∨ rdf s Reg.atrium.FEATURE_LEVEL 7 0 < n then raiseEvt s1 (pageBase .atrium 0) 7
  else { s1 with step := { s1.step with levelArmed := some (BitVec.ofNat 8 n) } }

def execHallLevelStep (high : Word) (s : State) : Host.Outcome State Fault Refusal := .next (hallLevelStep s high)

/-- At an open instant an armed level takes force once its step has come. -/
def openLevel (s : State) : State :=
  match s.step.levelArmed with
  | none => s
  | some v =>
    if rd64 s Reg.atrium.HALL_LEVEL_STEP ≤ s.now then
      raiseEvt { wr s Reg.atrium.HALL_LEVEL (v.setWidth 32) with step := { s.step with levelArmed := none } } (pageBase .atrium 0) 6
    else s

/-! ## Heartbeat (R466) and data-loss reports (R467) -/

def fmNode (s : State) : Nat := rdf s Reg.atrium.FM_NODE 15 0

/-- One HEARTBEAT on every UP port whose entry for FM_NODE is VALID. -/
def heartbeat (s : State) : State :=
  if s.hall && nodeIdValid s && s.step.valid && !s.c0 then
    let pay := toLe 1 s.faults.nodeState ++ toLe 1 (rdf s Reg.atrium.FEATURE_LEVEL 7 0) ++ toLe 1 (rdf s Reg.atrium.FEATURE_LEVEL 15 8) ++
      toLe 1 (rdf s Reg.atrium.HALL_LEVEL 7 0) ++ zeros 4 ++ toLe 8 (rd64 s Reg.fault.FAULT_STATUS) ++
      toLe 8 (rd64 s Reg.sched.DURABLE_EPOCH)
    (eligiblePorts s (fmNode s)).foldl (fun t p => pushEgress t p (frameOn t p 0x03 0 0 (fmNode s) 0 pay)) s
  else s

/-- OBJ_KIND (R333) and OBJECT of a tier range (R349, R368); in card mode the local number. A range of a collection is its refinement space
(log entry 13 for its key map). -/
def rangeKind (range : Nat) : Nat := if range < 4096 then 1 else 3

/-- The 32-byte LOST_MAP entry (R368). -/
def lostBytes (l : Lost) : List Byte :=
  toLe 8 (l.page * 4096) ++ toLe 4 (l.pages * 4096) ++ toLe 1 (rangeKind l.range) ++ toLe 1 (if l.both then 2 else 1) ++ zeros 2 ++
    toLe 4 l.object.toNat ++ toLe 1 l.tenant ++ zeros 3 ++ toLe 8 l.epoch

def sendReport (s : State) (r : Report) : State :=
  sendFrame s 0x05 0 0 (fmNode s) 0 0 (toLe 4 r.no ++ zeros 4 ++ lostBytes r.entry)

/-- Reports move up to the 64 that may wait, in order, each sent as it does. -/
def advanceReports (s : State) : List Report → Nat → List Report → State
  | [], _, done => { s with mem := { s.mem with flash := { s.mem.flash with reports := done } } }
  | r :: rest, n, done =>
    if r.waiting then advanceReports s rest (n + 1) (done ++ [r])
    else if n < 64 then advanceReports (sendReport s r) rest (n + 1) (done ++ [{ r with waiting := true, sentAt := s.now }])
    else advanceReports s rest n (done ++ [r])

def lossPending (s : State) : Nat := (s.mem.flash.reports.filter (·.waiting)).length

/-- A new data-loss report (hall mode). -/
def reportLoss (s : State) (l : Lost) : State :=
  let s1 := updFlash s fun f => { f with reportNo := f.reportNo + 1, reports := f.reports ++ [⟨f.reportNo + 1, l, 0, false⟩] }
  advanceReports s1 s1.mem.flash.reports 0 []

/-- DATA_LOSS_ACK retires the waiting report it names; the next queued one follows. -/
def dataLossAck (s : State) (f : Frame) : State :=
  let n := leAt f.body 0 4
  if s.mem.flash.reports.any fun r => r.waiting && r.no == n then
    let s1 := updFlash s fun x => { x with reports := x.reports.filter (·.no ≠ n) }
    advanceReports s1 s1.mem.flash.reports 0 []
  else s

def execDataLossAck (f : Frame) (s : State) : Host.Outcome State Fault Refusal := .next (receive s f 0x06 fun t => dataLossAck t f)

/-- DATA_LOSS_RESEND: every waiting report that is 16 steps old goes out again. -/
def resendReport (s : State) (r : Report) : State :=
  if r.waiting && r.sentAt + 16 ≤ s.now then
    updFlash (sendReport s r) fun f => { f with reports := f.reports.map fun x => if x.no = r.no then { x with sentAt := s.now } else x }
  else s

def execDataLossResend (s : State) : Host.Outcome State Fault Refusal := .next (s.mem.flash.reports.foldl resendReport s)

end Sys2Proof.Machine
end

