-- ==== Sys2Proof/Machine/Elementary.lean ====
section
/-! DEFINITION. exp, tanh and 1/sqrt of FP32 values, correctly rounded (R281): fixed point with 512 fraction bits, then one rounding. -/
namespace Sys2Proof.Machine

/-- Fraction bits of the fixed point. -/
def fixBits : Nat := 512

def fixMul (a b : Nat) : Nat := (a * b) >>> fixBits

/-- Taylor terms r^n / n! summed from n = 1 on. -/
def expTerms (r term n acc : Nat) : Nat → Nat
  | 0 => acc
  | k + 1 => let t := fixMul term r / n; expTerms r t (n + 1) (acc + t) k

def fixSquare (x : Nat) : Nat → Nat
  | 0 => x
  | k + 1 => fixSquare (fixMul x x) k

/-- exp of a non-negative fixed-point argument below 2^8. -/
def fixExp (x : Nat) : Nat :=
  let one := 1 <<< fixBits
  fixSquare (one + expTerms (x >>> 12) one 1 0 100) 12

/-- A magnitude m × 2^e in fixed point. -/
def toFix (m : Nat) (e : Int) : Nat := let (a, b) := scaled (m <<< fixBits) 1 (-e); a / b

/-- m × 2^e is at least the integer `n`. -/
def magGe (m : Nat) (e : Int) (n : Nat) : Bool := let (a, b) := scaled m 1 (-e); n * b ≤ a

def f32exp (a : Word) : Word :=
  match f32 a with
  | .nan => f32nan
  | .inf neg => if neg then 0 else a
  | .num neg m e =>
    if m = 0 then 0x3F800000
    else if magGe m e 110 then (if neg then 0 else 0x7F800000)
    else
      let x := fixExp (toFix m e)
      if neg then f32OfRat false (1 <<< fixBits) x else f32OfRat false x (1 <<< fixBits)

def f32tanh (a : Word) : Word :=
  match f32 a with
  | .nan => f32nan
  | .inf neg => if neg then 0xBF800000 else 0x3F800000
  | .num neg m e =>
    if m = 0 then a
    else if magGe m e 20 then (if neg then 0xBF800000 else 0x3F800000)
    else
      let x := fixExp (toFix m (e + 1))
      f32OfRat neg (x - 1 <<< fixBits) (x + 1 <<< fixBits)

/-- 1/sqrt as one correctly rounded operation. -/
def f32rsqrt (a : Word) : Word :=
  match f32 a with
  | .nan => f32nan
  | .inf neg => if neg then f32nan else 0
  | .num neg m e =>
    if m = 0 then BitVec.ofNat 32 (fp32.infBits + fp32.signBit neg)
    else if neg then f32nan
    else
      let (n, d) := scaled (1 <<< (2 * fixBits)) m e
      let q := n / d
      let r := isqrt q
      let exact := q * d == n && r * r == q
      f32OfRat false (2 * r + (if exact then 0 else 1)) (2 <<< fixBits)

end Sys2Proof.Machine
end

