-- ==== Sys2Proof/Machine/Plans.lean ====
section
/-! DEFINITION. Flight plans (R48 to R56, R605, R68) and arithmetic profiles (R104 to R108): their images, checks, loads and retirement. -/
namespace Sys2Proof.Machine

/-- CRC-32C of an image header's range with bytes 60 to 63 taken as 0, whatever the range's length. -/
def imageCrc (bs : List Byte) : Word := crc32c ((putAt bs 60 (zeros 4)).take bs.length)

/-! ## Flight plans -/

/-- The tables' counts, offsets and entry sizes, and the code as one more range of a plan image (R605). -/
structure PlanRange where
  off : Nat
  len : Nat
  align : Nat

def planRanges (b : List Byte) : List PlanRange :=
  ([(leAt b 32 4, 32 * leAt b 23 1, 8), (leAt b 36 4, 16 * leAt b 26 1, 8), (leAt b 40 4, 32 * leAt b 27 1, 8),
    (leAt b 44 4, 8 * leAt b 28 1, 8), (leAt b 48 4, leAt b 52 4, 64)].filter fun x => x.2.1 ≠ 0).map fun x => ⟨x.1, x.2.1, x.2.2⟩

def disjointRanges : List PlanRange → Bool
  | [] => true
  | a :: r => r.all (fun b => a.off + a.len ≤ b.off || b.off + b.len ≤ a.off) && disjointRanges r

/-- The layout of R605 but for the stages' own offsets. -/
def layoutOk (b : List Byte) : Bool :=
  (planRanges b).all (fun r => r.off % r.align == 0 && 64 ≤ r.off && r.off + r.len ≤ leAt b 8 4) && disjointRanges (planRanges b) &&
  4 ≤ leAt b 52 4

/-- The header fields in their ranges (R48). -/
def planHeaderOk (s : State) (b : List Byte) : Bool :=
  leAt b 18 1 < 4 && leAt b 19 1 < 8 && 1 ≤ leAt b 20 2 && leAt b 20 2 ≤ 50 && 1 ≤ leAt b 22 1 && leAt b 22 1 ≤ 64 && 1 ≤ leAt b 23 1 &&
  600 ≤ leAt b 24 2 && leAt b 24 2 ≤ 1400 && leAt b 26 1 ≤ 64 && 1 ≤ leAt b 27 1 && leAt b 27 1 ≤ 64 && leAt b 28 1 ≤ 16 &&
  leAt b 29 1 ≤ 99 && leAt b 30 2 == 0 && leAt b 56 4 == 0 && s.sched.profiles.any (·.no == leAt b 16 2)

/-- Entry `i` of a table. -/
def planEntry (b : List Byte) (offField size i : Nat) : List Byte := sub b (leAt b offField 4 + size * i) size

def parseStage (e : List Byte) : StageDef :=
  ⟨leAt e 0 1, leAt e 1 1, leAt e 2 1, leAt e 3 1, leAt e 4 4, leAt e 8 4, leAt e 12 1, byteAt e 13, leAt e 16 4, leAt e 20 4, leAt e 24 4⟩

def parseLanding (e : List Byte) : LandingDef := ⟨leAt e 0 1, leAt e 1 1, byteAt e 2, leAt e 3 1, leAt e 4 1 == 1, leAt e 8 4⟩

def parseRset (e : List Byte) : RSet :=
  ⟨BitVec.ofNat 16 (leAt e 2 2), BitVec.ofNat 64 (leAt e 8 8), leAt e 16 2, leAt e 18 2, leAt e 20 2, leAt e 22 2, leAt e 24 4⟩

def parseBack (e : List Byte) : BackDef := ⟨leAt e 1 1, leAt e 2 1, leAt e 3 1, leAt e 4 1⟩

def stageEntries (b : List Byte) : List (List Byte) := (List.range (leAt b 23 1)).map (planEntry b 32 32)
def landingEntries (b : List Byte) : List (List Byte) := (List.range (leAt b 26 1)).map (planEntry b 36 16)
def rsetEntries (b : List Byte) : List (List Byte) := (List.range (leAt b 27 1)).map (planEntry b 40 32)
def backEntries (b : List Byte) : List (List Byte) := (List.range (leAt b 28 1)).map (planEntry b 44 8)

/-- A stage entry in its ranges (R49, R50, R605). -/
def stageOk (b : List Byte) (i : Nat) (e : List Byte) : Bool :=
  let d := parseStage e
  d.no == i && d.off < leAt b 22 1 && 1 ≤ d.kind && d.kind ≤ 0x15 && d.rset < leAt b 27 1 && d.codeEntry % 4 == 0 && d.codeEntry < leAt b 52 4 &&
  (d.entryLanding < leAt b 26 1 || d.entryLanding == 0xFF) && d.flags.toNat < 16 && leAt e 14 2 == 0 && leAt e 28 4 == 0 && d.param % 4 == 0 &&
  d.param + 16 ≤ leAt b 52 4

def landingOk (b : List Byte) (i : Nat) (e : List Byte) : Bool :=
  leAt e 0 1 == i && leAt e 2 1 < 64 && (leAt e 3 1 < leAt b 28 1 || leAt e 3 1 == 0xFF) && leAt e 4 1 ≤ 1 && leAt e 5 3 == 0 && leAt e 12 4 == 0

/-- A resource set in its ranges (R52): the mask names logical galleries below GALLERY_COUNT. -/
def rsetOk (b : List Byte) (i : Nat) (e : List Byte) : Bool :=
  leAt e 0 1 == i && leAt e 1 1 == 0 && leAt e 4 4 == 0 && leAt e 8 8 < 2 ^ leAt b 20 2 && leAt e 28 4 == 0 &&
  (leAt e 20 2 == 0 || (leAt b 19 1).testBit 0)

def backOk (b : List Byte) (i : Nat) (e : List Byte) : Bool :=
  let d := parseBack e
  leAt e 0 1 == i && 1 ≤ d.kind && d.kind ≤ 3 && d.first ≤ d.last && d.last < d.resume && d.resume < leAt b 23 1 && leAt e 5 3 == 0

def allIdx (p : Nat → List Byte → Bool) (l : List (List Byte)) : Bool := l.zipIdx.all fun x => p x.2 x.1

def nonDecreasing : List Nat → Bool
  | a :: b :: r => a ≤ b && nonDecreasing (b :: r)
  | _ => true

/-- Nothing in the image is MALFORMED (R54). -/
def planFormed (s : State) (b : List Byte) : Bool :=
  planHeaderOk s b && layoutOk b && allIdx (stageOk b) (stageEntries b) && nonDecreasing ((stageEntries b).map fun e => leAt e 1 1) &&
  allIdx (landingOk b) (landingEntries b) && allIdx (rsetOk b) (rsetEntries b) && allIdx (backOk b) (backEntries b)

def parsePlan (b : List Byte) : Plan :=
  { id := BitVec.ofNat 32 (leAt b 12 4), profile := leAt b 16 2, period := leAt b 18 1, flags := byteAt b 19, galleries := leAt b 20 2,
    span := leAt b 22 1, clockMhz := leAt b 24 2, margin := leAt b 29 1, stages := (stageEntries b).map parseStage,
    landings := (landingEntries b).map parseLanding, rsets := (rsetEntries b).map parseRset, backs := (backEntries b).map parseBack,
    code := sub b (leAt b 48 4) (leAt b 52 4) }

/-- ABI_MAJOR and ABI_MINOR against the supported range of PLAN_ABI. -/
def abiOk (s : State) (b : List Byte) : Bool :=
  let hi := rdf s Reg.sched.PLAN_ABI 31 24
  rdf s Reg.sched.PLAN_ABI 15 8 ≤ leAt b 4 2 && leAt b 4 2 ≤ hi && (leAt b 4 2 ≠ hi || leAt b 6 2 ≤ rdf s Reg.sched.PLAN_ABI 23 16)

/-- An admitted flight or participant part uses the slot; owner work runs on no plan. -/
def slotUsed (s : State) (slot : Nat) : Bool :=
  s.sched.flights.any (·.planSlot == slot) || s.sched.parts.any fun f => f.part.any (·.admitted) && f.planSlot == slot

/-- RESULT of a plan load (R54): PLAN_BYTES is checked directly after MAGIC. -/
def planResult (s : State) (slot : Nat) (b : List Byte) : Nat :=
  if leAt b 0 4 ≠ 0x4C46564B then 1
  else if leAt b 8 4 % 64 ≠ 0 ∨ leAt b 8 4 < 64 ∨ 0x1000000 < leAt b 8 4 then 4
  else if imageCrc b ≠ BitVec.ofNat 32 (leAt b 60 4) then 2
  else if abiOk s b = false then 3
  else if planFormed s b = false then 4
  else if leAt b 18 1 ≠ periodSel s then 5
  else if (s.chip.galleries.filter (·.inService)).length < leAt b 20 2 then 6
  else if (parsePlan b).stages.any (fun d => stageLimit (leAt b 18 1) (leAt b 24 2) (leAt b 29 1) < d.budget) then 7
  else if slotUsed s slot then 8
  else 0

/-- The bytes of a plan image: its header alone where MAGIC or PLAN_BYTES already refuses it. -/
def planImage (s : State) (a : Nat) : List Byte :=
  let h := hbmBytes s a 64
  let n := leAt h 8 4
  if leAt h 0 4 = 0x4C46564B ∧ n % 64 = 0 ∧ 64 ≤ n ∧ n ≤ 0x1000000 then hbmBytes s a n else h

def busyBit (s : State) (a : Nat) : Bool := testBit (rd s a) 31

/-- PLAN_LOAD (R54). -/
def planLoad (s : State) : State :=
  if busyBit s Reg.sched.PLAN_STATUS then s
  else { wrf s Reg.sched.PLAN_STATUS 31 31 1 with sched := { s.sched with
    planLoad := some (rd64 s Reg.sched.PLAN_LOAD_ADDR, rdf s Reg.sched.PLAN_LOAD_SLOT 9 0) } }

def execPlanLoad (s : State) : Host.Outcome State Fault Refusal := .next (planLoad s)

/-- A load ends: RESULT, and the slot where the plan is accepted. -/
def planLoadDone (s : State) (slot : Nat) (b : List Byte) : State :=
  let r := planResult s slot b
  let s1 := wr s Reg.sched.PLAN_STATUS (BitVec.ofNat 32 r)
  { s1 with sched := { s1.sched with
    planLoad := none, plans := if r = 0 then Tbl.set s1.sched.plans slot ⟨parsePlan b, false⟩ else s1.sched.plans } }

def execPlanLoadDone (s : State) : Host.Outcome State Fault Refusal :=
  match s.sched.planLoad with
  | none => .next s
  | some (a, slot) =>
    if inHbm a 64 && inHbm a (planImage s a).length then .next (planLoadDone s slot (planImage s a)) else .fault (.hbmAddress a)

/-- PLAN_RETIRE (R55): the slot is empty for new work from now on. -/
def planRetire (s : State) : State :=
  let slot := rdf s Reg.sched.PLAN_LOAD_SLOT 9 0
  if busyBit s Reg.sched.PLAN_STATUS then s
  else { wrf s Reg.sched.PLAN_STATUS 31 31 1 with sched := { s.sched with
    planRetire := some slot, plans := Tbl.upd s.sched.plans slot fun p => { p with retiring := true } } }

def execPlanRetire (s : State) : Host.Outcome State Fault Refusal := .next (planRetire s)

/-- PLAN_SLOT_EMPTIED: no admitted flight uses the slot any more. -/
def planSlotEmptied (s : State) : State :=
  match s.sched.planRetire with
  | none => s
  | some slot =>
    if slotUsed s slot then s
    else { wrf s Reg.sched.PLAN_STATUS 31 31 0 with sched := { s.sched with planRetire := none, plans := Tbl.del s.sched.plans slot } }

def execPlanSlotEmptied (s : State) : Host.Outcome State Fault Refusal := .next (planSlotEmptied s)

/-- The plan of a slot, for new work. -/
def planOf (s : State) (slot : Nat) : Option Plan :=
  match Tbl.get s.sched.plans slot with
  | some p => if p.retiring then none else some p.plan
  | none => none

/-! ## Profiles -/

/-- The pairs of R85, in either role. -/
def pairOk (w a : Nat) : Bool :=
  let fp8 (c : Nat) : Bool := c == 5 || c == 6
  let mx8 (c : Nat) : Bool := c == 8 || c == 9
  (isIntFmt w && isIntFmt a) || (w == 7 && a == 7) || (fp8 w && fp8 a) || (mx8 w && mx8 a) || (w == 0xA && (mx8 a || a == 0xA)) ||
  (mx8 w && a == 0xA) || (w == 0xC && a == 0xC) || (w == 0xB && a == 0xB)

/-- The legal widenings of R106. -/
def widenOk (a w : Nat) : Bool :=
  w == 0 || ((a == 1 || a == 2) && (w == 3 || w == 4)) || (5 ≤ a && a ≤ 0xA && w == 0xC)

def parseKernel (e : List Byte) : Kernel :=
  ⟨leAt e 1 1, leAt e 2 1, leAt e 3 1, leAt e 4 1, leAt e 5 1, byteAt e 6, leAt e 7 1, leAt e 8 1, leAt e 10 1⟩

/-- Formats without a zero point: all but UINT4 and UINT8. -/
def unsignedFmt (c : Nat) : Bool := c == 2 || c == 4

/-- A kernel entry obeys R106 and the rules it names (R85, R88, R91). -/
def kernelOk (i : Nat) (e : List Byte) : Bool :=
  let k := parseKernel e
  let mx := isMxFmt k.wFmt || isMxFmt k.aFmt
  leAt e 0 1 == i && pairOk k.wFmt k.aFmt && (k.group == 32 || (!mx && (k.group == 64 || k.group == 128))) && k.wScale ≤ 2 && k.aScale ≤ 2 &&
  (!mx || (k.wScale == 1 && k.aScale == 1)) && k.flags.toNat < 16 && (!(k.flags.getLsbD 0) || unsignedFmt k.wFmt) &&
  (!(k.flags.getLsbD 1) || unsignedFmt k.aFmt) && !(k.flags.getLsbD 2 && isMxFmt k.aFmt) && 0x0B ≤ k.outFmt && k.outFmt ≤ 0x0D &&
  (3 ≤ i || k.outFmt == 0x0D) && widenOk k.aFmt k.widen && leAt e 9 1 == 1 && k.rule == (if mx then 1 else 0) && leAt e 11 5 == 0

def kernelEntries (b : List Byte) : List (List Byte) := (List.range (leAt b 12 1)).map fun i => sub b (64 + 32 * i) 32

def profileHeaderOk (b : List Byte) : Bool :=
  3 ≤ leAt b 12 1 && leAt b 12 1 ≤ 16 && leAt b 8 4 == 64 + 32 * leAt b 12 1 && leAt b 13 3 == 0 && allZero (sub b 32 28)

/-- The first bad kernel. -/
def badKernel (b : List Byte) : Option Nat := ((kernelEntries b).zipIdx.find? fun x => !(kernelOk x.2 x.1)).map (·.2)

/-- RESULT and FAIL_KERNEL of a profile load (R107). -/
def profileResult (s : State) (b : List Byte) : Nat × Nat :=
  let no := leAt b 6 2
  if leAt b 0 4 ≠ 0x5041564B then (1, 0)
  else if imageCrc (b.take (leAt b 8 4)) ≠ BitVec.ofNat 32 (leAt b 60 4) then (2, 0)
  else if leAt b 4 2 ≠ 1 then (3, 0)
  else if profileHeaderOk b = false then (4, 0)
  else
    match badKernel b with
    | some k => (4, k)
    | none =>
      if no < 16 then (5, 0)
      else
        match s.sched.profiles.find? (·.no == no) with
        | some p => if p.image = b then (0, 0) else (5, 0)
        | none => if 64 ≤ s.sched.profiles.length then (6, 0) else (0, 0)

def profileLoad (s : State) : State :=
  if busyBit s Reg.sched.PROFILE_STATUS then s
  else { wrf s Reg.sched.PROFILE_STATUS 31 31 1 with sched := { s.sched with profileLoad := some (rd64 s Reg.sched.PROFILE_LOAD_ADDR) } }

def execProfileLoad (s : State) : Host.Outcome State Fault Refusal := .next (profileLoad s)

/-- The bytes of a profile image: its header, and beyond it the PROFILE_BYTES where MAGIC is right. -/
def profileImage (s : State) (a : Nat) : List Byte :=
  let h := hbmBytes s a 64
  if leAt h 0 4 = 0x5041564B then hbmBytes s a (max 64 (leAt h 8 4)) else h

def addProfile (ps : List Profile) (b : List Byte) : List Profile :=
  if ps.any (·.no == leAt b 6 2) then ps else ps ++ [⟨leAt b 6 2, (kernelEntries b).map parseKernel, b⟩]

/-- A profile load ends: a profile of 64 or more bytes that passes every check is in the store. -/
def profileLoadDone (s : State) (b : List Byte) : State :=
  let (r, k) := profileResult s b
  let ps := if r = 0 then addProfile s.sched.profiles b else s.sched.profiles
  let s1 := wr (wr s Reg.sched.PROFILE_STATUS (BitVec.ofNat 32 (k * 256 + r))) Reg.sched.PROFILE_COUNT (BitVec.ofNat 32 ps.length)
  { s1 with sched := { s1.sched with profileLoad := none, profiles := ps } }

def execProfileLoadDone (s : State) : Host.Outcome State Fault Refusal :=
  match s.sched.profileLoad with
  | none => .next s
  | some a => if inHbm a 64 && inHbm a (profileImage s a).length then .next (profileLoadDone s (profileImage s a)) else .fault (.hbmAddress a)

end Sys2Proof.Machine
end

