-- ==== Sys2Proof/Machine/Use.lean ====
section
/-! DEFINITION. The transplant reserve (R330) and the places of structures in HBM (R137, R139, R144, R221, R224). -/
namespace Sys2Proof.Machine

/-! ## The transplant reserve (R330) -/

/-- Blocks of older versions that the newest does not reach, and blocks of transplants not yet published. -/
def reserveOf (c : Coll) : Nat :=
  match c.versions with
  | [] => 0
  | v :: old =>
    let ls := old.foldl (fun acc w => acc ++ (w.leaves.filter fun l =>
      !(v.leaves ++ acc).any fun x => x.path == l.path && x.epoch == l.epoch)) ([] : List LeafBlk)
    let ns := old.foldl (fun acc w => acc ++ (w.nodes.filter fun l =>
      !(v.nodes ++ acc).any fun x => x.path == l.path && x.epoch == l.epoch && x.level == l.level)) ([] : List NodeBlk)
    sumOf ls (leafBytesOf c.info) + 2 * sumOf ns (nodeBytesOf c.info) +
      sumOf c.tps fun t => sumOf (t.leaves.filter fun l => l.epoch == t.pub) (leafBytesOf c.info) +
        2 * sumOf (t.nodes.filter fun n => n.epoch == t.pub) (nodeBytesOf c.info)

def reserveFree (s : State) : Nat := 12288 * 0x100000 - sumOf s.store.colls fun p => reserveOf p.2

/-! ## Places in HBM (R137, R139, R144, R221, R224, R335) -/

def LeafBlk.stack (l : LeafBlk) : Nat := l.addr / 2 ^ 36
/-- The stacks of a node's copies. -/
def NodeBlk.homes (n : NodeBlk) : Nat × Nat := (n.addrs.1 / 2 ^ 36, n.addrs.2 / 2 ^ 36)

/-- Ranges of HBM in use: address and bytes. -/
abbrev Heap := List (Nat × Nat)

def pairSpans (n : Nat) (a : Nat × Nat) : Heap := [(a.1, n), (a.2, n)]
def treeSpans (i : CollInfo) (ns : List NodeBlk) (ls : List LeafBlk) : Heap :=
  ns.flatMap (fun n => pairSpans (nodeBytesOf i n) n.addrs) ++ ls.map fun l => (l.addr, leafBytesOf i l)
def versionSpans (i : CollInfo) (v : Version) : Heap := pairSpans 12288 v.addrs ++ treeSpans i v.nodes v.leaves

/-- What a collection holds. -/
def collSpans (c : Coll) : Heap :=
  pairSpans (projHeld c.proj) c.projAddrs ++ c.versions.flatMap (versionSpans c.info) ++ c.tps.flatMap (fun t => treeSpans c.info t.nodes t.leaves) ++
  (c.arrays.1 ++ c.arrays.2).map (fun a => (a, 0x4000000)) ++ c.segs.map fun g => (g.addr, 65536)

def heapOf (s : State) : Heap := s.store.colls.flatMap fun p => collSpans p.2

/-- The end of the usable offsets of a stack (R335). -/
def stackEnd (s : State) (k : Nat) : Nat := k * 2 ^ 36 + rdf s (stackStatusReg k) 8 2 * 2 ^ 30

/-- The lowest free 4 KiB-aligned range of `n` bytes in a stack in service; address 0 means "none" in R221 and R224 and is not used. -/
def freeAt (s : State) (h : Heap) (k n : Nat) : Option Nat :=
  if 2 ≤ stackState s k then none
  else
    let starts := max (k * 2 ^ 36) 4096 :: (h.filter fun x => x.1 / 2 ^ 36 == k).map fun x => roundUp (x.1 + x.2) 4096
    match starts.filter fun a => a + n ≤ stackEnd s k && !h.any (meets a n) with
    | [] => none
    | a :: r => some (r.foldl min a)

def stackLoad (h : Heap) (k : Nat) : Nat := sumOf (h.filter fun x => x.1 / 2 ^ 36 == k) (·.2)

/-- A place for `n` bytes: of the first group of stacks that has room, Mladty's choice where it may be taken, else the stack least in use. -/
def placeIn (s : State) (h : Heap) (groups : List (List Nat)) (choice : Option Nat) (n : Nat) : Option Nat :=
  match (groups.map fun g => g.filterMap fun k => (freeAt s h k n).map fun a => (k, a)).find? (!·.isEmpty) with
  | some (x :: r) =>
    match (x :: r).find? fun y => choice == some y.1 with
    | some y => some y.2
    | none => some (r.foldl (fun b y => if stackLoad h y.1 < stackLoad h b.1 then y else b) x).2
  | _ => none

/-- Stacks for each kind of structure: leaves; arrays and segments; the near-bank stacks of each wing; every stack of each wing. -/
def leafStackGroups : List (List Nat) := [[0, 2, 4, 6], [1, 3, 5, 7]]
def oddStacks : List (List Nat) := [[1, 3, 5, 7]]

/-- Two copies of `n` bytes in stacks of different wings: near-bank ones for nodes and projections, any for epoch records (R331). -/
def placePair (s : State) (h : Heap) (near : Bool) (n : Nat) : Option (Nat × Nat) :=
  match placeIn s h [if near then [0, 2] else [0, 1, 2, 3]] none n, placeIn s h [if near then [4, 6] else [4, 5, 6, 7]] none n with
  | some a, some b => some (a, b)
  | _, _ => none

/-- `k` more ranges of `n` bytes in the odd stacks, as far as they go. -/
def placeOdd (s : State) (h : Heap) (n : Nat) : Nat → List Nat
  | 0 => []
  | k + 1 =>
    match placeIn s h oddStacks none n with
    | some a => a :: placeOdd s ((a, n) :: h) n k
    | none => []

/-- The array extents of a collection of `top` slots, keys first. -/
def placeArrays (s : State) (h : Heap) (top : Nat) : Option ((List Nat × List Nat) × Heap) :=
  let ks := placeOdd s h 0x4000000 (ceilDiv top keyExtent)
  let h1 := ks.map (fun a => (a, 0x4000000)) ++ h
  let vs := placeOdd s h1 0x4000000 (ceilDiv top attrExtent)
  if ks.length = ceilDiv top keyExtent ∧ vs.length = ceilDiv top attrExtent then some ((ks, vs), vs.map (fun a => (a, 0x4000000)) ++ h1) else none

/-- Segments for the chains of one kind of a partition: as many as its entries need, those it has first. -/
def fitChain (s : State) (weed : Bool) (p need : Nat) (g : List Seg) (h : Heap) : List Seg × Heap :=
  let mine := g.filter fun x => x.part == p && x.weed == weed
  let new := placeOdd s h 65536 (need - mine.length)
  (g.filter (fun x => !(x.part == p && x.weed == weed)) ++ mine.take need ++ new.map fun a => ⟨p, weed, a⟩, new.map (fun a => (a, 65536)) ++ h)

/-- A collection with the array extents and segments that its slots and entries need; no extent is given back while its collection lives. -/
def fitPlaces (s : State) (h : Heap) (c : Coll) : Coll :=
  let ka := ceilDiv (topSlot c) keyExtent - c.arrays.1.length
  let va := ceilDiv (topSlot c) attrExtent - c.arrays.2.length
  let ks := placeOdd s h 0x4000000 ka
  let h1 := ks.map (fun a => (a, 0x4000000)) ++ h
  let vs := placeOdd s h1 0x4000000 va
  let h2 := vs.map (fun a => (a, 0x4000000)) ++ h1
  let parts := (c.seeds.map (·.part) ++ c.weeds.map (·.part) ++ c.segs.map (·.part)).eraseDups
  let r := parts.foldl (fun (a : List Seg × Heap) p =>
    let b := fitChain s false p (ceilDiv (c.seeds.filter (·.part == p)).length (seedCap c.info.projDims)) a.1 a.2
    fitChain s true p (ceilDiv (c.weeds.filter (·.part == p)).length weedCap) b.1 b.2) (c.segs, h2)
  { c with arrays := (c.arrays.1 ++ ks, c.arrays.2 ++ vs), segs := r.1 }

/-- The segments of a chain in order. -/
def chainOf (c : Coll) (weed : Bool) (p : Nat) : List Seg := c.segs.filter fun x => x.part == p && x.weed == weed

end Sys2Proof.Machine
end

