-- ==== Sys2Proof/Machine/Index.lean ====
section
/-! DEFINITION. Index images (R121 to R149) and the load, commit and drop of a collection (R150 to R155). -/
namespace Sys2Proof.Machine

/-! ## The chunk protocol (R151, R152, R155), shared with row tables -/

/-- The registers of one loader. -/
structure LoadRegs where
  addr : Nat
  bytes : Nat
  status : Nat
  offset : Nat

def collRegs : LoadRegs := ⟨Reg.sched.COLL_LOAD_ADDR, Reg.sched.COLL_LOAD_BYTES, Reg.sched.COLL_STATUS, Reg.sched.COLL_LOAD_OFFSET⟩
def tableRegs : LoadRegs := ⟨Reg.sched.TABLE_LOAD_ADDR, Reg.sched.TABLE_LOAD_BYTES, Reg.sched.TABLE_STATUS, Reg.sched.TABLE_LOAD_OFFSET⟩

def chunkLen (s : State) (r : LoadRegs) : Nat := (rd s r.bytes).toNat

/-- Alignment and size of a chunk, before the header tells where the image ends. -/
def chunkShape (s : State) (r : LoadRegs) : Bool := rd64 s r.addr % 4096 == 0 && 1 ≤ chunkLen s r && chunkLen s r ≤ 2 ^ 30

/-- A chunk that ends at `stop` continues an image of `image` bytes: it ends inside with a whole number of 4 KiB, or exactly at the end. -/
def chunkFits (len stop image : Nat) : Bool := stop == image || (stop < image && len % 4096 == 0)

/-- BUSY, NEED_DATA, DONE, RESULT of a status word; SECTION stays. -/
def loadStatus (s : State) (r : LoadRegs) (busy need done : Bool) (result : Nat) : State :=
  wrf (wrf s r.status 31 29 (busy.toNat * 4 + need.toNat * 2 + done.toNat)) r.status 7 0 result

/-! ## Parsing (R133 to R139) -/

def parseCoarse (pd : Nat) (b : List Byte) : Coarse :=
  let ng := ceilDiv pd 64
  { codes := codesOf 2 b pd
    scales := (List.range ng).map fun g => BitVec.ofNat 16 (leAt b (pd / 2 + 2 * g) 2)
    sums := (List.range ng).map fun g => leAt b (pd / 2 + 2 * ng + 2 * g) 2
    zps := (List.range ng).map fun g => leAt b (pd / 2 + 4 * ng + g) 1 }

def parseRefine (dims : Nat) (b : List Byte) : Refine :=
  let nr := ceilDiv dims 128
  { codes := sub b 0 dims
    scales := (List.range nr).map fun g => BitVec.ofNat 16 (leAt b (dims + 2 * g) 2)
    sums := (List.range nr).map fun g => BitVec.ofNat 16 (leAt b (dims + 2 * nr + 2 * g) 2)
    key := BitVec.ofNat 64 (leAt b (dims + 4 * nr) 8)
    attr := BitVec.ofNat 64 (leAt b (dims + 4 * nr + 8) 8) }

/-- offset(n) of R135. -/
def refineOff (dims n : Nat) : Nat := n / refineRpu dims * 16384 + n % refineRpu dims * refineStride dims

def imgInfo (b : List Byte) : CollInfo :=
  ⟨leAt b 24 2, leAt b 26 1, leAt b 27 1, leAt b 28 2, leAt b 30 2, leAt b 40 8, leAt b 56 4, leAt b 60 1, leAt b 62 2⟩

/-- OFFSET, BYTES and COUNT of section `k`, 1 to 6 (R147). -/
def secOff (b : List Byte) (k : Nat) : Nat := leAt b (128 + 32 * (k - 1) + 8) 8
def secBytes (b : List Byte) (k : Nat) : Nat := leAt b (128 + 32 * (k - 1) + 16) 8
def secCount (b : List Byte) (k : Nat) : Nat := leAt b (128 + 32 * (k - 1) + 24) 8

/-- A structure format is read by this stepping (R149, R152). -/
def fmtOk (s : State) (major minor : Nat) : Bool :=
  let w := rd s Reg.sched.COLL_FMT
  fld w 15 8 ≤ major && major ≤ fld w 31 24 && (major ≠ fld w 31 24 || minor ≤ fld w 23 16)

/-! ## The header block (R146, R147) -/

def isPow2 (n : Nat) : Bool := n ≠ 0 && n &&& (n - 1) == 0

def sectionOk (b : List Byte) (k : Nat) : Bool :=
  leAt b (128 + 32 * (k - 1)) 1 == k && leAt b (129 + 32 * (k - 1)) 7 == 0 && secOff b k % 4096 == 0 &&
  (if k = 1 then 4096 ≤ secOff b k else secOff b (k - 1) + secBytes b (k - 1) ≤ secOff b k) && secOff b k + secBytes b k ≤ leAt b 8 8

/-- The sizes and counts of the sections that the header fixes; PROJECTION's where the profile is in the store. -/
def sectionSizes (s : State) (b : List Byte) : Bool :=
  let i := imgInfo b
  let n := leAt b 32 8
  secCount b 1 == i.projDims && secCount b 2 == leAt b 52 4 && secCount b 3 == leAt b 48 4 && secCount b 4 == n && secBytes b 4 == 8 * n &&
  secCount b 5 == n && secBytes b 5 == 8 * n && secCount b 6 == refineUnits i.refineDims n && secBytes b 6 == 16384 * refineUnits i.refineDims n &&
  (!(s.sched.profiles.any (·.no == i.profile)) || secBytes b 1 == projSize i.projDims i.refineDims (projGroup s i.profile))

def headerFields (b : List Byte) : Bool :=
  let i := imgInfo b
  let n := leAt b 32 8
  i.metric ≤ 2 && 2 ≤ i.depth && i.depth ≤ 4 && 64 ≤ i.projDims && i.projDims ≤ 256 && i.projDims % 32 == 0 && 64 ≤ i.refineDims &&
  i.refineDims ≤ 4096 && i.refineDims % 32 == 0 && 1 ≤ n && n ≤ 4000000000 && n ≤ i.slotLimit && i.slotLimit ≤ i.buckets * 189 &&
  i.slotLimit ≤ 405874409472 && isPow2 i.buckets && i.buckets ≤ 2 ^ 31 && 1 ≤ leAt b 48 4 && 1 ≤ leAt b 52 4 && 1 ≤ i.beam && i.beam ≤ 64 &&
  leAt b 61 1 == 0 && 1 ≤ i.probes && i.probes ≤ 1024 && leAt b 65 3 == 0 && allZero (sub b 72 52)

/-- Codes 0x03 to 0x06 of R152 on the header block; 0 when they pass. -/
def headerCode (s : State) (b : List Byte) : Nat :=
  if leAt b 0 4 ≠ 0x5849564B then 3
  else if leAt b 64 1 ≠ 6 ∨ leAt b 68 4 ≠ 128 then 6
  else if crc32c (putAt (sub b 0 128) 124 (zeros 4) ++ sub b 128 192) ≠ BitVec.ofNat 32 (leAt b 124 4) then 4
  else if fmtOk s (leAt b 4 2) (leAt b 6 2) = false then 5
  else if headerFields b && (List.range 6).all (fun k => sectionOk b (k + 1)) && sectionSizes s b then 0
  else 6

/-- Kernels 0 to 2 hold the stored operands of R129. -/
def profileFits (s : State) (p : Nat) : Bool :=
  let k0 := kernelOf s p 0
  let k1 := kernelOf s p 1
  let k2 := kernelOf s p 2
  s.sched.profiles.any (·.no == p) && k0.wFmt == 3 && k0.wScale == 0 && !k0.flags.getLsbD 0 && k1.wFmt == 2 && k1.group == 64 && k1.wScale == 0 &&
  k1.flags.getLsbD 0 && k2.wFmt == 3 && k2.group == 128 && k2.wScale == 0 && !k2.flags.getLsbD 0

/-- LIVE items of a collection. -/
def liveItems (c : Coll) : Nat := sumOf c.keymap fun p => (p.2.filter (·.live)).length

/-- The items of the node, those of an image that is loading included (R125). -/
def nodeItems (s : State) : Nat :=
  sumOf s.store.colls (fun p => liveItems p.2) + (match s.store.load with
    | some l => leAt l.bytes 32 8
    | none => 0)

/-! ## Nodes and leaves as they stream (R137, R139, R148, R152) -/

/-- A node of an image: its offset, its content, and ADDR and CHILD_BYTES of its children. -/
structure PNode where
  off : Nat
  blk : NodeBlk
  refs : List (Nat × Nat)

structure PLeaf where
  off : Nat
  bytes : Nat
  blk : LeafBlk

/-- One structure read: more bytes are needed, it fails with a code at an offset, or it is there. -/
inductive Walk (α : Type) where
  | more
  | bad (code off : Nat)
  | done (v : α)

/-- A walk over structures: those that are there, and how it ended, with the offset behind the last. -/
structure Walked (α : Type) where
  got : List α
  stop : Walk Nat

/-- What an image must carry in its headers: COLLECTION and EPOCH 0, or a graft image's own (R148). -/
abbrev GraftOf := Option Nat

def ownersOk (g : GraftOf) (h : List Byte) (collOff epochOff : Nat) : Bool :=
  match g with
  | none => leAt h collOff 2 == 0 && leAt h epochOff 8 == 0
  | some c => leAt h collOff 2 == c && leAt h (epochOff + 6) 2 == 0

def parseNode (pd off : Nat) (b : List Byte) : PNode :=
  let n := leAt b 14 2
  let ro := leAt b 32 4
  let idx := List.range n
  { off := off
    refs := idx.map fun i => (leAt b (ro + 16 * i) 8, leAt b (ro + 16 * i + 8) 4)
    blk :=
      { path := BitVec.ofNat 32 (leAt b 8 4), level := leAt b 12 1, epoch := leAt b 16 6
        cents := idx.map fun i => parseCoarse pd (sub b (64 + i * recordBytes pd) (recordBytes pd))
        kids := idx.map fun i => leAt b (ro + 16 * i + 12) 4, addrs := (0, 0), ok := (true, true) } }

/-- One node at `o`. -/
def nodeAt (s : State) (g : GraftOf) (i : CollInfo) (b : List Byte) (o : Nat) : Walk PNode :=
  let h := sub b o 64
  let n := leAt h 14 2
  let size := nodeSize i.projDims n
  if b.length < o + 64 then .more
  else if leAt h 0 4 ≠ 0x4E54564B then .bad 3 o
  else if n < 1 ∨ 256 < n ∨ leAt h 32 4 ≠ nodeRefOff i.projDims n ∨ leAt h 24 4 ≠ size then .bad 6 o
  else if b.length < o + size then .more
  else if crc32c (putAt h 60 (zeros 4) ++ sub b (o + leAt h 32 4) (16 * n)) ≠ BitVec.ofNat 32 (leAt h 60 4) then .bad 4 o
  else if fmtOk s (leAt h 4 1) (leAt h 5 1) = false then .bad 5 o
  else if ownersOk g h 6 16 && 1 ≤ leAt h 12 1 && leAt h 12 1 ≤ i.depth && leAt h 13 1 == i.depth &&
      leAt h 28 1 == (leAt h 12 1 == i.depth).toNat && leAt h 29 3 == 0 && allZero (sub h 36 24)
    then .done (parseNode i.projDims o (sub b o size))
  else .bad 6 o

def parseLeaf (i : CollInfo) (off : Nat) (b : List Byte) : PLeaf :=
  let n := leAt b 12 2
  let rb := recordBytes i.projDims
  let idx := List.range n
  let so := leafSlotOff i.projDims n
  let no := leafNormOff i.projDims n
  { off := off, bytes := b.length
    blk :=
      { path := BitVec.ofNat 32 (leAt b 8 4), epoch := leAt b 16 6, recs := idx.map fun p => parseCoarse i.projDims (sub b (64 + p * rb) rb)
        slots := idx.map fun p => leAt b (so + 5 * p) 5
        norms := if i.l2 then idx.map fun p => (BitVec.ofNat 32 (leAt b (no + 8 * p) 4), BitVec.ofNat 32 (leAt b (no + 8 * p + 4) 4)) else []
        addr := 0, ok := true } }

def leafAt (s : State) (g : GraftOf) (i : CollInfo) (b : List Byte) (o : Nat) : Walk PLeaf :=
  let h := sub b o 64
  let n := leAt h 12 2
  let size := leafSize i.projDims n i.l2
  if b.length < o + 64 then .more
  else if leAt h 0 4 ≠ 0x464C564B then .bad 3 o
  else if crc32c (putAt h 60 (zeros 4)) ≠ BitVec.ofNat 32 (leAt h 60 4) then .bad 4 o
  else if fmtOk s (leAt h 4 1) (leAt h 5 1) = false then .bad 5 o
  else if (ownersOk g h 6 16 && 1 ≤ n && n ≤ 4096 && leAt h 14 2 == recordBytes i.projDims && leAt h 24 4 == size &&
      leAt h 28 1 == i.l2.toNat && leAt h 29 3 == 0 && leAt h 32 4 == leafSlotOff i.projDims n &&
      leAt h 36 4 == (if i.l2 then leafNormOff i.projDims n else 0) && allZero (sub h 40 20)) = false then .bad 6 o
  else if b.length < o + size then .more
  else .done (parseLeaf i o (sub b o size))

/-- Nodes in order of level, then NODE_PATH, from `o`. -/
def walkNodes (s : State) (g : GraftOf) (i : CollInfo) (b : List Byte) (acc : List PNode) (o : Nat) : Nat → Walked PNode
  | 0 => ⟨acc.reverse, .done o⟩
  | n + 1 =>
    match nodeAt s g i b o with
    | .more => ⟨acc.reverse, .more⟩
    | .bad c f => ⟨acc.reverse, .bad c f⟩
    | .done x =>
      let rises := match acc with
        | [] => true
        | p :: _ => p.blk.level < x.blk.level || (p.blk.level == x.blk.level && p.blk.path < x.blk.path)
      if rises then walkNodes s g i b (x :: acc) (o + nodeSize i.projDims x.blk.kids.length) n else ⟨acc.reverse, .bad 6 o⟩

/-- Leaves in trellis order from `o`; in an index image the slots run 0, 1, 2 … from `slot` (R148). -/
def walkLeaves (s : State) (g : GraftOf) (i : CollInfo) (b : List Byte) (acc : List PLeaf) (o slot : Nat) : Nat → Walked PLeaf
  | 0 => ⟨acc.reverse, .done o⟩
  | n + 1 =>
    match leafAt s g i b o with
    | .more => ⟨acc.reverse, .more⟩
    | .bad c f => ⟨acc.reverse, .bad c f⟩
    | .done x =>
      let rises := match acc with
        | [] => true
        | p :: _ => p.blk.path < x.blk.path
      let run := g.isSome || x.blk.slots == (List.range x.blk.slots.length).map (· + slot)
      if rises && run then walkLeaves s g i b (x :: acc) (o + x.bytes) (slot + x.blk.slots.length) n else ⟨acc.reverse, .bad 6 o⟩

/-- The path of child `i` of a node at `level` (R122). -/
def childPath (path : Word) (level i : Nat) : Word := path ||| BitVec.ofNat 32 (i <<< (32 - 8 * level))

/-- A failure of the image: where in the stream it shows, its code, and the offset that COLL_LOAD_OFFSET reports. -/
structure ImgFault where
  at_ : Nat
  code : Nat
  off : Nat
  deriving DecidableEq, Repr

/-- The failure that shows first. -/
def firstFault : List ImgFault → Option ImgFault
  | [] => none
  | f :: r => match firstFault r with
    | some g => if g.at_ < f.at_ then some g else some f
    | none => some f

/-- What the reference to a structure of `level` + 1 at a path must give: offset, size and records. A structure that its parent does not lead to shows
the failure where it lies; a wrong reference is reported where its node lies. -/
def refFault (ns : List PNode) (level : Nat) (path : Word) (off size records : Nat) : List ImgFault :=
  let idx := path.toNat / 2 ^ (32 - 8 * level) % 256
  let up : Word := path - BitVec.ofNat 32 (idx * 2 ^ (32 - 8 * level))
  match ns.find? fun n => n.blk.level == level && n.blk.path == up with
  | none => [⟨off, 6, off⟩]
  | some n =>
    if n.refs[idx]? = some (off, size) ∧ n.blk.kids[idx]? = some records then [] else [⟨off, 6, n.off⟩]

/-- Every structure that is there and not the root is what its parent leads to. -/
def refFaults (i : CollInfo) (ns : List PNode) (ls : List PLeaf) : List ImgFault :=
  (ns.flatMap fun x =>
    if x.blk.level = 1 then (if x.blk.path = 0 then [] else [⟨x.off, 6, x.off⟩])
    else refFault ns (x.blk.level - 1) x.blk.path x.off (nodeSize i.projDims x.blk.kids.length) (sumOf x.blk.kids id)) ++
  ls.flatMap fun x => refFault ns i.depth x.blk.path x.off x.bytes x.blk.recs.length

/-- As many structures at each level from `l` on as the level above has children; one root. -/
def levelsOk (i : CollInfo) (ns : List PNode) (leaves : Option Nat) : Bool :=
  let at_ (l : Nat) : List PNode := ns.filter (·.blk.level == l)
  (at_ 1).length == 1 && (List.range i.depth).all fun l =>
    if l + 1 = i.depth then leaves.all fun n => n == sumOf (at_ (l + 1)) fun n => n.blk.kids.length
    else (at_ (l + 2)).length == sumOf (at_ (l + 1)) fun n => n.blk.kids.length

/-- How a section's walk ended: it must end where the section does. A section whose bytes have all come and that does not is MALFORMED. -/
def sectionFault (b : List Byte) (k : Nat) : Walk Nat → List ImgFault
  | .more => if b.length < secOff b k + secBytes b k then [] else [⟨secOff b k + secBytes b k, 6, secOff b k⟩]
  | .bad c o => [⟨o, c, o⟩]
  | .done e => if e = secOff b k + secBytes b k then [] else [⟨secOff b k + secBytes b k, 6, secOff b k⟩]

/-- The nodes and leaves of an image as far as they have come, each section read up to its own end (R147). -/
def imageNodes (s : State) (g : GraftOf) (b : List Byte) : Walked PNode :=
  walkNodes s g (imgInfo b) (b.take (secOff b 2 + secBytes b 2)) [] (secOff b 2) (leAt b 52 4)
def imageLeaves (s : State) (g : GraftOf) (b : List Byte) : Walked PLeaf :=
  match (imageNodes s g b).stop with
  | .done _ => walkLeaves s g (imgInfo b) (b.take (secOff b 3 + secBytes b 3)) [] (secOff b 3) 0 (leAt b 48 4)
  | _ => ⟨[], .more⟩

def Walk.ended {α : Type} : Walk α → Bool
  | .done _ => true
  | _ => false

/-- The failures of nodes and leaves. Levels that do not fit are reported at the NODES section (DESIGN CHOICE, log entry 125). -/
def treeFaults (s : State) (g : GraftOf) (b : List Byte) : List ImgFault :=
  let i := imgInfo b
  let ns := imageNodes s g b
  let ls := imageLeaves s g b
  refFaults i ns.got ls.got ++ sectionFault b 2 ns.stop ++
  (if ns.stop.ended && !levelsOk i ns.got none then [⟨secOff b 2 + secBytes b 2, 6, secOff b 2⟩] else []) ++
  (if ns.stop.ended then sectionFault b 3 ls.stop else []) ++
  (if ls.stop.ended && !levelsOk i ns.got (some ls.got.length) then [⟨secOff b 3 + secBytes b 3, 6, secOff b 2⟩] else []) ++
  (if ls.stop.ended && g.isNone && sumOf ls.got (fun l => l.blk.slots.length) ≠ leAt b 32 8 then [⟨secOff b 3 + secBytes b 3, 6, secOff b 3⟩] else [])

/-! ## The key map (R142, R143) -/

def keyHome (key : Quad) (buckets : Nat) : Nat := (crc32c (toLe 8 key.toNat)).toNat % buckets

/-- The eight buckets of a key. -/
def probeList (home buckets : Nat) : List Nat := (List.range 8).map fun j => (home + j) % buckets

def keyEntries (m : Tbl (List KeyEntry)) (home buckets : Nat) (key : Quad) : List KeyEntry :=
  ((probeList home buckets).eraseDups.flatMap fun x => (Tbl.get m x).getD []).filter (·.key == key)

def keyLive (m : Tbl (List KeyEntry)) (home buckets : Nat) (key : Quad) : Option KeyEntry := (keyEntries m home buckets key).find? (·.live)

/-- An insertion into the first bucket with a free entry; `none` where the eight are full. -/
def keyInsert (m : Tbl (List KeyEntry)) (home buckets : Nat) (e : KeyEntry) : Option (Tbl (List KeyEntry)) :=
  match (probeList home buckets).find? fun x => ((Tbl.get m x).getD []).length < 252 with
  | some x => some (Tbl.set m x ((Tbl.get m x).getD [] ++ [e]))
  | none => none

/-- The map of slots 0 to n − 1 in slot order: the map, or the code and slot of the first failure (R148). DESIGN CHOICE (log entry 126): KEYMAP_FULL, which
R143 increments for a refused insert, does not count a load's failure. -/
def buildKeymap (keys : List Quad) (buckets slot : Nat) (m : Tbl (List KeyEntry)) : Except (Nat × Nat) (Tbl (List KeyEntry)) :=
  match keys with
  | [] => .ok m
  | k :: r =>
    let h := keyHome k buckets
    if (keyLive m h buckets k).isSome then .error (6, slot)
    else
      match keyInsert m h buckets ⟨k, slot, true⟩ with
      | none => .error (8, slot)
      | some m' => buildKeymap r buckets (slot + 1) m'

def dirtyKey (range page : Nat) : Nat := range * 2 ^ 32 + page

/-! ### The cache (R324, R326) -/

/-- A page is in the cache: clean, dirty, or being written back. -/
def resident (s : State) (range page : Nat) : Bool :=
  let k := dirtyKey range page
  s.mem.flash.cache.contains k || (Tbl.get s.mem.flash.dirty k).isSome || (Tbl.get s.mem.flash.wb k).isSome

/-- The pages that `n` bytes at an offset touch. -/
def pagesOf (off n : Nat) : List Nat := (List.range ((off + n - 1) / 4096 - off / 4096 + 1)).map (off / 4096 + ·)
def spanResident (s : State) (range off n : Nat) : Bool := (pagesOf off n).all (resident s range)

/-- A page is in the cache from now on, as the one used last; the clean pages used least recently make room within the floor in force (DESIGN CHOICE,
log entry 132). -/
def installPage (s : State) (range page : Nat) : State :=
  let k := dirtyKey range page
  let room := 256 * (rd s Reg.ft.CACHE_MIB).toNat - s.mem.flash.dirty.length
  updFlash s fun f => { f with cache := ((if (Tbl.get f.dirty k).isSome then [] else [k]) ++ f.cache.filter (· ≠ k)).take room }

/-- A tier read served from HBM. -/
def cacheHit (s : State) (range off n : Nat) : State :=
  (pagesOf off n).foldl (fun t p => if t.mem.flash.cache.contains (dirtyKey range p) then installPage t range p else t) (count s Reg.ft.CACHE_HITS)

/-- A partial-page read served from flash heats its 16 KiB unit, which is promoted at the threshold. -/
def heatUnit (s : State) (range off : Nat) : State :=
  let k := dirtyKey range (off / 16384)
  let n := (Tbl.get s.mem.flash.heat k).getD 0 + 1
  if Config.promoteAt ≤ n then
    (List.range 4).foldl (fun t i => installPage t range (off / 16384 * 4 + i)) (updFlash s fun f => { f with heat := Tbl.del f.heat k })
  else updFlash s fun f => { f with heat := Tbl.set f.heat k n }

/-- The buckets of a tier range that changed have become dirty pages (R142, R324); bucket 0 is page `first`. -/
def dirtyBuckets (s : State) (range first : Nat) (old new : Tbl (List KeyEntry)) : State :=
  ((new ++ old).map (·.1)).eraseDups.foldl (fun t x =>
    let k := dirtyKey range (first + x)
    if Tbl.get new x = Tbl.get old x then t
    else updFlash t fun f => { f with
      dirty := if (Tbl.get f.dirty k).isSome then f.dirty else Tbl.set f.dirty k s.now
      mapOld := if (Tbl.get f.mapOld k).isSome then f.mapOld else Tbl.set f.mapOld k ((Tbl.get old x).getD []) }) s

/-- The first bucket page of a collection's tier range (log entry 60). -/
def mapPage (i : CollInfo) : Nat := 4 * refineUnits i.refineDims i.slotLimit

/-- The key map of collection `n` has changed from `old`. -/
def dirtyMap (s : State) (n : Nat) (old : Tbl (List KeyEntry)) : State :=
  match Tbl.get s.store.colls n with
  | none => s
  | some c => dirtyBuckets s n (mapPage c.info) old c.keymap

/-! ## The stream (R152) -/

/-- Eight-byte entries of a section that have arrived. -/
def arrivedQuads (b : List Byte) (k : Nat) : List Quad :=
  (List.range (min (secCount b k) ((b.length - secOff b k) / 8))).map fun n => BitVec.ofNat 64 (leAt b (secOff b k + 8 * n) 8)

/-! ## Placement (R144, R148, R152) -/

/-- The node copies, in order, in a near-bank stack of each wing. -/
def placeNodes (s : State) (i : CollInfo) : List PNode → List NodeBlk × Heap → Except ImgFault (List NodeBlk × Heap)
  | [], a => .ok a
  | n :: r, a =>
    match placePair s a.2 true (nodeBytesOf i n.blk) with
    | none => .error ⟨n.off, 8, n.off⟩
    | some p => placeNodes s i r (a.1 ++ [{ n.blk with addrs := p }], pairSpans (nodeBytesOf i n.blk) p ++ a.2)

/-- The leaves in order, each with Mladty's choice of a stack. -/
def placeLeaves (s : State) : List PLeaf → List (Fin 8) → List LeafBlk × Heap → Except ImgFault (List LeafBlk × Heap)
  | [], _, a => .ok a
  | l :: r, cs, a =>
    match placeIn s a.2 leafStackGroups (cs.head?.map (·.val)) l.bytes with
    | none => .error ⟨l.off, 8, l.off⟩
    | some p => placeLeaves s r cs.tail (a.1 ++ [{ l.blk with addr := p }], (p, l.bytes) :: a.2)

/-- Where the structures of an image lie. -/
structure Placed where
  proj : Nat × Nat
  nodes : List NodeBlk
  leaves : List LeafBlk
  arrays : List Nat × List Nat
  record : Nat × Nat
  heap : Heap

/-- The structures that have come take their places in image order: projection, nodes, leaves, arrays, and the epoch record. -/
def placeImage (s : State) (g : GraftOf) (b : List Byte) (choices : List (Fin 8)) : Except ImgFault Placed :=
  let i := imgInfo b
  let pb := roundUp (secBytes b 1) 4096
  match placePair s (heapOf s) true pb with
  | none => .error ⟨secOff b 1, 8, secOff b 1⟩
  | some pr =>
    match placeNodes s i (imageNodes s g b).got ([], pairSpans pb pr ++ heapOf s) with
    | .error f => .error f
    | .ok (ns, h1) =>
      match placeLeaves s (imageLeaves s g b).got choices ([], h1) with
      | .error f => .error f
      | .ok (ls, h2) =>
        match placeArrays s h2 (leAt b 32 8) with
        | none => .error ⟨secOff b 4, 8, secOff b 4⟩
        | some (ar, h3) =>
          match placePair s h3 false 12288 with
          | none => .error ⟨leAt b 8 8, 8, leAt b 8 8⟩
          | some rc => .ok ⟨pr, ns, ls, ar, rc, pairSpans 12288 rc ++ h3⟩

def placeFault (s : State) (g : GraftOf) (b : List Byte) (choices : List (Fin 8)) : List ImgFault :=
  match placeImage s g b choices with
  | .error f => [f]
  | .ok _ => []

/-- The first failure of the image bytes that have arrived: code and offset. -/
def streamFail (s : State) (g : GraftOf) (b : List Byte) (choices : List (Fin 8)) : Option (Nat × Nat) :=
  (firstFault (treeFaults s g b ++ placeFault s g b choices ++ (match buildKeymap (arrivedQuads b 4) (imgInfo b).buckets 0 [] with
    | .error (c, n) => [⟨secOff b 4 + 8 * n, c, secOff b 4 + 8 * n⟩]
    | .ok _ => []))).map fun f => (f.code, f.off)

/-! ## The collection that an image makes (R144, R148, R153, R219) -/

def parseProj (b : List Byte) (i : CollInfo) (g0 : Nat) : Projection :=
  let o := secOff b 1
  let ng := ceilDiv i.refineDims g0
  let so := o + i.projDims * i.refineDims
  let bo := so + 2 * i.projDims * ng
  let idx := List.range i.projDims
  let row (j : Nat) : List Byte := sub b (o + j * i.refineDims) i.refineDims
  { rows := idx.map row
    sums := idx.map fun j => codeSums 3 g0 (codesOf 3 (row j) i.refineDims)
    scales := idx.map fun j => (List.range ng).map fun g => BitVec.ofNat 16 (leAt b (so + 2 * (j * ng + g)) 2)
    bias := idx.map fun j => BitVec.ofNat 32 (leAt b (bo + 4 * j) 4)
    crc := crc32c (sub b o (secBytes b 1)) }

/-- The slots of an image: their keys, attribute words, partitions and refinement records. -/
def imageSlots (b : List Byte) (i : CollInfo) (ls : List LeafBlk) : Tbl SlotData :=
  ((ls.flatMap fun l => l.slots.map fun _ => l.path.toNat / 2 ^ 24).zipIdx).map fun x =>
    let n := x.2
    (n, { key := BitVec.ofNat 64 (leAt b (secOff b 4 + 8 * n) 8), attr := BitVec.ofNat 64 (leAt b (secOff b 5 + 8 * n) 8), part := x.1,
          refine := parseRefine i.refineDims (sub b (secOff b 6 + refineOff i.refineDims n) (refineStride i.refineDims)), programmed := true,
          held := none })

def Coll.blank (t : Nat) (life : Life) (since : Nat) (i : CollInfo) : Coll :=
  { life := life, since := since, tenant := t, info := i, proj := ⟨[], [], [], [], 0⟩, projAddrs := (0, 0), arrays := ([], []), segs := [],
    versions := [], nextSeq := 1, slots := [], keymap := [],
    seeds := [], weeds := [], dying := [], badSegs := [], lostSlots := [], stackHit := false, tps := [], blockNext := [], map := none, mapNext := none,
    mapRetiring := none, oldMaps := [] }

/-- The collection of a whole image in its places, SERVING from this step. The blocks that its addresses name carry the collection's number, the HBM
addresses of their children and a HDR_CRC of their own (R148): `nodeImage`, `leafImage`. -/
def buildColl (s : State) (l : Load) (p : Placed) : Coll :=
  let b := l.bytes
  let i := imgInfo b
  let km := match buildKeymap (arrivedQuads b 4) i.buckets 0 [] with
    | .ok m => m
    | .error _ => []
  { Coll.blank l.tenant .serving s.ticks i with
    proj := parseProj b i (projGroup s i.profile), projAddrs := p.proj, arrays := p.arrays
    versions := [⟨s.now, leAt b 32 8, List.replicate 256 0, List.replicate 256 false, p.nodes, p.leaves, (true, true), p.record, 0, none⟩]
    slots := imageSlots b i p.leaves, keymap := km }

/-- Every refinement unit of the image has been programmed (R153): each 256 KiB plot of its space waits for its verify or is mapped (R350). -/
def loadProgrammed (s : State) (l : Load) : Bool :=
  (List.range (ceilDiv (secBytes l.bytes 6) 262144)).all fun k =>
    (Tbl.get s.mem.flash.plots (l.target * 2 ^ 32 + k)).any fun p => p.whole.isSome || p.next.isSome

/-! ## The commands -/

/-- The load ends without a commit: everything placed is released. -/
def failLoad (s : State) (code off : Nat) : State :=
  match s.store.load with
  | none => s
  | some l =>
    let s1 := releaseRange { s with store := { s.store with load := none, colls := Tbl.del s.store.colls l.target } } l.target
    setUse (wr64 (loadStatus s1 collRegs false false false code) collRegs.offset off) l.tenant

def collTarget (s : State) : Nat := rdf s Reg.sched.COLL_TARGET 11 0
def collTenant (s : State) : Nat := rdf s Reg.sched.COLL_TARGET 31 24

/-- COLL_LOAD_START (R151, R152, R155). -/
def collLoadStart (s : State) : State :=
  if s.store.load.isSome then s
  else if (chunkShape s collRegs && 4096 ≤ chunkLen s collRegs) = false then wrf s collRegs.status 7 0 1
  else if (Tbl.get s.store.colls (collTarget s)).isSome ∨ tenantState s (collTenant s) ≠ 1 then wrf s collRegs.status 7 0 2
  else
    let s1 := wr64 (wr s collRegs.status 0x80000000) collRegs.offset 0
    { s1 with store := { s1.store with
      load := some ⟨collTarget s, collTenant s, chunkLen s collRegs, [], [], false⟩
      colls := Tbl.set s1.store.colls (collTarget s) (Coll.blank (collTenant s) .loading s.ticks ⟨0, 0, 0, 0, 0, 0, 0, 0, 0⟩) } }

def execCollLoadStart (s : State) : Host.Outcome State Fault Refusal := .next (collLoadStart s)

def needData (s : State) (r : LoadRegs) : Bool := testBit (rd s r.status) 30

/-- COLL_LOAD_CONTINUE: a chunk that breaks R151 leaves the load waiting. -/
def collLoadContinue (s : State) : State :=
  match s.store.load with
  | none => s
  | some l =>
    if needData s collRegs = false then s
    else if chunkShape s collRegs && chunkFits (chunkLen s collRegs) (l.bytes.length + chunkLen s collRegs) (leAt l.bytes 8 8)
    then loadStatus { s with store := { s.store with load := some { l with chunk := chunkLen s collRegs } } } collRegs true false false 0
    else wrf s collRegs.status 7 0 1

def execCollLoadContinue (s : State) : Host.Outcome State Fault Refusal := .next (collLoadContinue s)

def execCollLoadAbort (s : State) : Host.Outcome State Fault Refusal := .next (failLoad s 9 (rd64 s Reg.sched.COLL_LOAD_OFFSET))

/-- Codes 0x01 and 0x03 to 0x08 on the header block of a first chunk. -/
def firstChunkCode (s : State) (l : Load) (b : List Byte) : Nat :=
  let i := imgInfo b
  let need := imageNeed b (projGroup s i.profile)
  let c := headerCode s b
  if c ≠ 0 then c
  else if chunkFits b.length b.length (leAt b 8 8) = false then 1
  else if profileFits s i.profile = false then 7
  else if roomFor s l.tenant need.1 need.2 = false ∨ 4000000000 < nodeItems s + leAt b 32 8 then 8
  else 0

/-- KIND of the section that holds image offset `o`. -/
def sectionOf (b : List Byte) (o : Nat) : Nat := ((List.range 6).filter fun k => secOff b (k + 1) ≤ o).length

/-- COLL_CHUNK_DONE: the chunk has been read and checked; the last one leaves the load to its placements and programs. -/
def collChunkDone (s : State) (data : Option (List Byte)) (choices : List (Fin 8)) : State :=
  match s.store.load, data with
  | none, _ => s
  | some l, none => if l.last ∨ busyBit s collRegs.status = false then s else failLoad s 9 l.bytes.length
  | some l, some d =>
    if l.last ∨ busyBit s collRegs.status = false then s
    else
      let b := l.bytes ++ (padTo d l.chunk 0).take l.chunk
      let st := l.leafStacks ++ choices
      let c := if l.bytes = [] then firstChunkCode s l b else 0
      if c ≠ 0 then failLoad s c 0
      else
        match streamFail s none b st with
        | some (c, o) => failLoad s c o
        | none =>
          let last := b.length == leAt b 8 8
          let s1 := { s with store := { s.store with load := some { l with bytes := b, leafStacks := st, last := last } } }
          let s2 := wrf (wr64 s1 collRegs.offset b.length) collRegs.status 15 8 (sectionOf b b.length)
          setUse (loadStatus s2 collRegs last (!last) false 0) l.tenant

def execCollChunkDone (data : Option (List Byte)) (leafStacks : List (Fin 8)) (s : State) : Host.Outcome State Fault Refusal :=
  .next (collChunkDone s data leafStacks)

/-- TRELLIS_EPOCH takes the step, and the working copies of the galleries that run are refreshed (R544, R545). -/
def setTrellisEpoch (s : State) : State :=
  let s1 := wr64 s Reg.atrium.TRELLIS_EPOCH s.now
  { s1 with chip := { s1.chip with galleries := s1.chip.galleries.map fun g =>
    if g.fstate = 0 ∧ g.inService = true then { g with tags := List.replicate 4 s.now ++ g.tags.drop 4 } else g } }

/-- COLL_LOAD_COMMIT (R153): once the last chunk has come and every refinement unit is programmed, the structures are in their places, or one of them
has lost its place and the load fails NO_CAPACITY. -/
def collLoadCommit (s : State) : State :=
  match s.store.load with
  | none => s
  | some l =>
    if l.last = false ∨ loadProgrammed s l = false then s
    else if 4000000000 < nodeItems s then failLoad s 8 l.bytes.length
    else
      match placeImage s none l.bytes l.leafStacks with
      | .error f => failLoad s f.code f.off
      | .ok p =>
        let s1 := { s with store := { s.store with load := none, colls := Tbl.set s.store.colls l.target (buildColl s l p) } }
        let s2 := wr64 (loadStatus s1 collRegs false false true 0) Reg.sched.COLL_LOAD_EPOCH s.now
        setUse (setTrellisEpoch (dirtyMap s2 l.target [])) l.tenant

def execCollLoadCommit (s : State) : Host.Outcome State Fault Refusal := .next (collLoadCommit s)

/-- COLL_DROP (R154). -/
def collDrop (s : State) : State :=
  let t := collTarget s
  match Tbl.get s.store.colls t with
  | none => wrf s collRegs.status 7 0 2
  | some c =>
    match c.life with
    | .loading => failLoad s 9 (rd64 s Reg.sched.COLL_LOAD_OFFSET)
    | .draining => wrf s collRegs.status 7 0 0
    | .empty => wrf s collRegs.status 7 0 2
    | .serving =>
      let s1 := { s with store := { s.store with
        colls := Tbl.set s.store.colls t { c with life := .draining, since := s.ticks, mapNext := none, mapRetiring := some (s.ticks + 1) } } }
      setTrellisEpoch (wrf s1 collRegs.status 7 0 0)

def execCollDrop (s : State) : Host.Outcome State Fault Refusal := .next (collDrop s)

/-- The flight works on a collection. -/
def FlightKind.onColl : FlightKind → Bool
  | .search | .score | .insert | .delete | .participant => true
  | .lookup | .scatter | .rowServe => false

def collInUse (s : State) (c : Nat) : Bool := (s.sched.flights ++ s.sched.parts).any fun f => f.kind.onColl && f.obj == c

/-- COLL_DRAINED: the last flight that bound a dropped collection has ended. -/
def collDrained (s : State) (n : Nat) : State :=
  match Tbl.get s.store.colls n with
  | none => s
  | some c =>
    if c.life = .draining ∧ collInUse s n = false then
      setUse (releaseRange { s with store := { s.store with colls := Tbl.del s.store.colls n } } n) c.tenant
    else s

def execCollDrained (c : Fin 4096) (s : State) : Host.Outcome State Fault Refusal := .next (collDrained s c.val)

/-- TRELLIS_SPILL (R145): working copies of 2 MiB in each gallery in service, the roots of serving collections first, then the nodes of levels 2 to
DEPTH − 1 of every collection by collection, level and path; a node that does not fit is counted. -/
def trellisSpill (s : State) : Nat :=
  let vs := s.store.colls.filterMap fun p => match p.2.versions with
    | v :: _ => some (p.2.life, p.2.info, v)
    | [] => none
  let roots := (vs.filter fun x => x.1 == .serving).flatMap fun x => (x.2.2.nodes.filter (·.level == 1)).map (nodeBytesOf x.2.1)
  let rest := vs.flatMap fun x => (sortBy (fun a b : NodeBlk => a.level < b.level || (a.level == b.level && a.path < b.path))
    (x.2.2.nodes.filter fun n => 1 < n.level && n.level < x.2.1.depth)).map (nodeBytesOf x.2.1)
  let g := (inServiceList s).length
  let base := roots.foldl (fun (a : Nat × Nat) b => if a.1 + b ≤ 0x200000 then (a.1 + b, a.2) else (a.1, a.2 + 1)) (0, 0)
  if g = 0 then roots.length + rest.length
  else
    (List.range g).foldl (fun n k =>
      n + ((rest.zipIdx.filter fun x => x.2 % g == k).foldl
        (fun (a : Nat × Nat) b => if a.1 + b.1 ≤ 0x200000 then (a.1 + b.1, a.2) else (a.1, a.2 + 1)) (base.1, 0)).2) base.2

end Sys2Proof.Machine
end

