-- ==== Sys2Proof/Machine/RowTables.lean ====
section
/-! DEFINITION. Row tables: their images, load, commit and drop (R290 to R292, R150 to R155), rows as values, and the update of a row
(R291, R299, R305, R306). -/
namespace Sys2Proof.Machine

/-! ## The image (R290 to R292) -/

/-- The header block: the header and the owner list. -/
def tableHdrLen (b : List Byte) : Nat := 128 + 4 * leAt b 44 2

/-- Where the row map begins: the first 4 KiB boundary after the owner list. -/
def rowmapOff (b : List Byte) : Nat := roundUp (tableHdrLen b) 4096

def ownerCountOk (b : List Byte) : Bool :=
  if leAt b 6 1 = 2 then 2 ≤ leAt b 44 2 && leAt b 44 2 ≤ 32768 else leAt b 44 2 == 1

def tableOwners (b : List Byte) : List (Nat × Bool × Nat) :=
  (List.range (leAt b 44 2)).map fun i =>
    (leAt b (128 + 4 * i) 2, (leAt b (130 + 4 * i) 2).testBit 15, leAt b (130 + 4 * i) 2 % 0x8000)

/-- The state vectors that an optimiser keeps. -/
def optStates (o : Nat) : Nat := if o = 2 then 1 else if o = 3 then 2 else 0

/-- The header's fields obey R290, R291 and R296. In card mode no node ID names this node, and the self entry is not compared. -/
def tableFields (s : State) (b : List Byte) : Bool :=
  let pl := leAt b 6 1
  let cols := leAt b 32 2
  let fmt := leAt b 34 1
  let stf := leAt b 35 1
  let opt := leAt b 36 1
  let rbytes := rowBytes cols fmt stf (leAt b 37 1)
  let owners := tableOwners b
  pl ≤ 2 && leAt b 7 1 < 8 && leAt b 16 8 ≤ leAt b 24 8 && leAt b 24 8 ≤ leAt b 48 4 * 189 && leAt b 24 8 ≤ 405874409472 && 32 ≤ cols &&
  cols ≤ 4096 && cols % 32 == 0 && [0x01, 0x03, 0x05, 0x06, 0x0B, 0x0C, 0x0D].contains fmt && (stf == 0 || stf == 0x0C || stf == 0x0D) && opt ≤ 3 &&
  leAt b 37 1 == optStates opt && ((stf == 0) == (leAt b 37 1 == 0)) && leAt b 38 2 == rbytes && rbytes ≤ 16384 &&
  leAt b 46 2 < leAt b 44 2 && isPow2 (leAt b 48 4) && leAt b 48 4 ≤ 2 ^ 31 && leAt b 52 4 == 0 && allZero (sub b 64 60) &&
  leAt b 56 8 % 16384 == 0 && rowmapOff b + 4096 * leAt b 48 4 ≤ leAt b 56 8 && leAt b 56 8 + 16384 * unitsOf rbytes (leAt b 16 8) ≤ leAt b 8 8 &&
  owners.all (fun o => o.1 < 0x8000) && (!s.hall || (nodeIdValid s && (owners.getD (leAt b 46 2) (0, false, 0)).1 == selfNode s)) &&
  (opt == 0 || (!(leAt b 7 1).testBit 2 && pl ≠ 1)) && (s.hall || pl ≠ 2) &&
  (pl ≠ 2 || (16 + cols * 4 ≤ 8128 && 8 + rowDataBytes cols fmt ≤ 8128))

/-- Codes 0x03 to 0x06 on the header block. -/
def tableHeaderCode (s : State) (b : List Byte) : Nat :=
  if leAt b 0 4 ≠ 0x5452564B then 3
  else if ownerCountOk b = false then 6
  else if crc32c (putAt (sub b 0 128) 124 (zeros 4) ++ sub b 128 (4 * leAt b 44 2)) ≠ BitVec.ofNat 32 (leAt b 124 4) then 4
  else if leAt b 4 2 ≠ 1 then 5
  else if tableFields s b then 0
  else 6

/-- Parameters that the node's tables hold (R292). -/
def tableParams (s : State) : Nat := sumOf s.store.tables fun p => p.2.limit * p.2.cols

/-- The first row map bucket that has arrived and is wrong. -/
def bucketFail (b : List Byte) : Option (Nat × Nat) :=
  let n := min (leAt b 48 4) ((b.length - rowmapOff b) / 4096)
  (List.range n).findSome? fun i =>
    let o := rowmapOff b + 4096 * i
    if leAt b o 4 ≠ 0x4D52564B then some (3, o)
    else if 252 < leAt b (o + 4) 2 ∨ allZero (sub b (o + 6) 58) = false then some (6, o)
    else if (List.range (leAt b (o + 4) 2)).all (fun j =>
        let e := o + 64 + 16 * j
        leAt b (e + 8) 5 < leAt b 24 8 && 1 ≤ leAt b (e + 13) 1 && leAt b (e + 13) 1 ≤ 2 && leAt b (e + 14) 2 == 0) then none
    else some (6, o)

def parseBucket (b : List Byte) (o : Nat) : List KeyEntry :=
  (List.range (leAt b (o + 4) 2)).map fun j =>
    let e := o + 64 + 16 * j
    ⟨BitVec.ofNat 64 (leAt b e 8), leAt b (e + 8) 5, leAt b (e + 13) 1 == 1⟩

def parseRow (t : Table) (b : List Byte) : Row :=
  let c := elemBytes t.fmt t.cols
  let d := rowDataBytes t.cols t.fmt
  let sb := if t.stCount = 0 then 0 else elemBytes t.stFmt t.cols
  { codes := sub b 0 c
    scales := (List.range ((d - c) / 2)).map fun g => BitVec.ofNat 16 (leAt b (c + 2 * g) 2)
    state := (List.range t.stCount).map fun v => sub b (d + v * sb) sb }

/-- A row's byte offset in its units (R135, R291). -/
def rowOff (rb n : Nat) : Nat := n / (16384 / rb) * 16384 + n % (16384 / rb) * rb

def Table.blank (tenant : Nat) (life : Life) (since : Nat) : Table :=
  { life := life, since := since, tenant := tenant, placement := 0, flags := 0, limit := 0, cols := 0, fmt := 0, stFmt := 0, opt := 0, stCount := 0,
    hall := 0, self := 0, buckets := 0, owners := [], rows := [], rowmap := [], progress := 0, tag := 0, lostSeen := [] }

/-- The table that a header describes. -/
def tableOfHdr (tenant since : Nat) (b : List Byte) : Table :=
  { Table.blank tenant .serving since with
    placement := leAt b 6 1, flags := byteAt b 7, limit := leAt b 24 8, cols := leAt b 32 2, fmt := leAt b 34 1, stFmt := leAt b 35 1,
    opt := leAt b 36 1, stCount := leAt b 37 1, hall := BitVec.ofNat 32 (leAt b 40 4), self := leAt b 46 2, buckets := leAt b 48 4,
    owners := tableOwners b }

def buildTable (tenant since : Nat) (b : List Byte) : Table :=
  let t := tableOfHdr tenant since b
  let rb := tableRowBytes t
  let rows := (List.range (leAt b 16 8)).map fun n =>
    let r := sub b (leAt b 56 8 + rowOff rb n) rb
    let v := parseRow t r
    (n, (⟨BitVec.ofNat 64 (leAt r (rowDataBytes t.cols t.fmt + t.stCount * (if t.stCount = 0 then 0 else elemBytes t.stFmt t.cols)) 8), v, some v⟩ : RowSlot))
  { t with
    rows := rows
    rowmap := (List.range t.buckets).filterMap fun i =>
      let es := parseBucket b (rowmapOff b + 4096 * i)
      if es.isEmpty then none else some (i, es) }

/-! ## Load commands -/

def tableDone (s : State) : State := raiseEvt s (pageBase .sched 0) 16

def failTable (s : State) (code off : Nat) : State :=
  match s.store.tload with
  | none => s
  | some l =>
    let s1 := releaseRange { s with store := { s.store with tload := none, tables := Tbl.del s.store.tables l.target } } (4096 + l.target)
    tableDone (setUse (wr64 (loadStatus s1 tableRegs false false false code) tableRegs.offset off) l.tenant)

def tableTarget (s : State) : Nat := rdf s Reg.sched.TABLE_TARGET 9 0
def tableTenant (s : State) : Nat := rdf s Reg.sched.TABLE_TARGET 31 24

def tableLoadStart (s : State) : State :=
  if s.store.tload.isSome then s
  else if (chunkShape s tableRegs && 4096 ≤ chunkLen s tableRegs) = false then wrf s tableRegs.status 7 0 1
  else if (Tbl.get s.store.tables (tableTarget s)).isSome ∨ tenantState s (tableTenant s) ≠ 1 then wrf s tableRegs.status 7 0 2
  else
    let s1 := wr64 (wr s tableRegs.status 0x80000000) tableRegs.offset 0
    { s1 with store := { s1.store with
      tload := some ⟨tableTarget s, tableTenant s, chunkLen s tableRegs, [], [], false⟩
      tables := Tbl.set s1.store.tables (tableTarget s) (Table.blank (tableTenant s) .loading s.ticks) } }

def execTableLoadStart (s : State) : Host.Outcome State Fault Refusal := .next (tableLoadStart s)

def tableLoadContinue (s : State) : State :=
  match s.store.tload with
  | none => s
  | some l =>
    if needData s tableRegs = false then s
    else if chunkShape s tableRegs && chunkFits (chunkLen s tableRegs) (l.bytes.length + chunkLen s tableRegs) (leAt l.bytes 8 8)
    then loadStatus { s with store := { s.store with tload := some { l with chunk := chunkLen s tableRegs } } } tableRegs true false false 0
    else wrf s tableRegs.status 7 0 1

def execTableLoadContinue (s : State) : Host.Outcome State Fault Refusal := .next (tableLoadContinue s)

def execTableLoadAbort (s : State) : Host.Outcome State Fault Refusal := .next (failTable s 9 (rd64 s Reg.sched.TABLE_LOAD_OFFSET))

/-- The first chunk: it holds the header block, which passes its checks; then the chunk rules, then the capacity (R152, R292). -/
def firstTableCode (s : State) (l : Load) (b : List Byte) : Nat :=
  if leAt b 0 4 = 0x5452564B ∧ ownerCountOk b = true ∧ b.length < tableHdrLen b then 1
  else
    let c := tableHeaderCode s b
    let need := tableNeed b
    if c ≠ 0 then c
    else if chunkFits b.length b.length (leAt b 8 8) = false then 1
    else if roomFor s l.tenant need.1 need.2 = false ∨ 5000000000000 < tableParams s + leAt b 24 8 * leAt b 32 2 then 8
    else 0

def tableChunkDone (s : State) (data : Option (List Byte)) : State :=
  match s.store.tload, data with
  | none, _ => s
  | some l, none => if l.last ∨ busyBit s tableRegs.status = false then s else failTable s 9 l.bytes.length
  | some l, some d =>
    if l.last ∨ busyBit s tableRegs.status = false then s
    else
      let b := l.bytes ++ (padTo d l.chunk 0).take l.chunk
      let c := if l.bytes = [] then firstTableCode s l b else 0
      if c ≠ 0 then failTable s c 0
      else
        match bucketFail b with
        | some (c, o) => failTable s c o
        | none =>
          let last := b.length == leAt b 8 8
          let s1 := { s with store := { s.store with
            tload := some { l with bytes := b, last := last }
            tables := Tbl.set s.store.tables l.target { tableOfHdr l.tenant s.ticks b with life := .loading } } }
          setUse (loadStatus (wr64 s1 tableRegs.offset b.length) tableRegs last (!last) false 0) l.tenant

def execTableChunkDone (data : Option (List Byte)) (s : State) : Host.Outcome State Fault Refusal := .next (tableChunkDone s data)

def tableLoadCommit (s : State) : State :=
  match s.store.tload with
  | none => s
  | some l =>
    if l.last = false then s
    else
      let s1 := { s with store := { s.store with tload := none, tables := Tbl.set s.store.tables l.target (buildTable l.tenant s.ticks l.bytes) } }
      tableDone (setUse (loadStatus s1 tableRegs false false true 0) l.tenant)

def execTableLoadCommit (s : State) : Host.Outcome State Fault Refusal := .next (tableLoadCommit s)

def tableInUse (s : State) (t : Nat) : Bool := (s.sched.flights ++ s.sched.parts).any fun f => !f.kind.onColl && f.obj == t

/-- A dropped table is EMPTY once the last batch that bound it has ended (R154, R307). -/
def settleTable (s : State) (n : Nat) : State :=
  match Tbl.get s.store.tables n with
  | none => s
  | some t =>
    if t.life = .draining ∧ tableInUse s n = false then
      tableDone (setUse (releaseRange { s with store := { s.store with tables := Tbl.del s.store.tables n } } (4096 + n)) t.tenant)
    else s

def tableDrop (s : State) : State :=
  let n := tableTarget s
  match Tbl.get s.store.tables n with
  | none => wrf s tableRegs.status 7 0 2
  | some t =>
    match t.life with
    | .loading => failTable s 9 (rd64 s Reg.sched.TABLE_LOAD_OFFSET)
    | .draining => wrf s tableRegs.status 7 0 0
    | .empty => wrf s tableRegs.status 7 0 2
    | .serving =>
      settleTable (wrf { s with store := { s.store with tables := Tbl.set s.store.tables n { t with life := .draining, since := s.ticks } } }
        tableRegs.status 7 0 0) n

def execTableDrop (s : State) : Host.Outcome State Fault Refusal := .next (tableDrop s)

/-! ## Lost ranges (R306, R368) -/

/-- What LOST_MAP says of a 4 KiB page of a tier range: 0 present, 1 LOST, 2 LOST_BOTH. In card mode every lost range is lost on both (R32). -/
def pageLost (s : State) (range page : Nat) : Nat :=
  s.mem.flash.lost.foldl (fun n l =>
    if l.range = range ∧ l.page ≤ page ∧ page < l.page + l.pages then max n (if l.both || !s.hall then 2 else 1) else n) 0

/-- What it says of `n` bytes at an offset. -/
def spanLost (s : State) (range off n : Nat) : Nat := (pagesOf off n).foldl (fun m p => max m (pageLost s range p)) 0

/-- The node that holds an object's mirror (R331, R369): the peer of its pair, else the other node of its shard map or owner list. -/
def mirrorNode (s : State) (range : Nat) : Option Nat :=
  match s.faults.pairs.find? fun p => p.2.obj == range && (p.2.role == 1 || p.2.role == 2) with
  | some p => some p.2.peer
  | none =>
    if range < 4096 then
      ((Tbl.get s.store.colls range).bind (·.map)).bind fun m => (m.shards.find? fun e => (e.node == selfNode s && e.coll == range) ||
        (e.mirrorValid && e.mirror == selfNode s && e.mirrorColl == range)).bind fun e =>
          if e.node = selfNode s then (if e.mirrorValid then some e.mirror else none) else some e.node
    else
      (Tbl.get s.store.tables (range - 4096)).bind fun t => (t.owners.find? fun o => o.1 == selfNode s || (o.2.1 && o.2.2 == selfNode s)).bind fun o =>
        if o.1 = selfNode s then (if o.2.1 then some o.2.2 else none) else some o.1

/-- What a row reads as: 0 present, 1 to be fetched from the mirror node, 2 ROW_LOST (R306). DESIGN CHOICE (log entry 143): a row of a LOST range whose
table has no mirror node reads as ROW_LOST. -/
def rowLost (s : State) (n : Nat) (t : Table) (idx : Nat) : Nat :=
  let k := if t.pinHbm then 0 else spanLost s (4096 + n) (rowOff (tableRowBytes t) idx) (tableRowBytes t)
  if k = 1 ∧ mirrorNode s (4096 + n) = none then 2 else k


/-! ## Rows as values (R291, R292, R299) -/

def rowHome (key : Quad) (table buckets : Nat) : Nat := (crc32c (toLe 8 key.toNat ++ toLe 2 table)).toNat % buckets

/-- The index of a key's row. -/
def rowFind (n : Nat) (t : Table) (key : Quad) : Option Nat := (keyLive t.rowmap (rowHome key n t.buckets) t.buckets key).map (·.slot)

/-- The owner index of a key in a SHARDED table. -/
def ownerIndex (t : Table) (key : Quad) : Nat := (crc32c (toLe 8 key.toNat)).toNat % max 1 t.owners.length

/-- The row data: CODES, then SCALE. -/
def rowData (r : Row) : List Byte := r.codes ++ r.scales.flatMap fun x => toLe 2 x.toNat

/-- The values of a row's columns. -/
def rowValues (t : Table) (r : Row) : List Word :=
  (List.range t.cols).map fun c =>
    let code := codeAt t.fmt r.codes c
    if isIntFmt t.fmt then f32mul (f32OfHalf (r.scales.getD (c / 32) 0)) (f32OfInt (intVal t.fmt code)) else toF32 ((elemFmt t.fmt).decode code)

/-- The code of a value in a floating-point format under R90; FP32 keeps infinities. -/
def fpCode (fmt : Nat) (nonsat : Bool) (v : Word) : Nat :=
  if fmt = 0x0D then (toF32 (f32 v)).toNat else ((elemFmt fmt).convert nonsat (f32 v)).1

/-- Values converted to a row format: the dynamic rule of R97 per group of 32, or R90 with OVF_NONSAT = 0. -/
def encodeRow (fmt : Nat) (vs : List Word) : List Byte × List Half :=
  if isIntFmt fmt then
    let gs := (chunk 32 vs).map fun g => (quantDyn fmt 0 false false (g.map f32)).g
    (packCodes fmt (gs.flatMap (·.codes)), gs.map (·.scale))
  else (packCodes fmt (vs.map (fpCode fmt false)), [])

def vecOf (fmt : Nat) (b : List Byte) (n : Nat) : List Word := (List.range n).map fun i => toF32 ((elemFmt fmt).decode (codeAt fmt b i))
def vecBytes (fmt : Nat) (vs : List Word) : List Byte := packCodes fmt (vs.map (fpCode fmt false))

/-- The parameters of a SCATTER batch (R293). -/
structure OptParams where
  lr : Word
  beta1 : Word
  beta2 : Word
  eps : Word
  bc1 : Word
  bc2 : Word

def optOf (b : List Byte) : OptParams :=
  let w (o : Nat) : Word := BitVec.ofNat 32 (leAt b o 4)
  ⟨w 64, w 68, w 72, w 76, w 80, w 84⟩

/-- One column under an optimiser: the new value and state (R299). -/
def optColumn (opt : Nat) (p : OptParams) (w g a v : Word) : Word × Word × Word :=
  if opt = 1 then (f32sub w (f32mul p.lr g), a, v)
  else if opt = 2 then
    let a' := f32add a (f32mul g g)
    (f32sub w (f32div (f32mul p.lr g) (f32add (f32sqrt a') p.eps)), a', v)
  else
    let m' := f32add (f32mul p.beta1 a) (f32mul (f32sub 0x3F800000 p.beta1) g)
    let v' := f32add (f32mul p.beta2 v) (f32mul (f32sub 0x3F800000 p.beta2) (f32mul g g))
    (f32sub w (f32mul p.lr (f32div (f32div m' p.bc1) (f32add (f32sqrt (f32div v' p.bc2)) p.eps))), m', v')

/-- One read-modify-write of a row. -/
def updateRow (t : Table) (p : OptParams) (gradFmt : Nat) (grad : List Byte) (r : Row) : Row :=
  let w := rowValues t r
  let g := vecOf gradFmt grad t.cols
  let s0 := vecOf t.stFmt (r.state.getD 0 []) t.cols
  let s1 := vecOf t.stFmt (r.state.getD 1 []) t.cols
  let cs := (List.range t.cols).map fun c => optColumn t.opt p (w.getD c 0) (g.getD c 0) (s0.getD c 0) (s1.getD c 0)
  let (codes, scales) := encodeRow t.fmt (cs.map (·.1))
  ⟨codes, scales, ([vecBytes t.stFmt (cs.map (·.2.1)), vecBytes t.stFmt (cs.map (·.2.2))]).take t.stCount⟩

/-- A row with every code, scale and state 0 (R297). -/
def zeroRow (t : Table) : Row :=
  ⟨zeros (elemBytes t.fmt t.cols), List.replicate (if isIntFmt t.fmt then t.cols / 32 else 0) 0,
   List.replicate t.stCount (zeros (elemBytes t.stFmt t.cols))⟩

def setTable (s : State) (n : Nat) (t : Table) : State := { s with store := { s.store with tables := Tbl.set s.store.tables n t } }

/-- The cache pages of a row become dirty (R325). -/
def dirtyRow (s : State) (n : Nat) (t : Table) (idx : Nat) : State :=
  let o := rowOff (tableRowBytes t) idx
  (List.range ((o + tableRowBytes t - 1) / 4096 - o / 4096 + 1)).foldl (fun s i =>
    let k := (4096 + n) * 2 ^ 32 + o / 4096 + i
    match Tbl.get s.mem.flash.dirty k with
    | some _ => s
    | none => updFlash s fun f => { f with dirty := Tbl.set f.dirty k s.now }) s

/-- The lowest free row index below ROW_LIMIT. -/
def freeRow (t : Table) : Option Nat := (List.range (min t.limit (t.rows.length + 1))).find? fun i => (Tbl.get t.rows i).isNone

/-- A ROW_LOST read counts, and raises the event once per range that the row meets (R306). -/
def countRowLost (s : State) (n : Nat) (t : Table) (idx : Nat) : State :=
  let ps := pagesOf (rowOff (tableRowBytes t) idx) (tableRowBytes t)
  let s1 := count s Reg.sched.ROW_LOST_COUNT
  let new := ((s1.mem.flash.lost.filter fun l => l.range == 4096 + n && ps.any fun p => l.page ≤ p && p < l.page + l.pages).map (·.page)).filter
    fun p => !t.lostSeen.contains p
  if new.isEmpty then s1 else raiseEvt (setTable s1 n { t with lostSeen := new ++ t.lostSeen }) (pageBase .sched 0) 17

/-- One row of a SCATTER on this node: the state after it, and the row's status (R297, R299). -/
def scatterRow (s : State) (n : Nat) (p : OptParams) (gradFmt : Nat) (key : Quad) (grad : List Byte) : State × Nat :=
  match Tbl.get s.store.tables n with
  | none => (s, 1)
  | some t =>
    let store (idx : Nat) (t : Table) (r : RowSlot) : State :=
      dirtyRow (count (setTable s n { t with rows := Tbl.set t.rows idx { r with cur := updateRow t p gradFmt grad r.cur } }) Reg.sched.ROWS_UPDATED) n t idx
    match rowFind n t key with
    | some idx =>
      if rowLost s n t idx = 2 then (countRowLost s n t idx, 3)
      else
        match Tbl.get t.rows idx with
        | some r => (store idx t r, 0)
        | none => (s, 1)
    | none =>
      if t.create = false then (s, 1)
      else
        match freeRow t with
        | none => (s, 6)
        | some idx =>
          match keyInsert t.rowmap (rowHome key n t.buckets) t.buckets ⟨key, idx, true⟩ with
          | none => (s, 6)
          | some m => (setUse (dirtyBuckets (store idx { t with rowmap := m } ⟨key, zeroRow t, none⟩) (4096 + n) (4 * unitsOf (tableRowBytes t) t.limit)
              t.rowmap m) t.tenant, 2)

/-- One row of a LOOKUP on this node: its status and data, the state with it; zeros where there is none (R297). -/
def lookupRow (s : State) (n : Nat) (withState : Bool) (key : Quad) : State × Nat × List Byte :=
  match Tbl.get s.store.tables n with
  | none => (s, 1, [])
  | some t =>
    let len := rowDataBytes t.cols t.fmt + (if withState && t.stCount ≠ 0 then t.stCount * elemBytes t.stFmt t.cols else 0)
    match rowFind n t key with
    | none => (s, 1, zeros len)
    | some idx =>
      if rowLost s n t idx = 2 then (countRowLost s n t idx, 3, zeros len)
      else
        match Tbl.get t.rows idx with
        | none => (s, 1, zeros len)
        | some r => (s, 0, rowData r.cur ++ (if withState then r.cur.state.flatten else []))

end Sys2Proof.Machine
end

