-- ==== Sys2Proof/Machine/Models.lean ====
section
/-! DEFINITION. Model images and slots (R277 to R280, R288, R289, R309) and what a layer computes (R281, R114, R118). -/
namespace Sys2Proof.Machine

/-! ## Images (R277, R279, R280) -/

def layerBytes (b : List Byte) (i : Nat) : List Byte := sub b (64 + 128 * i) 128

def parseLayer (e : List Byte) : Layer :=
  { op := leAt e 2 1, act := leAt e 3 1, inBuf := leAt e 4 1, auxBuf := leAt e 5 1, outBuf := leAt e 6 1, lflags := byteAt e 7, k := leAt e 8 4,
    n := leAt e 12 4, heads := leAt e 16 2, headDim := leAt e 18 2, eps := BitVec.ofNat 32 (leAt e 20 4), outFmt := leAt e 24 1,
    wOff := leAt e 32 8, wBytes := leAt e 40 8, qMode := leAt e 64 1, stats := (leAt e 65 1).testBit 0, kernel := leAt e 66 1,
    satThresh := leAt e 68 4, statsAddr := leAt e 72 8, statsBytes := leAt e 80 4, scaleOff := leAt e 84 4 }

def Layer.usesKernel (l : Layer) : Bool := l.op == 1 || l.op == 3

/-- Bytes of one encoded scale. -/
def scaleBytes (fmt : Nat) : Nat := if fmt = 0 then 2 else if fmt = 1 then 1 else 0

/-- Codes, scales and biases of a DENSE layer; gains and offsets of a NORM (R280). -/
def layerNeed (k : Kernel) (l : Layer) : Nat :=
  if l.op = 1 then
    l.n * elemBytes k.wFmt l.k + l.n * ceilDiv l.k k.group * scaleBytes k.wScale + 4 * l.n
  else if l.op = 2 then (if l.lflags.getLsbD 0 then 4 * l.k else 8 * l.k)
  else 0

/-- The static scale table: a scale per group, then, for an unsigned activation, a zero point per group (R99). -/
def staticNeed (k : Kernel) (l : Layer) : Nat :=
  ceilDiv l.k k.group * (scaleBytes k.aScale + (if k.flags.getLsbD 1 then 1 else 0))

/-- The quantiser control block (R110), for a kernel of the profile where there is one. -/
def qcbOk (k : Option Kernel) (l : Layer) (e : List Byte) : Bool :=
  l.qMode ≤ 2 && leAt e 65 1 < 2 && leAt e 67 1 == 0 && leAt e 88 8 == 0 && (if l.stats then 64 ≤ l.statsBytes && l.statsAddr % 64 == 0 else l.statsAddr == 0) &&
  (match k with
    | none => true
    | some k => !(l.qMode == 2 && k.widen == 0) && l.outFmt == k.outFmt &&
      (!(k.flags.getLsbD 2) || l.op ≠ 1 || l.scaleOff + staticNeed k l ≤ l.wBytes) && layerNeed k l ≤ l.wBytes &&
      (l.op ≠ 3 || (k.wFmt == 0x0C && k.aFmt == 0x0C && k.wScale == 2 && k.aScale == 2)))

/-- The weight, bias and gain elements of a layer (R277). DESIGN CHOICE (log entry 139): the offsets of a NORM layer, which R277 does not name, are
not counted. -/
def layerParams (l : Layer) : Nat := if l.op = 1 then l.n * l.k + l.n else if l.op = 2 then l.k else 0

/-- What R277 and R285 ask of the last layer: N is OUT_COLS, and a reranker ends in a DENSE layer with FP32 output. -/
def lastLayerOk (b : List Byte) (l : Layer) : Bool :=
  l.n == leAt b 24 2 && (leAt b 6 1 == 1 || (l.op == 1 && l.n == 1 && l.outFmt == 0x0D))

/-- One layer descriptor obeys R280 and R281; `cols` gives the columns of each buffer written so far. -/
def layerOk (k : Option Kernel) (weights i : Nat) (cols : Tbl Nat) (e : List Byte) : Bool :=
  let l := parseLayer e
  leAt e 0 2 == i && 1 ≤ l.op && l.op ≤ 5 && (if l.op = 1 then l.act ≤ 3 else l.act == 0) && l.inBuf ≤ 7 && Tbl.get cols l.inBuf == some l.k &&
  (if l.op = 4 then l.auxBuf ≤ 7 && Tbl.get cols l.auxBuf == some l.k else l.auxBuf == 0) && 1 ≤ l.outBuf && l.outBuf ≤ 7 &&
  l.lflags.toNat < 2 && (l.op == 2 || l.op == 5 || l.lflags == 0) && 1 ≤ l.k && 1 ≤ l.n &&
  (match l.op with
    | 1 => l.k % 32 == 0
    | 3 => 1 ≤ l.heads && l.heads ≤ 64 && 1 ≤ l.headDim && l.headDim % 32 == 0 && l.k == 3 * l.heads * l.headDim && l.n == l.heads * l.headDim
    | _ => l.n == l.k) &&
  (l.op == 3 || (l.heads == 0 && l.headDim == 0)) && (l.op == 2 || l.eps == 0) && 0x0B ≤ l.outFmt && l.outFmt ≤ 0x0D && allZero (sub e 25 7) &&
  allZero (sub e 48 16) && allZero (sub e 96 32) && l.wOff + l.wBytes ≤ weights && (l.wBytes ≠ 0 || l.wOff == 0) &&
  (if l.usesKernel then qcbOk k l e else allZero (sub e 64 32)) && (l.op ≠ 2 || layerNeed default l ≤ l.wBytes)

/-- A kernel of a profile in the store, if there is one. -/
def kernelIn (s : State) (profile k : Nat) : Option Kernel :=
  match s.sched.profiles.find? (·.no == profile) with
  | some p => if 3 ≤ k then p.kernels[k]? else none
  | none => none

def firstBadLayer (s : State) (b : List Byte) (cols : Tbl Nat) (i : Nat) : List (List Byte) → Option Nat
  | [] => none
  | e :: r =>
    let l := parseLayer e
    let k := if l.usesKernel then kernelIn s (leAt b 16 2) l.kernel else none
    if layerOk k (leAt b 8 8 - leAt b 48 8) i cols e && (!r.isEmpty || lastLayerOk b l) then firstBadLayer s b (Tbl.set cols l.outBuf l.n) (i + 1) r else some i

def modelLayers (b : List Byte) : List (List Byte) := (List.range (leAt b 18 2)).map (layerBytes b)

/-- The header's own fields (R277, R291). -/
def modelHeaderOk (b : List Byte) : Bool :=
  let n := leAt b 18 2
  1 ≤ n && n ≤ 256 && leAt b 7 1 ≤ 1 && leAt b 40 1 ≤ 1 && (leAt b 7 1 == 1 || leAt b 40 1 == 0) && allZero (sub b 41 7) && leAt b 56 4 == 0 &&
  leAt b 48 8 % 4096 == 0 && 64 + 128 * n ≤ leAt b 48 8 && leAt b 48 8 ≤ leAt b 8 8 &&
  leAt b 32 8 == sumOf (modelLayers b) (fun e => layerParams (parseLayer e)) &&
  (if leAt b 6 1 = 1 then
    1 ≤ leAt b 20 2 && leAt b 20 2 ≤ 64 && leAt b 20 2 * leAt b 22 2 == leAt b 24 2 && leAt b 26 2 == 0 && leAt b 28 4 == 0 && leAt b 7 1 == 0
  else leAt b 6 1 == 2 && leAt b 20 2 == 1 && leAt b 24 2 == 1 && leAt b 26 2 < leAt b 22 2 && 32 ≤ leAt b 26 2 && leAt b 26 2 ≤ 4096 && leAt b 26 2 % 32 == 0)

/-- The pinned area of the galleries in service, and what pinned models use of it (R278). -/
def pinnedArea (s : State) : Nat := (inServiceList s).length * (16 * 458752 + 6291456)
def pinnedUse (s : State) (but : Nat) : Nat := sumOf (s.store.models.filter fun p => p.1 ≠ but && !p.2.staged) fun p => p.2.weights.length

/-- PIN_FREE_KIB. -/
def pinFreeKib (s : State) : Nat := (pinnedArea s - pinnedUse s 64) / 1024

/-! ## Stage parameters (R283) -/

def stModel (p : Plan) (d : StageDef) : Nat := leAt p.code d.param 2
def stFirst (p : Plan) (d : StageDef) : Nat := leAt p.code (d.param + 2) 2
def stLast (p : Plan) (d : StageDef) : Nat := leAt p.code (d.param + 4) 2
def stLead (p : Plan) (d : StageDef) : Nat := leAt p.code (d.param + 6) 1

/-- A MODEL_LAYER or RERANK stage, or a WIDEN_SLOT stage that carries model layers (R279, R283): it names a slot. -/
def StageDef.namesModel (d : StageDef) : Bool := d.kind == 0x0F || d.kind == 0x0A || d.flags.getLsbD 2

/-- The tiles that a stage's resource set selects, with logical gallery `i` in service for every `i` below `n`. -/
def setTileCount (p : Plan) (d : StageDef) (n : Nat) : Nat :=
  match p.rsets[d.rset]? with
  | some r => (setTiles r (List.range n)).length
  | none => 0

/-- A staged layer takes at most 448 KiB in each tile of the stage that runs it (R278). DESIGN CHOICE (log entry 142): its weights spread evenly, and
the stages are those of the plans now in the plan slots that name the slot and the layer. -/
def layerFits (s : State) (slot layer bytes : Nat) : Bool :=
  let n := (inServiceList s).length
  bytes ≤ n * 16 * 458752 && s.sched.plans.all fun p => p.2.plan.stages.all fun d =>
    !(d.namesModel && stModel p.2.plan d == slot && stFirst p.2.plan d ≤ layer && layer ≤ stLast p.2.plan d) ||
      bytes ≤ setTileCount p.2.plan d n * 458752

/-- The size limits of R278. -/
def modelFits (s : State) (slot : Nat) (b : List Byte) : Bool :=
  let w := leAt b 8 8 - leAt b 48 8
  if leAt b 7 1 = 0 then leAt b 32 8 ≤ 1200000000 && pinnedUse s slot + w ≤ pinnedArea s
  else leAt b 32 8 ≤ 16000000000 && (modelLayers b).zipIdx.all fun e => layerFits s slot e.2 (parseLayer e.1).wBytes

/-- An admitted flight that has not ended uses the slot (R279, R309). -/
def modelUsed (s : State) (slot : Nat) : Bool :=
  (s.sched.flights ++ s.sched.parts).any fun f => f.plan.stages.any fun d =>
    d.namesModel && (d.kind ≠ 0x0A || f.params.rerank || d.flags.getLsbD 2) && stModel f.plan d == slot

/-- RESULT and FAIL_LAYER of a model load (R279). -/
def modelResult (s : State) (slot tenant : Nat) (b : List Byte) : Nat × Nat :=
  let n := leAt b 18 2
  let w := roundUp (leAt b 8 8 - leAt b 48 8) 4096
  let flash := leAt b 7 1 == 1 && leAt b 40 1 == 1
  let ls := modelLayers b
  if leAt b 0 4 ≠ 0x444D564B then (1, 0)
  else if imageCrc (sub b 0 (64 + 128 * n)) ≠ BitVec.ofNat 32 (leAt b 60 4) then (2, 0)
  else if leAt b 4 2 ≠ 1 then (3, 0)
  else if modelHeaderOk b = false then (4, 0)
  else
    match firstBadLayer s b [(0, leAt b 22 2)] 0 ls with
    | some i => (4, i)
    | none =>
      if s.sched.profiles.any (·.no == leAt b 16 2) = false ∨
        ls.any (fun e => (parseLayer e).usesKernel && (kernelIn s (leAt b 16 2) (parseLayer e).kernel).isNone) = true then (5, 0)
      else if modelFits s slot b = false then (6, 0)
      else if roomFor s tenant (if flash then 0 else w) (if flash then w else 0) = false then (7, 0)
      else if modelUsed s slot ∨ s.sched.modelRetire = some slot then (8, 0)
      else (0, 0)

/-- A layer with the sum table of its weight matrix, written when the model is loaded (R92). -/
def withSums (k : Option Kernel) (weights : List Byte) (l : Layer) : Layer :=
  match k with
  | some k =>
    let rb := elemBytes k.wFmt l.k
    if l.op = 1 ∧ isIntFmt k.wFmt = true then
      { l with wsums := (List.range l.n).map fun n => codeSums k.wFmt k.group (codesOf k.wFmt (sub weights (l.wOff + n * rb) rb) l.k) }
    else l
  | none => l

def parseModel (s : State) (tenant : Nat) (b : List Byte) : Model :=
  { tenant := tenant, role := leAt b 6 1, staged := leAt b 7 1 == 1, profile := leAt b 16 2, inRows := leAt b 20 2, inCols := leAt b 22 2,
    outCols := leAt b 24 2, featCols := leAt b 26 2, featTable := BitVec.ofNat 32 (leAt b 28 4), params := leAt b 32 8, src := leAt b 40 1,
    layers := (modelLayers b).map fun e => withSums (kernelIn s (leAt b 16 2) (parseLayer e).kernel) (b.drop (leAt b 48 8)) (parseLayer e)
    weights := b.drop (leAt b 48 8), relay := false, relayFail := false, lost := false,
    retiring := false }

/-! ## Slots (R279, R289) -/

/-- MODEL_LOAD_CMD.LOAD is ignored while BUSY (R312). DESIGN CHOICE (log entry 141): where a retire of that very slot is what holds BUSY, the load goes on
and completes with SLOT_BUSY, as R309 says. -/
def modelLoad (s : State) : State :=
  if busyBit s Reg.sched.MODEL_STATUS ∧ (s.sched.modelRetire = some (rdf s Reg.sched.MODEL_TARGET 5 0) ∧ s.sched.modelLoad = none) = false then s
  else { wrf s Reg.sched.MODEL_STATUS 31 31 1 with sched := { s.sched with
    modelLoad := some (rd64 s Reg.sched.MODEL_LOAD_ADDR, rdf s Reg.sched.MODEL_TARGET 5 0, rdf s Reg.sched.MODEL_TARGET 31 24) } }

def execModelLoad (s : State) : Host.Outcome State Fault Refusal := .next (modelLoad s)

/-- The bytes of a model image: its header alone where MAGIC refuses it. -/
def modelImage (s : State) (a : Nat) : List Byte :=
  let h := hbmBytes s a 64
  if leAt h 0 4 = 0x444D564B then hbmBytes s a (max (leAt h 8 8) (64 + 128 * leAt h 18 2)) else h

def modelDone (s : State) : State := raiseEvt s (pageBase .sched 0) 15

/-- PIN_EPOCH takes the step, and pinned regions written now carry it (R544, R545). -/
def setPinEpoch (s : State) : State :=
  let s1 := wr64 s Reg.atrium.PIN_EPOCH s.now
  if s1.store.models.any fun p => !p.2.staged then
    { s1 with chip := { s1.chip with galleries := s1.chip.galleries.map fun g =>
      if g.fstate = 0 ∧ g.inService = true then { g with tags := g.tags.take 4 ++ List.replicate 12 s.now } else g } }
  else s1

/-- The load in hand ends: MODEL_STATUS takes RESULT and FAIL_LAYER; a retire not yet done keeps BUSY. -/
def modelLoadEnd (s : State) (r l : Nat) : State :=
  { wr s Reg.sched.MODEL_STATUS (BitVec.ofNat 32 (s.sched.modelRetire.isSome.toNat * 2 ^ 31 + l * 256 + r)) with sched := { s.sched with modelLoad := none } }

def modelLoadDone (s : State) (slot tenant : Nat) (b : List Byte) : State :=
  let (r, l) := modelResult s slot tenant b
  let s1 := modelLoadEnd s r l
  if r = 0 then
    modelDone (setPinEpoch (setUse { s1 with store := { s1.store with models := Tbl.set s1.store.models slot (parseModel s tenant b) } } tenant))
  else modelDone s1

def execModelLoadDone (s : State) : Host.Outcome State Fault Refusal :=
  match s.sched.modelLoad with
  | none => .next s
  | some (a, slot, t) =>
    if inHbm a 64 && inHbm a (modelImage s a).length then .next (modelLoadDone s slot t (modelImage s a)) else .fault (.hbmAddress a)

def modelRetire (s : State) : State :=
  let slot := rdf s Reg.sched.MODEL_TARGET 5 0
  if busyBit s Reg.sched.MODEL_STATUS then s
  else { wrf s Reg.sched.MODEL_STATUS 31 31 1 with
    sched := { s.sched with modelRetire := some slot }
    store := { s.store with models := Tbl.upd s.store.models slot fun m => { m with retiring := true } } }

def execModelRetire (s : State) : Host.Outcome State Fault Refusal := .next (modelRetire s)

def modelSlotEmptied (s : State) : State :=
  match s.sched.modelRetire with
  | none => s
  | some slot =>
    if modelUsed s slot then s
    else
      let t := match Tbl.get s.store.models slot with
        | some m => m.tenant
        | none => 0
      let s1 := { wrf s Reg.sched.MODEL_STATUS 31 31 s.sched.modelLoad.isSome.toNat with
        sched := { s.sched with modelRetire := none }, store := { s.store with models := Tbl.del s.store.models slot } }
      modelDone (setPinEpoch (setUse (releaseRange s1 (5120 + slot)) t))

def execModelSlotEmptied (s : State) : Host.Outcome State Fault Refusal := .next (modelSlotEmptied s)

/-- What the pinned models that are laid out take of the pinned area, but for one slot: not those still to be laid out again, nor those whose relay
failed (R289). -/
def pinsLaid (s : State) (but : Nat) : Nat :=
  sumOf (s.store.models.filter fun p => p.1 ≠ but && !p.2.staged && !p.2.relay && !p.2.relayFail) fun p => p.2.weights.length

/-- PIN_RELAY_DONE (R289): the weights are laid out again beside the models laid out before, or the relay fails for want of room. -/
def pinRelayDone (s : State) (slot : Nat) : State :=
  match Tbl.get s.store.models slot with
  | none => s
  | some m =>
    if m.relay = false then s
    else
      let ok := pinsLaid s slot + m.weights.length ≤ pinnedArea s && !m.lost
      let s1 := { s with store := { s.store with models := Tbl.set s.store.models slot { m with relay := false, relayFail := !ok } } }
      if ok then setPinEpoch s1 else raiseEvt s1 (pageBase .sched 0) 18

def execPinRelayDone (slot : Fin 64) (s : State) : Host.Outcome State Fault Refusal := .next (pinRelayDone s slot.val)

/-! ## Weights in the tile stores (R288) -/

/-- The stage runs model layers for the flight. -/
def runsModel (f : Flight) (d : StageDef) : Bool := d.kind == 0x0F || (d.kind == 0x0A && f.params.rerank)

/-- The stages of a flight for which a layer's stage-in is under way: they lie at most STAGE_LEAD steps ahead, have not run, and do not have the
layer's weights yet. -/
def stageIns (s : State) (slot layer : Nat) (f : Flight) : List StageDef :=
  f.plan.stages.filter fun d =>
    let r := f.stages.getD d.no default
    runsModel f d && stModel f.plan d == slot && stFirst f.plan d ≤ layer && layer ≤ stLast f.plan d && !r.complete && !r.skipped &&
      !r.staged.contains layer && stageStep f d ≤ s.ticks + min 8 (stLead f.plan d)

/-- The layer's weights are in HBM: with STAGE_SRC 0x01 the cache must hold their pages (R278, R288). -/
def weightsInHbm (s : State) (slot : Nat) (m : Model) (layer : Nat) : Bool :=
  m.src == 0 || (m.layers[layer]?).all fun l => l.wBytes == 0 || spanResident s (5120 + slot) l.wOff l.wBytes

/-- WEIGHT_STAGE_IN_DONE: a layer's weights are in the stores of the galleries of a pass's stages. DESIGN CHOICE (log entry 140): the stage-in that
completes is that of the earliest step for which one is under way, and the flights of that step share it. -/
def weightStageIn (s : State) (slot layer : Nat) : State :=
  match Tbl.get s.store.models slot with
  | none => s
  | some m =>
    if m.staged = false ∨ m.layers.length ≤ layer ∨ m.lost = true ∨ weightsInHbm s slot m layer = false then s
    else
      match s.sched.flights.flatMap fun f => (stageIns s slot layer f).map (stageStep f) with
      | [] => s
      | a :: r =>
        let t := r.foldl min a
        let mark (f : Flight) : Flight := ((stageIns s slot layer f).filter fun d => stageStep f d == t).foldl
          (fun g d => { g with stages := updAt g.stages d.no fun r => { r with staged := insertNat r.staged layer } }) f
        { s with sched := { s.sched with flights := s.sched.flights.map mark } }

def execWeightStageInDone (slot : Fin 64) (layer : Nat) (s : State) : Host.Outcome State Fault Refusal := .next (weightStageIn s slot.val layer)

/-- The layers of a stage are held in the stores of its galleries (R288). -/
def weightsHeld (s : State) (f : Flight) (d : StageDef) : Bool :=
  match Tbl.get s.store.models (stModel f.plan d) with
  | none => false
  | some m =>
    if m.lost then false
    else if m.staged then
      (List.range (stLast f.plan d + 1 - stFirst f.plan d)).all fun i => (f.stages.getD d.no default).staged.contains (stFirst f.plan d + i)
    else !m.relay && !m.relayFail

/-! ## What a layer computes (R281) -/

/-- A layer's output: rows; the saturations and NaN of its input conversion (R111), those of its output conversion (R90, R101), and per group its
statistics record (R118). -/
structure LayerOut where
  rows : List (List Word)
  sat : Nat
  nan : Nat
  outSat : Nat
  recs : List (Nat × Nat × Word)

/-- A value converted to a layer's output format, as the FP32 value it stands for. -/
def outVal (fmt : Nat) (nonsat : Bool) (v : Word) : Word := toF32 ((elemFmt fmt).decode (fpCode fmt nonsat v))

/-- The output conversion of a layer's rows: what it gives, and the overflows it counts (none for FP32). -/
def outRows (fmt : Nat) (nonsat : Bool) (rows : List (List Word)) : List (List Word) × Nat :=
  (rows.map fun r => r.map (outVal fmt nonsat),
   if fmt = 0x0D then 0 else (rows.map fun r => (r.filter fun v => ((elemFmt fmt).convert nonsat (f32 v)).2).length).foldl (· + ·) 0)

def reluF (v : Word) : Word := if f32lt 0 v then v else 0
def siluF (v : Word) : Word := f32div v (f32add 0x3F800000 (f32exp (f32neg v)))
def geluF (v : Word) : Word :=
  let t3 := f32mul 0x3D372713 (f32mul (f32mul v v) v)
  let t5 := f32mul 0x3F4C422A (f32add v t3)
  f32mul (f32mul 0x3F000000 v) (f32add 0x3F800000 (f32tanh t5))

def actF (a : Nat) (v : Word) : Word := if a = 1 then reluF v else if a = 2 then geluF v else if a = 3 then siluF v else v

/-- The scale and zero point of group `g` from the static table. -/
def staticOf (k : Kernel) (l : Layer) (w : List Byte) (g : Nat) : Option (Half × Nat) :=
  if k.flags.getLsbD 2 then
    let sb := scaleBytes k.aScale
    some (BitVec.ofNat 16 (leAt w (l.scaleOff + sb * g) sb), leAt w (l.scaleOff + sb * ceilDiv l.k k.group + g) 1)
  else none

/-- An input row converted to the kernel's activation format. -/
def actGroups (k : Kernel) (l : Layer) (w : List Byte) (x : List Word) : List (QOut × List FV) :=
  ((chunk k.group (x.map f32)).zipIdx).map fun g => (quantise k (staticOf k l w g.2) g.1, g.1)

/-- Weight row `n` of a DENSE layer, with its stored sums (R92, R103). -/
def weightRow (k : Kernel) (l : Layer) (w : List Byte) (n : Nat) : List WGroup :=
  let rb := elemBytes k.wFmt l.k
  let codes := codesOf k.wFmt (sub w (n * rb) rb) l.k
  let ng := ceilDiv l.k k.group
  let sb := scaleBytes k.wScale
  ((chunk k.group codes).zipIdx).map fun c =>
    { codes := c.1
      scale := if sb = 0 then 0x3C00 else BitVec.ofNat 16 (leAt w (l.n * rb + (n * ng + c.2) * sb) sb)
      sum := (l.wsums.getD n []).getD c.2 0
      zp := if k.flags.getLsbD 0 then Config.openZero n c.2 % 2 ^ elemBits k.wFmt else 0 }

def biasOf (k : Kernel) (l : Layer) (w : List Byte) (n : Nat) : Word :=
  BitVec.ofNat 32 (leAt w (l.n * elemBytes k.wFmt l.k + l.n * ceilDiv l.k k.group * scaleBytes k.wScale + 4 * n) 4)

/-- A group's codes expanded exactly to BF16, infinities included, for a widened run. -/
def toBf16 (f : Nat) (g : WGroup) : WGroup :=
  { g with sum := 0, zp := 0, codes := g.codes.map fun c =>
    (bf16.convert true (if f = 7 then (f32 (f32OfInt (intVal 7 c))).mul (.num false 1 (-6)) else (elemFmt f).decode c)).1 }

/-- The kernel and weight groups of a WIDEN re-run (R114): dynamic activations in WIDEN_FORMAT. -/
def widened (k : Kernel) : Kernel :=
  if isIntFmt k.widen then { k with aFmt := k.widen, flags := (k.flags &&& 0x09) ||| (if unsignedFmt k.widen then k.flags &&& 2 else 0) }
  else { k with wFmt := 0x0C, aFmt := 0x0C, aScale := 2, flags := k.flags &&& 8 }

def denseRow (k : Kernel) (l : Layer) (w : List Byte) (k0 : Kernel) (x : List QGroup) : List Word :=
  (List.range l.n).map fun n =>
    let wg := weightRow k0 l w n
    let wg := if k.wFmt = 0x0C && k0.wFmt ≠ 0x0C then wg.map (toBf16 k0.wFmt) else wg
    actF l.act (f32add (dotProduct k wg x) (biasOf k0 l w n))

def sumNat (l : List Nat) : Nat := l.foldl (· + ·) 0

/-- DENSE over every row; `wide` runs it with the widened kernel. -/
def runDense (k : Kernel) (l : Layer) (w : List Byte) (wide : Bool) (rows : List (List Word)) : LayerOut :=
  let kr := if wide then widened k else k
  let qs := rows.map fun x => actGroups kr l w x
  let out := outRows l.outFmt (k.flags.getLsbD 3) (qs.map fun q => denseRow kr l w k (q.map (·.1.g)))
  { rows := out.1, outSat := out.2
    sat := sumNat (qs.map fun q => sumNat (q.map (·.1.sat))), nan := sumNat (qs.map fun q => sumNat (q.map (·.1.nan)))
    recs := qs.flatMap fun q => q.map fun g => (g.1.sat, nanElems g.2, groupMse kr g.2 g.1.g) }

def f32sum (l : List Word) : Word :=
  match l with
  | [] => 0
  | a :: r => r.foldl f32add a

def f32of (n : Nat) : Word := f32OfInt n

def normRow (l : Layer) (w : List Byte) (x : List Word) : List Word :=
  let rms := l.lflags.getLsbD 0
  let mu := if rms then 0 else f32div (f32sum x) (f32of l.k)
  let q := x.foldl (fun a v => let d := f32sub v mu; f32add a (f32mul d d)) 0
  let r := f32rsqrt (f32add (f32div q (f32of l.k)) l.eps)
  (x.zipIdx).map fun v =>
    let y := f32mul (f32mul (f32sub v.1 mu) r) (BitVec.ofNat 32 (leAt w (4 * v.2) 4))
    if rms then y else f32add y (BitVec.ofNat 32 (leAt w (4 * l.k + 4 * v.2) 4))

/-- Values rounded to BF16 in groups of the kernel, with what saturated. -/
def bfGroups (k : Kernel) (xs : List Word) : List QOut := (chunk k.group (xs.map f32)).map fun g => quantDyn 0x0C 2 (k.flags.getLsbD 3) false g

def asWeights (gs : List QOut) : List WGroup := gs.map fun q => ⟨q.g.codes, 0x3C00, 0, 0⟩

def maxF (xs : List Word) : Word := if xs.any f32isNan then f32nan else xs.foldl (fun m v => if f32lt m v then v else m) (xs.headD 0)

/-- One head of ATTN: its output rows and what its conversions saturated. -/
def attnHead (k : Kernel) (hd : Nat) (q kk v : List (List Word)) : List (List Word) × Nat :=
  let qs := q.map (bfGroups k)
  let ks := kk.map (bfGroups k)
  let c := f32rsqrt (f32of hd)
  let ps := qs.map fun qi =>
    let sj := ks.map fun kj => f32mul (dotProduct k (asWeights kj) (outGroups qi)) c
    let m := maxF sj
    let e := sj.map fun x => f32exp (f32sub x m)
    let t := e.foldl f32add 0
    e.map fun x => f32div x t
  let pg := ps.map (bfGroups k)
  let vg := (List.range hd).map fun col => bfGroups k (v.map fun r => r.getD col 0)
  (pg.map fun p => vg.map fun vc => dotProduct k (asWeights vc) (outGroups p),
   sumNat ((qs ++ ks ++ vg ++ pg).map outSat))

def runAttn (k : Kernel) (l : Layer) (rows : List (List Word)) : LayerOut :=
  let hd := l.headDim
  let part (o h : Nat) : List (List Word) := rows.map fun r => (r.drop ((o * l.heads + h) * hd)).take hd
  let hs := (List.range l.heads).map fun h => attnHead k hd (part 0 h) (part 1 h) (part 2 h)
  let out := outRows l.outFmt (k.flags.getLsbD 3) ((List.range rows.length).map fun i => hs.flatMap fun h => h.1.getD i [])
  { rows := out.1, outSat := out.2, sat := sumNat (hs.map (·.2)), nan := 0
    recs := rows.flatMap fun r => (chunk k.group (r.map f32)).map fun g =>
      let q := quantDyn 0x0C 2 (k.flags.getLsbD 3) false g
      (q.sat, nanElems g, groupMse k g q.g) }

def poolRows (l : Layer) (rows : List (List Word)) : List (List Word) :=
  if l.lflags.getLsbD 0 then [rows.headD []]
  else [(List.range l.k).map fun c => f32div (f32sum (rows.map fun r => r.getD c 0)) (f32of rows.length)]

/-- A layer on the rows of its input and auxiliary buffers. -/
def runLayer (k : Kernel) (l : Layer) (weights : List Byte) (wide : Bool) (rows aux : List (List Word)) : LayerOut :=
  let w := sub weights l.wOff l.wBytes
  let plain (rows : List (List Word)) : LayerOut :=
    let out := outRows l.outFmt false rows
    ⟨out.1, 0, 0, out.2, []⟩
  match l.op with
  | 1 => runDense k l w wide rows
  | 2 => plain (rows.map (normRow l w))
  | 3 => runAttn k l rows
  | 4 => plain ((rows.zip aux).map fun p => (p.1.zip p.2).map fun v => f32add v.1 v.2)
  | _ => plain (poolRows l rows)

end Sys2Proof.Machine
end

