-- ==== Sys2Proof/Machine/Search.lean ====
section
/-! DEFINITION. What a search and a score request compute (R156 to R200, R209): the checks on a descriptor's fields, the query codes, rank
keys, descent, scan, rake, refinement, sieve and scores. -/
namespace Sys2Proof.Machine

/-- Failing headers that the node met (R140, R223). -/
def trellisFails (s : State) : Nat → State
  | 0 => s
  | n + 1 => trellisFails (count (raiseErr s .sched 0 0) Reg.sched.TRELLIS_CRC_FAIL) n

/-! ## Descriptor fields (R156 to R159, R186, R198) -/

def Desc.k (d : Desc) : Nat := d.u 16 2
def Desc.refine (d : Desc) : Nat := d.u 18 2
def Desc.overfetch (d : Desc) : Nat := d.u 20 2
def Desc.isScore (d : Desc) : Bool := d.op == 0x11
def Desc.termBytes (d : Desc) (i : Nat) : List Byte := sub d.bytes (64 + 16 * i) 16

/-- A sieve term in use obeys R186. -/
def termOk (e : List Byte) : Bool :=
  1 ≤ leAt e 0 1 && leAt e 0 1 ≤ 0x0B && leAt e 1 1 ≤ 63 && 1 ≤ leAt e 2 1 && leAt e 2 1 ≤ 64 && leAt e 1 1 + leAt e 2 1 ≤ 64 && leAt e 3 1 ≤ 7 &&
  leAt e 4 4 == 0 && leAt e 8 8 < 2 ^ leAt e 2 1

def parseTerm (e : List Byte) : Term := ⟨leAt e 0 1, leAt e 1 1, leAt e 2 1, leAt e 3 1, BitVec.ofNat 64 (leAt e 8 8)⟩

def termsOk (d : Desc) : Bool :=
  d.u 30 1 ≤ 8 && (List.range 8).all fun i => if i < d.u 30 1 then termOk (d.termBytes i) else allZero (d.termBytes i)

/-- The first code of a list of checks that fails; 0 when none does. -/
def firstFail (cs : List (Nat × Bool)) : Nat :=
  match cs.find? fun c => !c.2 with
  | some c => c.1
  | none => 0

/-- DETAIL of a query descriptor against its collection and the class that its channel grants (R158, R159, R198). -/
def queryDetail (i : CollInfo) (grant : Nat) (d : Desc) : Nat :=
  let k := d.k
  let m := k + d.overfetch
  let sc := d.isScore
  firstFail [
    (0x01, d.u 12 1 == i.metric), (0x02, 0x0B ≤ d.u 13 1 && d.u 13 1 ≤ 0x0D), (0x03, d.u 28 2 == i.refineDims), (0x04, 1 ≤ k && k ≤ 1024),
    (0x05, d.refine == 0 || (!sc && m ≤ d.refine && d.refine ≤ 4096)), (0x06, if sc then d.overfetch == 0 else m ≤ 4096),
    (0x07, if sc then d.u 22 1 == 0 else d.u 22 1 ≤ 64), (0x08, if sc then d.u 24 2 == 0 else d.u 24 2 ≤ 1024),
    (0x09, d.cls ≤ 3 && grant ≤ d.cls), (0x0A, termsOk d && (!sc || d.u 30 1 == 0)),
    (0x0B, (if sc then 64 + 16 * k else 64 + 8 * k) ≤ d.resultBytes),
    (0x0C, d.u 32 8 % 64 == 0 && d.resultAddr % 64 == 0 && (!sc || d.u 48 8 % 8 == 0)),
    (0x0D, d.u 23 1 == 0 && d.u 31 1 == 0 && d.flags < 8 && allZero (sub d.bytes 192 64) && (if sc then d.flags == 0 else d.u 48 8 == 0)),
    (0x0E, d.deadline ≤ 4095)]

/-- DETAIL of an update descriptor (R213). -/
def updateDetail (i : CollInfo) (grant : Nat) (d : Desc) : Nat :=
  let ins := d.op == 0x20
  let n := d.u 16 2
  firstFail [
    (0x02, if ins then 0x0B ≤ d.u 12 1 && d.u 12 1 ≤ 0x0D else d.u 12 1 == 0), (0x03, d.u 18 2 == if ins then i.refineDims else 0),
    (0x09, d.cls ≤ 3 && grant ≤ d.cls), (0x0B, 64 + n ≤ d.resultBytes), (0x0C, d.u 24 8 % 64 == 0 && d.resultAddr % 64 == 0),
    (0x0D, d.flags < (if ins then 2 else 1) && d.u 15 1 == 0 && d.u 22 2 == 0 && allZero (sub d.bytes 44 16) && allZero (sub d.bytes 64 192)),
    (0x0E, d.deadline ≤ 4095), (0x0F, 1 ≤ n && n ≤ 1024)]

/-- The parameters of a query, with the collection's defaults for BEAM and PROBES (R158). -/
def Desc.sparams (d : Desc) (i : CollInfo) : SParams :=
  { metric := i.metric, k := d.k, refine := d.refine, overfetch := d.overfetch, beam := if d.u 22 1 = 0 then i.beam else d.u 22 1,
    probes := if d.u 24 2 = 0 then i.probes else d.u 24 2, sieve := d.flags.testBit 2, rerank := d.flags.testBit 1, hall := d.flags.testBit 0,
    terms := (List.range (d.u 30 1)).map fun j => parseTerm (d.termBytes j) }

/-- M and C (R158, R163). -/
def SParams.m (p : SParams) : Nat := p.k + p.overfetch
def SParams.depth (p : SParams) : Nat := if p.refine = 0 then p.m else p.refine

/-! ## Vectors (R127, R128, R130 to R132, R164) -/

/-- `n` elements of a vector as FP32. -/
def vecWords (fmt n : Nat) (b : List Byte) : List Word :=
  (List.range n).map fun i =>
    if fmt = 0x0D then BitVec.ofNat 32 (leAt b (4 * i) 4)
    else if fmt = 0x0C then f32OfBf16 (BitVec.ofNat 16 (leAt b (2 * i) 2)) else f32OfHalf (BitVec.ofNat 16 (leAt b (2 * i) 2))

/-- Normalisation for COSINE (R127). -/
def normalise (x : List Word) : List Word :=
  let ss := x.foldl (fun a v => f32add a (f32mul v v)) 0
  if f32isFinite ss && fld ss 30 0 ≠ 0 then
    let r := f32div 0x3F800000 (f32sqrt ss)
    x.map fun v => f32mul v r
  else x

def prepared (metric : Nat) (x : List Word) : List Word := if metric = 2 then normalise x else x

/-- Row `j` of the projection under kernel 0, with its stored sums. -/
def projRow (k0 : Kernel) (p : Projection) (j : Nat) : List WGroup :=
  let codes := codesOf 3 (p.rows.getD j []) (p.rows.getD j []).length
  (((chunk k0.group codes).zip (p.scales.getD j [])).zip (p.sums.getD j [])).map fun c => ⟨c.1.1, c.1.2, c.2, 0⟩

/-- The projection of x, and what its conversion counted (R128). -/
def project (k0 : Kernel) (p : Projection) (x : List Word) : List Word × Nat × Nat :=
  let q := quantVec k0 (x.map f32)
  ((List.range p.rows.length).map fun j => f32add (dotProduct k0 (projRow k0 p j) (outGroups q)) (p.bias.getD j 0), outSat q, outNan q)

/-- The codes of a query: coarse, refinement, saturations and NaN (R164). -/
def queryCodes (s : State) (c : Coll) (x : List Word) : List QGroup × List QGroup × Nat × Nat :=
  let (y, sa, na) := project (kernelOf s c.info.profile 0) c.proj x
  let q := quantVec (kernelOf s c.info.profile 1) (y.map f32)
  let r := quantVec (kernelOf s c.info.profile 2) (x.map f32)
  (outGroups q, outGroups r, sa + outSat q + outSat r, na + outNan q + outNan r)

/-- An item's coarse record from its projection (R130), with its saturations. -/
def coarseRecord (y : List Word) : Coarse × Nat :=
  let q := (chunk 64 (y.map f32)).map (quantDyn 2 0 false true)
  (⟨q.flatMap (·.g.codes), q.map (·.g.scale), q.map (fun o => o.g.sum.toNat), q.map (·.g.zp)⟩, outSat q)

/-- An item's refinement record (R131), with its saturations. -/
def refineRecord (x : List Word) (key attr : Quad) : Refine × Nat :=
  let q := (chunk 128 (x.map f32)).map (quantDyn 3 0 false false)
  (⟨q.flatMap fun o => o.g.codes.map (BitVec.ofNat 8), q.map (·.g.scale), q.map (fun o => BitVec.ofInt 16 o.g.sum), key, attr⟩, outSat q)

/-- The squared norm of groups of codes (R132). -/
def sqNorm (gs : List (Word × List Int)) : Word :=
  gs.foldl (fun n g => g.2.foldl (fun n c => let v := f32mul g.1 (f32OfInt c); f32add n (f32mul v v)) n) 0

def Coarse.norm (r : Coarse) : Word :=
  sqNorm (((chunk 64 r.codes).zip (r.scales.zip r.zps)).map fun g => (f32OfHalf g.2.1, g.1.map fun (c : Nat) => Int.ofNat c - Int.ofNat g.2.2))

def Refine.norm (r : Refine) : Word :=
  sqNorm (((chunk 128 r.codes).zip r.scales).map fun g => (f32OfHalf g.2, g.1.map fun c => c.toInt))

/-- QN of R199. -/
def queryNorm (k2 : Kernel) (q : List QGroup) : Word :=
  sqNorm (q.map fun g => (toF32 (scaleVal k2.aScale g.scale), g.codes.map fun c => intVal k2.aFmt c - g.zp))

/-- A coarse record's dequantised value in every dimension, s × (c − z) (R220, R231). -/
def Coarse.values (r : Coarse) : List Word :=
  ((chunk 64 r.codes).zip (r.scales.zip r.zps)).flatMap fun g => g.1.map fun (c : Nat) => f32mul (f32OfHalf g.2.1) (f32OfInt (Int.ofNat c - Int.ofNat g.2.2))

/-- The placement vector's codes (R220). -/
def placementOut (s : State) (i : CollInfo) (r : Coarse) : List QOut := quantVec (kernelOf s i.profile 1) (r.values.map f32)
def placement (s : State) (i : CollInfo) (r : Coarse) : List QGroup := outGroups (placementOut s i r)

/-! ## Rank values and keys (R165, R166) -/

def Coarse.groups (r : Coarse) : List WGroup :=
  ((chunk 64 r.codes).zip (r.scales.zip (r.sums.zip r.zps))).map fun g => ⟨g.1, g.2.1, g.2.2.1, g.2.2.2⟩

def Refine.groups (r : Refine) : List WGroup :=
  ((chunk 128 r.codes).zip (r.scales.zip r.sums)).map fun g => ⟨g.1.map (·.toNat), g.2.1, g.2.2.toInt, 0⟩

def rankValue (metric : Nat) (acc norm : Word) : Word := if metric = 1 then f32sub norm (f32mul 0x40000000 acc) else f32neg acc

def rankKey (v : Word) : Nat :=
  if f32isNan v then 0xFFFFFFFF
  else
    let b : Word := if v = 0x80000000 then 0 else v
    if b.getLsbD 31 then (~~~b).toNat else (b ||| 0x80000000).toNat

/-- The rank key of a centroid (R165, R168). -/
def centKey (k1 : Kernel) (metric : Nat) (q : List QGroup) (r : Coarse) : Nat :=
  rankKey (rankValue metric (dotProduct k1 r.groups q) (if metric = 1 then r.norm else 0))

/-! ## Descent (R168, R169) -/

/-- A child in the descent: rank key, path, and the RECORDS of its reference. -/
structure Cand where
  key : Nat
  path : Word
  records : Nat

def Cand.less (a b : Cand) : Bool := a.key < b.key || (a.key == b.key && a.path < b.path)

def Version.node (v : Version) (level : Nat) (path : Word) : Option NodeBlk := v.nodes.find? fun n => n.level == level && n.path == path
def Version.leaf (v : Version) (path : Word) : Option LeafBlk := v.leaves.find? (·.path == path)

/-- A node can be read, from either copy; and how many copies failed on the way. -/
def NodeBlk.readable (n : NodeBlk) : Bool := n.ok.1 || n.ok.2
def NodeBlk.fails (n : NodeBlk) : Nat := if n.ok.1 then 0 else if n.ok.2 then 1 else 2

/-- What a descent finds: leaves to probe, items it had to leave out, failing copies it read. -/
structure Descent where
  found : List Cand
  omitted : Nat
  fails : Nat

def childCands (key : Coarse → Nat) (n : NodeBlk) : List Cand :=
  ((n.cents.zip n.kids).zipIdx).map fun x => ⟨key x.1.1, childPath n.path n.level x.2, x.1.2⟩

/-- The children of a frontier at one level; an unreadable node is left out with its records. -/
def expand (key : Coarse → Nat) (v : Version) (level : Nat) (front : List Cand) : Descent :=
  front.foldl (fun d c =>
    match v.node level c.path with
    | none => { d with omitted := d.omitted + c.records }
    | some n =>
      if n.readable then { d with found := d.found ++ childCands key n, fails := d.fails + n.fails }
      else { d with omitted := d.omitted + c.records, fails := d.fails + n.fails }) ⟨[], 0, 0⟩

/-- Levels `level` to DEPTH: B kept at each, P at the last. -/
def descendFrom (key : Coarse → Nat) (v : Version) (beam probes level : Nat) (front : List Cand) : Nat → Descent
  | 0 => ⟨front, 0, 0⟩
  | n + 1 =>
    let e := expand key v level front
    let keep := (sortBy Cand.less e.found).take (if n = 0 then probes else beam)
    let r := descendFrom key v beam probes (level + 1) keep n
    { r with omitted := r.omitted + e.omitted, fails := r.fails + e.fails }

/-- The probed leaves of a query (R168). The root's RECORDS is the version's ITEM_COUNT (R169). -/
def descend (k1 : Kernel) (i : CollInfo) (v : Version) (beam probes : Nat) (q : List QGroup) : Descent :=
  descendFrom (centKey k1 i.metric q) v beam probes 1 [⟨0, 0, v.items⟩] i.depth

/-- The partition of an insert (R220): the child of the root nearest its placement vector. -/
def choosePartition (k1 : Kernel) (i : CollInfo) (v : Version) (q : List QGroup) : Option Nat :=
  match v.node 1 0 with
  | none => none
  | some n =>
    if n.readable then ((sortBy Cand.less (childCands (centKey k1 i.metric q) n)).head?).map fun c => c.path.toNat / 2 ^ 24 else none

def partOf (path : Word) : Nat := path.toNat / 2 ^ 24

/-! ## The rake (R175 to R179) -/

def RakeEntry.less (a b : RakeEntry) : Bool :=
  a.key < b.key || (a.key == b.key && (a.shard < b.shard || (a.shard == b.shard && a.order < b.order)))

/-- Insertion into a chain of depth C. -/
def chainInsert (c : Nat) (l : List RakeEntry) (e : RakeEntry) : List RakeEntry := (insertBy RakeEntry.less e l).take c

/-- ORDER of a trellis item and of a seedbed item (R176). -/
def leafOrder (path : Word) (pos : Nat) : Nat := path.toNat * 4096 + pos
def seedOrder (seq : Nat) : Nat := 2 ^ 63 + seq

/-! ## Scans (R170, R173, R174, R223, R225, R319) -/

/-- Nothing at or above FOLD_EPOCH `fold` reads the entry: its batch ended without it, or a publication has folded it. -/
def SeedEntry.folded (fold : Nat) (e : SeedEntry) : Bool := e.held.isNone && (!e.valid || e.epoch < fold)
def WeedEntry.folded (fold : Nat) (e : WeedEntry) : Bool := e.held.isNone && (!e.valid || e.epoch < fold)

/-- Leading segments of a chain that are folded whole: SEED_HEAD or WEED_HEAD names the one behind them (R224). -/
def foldedSegs {α : Type} (cap : Nat) (folded : α → Bool) (l : List α) : Nat :=
  ((chunk cap l).takeWhile fun seg => seg.all folded).length

def partChain {α : Type} (part : α → Nat) (p : Nat) (l : List α) : List α := l.filter (part · == p)
def seedHead (c : Coll) (v : Version) (p : Nat) : Nat :=
  foldedSegs (seedCap c.info.projDims) (SeedEntry.folded (v.fold.getD p 0)) (partChain (·.part) p c.seeds)
def weedHead (c : Coll) (v : Version) (p : Nat) : Nat := foldedSegs weedCap (WeedEntry.folded (v.fold.getD p 0)) (partChain (·.part) p c.weeds)

/-- The entries of a partition's chain from segment `head` on, those of failing segments taken out, and how many those were. -/
def readable {α : Type} (cap head : Nat) (bad : Nat → Bool) (l : List α) : List α × Nat :=
  let x := l.zipIdx.drop (head * cap)
  ((x.filter fun e => !bad (e.2 / cap)).map (·.1), (x.filter fun e => bad (e.2 / cap)).length)

def partSeeds (c : Coll) (v : Version) (p : Nat) : List SeedEntry × Nat :=
  readable (seedCap c.info.projDims) (seedHead c v p) (fun i => c.badSegs.contains (p, false, i)) (partChain (·.part) p c.seeds)
def partWeeds (c : Coll) (v : Version) (p : Nat) : List WeedEntry × Nat :=
  readable weedCap (weedHead c v p) (fun i => c.badSegs.contains (p, true, i)) (partChain (·.part) p c.weeds)

/-- Failing segments of a partition that a flight bound to `v` scans, seedbed and weed. -/
def badSegsOf (c : Coll) (v : Version) (p : Nat) : Nat :=
  (c.badSegs.filter fun x => x.1 == p && (if x.2.1 then weedHead c v p else seedHead c v p) ≤ x.2.2).length

/-- A flight of epoch `a` bound to version `v` reads an entry of partition `p` committed at `e` (R225). -/
def seesEntry (v : Version) (a p e : Nat) (valid : Bool) : Bool := valid && e < a && v.fold.getD p 0 ≤ e

/-- Slots of a partition that weed entries exclude. -/
def weeded (c : Coll) (v : Version) (a p : Nat) : List Nat :=
  ((partWeeds c v p).1.filter fun w => seesEntry v a p w.epoch w.valid).map (·.slot)

/-- What a scan finds. -/
structure Scan where
  cands : List RakeEntry
  omitted : Nat
  nan : Nat
  leaves : List Word
  fails : Nat

def Scan.none_ : Scan := ⟨[], 0, 0, [], 0⟩
def Scan.append (a b : Scan) : Scan :=
  ⟨a.cands ++ b.cands, a.omitted + b.omitted, a.nan + b.nan, a.leaves ++ b.leaves, a.fails + b.fails⟩

def spanHits (bad : List Nat) (off n : Nat) : Bool := bad.any fun b => off / 4096 ≤ b && b ≤ (off + n - 1) / 4096

/-- A record, its slot entry or its norm entry has a byte in a poisoned 4 KiB block (R319). -/
def recordHit (i : CollInfo) (n p : Nat) (bad : List Nat) : Bool :=
  spanHits bad (64 + p * recordBytes i.projDims) (recordBytes i.projDims) || spanHits bad (leafSlotOff i.projDims n + 5 * p) 5 ||
  (i.l2 && spanHits bad (leafNormOff i.projDims n + 8 * p) 8)

def recordKey (k1 : Kernel) (metric : Nat) (q : List QGroup) (r : Coarse) (nc : Word) : Nat :=
  rankKey (rankValue metric (dotProduct k1 r.groups q) nc)

/-- The scan of one probed leaf; `lost` are slots whose array entries are lost (R336), `bad` the leaf's poisoned blocks. -/
def scanLeaf (k1 : Kernel) (i : CollInfo) (shard : Nat) (q : List QGroup) (out lost : List Nat) (bad : List Nat) (l : LeafBlk) : Scan :=
  let n := l.recs.length
  let rs := ((l.recs.zip l.slots).zipIdx).filter fun x => !recordHit i n x.2 bad && !lost.contains x.1.2
  let ks := rs.map fun x => (recordKey k1 i.metric q x.1.1 (l.norms.getD x.2 (0, 0)).1, x.1.2, x.2)
  { cands := (ks.filter fun x => !out.contains x.2.1).map fun x => ⟨leafOrder l.path x.2.2, x.1, false, x.2.1, shard, 0⟩
    omitted := n - rs.length, nan := (ks.filter (·.1 == 0xFFFFFFFF)).length, leaves := [l.path], fails := 0 }

/-- Leaf scan of a flight (R170): a leaf whose header fails, or whose header block is poisoned, is not scanned. -/
def scanLeaves (k1 : Kernel) (c : Coll) (v : Version) (a shard : Nat) (q : List QGroup) (probed : List Word) (poison : List (Word × Nat)) : Scan :=
  probed.foldl (fun r path =>
    match v.leaf path with
    | none => r
    | some l =>
      let bad := (poison.filter (·.1 == path)).map (·.2)
      if l.ok = false ∨ bad.contains 0 then { r with omitted := r.omitted + l.recs.length, fails := r.fails + 1 }
      else r.append (scanLeaf k1 c.info shard q (weeded c v a (partOf path)) c.lostSlots bad l)) Scan.none_

/-- Seedbed scan of a flight (R173, R223). -/
def scanSeeds (k1 : Kernel) (c : Coll) (v : Version) (a shard : Nat) (q : List QGroup) (parts : List Nat) : Scan :=
  parts.foldl (fun r p =>
    let (es, lost) := partSeeds c v p
    let out := weeded c v a p
    let seen := es.filter fun e => seesEntry v a p e.epoch e.valid
    let ks := (seen.filter fun e => !c.lostSlots.contains e.slot).map fun e => (recordKey k1 c.info.metric q e.record e.nc, e)
    r.append
      { cands := (ks.filter fun x => !out.contains x.2.slot).map fun x => ⟨seedOrder x.2.seq, x.1, false, x.2.slot, shard, 0⟩
        omitted := lost + (partWeeds c v p).2 + (seen.length - ks.length), nan := (ks.filter (·.1 == 0xFFFFFFFF)).length, leaves := [], fails := badSegsOf c v p }) Scan.none_

/-- Entries of the same item: the lower ORDER is kept (R209). -/
def dedupe (l : List RakeEntry) : List RakeEntry :=
  l.filter fun e => !(l.any fun x => x.slot == e.slot && x.shard == e.shard && x.order < e.order)

/-! ## Refinement (R181 to R184) -/

/-- NC and NF of a candidate, from its leaf or its seedbed entry (R165). -/
def normsOf (c : Coll) (v : Version) (order : Nat) : Word × Word :=
  if order < 2 ^ 63 then
    match v.leaf (BitVec.ofNat 32 (order / 4096)) with
    | some l => l.norms.getD (order % 4096) (0, 0)
    | none => (0, 0)
  else
    match c.seeds.find? fun e => e.seq == order - 2 ^ 63 && e.valid with
    | some e => (e.nc, e.nf)
    | none => (0, 0)

def refinedKey (k2 : Kernel) (c : Coll) (v : Version) (q : List QGroup) (e : RakeEntry) (r : Refine) : Nat :=
  rankKey (rankValue c.info.metric (dotProduct k2 r.groups q) (normsOf c v e.order).2)

/-- REFINE on a candidate list: records that arrived, records lost on both sides; the entries in order, how many were removed,
and the NaN among those newly refined. -/
def refineList (k2 : Kernel) (c : Coll) (v : Version) (q : List QGroup) (arrived : Tbl Refine) (both : List Nat) (l : List RakeEntry) :
    List RakeEntry × Nat × Nat :=
  let kept := l.filter fun e => !both.contains e.slot
  let new := kept.map fun e =>
    match e.refined, Tbl.get arrived e.slot with
    | false, some r => { e with key := refinedKey k2 c v q e r, refined := true }
    | _, _ => e
  let nan (x : List RakeEntry) : Nat := (x.filter fun e => e.refined && e.key == 0xFFFFFFFF).length
  (sortBy RakeEntry.less new, l.length - kept.length, nan new - nan kept)

/-! ## The sieve (R186 to R188) -/

def Term.holds (t : Term) (attr : Quad) : Bool :=
  let f := (attr.toNat >>> t.lsb) % 2 ^ t.width
  let v := t.value.toNat
  let sg (x : Nat) : Int := if x < 2 ^ (t.width - 1) then x else (x : Int) - 2 ^ t.width
  match t.op with
  | 0x01 => f == v
  | 0x02 => f ≠ v
  | 0x03 => f < v
  | 0x04 => f ≤ v
  | 0x05 => f > v
  | 0x06 => f ≥ v
  | 0x07 => f &&& v ≠ 0
  | 0x08 => f &&& v == v
  | 0x09 => f &&& v == 0
  | 0x0A => sg f < sg v
  | _ => sg f ≥ sg v

def survives (ts : List Term) (attr : Quad) : Bool :=
  (List.range 8).all fun g =>
    let l := ts.filter (·.group == g)
    l.isEmpty || l.any fun t => t.holds attr

def attrOf (c : Coll) (slot : Nat) : Quad :=
  match Tbl.get c.slots slot with
  | some d => d.attr
  | none => 0

def keyOf (c : Coll) (slot : Nat) : Quad :=
  match Tbl.get c.slots slot with
  | some d => d.key
  | none => 0

/-! ## Score requests (R198 to R200, R226) -/

/-- A slot's number in the node's slot history. -/
def histKey (coll slot : Nat) : Nat := coll * 2 ^ 40 + slot

def histOf (s : State) (coll slot : Nat) : Option (Nat × Nat × Option Nat) := s.sched.hist.find? (·.1 == histKey coll slot)

/-- item_at(k, a). -/
def itemAt (s : State) (n : Nat) (c : Coll) (key : Quad) (a : Nat) : Option Nat :=
  ((keyEntries c.keymap (keyHome key c.info.buckets) c.info.buckets key).find? fun e =>
    match histOf s n e.slot with
    | some (_, ins, del) => ins < a && (match del with
      | none => true
      | some d => a ≤ d)
    | none => e.live).map (·.slot)

/-- The score of a record (R199). -/
def scoreOf (k2 : Kernel) (metric : Nat) (q : List QGroup) (r : Refine) : Word :=
  let acc := dotProduct k2 r.groups q
  if metric = 1 then f32add (queryNorm k2 q) (f32sub r.norm (f32mul 0x40000000 acc)) else acc

/-- One 16-byte score entry. -/
def scoreEntry (e : Quad × Word × Nat) : List Byte := toLe 8 e.1.toNat ++ toLe 4 e.2.1.toNat ++ toLe 1 e.2.2 ++ zeros 3

end Sys2Proof.Machine
end

