-- ==== Sys2Proof/Machine/Updates.lean ====
section
/-! DEFINITION. Update batches (R212 to R217, R220), snapshots and their retention (R222, R225, R228), durability (R234) and transplant
(R229 to R233). -/
namespace Sys2Proof.Machine

/-! ## Batch items (R212, R214) -/

/-- "No slot" (R141). -/
def noSlot : Nat := 2 ^ 40 - 1

def Desc.isInsert (d : Desc) : Bool := d.op == 0x20
def Desc.ifAbsent (d : Desc) : Bool := d.flags.testBit 0
def Desc.items (d : Desc) : Nat := d.u 16 2
/-- Bytes of an INSERT entry. -/
def Desc.itemStride (d : Desc) : Nat := roundUp (16 + d.u 18 2 * (if d.u 12 1 = 0x0D then 4 else 2)) 64

def itemKey (d : Desc) (i : Nat) : Quad := BitVec.ofNat 64 (leAt d.buf (if d.isInsert then i * d.itemStride else 8 * i) 8)

def itemVec (d : Desc) (i : Nat) : List Word := vecWords (d.u 12 1) (d.u 18 2) (d.buf.drop (i * d.itemStride + 16))

/-- One INSERT item after PROJECT: the item, its saturations, its NaN elements (R217). -/
def projectItem (s : State) (c : Coll) (d : Desc) (i : Nat) : UpdItem × Nat × Nat :=
  let x0 := itemVec d i
  let x := prepared c.info.metric x0
  let key := itemKey d i
  let attr : Quad := BitVec.ofNat 64 (leAt d.buf (i * d.itemStride + 8) 8)
  let (y, _, _) := project (kernelOf s c.info.profile 0) c.proj x
  let (co, s1) := coarseRecord y
  let (re, s2) := refineRecord x key attr
  (⟨key, attr, co, re, if c.info.l2 then co.norm else 0, if c.info.l2 then re.norm else 0, 0, noSlot, 5⟩, s1 + s2,
   (x0.filter f32isNan).length)

def deleteItem (d : Desc) (i : Nat) : UpdItem := ⟨itemKey d i, 0, default, default, 0, 0, 0, noSlot, 5⟩

/-! ## Slots and what COPY writes (R141, R214, R219, R221) -/

/-- The first `k` free slots below the limit; COPY has taken those of batches not yet committed. -/
def freeSlots (c : Coll) (k : Nat) : List Nat :=
  (((List.range (c.slots.length + k)).filter fun i => (Tbl.get c.slots i).isNone).take k).filter (· < c.info.slotLimit)

/-- COPY of a batch of flight `id`: the seedbed entries, array entries and refinement records of an INSERT, the weed entries of a DELETE whose key
was found; none of them valid yet. -/
def copyItems (id : Nat) (ins : Bool) (items : List UpdItem) (c : Coll) : Coll :=
  if ins then { c with
    seeds := c.seeds ++ items.map fun it => ⟨it.part, 0, 0, false, it.slot, it.nc, it.nf, it.coarse, some id⟩
    slots := items.foldl (fun t it => Tbl.set t it.slot ⟨it.key, it.attr, it.part, it.refine, false, some id⟩) c.slots }
  else { c with weeds := c.weeds ++ (items.filter fun it => it.slot ≠ noSlot).map fun it => ⟨it.part, 0, false, it.slot, some id⟩ }

/-- Where entry `k` of a chain lies. -/
def entryAddr (chain : List Seg) (cap size k : Nat) : Nat := ((chain[k / cap]?).map (·.addr)).getD 0 + 64 + k % cap * size

/-- What COPY of flight `id` wrote, line by line: each entry in its segment, each slot's key, attribute word and partition byte. -/
def copyLines (id n : Nat) (c : Coll) : List Dirty :=
  let mine {α : Type} (l : List α) (part : α → Nat) (held : α → Option Nat) : List (α × Nat) :=
    (l.map part).eraseDups.flatMap fun p => ((l.filter (part · == p)).zipIdx).filter fun x => held x.1 == some id
  let arr (l : List Nat) (per width at_ k : Nat) : Nat := (l[k / per]?).getD 0 + at_ + width * (k % per)
  (mine c.seeds (·.part) (·.held)).map (fun x =>
    ⟨entryAddr (chainOf c false x.1.part) (seedCap c.info.projDims) (seedBytes c.info.projDims) x.2, seedBytes c.info.projDims, .seed, n, x.1.slot, id⟩) ++
  (mine c.weeds (·.part) (·.held)).map (fun x => ⟨entryAddr (chainOf c true x.1.part) weedCap 16 x.2, 16, .weed, n, x.1.slot, id⟩) ++
  (c.slots.filter fun x => x.2.held == some id).flatMap fun x =>
    [⟨arr c.arrays.1 keyExtent 8 0 x.1, 8, .key, n, x.1, id⟩, ⟨arr c.arrays.2 attrExtent 8 0 x.1, 8, .attr, n, x.1, id⟩,
     ⟨arr c.arrays.2 attrExtent 1 (8 * attrExtent) x.1, 1, .part, n, x.1, id⟩]

/-- A batch of flight `id` is over: what COPY prepared for it and its commit did not use is released, entries that were written stay, invalid. -/
def settleCopy (id : Nat) (committed : Bool) (c : Coll) : Coll :=
  { c with
    seeds := if committed then c.seeds.map fun e => if e.held = some id then { e with held := none } else e else c.seeds.filter (·.held ≠ some id)
    weeds := if committed then c.weeds.map fun e => if e.held = some id then { e with held := none } else e else c.weeds.filter (·.held ≠ some id)
    slots := c.slots.filter fun x => x.2.held ≠ some id }

/-- A collection as committed batches left it. -/
def Coll.committed (c : Coll) : Coll :=
  { c with seeds := c.seeds.filter (·.held.isNone), weeds := c.weeds.filter (·.held.isNone), slots := c.slots.filter (·.2.held.isNone) }

/-! ## The commit (R215, R216) -/

/-- What a commit has done so far; `seeds` and `weeds` are the entries it made valid. -/
structure CommitAcc where
  coll : Coll
  hist : List (Nat × Nat × Option Nat)
  done : List UpdItem
  seeds : List SeedEntry
  weeds : List WeedEntry
  first : Nat
  full : Bool
  mapFull : Bool

/-- A slot's deletion in the slot history: one with no entry gets one whose insert epoch is 0 (R225). -/
def histDelete (h : List (Nat × Nat × Option Nat)) (k ep : Nat) : List (Nat × Nat × Option Nat) :=
  if h.any (·.1 == k) then h.map fun e => if e.1 = k then (k, e.2.1, some ep) else e else h ++ [(k, 0, some ep)]

/-- The LIVE entry of a key becomes DELETED. -/
def killKey (m : Tbl (List KeyEntry)) (key : Quad) : Tbl (List KeyEntry) :=
  m.map fun b => (b.1, b.2.map fun e => if e.key = key ∧ e.live = true then { e with live := false } else e)

def liveOf (c : Coll) (key : Quad) : Option KeyEntry := keyLive c.keymap (keyHome key c.info.buckets) c.info.buckets key

def partOfSlot (c : Coll) (slot : Nat) : Nat :=
  match Tbl.get c.slots slot with
  | some d => d.part
  | none => 0

/-- The outcome of an item against the key map as it stands (R216). -/
def itemOutcome (c : Coll) (ins ifAbs : Bool) (earlier : List UpdItem) (key : Quad) : Nat :=
  if earlier.any (·.key == key) then 4
  else
    match liveOf c key, ins with
    | none, true => 0
    | none, false => 3
    | some _, true => if ifAbs then 2 else 1
    | some _, false => 0

/-- The first entry that `p` picks becomes `e`; without one, `e` is appended. -/
def putFirst {α : Type} (p : α → Bool) (e : α) : List α → List α
  | [] => [e]
  | x :: r => if p x then e :: r else x :: putFirst p e r

/-- A seedbed entry becomes valid: the one that COPY of flight `id` wrote for its slot, or, without a COPY (a mirror's follower), a new one. -/
def putSeed (id : Option Nat) (e : SeedEntry) (l : List SeedEntry) : List SeedEntry :=
  match id with
  | none => l ++ [e]
  | some _ => l.map fun x => if x.held = id ∧ x.slot = e.slot then e else x

/-- A weed entry becomes valid: the one that COPY prepared for its slot, or a new one from the batch's reservation. -/
def putWeed (id : Option Nat) (e : WeedEntry) (l : List WeedEntry) : List WeedEntry :=
  putFirst (fun x => id.isSome && x.held == id && x.slot == e.slot) e l

/-- A LIVE item is deleted at epoch `ep`. -/
def deleteLive (id : Option Nat) (n ep : Nat) (key : Quad) (a : CommitAcc) : CommitAcc :=
  match liveOf a.coll key with
  | none => a
  | some e =>
    let w : WeedEntry := ⟨partOfSlot a.coll e.slot, ep, true, e.slot, none⟩
    { a with
      coll := { a.coll with keymap := killKey a.coll.keymap key, weeds := putWeed id w a.coll.weeds }
      weeds := a.weeds ++ [w], hist := histDelete a.hist (histKey n e.slot) ep }

/-- An item is inserted at epoch `ep` with the collection's next sequence number; its array entries are there since COPY. -/
def insertLive (id : Option Nat) (n ep : Nat) (it : UpdItem) (a : CommitAcc) : CommitAcc :=
  let c := a.coll
  match keyInsert c.keymap (keyHome it.key c.info.buckets) c.info.buckets ⟨it.key, it.slot, true⟩ with
  | none => { a with full := true, mapFull := true }
  | some m =>
    let e : SeedEntry := ⟨it.part, c.nextSeq, ep, true, it.slot, it.nc, it.nf, it.coarse, none⟩
    { a with
      coll := { c with
        keymap := m, nextSeq := c.nextSeq + 1, seeds := putSeed id e c.seeds
        slots := if id.isSome then Tbl.upd c.slots it.slot fun d => { d with held := none }
          else Tbl.set c.slots it.slot ⟨it.key, it.attr, it.part, it.refine, false, none⟩ }
      seeds := a.seeds ++ [e], hist := a.hist ++ [(histKey n it.slot, ep, none)], first := if a.first = 0 then c.nextSeq else a.first }

/-- One item with its outcome `st`. -/
def commitItem (id : Option Nat) (n ep : Nat) (ins : Bool) (a : CommitAcc) (it : UpdItem) (st : Nat) : CommitAcc :=
  let b := if ins then (if st = 1 then insertLive id n ep it (deleteLive id n ep it.key a) else if st = 0 then insertLive id n ep it a else a)
    else if st = 0 then deleteLive id n ep it.key a else a
  { b with done := b.done ++ [{ it with status := st }] }

/-- The items of a batch in order; `given` are the outcomes that a source has decided (R499). -/
def commitItems (id : Option Nat) (n ep : Nat) (ins ifAbs : Bool) (given : Option (List Nat)) (a : CommitAcc) : List UpdItem → CommitAcc
  | [] => a
  | it :: r =>
    let st := match given with
      | some l => l.headD 5
      | none => itemOutcome a.coll ins ifAbs a.done it.key
    commitItems id n ep ins ifAbs (given.map List.tail) (commitItem id n ep ins a it st) r

/-- DURABLE_EPOCH (R234): below the epoch of every batch whose programs are outstanding, and below STEP_COUNT. -/
def setDurable (s : State) : State :=
  let e := s.mem.flash.journal.foldl (fun e j => if j.programmed && j.recsLeft.isEmpty then e else min e (j.epoch - 1)) (s.now - 1)
  wr64 s Reg.sched.DURABLE_EPOCH e

/-- A collection's content after an action of the update engine, its chains and arrays in the places that they need. -/
def putColl (s : State) (n : Nat) (c : Coll) : State :=
  { s with store := { s.store with colls := Tbl.set s.store.colls n (fitPlaces s (heapOf s) c) } }

/-- A commit's effect on the node (R215 parts 1 to 4), or `none` where a check of part 4 fails; `id` is the flight whose COPY prepared the batch. -/
def commitTo (s : State) (id : Option Nat) (n ep : Nat) (ins ifAbs : Bool) (seq : Option Nat) (given : Option (List Nat)) (items : List UpdItem) :
    Option (State × List UpdItem × Nat) × Bool :=
  match Tbl.get s.store.colls n with
  | none => (none, false)
  | some c =>
    let c0 := match seq with
      | some q => if q = 0 then c else { c with nextSeq := q }
      | none => c
    let a := commitItems id n ep ins ifAbs given ⟨c0, s.sched.hist, [], [], [], 0, false, false⟩ items
    let c1 := match id with
      | some f => settleCopy f true a.coll
      | none => a.coll
    let s1 := putColl { s with sched := { s.sched with hist := a.hist } } n c1
    let tooMany := ins && (!roomFor s1 c.tenant 0 0 || 4000000000 < nodeItems s1)
    if a.full ∨ tooMany = true then (none, a.mapFull)
    else
      let new := a.done.filter fun i => ins && i.status ≤ 1
      let j : Journal :=
        { batch := s.mem.flash.batchNo + 1, coll := n, epoch := ep, seeds := a.seeds, weeds := a.weeds
          slots := new.map fun i => (i.slot, ⟨i.key, i.attr, i.part, i.refine, false, none⟩), programmed := false, recsLeft := new.map (·.slot) }
      let s2 := updFlash (dirtyMap s1 n c.keymap) fun f => { f with journal := f.journal ++ [j], batchNo := f.batchNo + 1 }
      (some (setDurable (setUse s2 c.tenant), a.done, a.first), false)

/-! ## Use of the seedbed, weed lists and slot history (R222, R226) -/

/-- SEED_USED and WEED_USED: entries written, valid or not, and the reservations of batches that have not ended. -/
def seedUsed (s : State) : Nat :=
  sumOf s.store.colls (fun p => (p.2.seeds.filter (·.held.isNone)).length) + sumOf s.sched.flights fun f => f.resv.seeds
def weedUsed (s : State) : Nat :=
  sumOf s.store.colls (fun p => (p.2.weeds.filter (·.held.isNone)).length) + sumOf s.sched.flights fun f => f.resv.weeds
def histUsed (s : State) : Nat := s.sched.hist.length + sumOf s.sched.flights fun f => f.resv.hist

/-- What a batch reserves at admission (R214, R226). -/
def resvOf (d : Desc) : Resv :=
  let n := d.items
  if d.isInsert then ⟨n, if d.ifAbsent then 0 else n, if d.ifAbsent then n else 2 * n⟩ else ⟨0, n, n⟩

def setSeedHigh (s : State) : State := setCond s (pageBase .sched 0) 8 (48000000 ≤ seedUsed s)

/-- A batch ended INDEX_FULL, SEEDBED_FULL or WEED_FULL. -/
def countRefused (s : State) (st : Nat) : State :=
  if st = ST_INDEX_FULL then count s Reg.sched.UPD_REFUSED
  else if st = ST_SEEDBED_FULL ∨ st = ST_WEED_FULL then raiseEvt (count s Reg.sched.UPD_REFUSED) (pageBase .sched 0) 9
  else s

/-! ## Snapshots (R225, R228) -/

/-- The version that an admission at `a` binds: the newest of a lower epoch, if it is still kept. -/
def Coll.bind (c : Coll) (a : Nat) : Option Version := c.versions.find? fun v => v.epoch < a && v.upTo.all (a ≤ ·)

/-- HORIZON (R225): the lowest admission epoch of any running flight or part; a part counts from its pin on (R251), a transplant, which runs as a
background flight, with its cut until it is published or ends (R229, R230, log entry 147), and row batches do not count (R298). -/
def horizon (s : State) : Nat :=
  match ((s.sched.flights ++ s.sched.parts).filter fun f => f.kind.onColl).map (·.epoch) ++ s.store.colls.flatMap (fun p => p.2.tps.map (·.cut)) with
  | [] => s.now
  | a :: r => r.foldl min a

/-- The graft snapshot of an object of this node (R508). -/
def graftSnap (s : State) (obj : Nat) : Option Nat :=
  s.faults.pairs.findSome? fun p => if p.2.role = 1 ∧ p.2.obj = obj then p.2.snap else none

/-- A version that something still reads. -/
def versionHeld (s : State) (n : Nat) (c : Coll) (v : Version) : Bool :=
  (s.sched.flights ++ s.sched.parts).any (fun f => f.kind.onColl && f.obj == n && f.bound == v.epoch) ||
  c.tps.any (fun t => (c.bind t.cut).map (·.epoch) == some v.epoch) ||
  (match graftSnap s n with
    | some h => (c.bind h).map (·.epoch) == some v.epoch
    | none => false)

/-- Whole leading segments that are folded are freed; how many. -/
def dropSegs {α : Type} (cap : Nat) (part : α → Nat) (folded : α → Bool) (p : Nat) (l : List α) : List α × Nat :=
  let mine := l.filter (part · == p)
  let k := foldedSegs cap folded mine
  (l.filter (part · ≠ p) ++ mine.drop (k * cap), k)

def shiftBad (b : List (Nat × Bool × Nat)) (p : Nat) (weed : Bool) (k : Nat) : List (Nat × Bool × Nat) :=
  b.filterMap fun x => if x.1 = p ∧ x.2.1 = weed then (if x.2.2 < k then none else some (p, weed, x.2.2 - k)) else some x

/-- The segments of one partition that no kept version reads are freed. -/
def freePart (c : Coll) (p : Nat) : Coll :=
  let fold := (c.versions.map fun v => v.fold.getD p 0).foldl min ((c.versions.head?.map fun v => v.fold.getD p 0).getD 0)
  let (sd, k) := dropSegs (seedCap c.info.projDims) (·.part) (SeedEntry.folded fold) p c.seeds
  let (wd, j) := dropSegs weedCap (·.part) (WeedEntry.folded fold) p c.weeds
  { c with
    seeds := sd, weeds := wd, badSegs := shiftBad (shiftBad c.badSegs p false k) p true j
    segs := c.segs.filter (·.part ≠ p) ++ (chainOf c false p).drop k ++ (chainOf c true p).drop j }

/-- Deleted slots whose weed entry a publication below HORIZON has folded (R228). -/
def freeableSlots (h : Nat) (c : Coll) : List Nat := ((c.dying.filter fun x => decide (x.2 < h)).map (·.1)).eraseDups

def freeSlot (c : Coll) (k : Nat) : Coll :=
  { c with
    slots := Tbl.del c.slots k
    keymap := (c.keymap.map fun b => (b.1, b.2.filter fun e => e.slot ≠ k || e.live)).filter fun b => !b.2.isEmpty }

/-- Slots that a LIVE entry names are not freed through an old weed entry of a former item. -/
def deadSlot (c : Coll) (k : Nat) : Bool := (Tbl.get c.slots k).isSome && !(c.keymap.any fun b => b.2.any fun e => e.slot == k && e.live)

/-- What retention frees of a collection at an open instant (R228). -/
def freeColl (s : State) (n : Nat) (c : Coll) : Coll :=
  let slots := (freeableSlots (horizon s) c).filter (deadSlot c)
  let c1 := slots.foldl freeSlot { c with dying := c.dying.filter fun x => decide (horizon s ≤ x.2) }
  let c2 := match c1.versions with
    | [] => c1
    | v :: r => { c1 with versions := v :: r.filter (versionHeld s n c1) }
  ((c2.weeds.map (·.part) ++ c2.seeds.map (·.part)).eraseDups).foldl freePart c2

/-- A slot history entry drops once every epoch it holds is below HORIZON. -/
def histKept (h : Nat) (e : Nat × Nat × Option Nat) : Bool :=
  match e.2.2 with
  | none => h ≤ e.2.1
  | some d => h ≤ e.2.1 || h ≤ d

/-- Retention at an open instant: superseded versions, folded segments, deleted slots, slot history. Freed blocks are invalidated in every gallery
store, so that they may be allocated again (R322). -/
def freeOld (s : State) : State :=
  let s1 := { s with store := { s.store with colls := s.store.colls.map fun (p : Nat × Coll) => (p.1, freeColl s p.1 p.2) } }
  let s2 := { s1 with sched := { s1.sched with hist := s1.sched.hist.filter (histKept (horizon s)) } }
  let s3 := ((heapOf s).filter fun x => !(heapOf s1).contains x).foldl invalRange s2
  let s4 := s.store.colls.foldl (fun t p => dirtyMap t p.1 p.2.keymap) s3
  setSeedHigh ((s.store.colls.map (·.2.tenant)).eraseDups.foldl setUse s4)

/-! ## Rebuilding a partition (R230, R231) -/

/-- A record with its slot and norms. -/
structure Rec where
  record : Coarse
  slot : Nat
  norm : Word × Word

/-- A rebuilt child: its centroid in its parent, its records, the saturations that quantising new centroids counted (R130), its blocks; paths hold the
child indices below it. -/
structure Piece where
  cent : Coarse
  records : Nat
  sat : Nat
  nodes : List NodeBlk
  leaves : List LeafBlk

/-- The byte of a path at a level. -/
def pathAt (level : Nat) (path : Word) : Nat := (path.toNat >>> (32 - 8 * level)) % 256

def setPath (level i : Nat) (path : Word) : Word :=
  (path &&& ~~~(BitVec.ofNat 32 (0xFF <<< (32 - 8 * level)))) ||| BitVec.ofNat 32 (i <<< (32 - 8 * level))

/-- A piece at child index `i` of a node at `level`: blocks whose path changes are written anew with epoch `t`. -/
def Piece.moveTo (t level i : Nat) (p : Piece) : Piece :=
  { p with
    nodes := p.nodes.map fun n => if pathAt level n.path = i then n else { n with path := setPath level i n.path, epoch := t, ok := (true, true) }
    leaves := p.leaves.map fun l => if pathAt level l.path = i then l else { l with path := setPath level i l.path, epoch := t, ok := true } }

/-- What a transplant works with: publication epoch, excluded slots, placed items by leaf path, metric L2, the record that stays (R231). -/
structure Rebuild where
  t : Nat
  gone : List Nat
  placed : List (Word × Rec)
  l2 : Bool
  keep : Option (Word × Nat)

def leafRecs (l : LeafBlk) : List Rec := ((l.recs.zip l.slots).zipIdx).map fun x => ⟨x.1.1, x.1.2, l.norms.getD x.2 (0, 0)⟩

/-- What a rebuilt leaf holds: kept records in position order, then placed items in order of SEQ. -/
def newRecs (r : Rebuild) (l : LeafBlk) : List Rec :=
  ((leafRecs l).filter fun x => !r.gone.contains x.slot || r.keep == some (l.path, x.slot)) ++
    (r.placed.filter (·.1 == l.path)).map (·.2)

def mkLeaf (r : Rebuild) (path : Word) (rs : List Rec) : LeafBlk :=
  { path := path, epoch := r.t, recs := rs.map (·.record), slots := rs.map (·.slot), norms := if r.l2 then rs.map (·.norm) else [],
    addr := 0, ok := true }

/-- The spread of a dimension over values, exactly. -/
def spread (vs : List Word) : Dy :=
  match finites (vs.map f32) with
  | [] => Dy.zero
  | a :: r => ((r.foldl Dy.max a)).sub (r.foldl Dy.min a)

/-- The lowest dimension of largest spread. -/
def splitDim (rs : List Rec) : Nat :=
  let vals := rs.map (·.record.values)
  let dims := (rs.head?.map (·.record.codes.length)).getD 0
  ((List.range dims).foldl (fun (b : Nat × Dy) j =>
    let d := spread (vals.map fun v => v.getD j 0)
    if b.2.lt d then (j, d) else b) (0, Dy.zero)).1

/-- The centroid of a part: the mean of its records' values per dimension, quantised under R130, with its saturations. -/
def centroidOf (rs : List Rec) : Coarse × Nat :=
  let vals := rs.map (·.record.values)
  let dims := (rs.head?.map (·.record.codes.length)).getD 0
  coarseRecord ((List.range dims).map fun j => f32div ((vals.map fun v => v.getD j 0).foldl f32add 0) (f32OfInt rs.length))

/-- The parts of a leaf of more than 4,096 records (R231). -/
def splitParts (rs : List Rec) : List (List Rec) :=
  let n := rs.length
  let m := ceilDiv n 4096
  let j := splitDim rs
  let sorted := sortBy (fun a b : Rec => f32lt (a.record.values.getD j 0) (b.record.values.getD j 0)) rs
  (List.range m).map fun i => (sorted.drop (i * n / m)).take ((i + 1) * n / m - i * n / m)

/-- A leaf of the partition: the pieces that stay at its place and those appended after the parent's other children. -/
def rebuildLeaf (r : Rebuild) (cent : Coarse) (l : LeafBlk) : List Piece × List Piece :=
  let rs := newRecs r l
  if rs.map (·.slot) = l.slots then ([⟨cent, rs.length, 0, [], [l]⟩], [])
  else if rs.isEmpty then ([], [])
  else if rs.length ≤ 4096 then ([⟨cent, rs.length, 0, [], [mkLeaf r l.path rs]⟩], [])
  else
    let ps := (splitParts rs).map fun p => (⟨(centroidOf p).1, p.length, (centroidOf p).2, [], [mkLeaf r l.path p]⟩ : Piece)
    (ps.take 1, ps.drop 1)

/-- A node's pieces in order at their new indices; `none` where they pass 256. -/
def assemble (r : Rebuild) (n : NodeBlk) (kids : List Piece) : Option Piece :=
  if 256 < kids.length then none
  else
    let ks := kids.zipIdx.map fun x => x.1.moveTo r.t n.level x.2
    let new : NodeBlk := { n with cents := ks.map (·.cent), kids := ks.map (·.records) }
    let touched := ks.any fun k => k.leaves.any (·.epoch == r.t) || k.nodes.any (·.epoch == r.t)
    let blk := if touched ∨ n.kids.length ≠ ks.length then { new with epoch := r.t, ok := (true, true) } else n
    some ⟨default, sumOf ks (·.records), sumOf ks (·.sat), blk :: ks.flatMap (·.nodes), ks.flatMap (·.leaves)⟩

/-- The subtree of a node at `level`, `fuel` levels above the leaves; children left empty are dropped; `none` when a split does not fit. -/
def rebuildNode (r : Rebuild) (v : Version) (level : Nat) (path : Word) : Nat → Option (List Piece)
  | 0 => some []
  | fuel + 1 =>
    match v.node level path with
    | none => some []
    | some n =>
      let idx := n.cents.zipIdx
      let kids : Option (List Piece) :=
        if fuel = 0 then
          let ps := idx.filterMap fun x => (v.leaf (childPath path level x.2)).map (rebuildLeaf r x.1)
          some (ps.flatMap (·.1) ++ ps.flatMap (·.2))
        else
          idx.foldl (fun acc x =>
            match acc, rebuildNode r v (level + 1) (childPath path level x.2) fuel with
            | some l, some ps => some (l ++ ps.map fun p => { p with cent := x.1 })
            | _, _ => none) (some [])
      match kids with
      | none => none
      | some [] => some []
      | some ks => (assemble r n ks).map fun p => [p]

/-- The fold set's items of a partition (R230). -/
def foldSeeds (c : Coll) (v : Version) (p cut : Nat) : List SeedEntry :=
  c.seeds.filter fun e => e.part == p && e.valid && e.epoch < cut && v.fold.getD p 0 ≤ e.epoch
def foldWeeds (c : Coll) (v : Version) (p cut : Nat) : List WeedEntry :=
  c.weeds.filter fun e => e.part == p && e.valid && e.epoch < cut && v.fold.getD p 0 ≤ e.epoch

/-- The leaf that an item descends to with a beam of 1 from the partition node. -/
def placeLeaf (k1 : Kernel) (i : CollInfo) (v : Version) (q : List QGroup) (level : Nat) (path : Word) : Nat → Word
  | 0 => path
  | fuel + 1 =>
    match v.node level path with
    | none => path
    | some n =>
      match (sortBy Cand.less (childCands (centKey k1 i.metric q) n)).head? with
      | none => path
      | some c => placeLeaf k1 i v q (level + 1) c.path fuel

def partPath (p : Nat) : Word := BitVec.ofNat 32 (p <<< 24)

/-- Placed items in ascending SEQ with their leaves. -/
def placeItems (s : State) (c : Coll) (v : Version) (t : Transplant) (gone : List Nat) : List (Word × Rec) :=
  let es := sortBy (fun a b : SeedEntry => a.seq < b.seq) ((foldSeeds c v t.part t.cut).filter fun e => !gone.contains e.slot)
  es.map fun e =>
    (placeLeaf (kernelOf s c.info.profile 1) c.info v (placement s c.info e.record) 2 (partPath t.part) (c.info.depth - 1), ⟨e.record, e.slot, (e.nc, e.nf)⟩)

/-- The new blocks of a rebuilt partition, those of epoch `t`, take their places (R144), leaves with Mladty's choices in order; `none` without room. -/
def placeNew (s : State) (i : CollInfo) (t : Nat) (choices : List (Fin 8)) (ns : List NodeBlk) (ls : List LeafBlk) :
    Option (List NodeBlk × List LeafBlk) :=
  let nodes := ns.foldl (fun (a : Option (List NodeBlk × Heap)) n => a.bind fun a =>
    if n.epoch ≠ t then some (a.1 ++ [n], a.2)
    else (placePair s a.2 true (nodeBytesOf i n)).map fun p => (a.1 ++ [{ n with addrs := p }], pairSpans (nodeBytesOf i n) p ++ a.2))
    (some ([], heapOf s))
  (nodes.bind fun x => (ls.foldl (fun (a : Option (List LeafBlk × Heap × List (Fin 8))) l => a.bind fun a =>
    if l.epoch ≠ t then some (a.1 ++ [l], a.2)
    else (placeIn s a.2.1 leafStackGroups (a.2.2.head?.map (·.val)) (leafBytesOf i l)).map fun p =>
      (a.1 ++ [{ l with addr := p }], (p, leafBytesOf i l) :: a.2.1, a.2.2.tail)) (some ([], x.2, choices))).map fun y => (x.1, y.1))

/-- The first leaf of a partition and its record at the lowest position (R231). -/
def firstRecord (v : Version) (p : Nat) : Option (Word × Nat) :=
  ((sortBy (fun a b : LeafBlk => a.path < b.path) (v.leaves.filter fun l => partOf l.path == p)).head?).bind fun l =>
    l.slots.head?.map fun k => (l.path, k)

/-- The rebuild of a transplant: its piece and carried weed slots; `none` when it ends BLOCKED (R232). -/
def rebuildPart (s : State) (c : Coll) (v : Version) (t : Transplant) : Option (Piece × List Nat) :=
  let gone := (foldWeeds c v t.part t.cut).map (·.slot)
  let r : Rebuild := ⟨t.pub, gone, placeItems s c v t gone, c.info.l2, none⟩
  match rebuildNode r v 2 (partPath t.part) (c.info.depth - 1) with
  | none => none
  | some (p :: _) => some (p, [])
  | some [] =>
    let keep := firstRecord v t.part
    match rebuildNode { r with keep := keep } v 2 (partPath t.part) (c.info.depth - 1) with
    | some (p :: _) => some (p, (keep.map (·.2)).toList)
    | _ => none

/-- What the conversions of a transplant count: saturations and NaN elements of the placement vectors (R220, R230). -/
def placeCounts (s : State) (c : Coll) (v : Version) (t : Transplant) : Nat × Nat :=
  let gone := (foldWeeds c v t.part t.cut).map (·.slot)
  let outs := ((foldSeeds c v t.part t.cut).filter fun e => !gone.contains e.slot).map fun e => placementOut s c.info e.record
  (sumOf outs outSat, sumOf outs outNan)

/-- SAT_TOTAL and NAN_TOTAL of a transplant's gallery (R101, R130): which of its tiles converted is open (log entry 17). -/
def tpStats (s : State) (n : Nat) (t : Transplant) (sat nan : Nat) : State :=
  (List.range 16).foldl (fun u k =>
    let tile := 16 * t.gallery + k
    let u1 := if sat = 0 then u else countBy u (Reg.tile.SAT_TOTAL tile) (Config.tileShare (n * 256 + t.part) t.cut tile sat)
    if nan = 0 then u1 else countBy u1 (Reg.tile.NAN_TOTAL tile) (Config.tileShare (n * 256 + t.part) t.cut tile nan)) s

/-- The nodes that a transplant of partition `p` reads: those of the partition. -/
def partNodes (v : Version) (p : Nat) : List NodeBlk := v.nodes.filter fun n => 2 ≤ n.level && partOf n.path == p

/-! ## Transplants (R229 to R233, R241, R242, R330) -/

/-- n_s, n_w and the oldest epoch of a partition's unfolded entries. -/
def partLoad (c : Coll) (p s : Nat) : Nat × Nat × Option Nat :=
  match c.versions.head? with
  | none => (0, 0, none)
  | some v =>
    let sd := foldSeeds c v p s
    let wd := foldWeeds c v p s
    let es := sd.map (·.epoch) ++ wd.map (·.epoch)
    (sd.length, wd.length, match es with | [] => none | a :: r => some (r.foldl min a))

def eligiblePart (s : State) (c : Coll) (p : Nat) : Bool :=
  let (ns, nw, eo) := partLoad c p s.now
  let thr (a : Nat) : Nat := max 1 (rd s a).toNat
  let age := (rd s Reg.sched.SEED_AGE).toNat
  thr Reg.sched.SEED_THRESH ≤ ns || thr Reg.sched.WEED_THRESH ≤ nw ||
  (0 < ns + nw && age ≠ 0 && (match eo with | some e => e + age ≤ s.now | none => false)) ||
  (48000000 ≤ seedUsed s && 0 < ns)

def partBlocked (c : Coll) (p : Nat) : Bool := (c.versions.head?.map fun v => v.blocked.getD p false).getD false || c.tps.any (fun t => t.part == p) ||
  c.blockNext.contains p

/-- The role of an object in a mirror pair, 0 for none (R496). -/
def pairRole (s : State) (obj : Nat) : Nat :=
  match s.faults.pairs.find? fun p => p.2.role ≠ 0 && p.2.obj == obj with
  | some p => p.2.role
  | none => 0

/-- Eligible partitions, most entries first, then collection, then partition. -/
def eligibleParts (s : State) : List (Nat × Nat) :=
  let all := s.store.colls.flatMap fun p =>
    if p.2.life = .serving ∧ pairRole s p.1 ≠ 2 then
      ((List.range 256).filter fun k => !partBlocked p.2 k && eligiblePart s p.2 k).map fun k =>
        let l := partLoad p.2 k s.now
        (l.1 + l.2.1, p.1, k)
    else []
  (sortBy (fun a b : Nat × Nat × Nat => a.1 > b.1 || (a.1 == b.1 && (a.2.1 < b.2.1 || (a.2.1 == b.2.1 && a.2.2 < b.2.2)))) all).map (·.2)

def partBytes (c : Coll) (p : Nat) : Nat :=
  match c.versions.head? with
  | none => 0
  | some v =>
    sumOf (v.leaves.filter fun l => partOf l.path == p) (leafBytesOf c.info) +
      2 * sumOf (v.nodes.filter fun n => 2 ≤ n.level && partOf n.path == p) (nodeBytesOf c.info)

/-- Both conditions of R330. -/
def tpRoom (s : State) (c : Coll) (p : Nat) : Bool :=
  roomFor s c.tenant ((partLoad c p s.now).1 * 2 * (recordBytes c.info.projDims + 13)) 0 && partBytes c p ≤ reserveFree s

def updColl (s : State) (n : Nat) (f : Coll → Coll) : State := { s with store := { s.store with colls := Tbl.upd s.store.colls n f } }

/-- Transplants that run, over all collections: each from its cut to its publication, since the starts depend only on commits (R229). -/
def tpRunning (s : State) : Nat := sumOf s.store.colls fun p => p.2.tps.length

def startTp (s : State) (n p cut pub gal : Nat) : State :=
  updColl s n fun c => { c with tps := c.tps ++ [⟨p, cut, pub, false, false, [], [], [], gal⟩] }

/-- The gallery that carries the next transplant: the choice given, else the first in service. -/
def carrierOf (s : State) (cs : List (Fin 50)) : Nat :=
  match cs.head? with
  | some g => g.val
  | none => (inServiceList s).headD 0

/-- Transplants start in order while places are free; TP_NOCAP counts those R330 does not allow. -/
def startTps (s : State) (free : Nat) (cs : List (Fin 50)) : List (Nat × Nat) → State
  | [] => s
  | (n, p) :: r =>
    match Tbl.get s.store.colls n, free with
    | none, _ => startTps s free cs r
    | _, 0 => s
    | some c, k + 1 =>
      if tpRoom s c p then startTps (startTp s n p s.now (s.now + rdf s Reg.sched.TP_LAG 15 0) (carrierOf s cs)) k cs.tail r
      else startTps (count s Reg.ft.TP_NOCAP) (k + 1) cs r

/-- TRANSPLANT_GRID (R229). -/
def transplantGrid (s : State) (cs : List (Fin 50)) : State :=
  let max_ := max 1 (rdf s Reg.sched.TP_CTRL 4 1)
  if s.step.valid && s.now % max 1 (rdf s Reg.sched.TP_GRID 15 0) == 0 && testBit (rd s Reg.sched.TP_CTRL) 0 then
    startTps s (max_ - tpRunning s) cs (eligibleParts s)
  else s

def setTp (p : Nat) (t : Transplant) (c : Coll) : Coll := { c with tps := c.tps.map fun x => if x.part = p then t else x }
def dropTp (p : Nat) (c : Coll) : Coll := { c with tps := c.tps.filter (·.part ≠ p) }

/-- A transplant's rebuild is done: its blocks are in their places and flushed, its new epoch record is written. A store holds none of its lines
afterwards, and how many the flush wrote is free (R230, R320). -/
def sealTp (s : State) (n : Nat) (t : Transplant) (p : Piece) (carried : List Nat) (ns : List NodeBlk) (ls : List LeafBlk) (nan : Nat) (sat : Nat) :
    State :=
  let (w, s1) := freshWord (tpStats s n t (sat + p.sat) nan)
  countBy (updColl s1 n (setTp t.part { t with sealed := true, nodes := ns, leaves := ls, carried := carried })) (Reg.gallery.FLUSH_LINES t.gallery) w.toNat

/-- TRANSPLANT_SEAL: the rebuild, then both copies of the successor record; or the end of a transplant that cannot split (R232) or whose
collection is dropped (R241). A transplant has yielded its tiles between BG_FENCE and the open instant, and seals nothing then (R71). Its reads of
node headers follow R140: each failing copy counts, and where both copies of a node fail, or HBM has no room for the new blocks, it cannot seal
(DESIGN CHOICE, log entry 128). -/
def transplantSeal (s : State) (n p : Nat) (choices : List (Fin 8)) : State :=
  match Tbl.get s.store.colls n with
  | none => s
  | some c =>
    if s.step.bgHold then s
    else
    match c.tps.find? fun t => t.part == p && !t.sealed with
    | none => s
    | some t =>
      if c.life ≠ .serving then updColl s n (dropTp p)
      else
        match c.bind t.cut with
        | none => s
        | some v =>
          let s1 := trellisFails s (sumOf (partNodes v p) NodeBlk.fails)
          if (partNodes v p).all NodeBlk.readable = false then s1
          else
            match rebuildPart s c v t with
            | none => raiseEvt (count (updColl s1 n fun c => { dropTp p c with blockNext := c.blockNext ++ [p] }) Reg.sched.TP_BLOCKED) (pageBase .sched 0) 10
            | some (x, cw) =>
              match placeNew s c.info t.pub choices x.nodes x.leaves with
              | none => s1
              | some (ns, ls) => sealTp s1 n t x cw ns ls (placeCounts s c v t).2 (placeCounts s c v t).1

def execTransplantSeal (coll : Fin 4096) (part : Fin 256) (leafStacks : List (Fin 8)) (s : State) : Host.Outcome State Fault Refusal :=
  .next (transplantSeal s coll.val part.val leafStacks)

/-- One transplant's blocks and fold in a version. -/
def applyTp (v : Version) (t : Transplant) : Version :=
  let n := sumOf t.leaves fun l => l.recs.length
  { v with
    leaves := v.leaves.filter (fun l => partOf l.path ≠ t.part) ++ t.leaves
    nodes := (v.nodes.filter fun x => x.level == 1 || partOf x.path ≠ t.part).map (fun x =>
      if x.level = 1 then { x with kids := updAt x.kids t.part fun _ => n } else x) ++ t.nodes
    fold := updAt v.fold t.part fun _ => t.cut }

def recount (v : Version) : Version := { v with items := sumOf v.leaves fun l => l.recs.length }

/-- A new root is a new block, with its own place and both copies good. -/
def newRoot (e : Nat) (a : Nat × Nat) (v : Version) : Version :=
  { v with nodes := v.nodes.map fun x => if x.level = 1 then { x with epoch := e, addrs := a, ok := (true, true) } else x }

/-- Places of a new root and record, for each version that a publication writes. -/
abbrev RootPlace := (Nat × Nat) × (Nat × Nat)

/-- The versions after a publication with epoch `t`, newest first, each with its places: a late one also reaches the versions published since. -/
def publishInto (ts : List Transplant) (blocked : List Nat) (t : Nat) : List RootPlace → List Version → List Version
  | q :: ps, v :: r =>
    let mark (x : Version) : Version := { x with blocked := blocked.foldl (fun b p => updAt b p fun _ => true) x.blocked }
    if t ≤ v.epoch then { newRoot v.epoch q.1 (recount (mark (ts.foldl applyTp v))) with addrs := q.2 } :: publishInto ts blocked t ps r
    else { newRoot t q.1 (recount (mark (ts.foldl applyTp { v with epoch := t, ok := (true, true), upTo := none }))) with addrs := q.2, prev := v.addrs.1 } :: { v with upTo := some t } :: r
  | _, l => l

/-- Places for the roots and records of `k` versions. -/
def rootPlaces (s : State) (n : Nat) (h : Heap) : Nat → List RootPlace
  | 0 => []
  | k + 1 =>
    match placePair s h true n with
    | none => []
    | some a =>
      match placePair s (pairSpans n a ++ h) false 12288 with
      | none => []
      | some b => (a, b) :: rootPlaces s n (pairSpans 12288 b ++ pairSpans n a ++ h) k

/-- The slots whose weed entries a transplant that is published now folds, with the publication epoch. -/
def nowDying (c : Coll) (t : Nat) (x : Transplant) : List (Nat × Nat) :=
  let fold := (c.versions.head?.map fun v => v.fold.getD x.part 0).getD 0
  (c.weeds.filter fun w => w.valid && w.part == x.part && decide (fold ≤ w.epoch ∧ w.epoch < x.cut) && !x.carried.contains w.slot).map
    fun w => (w.slot, t)

/-- The bytes of a collection's root node. -/
def rootBytes (c : Coll) : Nat :=
  match c.versions with
  | [] => 4096
  | v :: _ => ((v.nodes.find? (·.level == 1)).map (nodeBytesOf c.info)).getD 4096

/-- TRANSPLANT_PUBLISH: the transplants of the earliest publication epoch, once all of them have sealed or ended. Nothing is published of a collection
that has been dropped: its transplants end (R241). -/
def transplantPublish (s : State) (n : Nat) : State :=
  match Tbl.get s.store.colls n with
  | none => s
  | some c =>
    match c.tps.map (·.pub) with
    | [] => s
    | a :: r =>
      let t := r.foldl min a
      let ts := sortBy (fun x y : Transplant => x.part < y.part) (c.tps.filter (·.pub == t))
      if c.life ≠ .serving then updColl s n fun c => { c with tps := [] }
      else if s.now < t ∨ ts.all (·.sealed) = false ∨ s.step.seam = true ∨ (s.hall = false ∧ s.step.run = false) then s
      else
        let ps := rootPlaces s (rootBytes c) (heapOf s) c.versions.length
        if ps.length ≠ c.versions.length then s
        else
          let s1 := updColl s n fun c => { c with
            versions := publishInto ts c.blockNext t ps c.versions, tps := c.tps.filter (·.pub ≠ t), blockNext := []
            dying := c.dying ++ ts.flatMap (nowDying c t)
            weeds := c.weeds ++ ts.flatMap fun x => x.carried.map fun k => (⟨x.part, x.cut, true, k, none⟩ : WeedEntry) }
          let s2 := putColl s1 n ((Tbl.get s1.store.colls n).getD c)
          setUse (setTrellisEpoch (countN s2 Reg.sched.TP_PUBLISHED ts.length)) c.tenant

def execTransplantPublish (coll : Fin 4096) (s : State) : Host.Outcome State Fault Refusal := .next (transplantPublish s coll.val)

/-- At the tick that opens its publication step, a transplant that has not sealed is late (R233). -/
def lateTps (s : State) : State :=
  s.store.colls.foldl (fun t p =>
    let late := p.2.tps.filter fun x => x.pub == s.now && !x.sealed && !x.late
    if late.isEmpty then t
    else raiseEvt (count (updColl t p.1 fun c => { c with tps := c.tps.map fun x => if x.pub = s.now ∧ x.sealed = false then { x with late := true } else x })
      Reg.sched.TP_LATE) (pageBase .sched 0) 11) s

/-- A collection admits no flight while a publication of an earlier step is held (R233). -/
def tpHolds (c : Coll) (a : Nat) : Bool := c.tps.any fun t => t.pub < a

end Sys2Proof.Machine
end

