-- ==== Sys2Proof/Machine/Mirror.lean ====
section
/-! DEFINITION. Mirror pairs (R496 to R507): pair entries, the source's stream, and the follower's application of it. -/
namespace Sys2Proof.Machine

/-! ## Pair entries (R496, R497) -/

def Pair.blank : Pair := ⟨0, 0, 0, 0, none, 0, [], 0, none, 0, false, none, none, none⟩

def pairAt (s : State) (i : Nat) : Pair := (Tbl.get s.faults.pairs i).getD Pair.blank

def updPair (s : State) (i : Nat) (f : Pair → Pair) : State :=
  { s with faults := { s.faults with pairs := Tbl.set s.faults.pairs i (f (pairAt s i)) } }

/-- A source that streams: one that has lost its follower acts as SOURCE_SOLO (R505). -/
def Pair.streams (p : Pair) : Bool := p.role == 1 && !p.diverged

/-- The entry that streams an object to its follower. -/
def sourceOf (s : State) (obj : Nat) : Option Nat := (s.faults.pairs.find? fun p => p.2.streams && p.2.obj == obj).map (·.1)

def followerOf (s : State) (obj : Nat) : Option Nat := (s.faults.pairs.find? fun p => p.2.role == 2 && p.2.obj == obj).map (·.1)

/-- An object as OBJ encodes it. -/
def objColl (n : Nat) : Nat := n
def objTable (n : Nat) : Nat := 4096 + n

/-- OBJ in its range: a table number has [11:10] 0. -/
def objOk (o : Nat) : Bool := o < 4096 || (o < 4096 + 1024)

/-- The object is SERVING, or EMPTY. -/
def objServing (s : State) (o : Nat) : Bool :=
  if o < 4096 then (match Tbl.get s.store.colls o with | some c => c.life == .serving | none => false)
  else (match Tbl.get s.store.tables (o - 4096) with
    | some t => t.life == .serving && 16 + t.cols * 4 ≤ 8128 && 8 + rowDataBytes t.cols t.fmt ≤ 8128
    | none => false)
def objEmpty (s : State) (o : Nat) : Bool :=
  if o < 4096 then (Tbl.get s.store.colls o).isNone else (Tbl.get s.store.tables (o - 4096)).isNone

/-- The change is in the table of R497. -/
def pairChangeOk (s : State) (p : Pair) (role obj : Nat) : Bool :=
  role == 0 ||
  (p.role == 0 && (role == 1 || role == 3) && objServing s obj) ||
  (p.role == 0 && role == 2 && objEmpty s obj && (s.faults.nodeState == 0 || s.faults.nodeState == 4)) ||
  (p.role == 2 && (role == 1 || role == 3) && obj == p.obj) ||
  (p.role == 1 && role == 3 && obj == p.obj) || (p.role == 3 && role == 1 && obj == p.obj)

/-- RESULT of a pair write. -/
def pairResult (s : State) (e : Nat) : Nat :=
  if s.hall = false then 3
  else if (bitsOf e 46 45 == 0 && bitsOf e 31 13 == 0 && objOk (bitsOf e 44 32) && objOk (bitsOf e 12 0)) = false then 1
  else if pairChangeOk s (pairAt s (rdf s Reg.fault.PAIR_SEL 7 0)) (bitsOf e 63 62) (bitsOf e 12 0) = false then 2
  else 0

/-- PAIR_WRITE: an accepted entry takes effect at the next open instant. -/
def pairWrite (s : State) : State :=
  let e := rd64 s Reg.fault.PAIR_ENTRY
  let r := pairResult s e
  let s1 := wrf s Reg.fault.PAIR_STATUS 7 0 r
  if r = 0 then updPair s1 (rdf s Reg.fault.PAIR_SEL 7 0) fun p => { p with next := some (BitVec.ofNat 64 e) } else s1

def execPairWrite (s : State) : Host.Outcome State Fault Refusal := .next (pairWrite s)

/-! ## Units (R504, R507) -/

/-- The 64-byte mirror header. -/
def mirrorHdr (seq epoch srcObj dstObj fragNo fragCount op status first cnt entries : Nat) : List Byte :=
  let h := toLe 8 seq ++ toLe 8 epoch ++ toLe 2 srcObj ++ toLe 2 dstObj ++ toLe 1 fragNo ++ toLe 1 fragCount ++ toLe 1 op ++ toLe 1 status ++
    toLe 4 first ++ toLe 2 cnt ++ zeros 2 ++ toLe 4 entries ++ zeros 24
  h ++ toLe 4 (crc32c (h ++ zeros 4)).toNat

/-- OBJECT of a frame about an object: the hall collection or hall table. -/
def hallObj (s : State) (o : Nat) : Nat :=
  if o < 4096 then (match (Tbl.get s.store.colls o).bind (·.map) with | some m => m.hallColl.toNat | none => 0)
  else (match Tbl.get s.store.tables (o - 4096) with | some t => t.hall.toNat | none => 0)

/-- Entries as fragments of at most 8,128 bytes of body, each after `head`. -/
def fragsOf (head : List Byte) (es : List (List Byte)) : Tbl (Nat × Nat × List Byte) :=
  let size := max 1 ((es.head?.map List.length).getD 1)
  let per := max 1 ((8128 - head.length) / size)
  let cs := chunk per es
  if cs = [] then [(0, 0, 0, head)] else cs.zipIdx.map fun x => (x.2, x.2 * per, x.1.length, head ++ x.1.flatten)

/-- Every fragment of a unit goes to the follower. -/
def sendUnit (s : State) (i : Nat) (u : MUnit) : State :=
  let p := pairAt s i
  u.frags.foldl (fun t x =>
    sendFrame t u.typ 1 u.cls p.peer (hallObj s p.obj) 0
      (mirrorHdr u.seq u.epoch p.obj p.peerObj x.1 u.frags.length u.op 0 x.2.1 x.2.2.1 u.entries ++ x.2.2.2)) s

/-- The next unit of a pair's stream. -/
def stream (s : State) (i typ op epoch cls flight entries : Nat) (frags : Tbl (Nat × Nat × List Byte)) : State :=
  let u : MUnit := ⟨(pairAt s i).seq + 1, typ, op, epoch, cls, entries, frags.length, frags, s.now, false, flight, s.now⟩
  sendUnit (updPair s i fun p => { p with seq := u.seq, units := p.units ++ [u] }) i u

/-! ## Batches (R498) -/

def coarseBytes (pd : Nat) (r : Coarse) : List Byte :=
  padTo (packCodes 2 r.codes ++ r.scales.flatMap (fun x => toLe 2 x.toNat) ++ r.sums.flatMap (toLe 2) ++ r.zps.flatMap (toLe 1)) (recordBytes pd) 0

def refineRecBytes (rd : Nat) (r : Refine) : List Byte :=
  padTo (r.codes ++ r.scales.flatMap (fun x => toLe 2 x.toNat) ++ r.sums.flatMap (fun x => toLe 2 x.toNat) ++ toLe 8 r.key.toNat ++
    toLe 8 r.attr.toNat) (refineBytes rd) 0

def prepEntry (i : CollInfo) (ins : Bool) (it : UpdItem) : List Byte :=
  if ins then
    toLe 8 it.key.toNat ++ toLe 8 it.attr.toNat ++ toLe 5 it.slot ++ toLe 1 it.part ++ zeros 2 ++ toLe 4 it.nc.toNat ++ toLe 4 it.nf.toNat ++
      coarseBytes i.projDims it.coarse ++ refineRecBytes i.refineDims it.refine
  else toLe 8 it.key.toNat

def parsePrep (i : CollInfo) (ins : Bool) (b : List Byte) : UpdItem :=
  let rb := recordBytes i.projDims
  if ins then
    { key := BitVec.ofNat 64 (leAt b 0 8), attr := BitVec.ofNat 64 (leAt b 8 8), slot := leAt b 16 5, part := leAt b 21 1,
      nc := BitVec.ofNat 32 (leAt b 24 4), nf := BitVec.ofNat 32 (leAt b 28 4), coarse := parseCoarse i.projDims (sub b 32 rb),
      refine := parseRefine i.refineDims (b.drop (32 + rb)), status := 5 }
  else ⟨BitVec.ofNat 64 (leAt b 0 8), 0, default, default, 0, 0, 0, noSlot, 5⟩

def prepSize (i : CollInfo) (ins : Bool) : Nat := if ins then 32 + recordBytes i.projDims + refineBytes i.refineDims else 8

/-- COPY sends the batch as a PREP unit. -/
def sendPrep (s : State) (f : Flight) : State :=
  match sourceOf s (objColl f.obj), Tbl.get s.store.colls f.obj with
  | some i, some c =>
    stream s i 0x50 f.desc.op f.epoch f.cls f.id f.work.items.length (fragsOf [] (f.work.items.map (prepEntry c.info f.desc.isInsert)))
  | _, _ => s

/-- The PREP of a flight on a pair that streams. -/
def prepOf (s : State) (f : Flight) : Option (Nat × MUnit) :=
  (sourceOf s (objColl f.obj)).bind fun i => ((pairAt s i).units.find? fun u => u.typ == 0x50 && u.flight == f.id).map fun u => (i, u)

/-- COPY of an update batch may signal completion: its PREP, if there is one, is acknowledged. -/
def prepAcked (s : State) (f : Flight) : Bool :=
  match sourceOf s (objColl f.obj) with
  | none => true
  | some _ => match prepOf s f with
    | some (_, u) => u.acked
    | none => false

def dropPrep (s : State) (i flight : Nat) : State :=
  updPair s i fun p => { p with units := p.units.filter fun u => !(u.typ == 0x50 && u.flight == flight) }

/-- MIRROR_COMMIT of a committed batch. -/
def sendCommit (s : State) (f : Flight) (ep first : Nat) (items : List UpdItem) : State :=
  match prepOf s f with
  | none => s
  | some (i, _) =>
    stream (dropPrep s i f.id) i 0x51 0 ep f.cls f.id items.length [(0, 0, items.length, toLe 8 first ++ items.flatMap fun x => toLe 1 x.status)]

/-! ## Deferred completions -/

def runDeferred (s : State) (a : Deferred) : State :=
  match a with
  | .finish d st ep cnt ws si => complete s d st ep cnt ws si
  | .reply cls dst obj flow pay => sendFrame s 0x31 0 cls dst obj flow pay

/-- What waits on pair `i` and passes `ready` runs, in order. -/
def releaseHeldActs (s : State) (i : Nat) (ready : Held → Bool) : State :=
  let go := s.faults.held.filter fun h => h.pair == i && ready h
  let s1 := { s with faults := { s.faults with held := s.faults.held.filter fun h => !(h.pair == i && ready h) } }
  go.foldl (fun t h => runDeferred t h.act) s1

/-- The stream ends: nothing waits for it any more (R498, R505, R517). -/
def endStream (s : State) (i : Nat) : State :=
  releaseHeldActs (updPair s i fun p => { p with units := [], snap := none, snapColl := none, snapTable := none, due := none }) i fun _ => true

/-- A source acts as SOURCE_SOLO from now on (R505). -/
def goSolo (s : State) (i : Nat) : State := endStream (updPair s i fun p => { p with diverged := true }) i

/-- A batch that ends without a commit: its acknowledged PREP is aborted, and the completion waits for that (R498). -/
def abortPrep (s : State) (f : Flight) (act : Deferred) : State :=
  match prepOf s f with
  | some (i, u) =>
    if u.acked then
      let s1 := stream (dropPrep s i f.id) i 0x51 1 f.epoch f.cls f.id u.entries [(0, 0, 0, [])]
      { s1 with faults := { s1.faults with held := s1.faults.held ++ [⟨i, [(pairAt s1 i).seq], act⟩] } }
    else runDeferred s act
  | none => runDeferred s act

/-! ## Acknowledgements and resends (R498, R504, R505) -/

/-- The mirror header of a frame. -/
structure MHdr where
  seq : Nat
  epoch : Nat
  srcObj : Nat
  dstObj : Nat
  fragNo : Nat
  fragCount : Nat
  op : Nat
  status : Nat
  first : Nat
  cnt : Nat
  entries : Nat

def parseMHdr (b : List Byte) : MHdr :=
  ⟨leAt b 0 8, leAt b 8 6, leAt b 16 2, leAt b 18 2, leAt b 20 1, leAt b 21 1, leAt b 22 1, leAt b 23 1, leAt b 24 4, leAt b 28 2, leAt b 32 4⟩

/-- The control part of a frame passes its CTL_CRC; a failing one is counted (R255). -/
def ctlOk (b : List Byte) : Bool := 64 ≤ b.length && crcWithout (b.take 64) 60 4 == BitVec.ofNat 32 (leAt b 60 4)

def ctlFail (s : State) : State := count (raiseErr s .sched 0 3) Reg.sched.RAKE_CRC_FAIL

/-- A unit is acknowledged: a PREP stays until its batch commits or ends; a PREP whose batch has already ended is aborted. -/
def ackUnit (s : State) (i seq : Nat) : State :=
  match (pairAt s i).units.find? (·.seq == seq) with
  | none => s
  | some u =>
    if u.typ = 0x50 then
      if s.sched.flights.any (·.id == u.flight) then
        updPair s i fun p => { p with units := p.units.map fun x => if x.seq = seq then { x with acked := true } else x }
      else stream (dropPrep s i u.flight) i 0x51 1 u.epoch u.cls u.flight u.entries [(0, 0, 0, [])]
    else
      let s1 := updPair s i fun p => { p with units := p.units.filter (·.seq ≠ seq) }
      let s2 := { s1 with faults := { s1.faults with held := s1.faults.held.map fun h =>
        if h.pair = i then { h with seqs := h.seqs.filter (· ≠ seq) } else h } }
      releaseHeldActs s2 i fun h => h.seqs.isEmpty

def mirrorAck (s : State) (f : Frame) : State :=
  if ctlOk f.body = false then ctlFail s
  else
    let h := parseMHdr f.body
    match s.faults.pairs.find? fun p => p.2.streams && p.2.peer == f.src && p.2.obj == h.srcObj with
    | none => s
    | some (i, _) => if h.status = 1 then raiseEvt (goSolo s i) (pageBase .fault 0) 6 else ackUnit s i h.seq

def execMirrorAck (f : Frame) (s : State) : Host.Outcome State Fault Refusal := .next (receive s f 0x54 fun t => mirrorAck t f)

/-- MIRROR_RESEND: units unacknowledged for 2 steps go out again. -/
def resendUnit (i : Nat) (s : State) (u : MUnit) : State :=
  if u.acked = false ∧ u.sentAt + 2 ≤ s.now then
    count (sendUnit (updPair s i fun p => { p with units := p.units.map fun x => if x.seq = u.seq then { x with sentAt := s.now } else x }) i u)
      Reg.fault.STREAM_RESENDS
  else s

def mirrorResend (s : State) (i : Nat) : State := if (pairAt s i).streams then (pairAt s i).units.foldl (resendUnit i) s else s

def execMirrorResend (pair : Fin 256) (s : State) : Host.Outcome State Fault Refusal := .next (mirrorResend s pair.val)

/-! ## CLOSE (R500, R501) -/

/-- MIRROR_CLOSE for epoch `ep`, naming the transplants of collection `n` cut in this step. -/
def sendClose (s : State) (i ep last : Nat) : State :=
  let p := pairAt s i
  let tps : List Transplant := match Tbl.get s.store.colls p.obj with
    | some c => c.tps.filter fun t => t.cut == s.now
    | none => []
  let body := toLe 8 last ++ toLe 2 tps.length ++ zeros 6 ++ tps.flatMap fun t => toLe 1 t.part ++ zeros 7 ++ toLe 8 t.pub
  stream s i 0x52 0 ep 0 0 tps.length [(0, 0, tps.length, body)]

def gridStep (s : State) : Bool := s.now % max 1 (rdf s Reg.sched.TP_GRID 15 0) == 0

/-- A CLOSE that was due goes out. -/
def flushClose (s : State) (i : Nat) : State :=
  match (pairAt s i).due with
  | some last => sendClose (updPair s i fun p => { p with due := none }) i (s.now - 1) last
  | none => s

/-- At an open instant: the CLOSE of the step that ended; on a grid step it waits for the evaluation of R229. -/
def openClose (s : State) (i : Nat) : State :=
  let p := pairAt s i
  if p.streams = false then s
  else if gridStep s then updPair s i fun p => { p with due := some p.seq } else sendClose s i (s.now - 1) p.seq

def pairIds (s : State) : List Nat := s.faults.pairs.map (·.1)

/-! ## The follower (R499 to R502, R505) -/

def MUnit.whole (u : MUnit) : Bool := (List.range u.fragCount).all fun k => (Tbl.get u.frags k).isSome

def MUnit.body (u : MUnit) : List Byte := u.frags.flatMap fun x => x.2.2.2

def sendAck (s : State) (i seq status cls : Nat) : State :=
  let p := pairAt s i
  sendFrame s 0x54 0 cls p.peer (hallObj s p.obj) 0 (mirrorHdr seq 0 p.peerObj p.obj 0 1 0 status 0 0 0)

/-- A follower that cannot go on (R505). -/
def diverge (s : State) (i : Nat) (u : MUnit) : State :=
  if (pairAt s i).diverged then s
  else raiseEvt (sendAck (updPair s i fun p => { p with diverged := true }) i u.seq 1 u.cls) (pageBase .fault 0) 6

def heldBytes (p : Pair) : Nat := sumOf p.units fun u => u.body.length

/-- The oldest PREP that no COMMIT or ABORT has settled, of as many entries. -/
def openPrep (p : Pair) (entries seq : Nat) : Option MUnit := p.units.find? fun u => u.typ == 0x50 && u.seq < seq && u.entries == entries

def prepItems (c : Coll) (u : MUnit) : List UpdItem :=
  (chunk (prepSize c.info (u.op == 0x20)) u.body).map (parsePrep c.info (u.op == 0x20))

/-- The stream so far does not wait for a slot that is still held (R502). -/
def slotsFree (c : Coll) (items : List UpdItem) (sts : List Nat) : Bool :=
  (items.zip sts).all fun x => 1 < x.2 || (Tbl.get c.slots x.1.slot).isNone

/-- How a unit is applied: it is, it must wait, or it cannot be. -/
inductive Applied where
  | yes (s : State)
  | wait
  | never

def applyCommit (s : State) (i : Nat) (p : Pair) (c : Coll) (u : MUnit) : Applied :=
  match openPrep p u.entries u.seq with
  | none => .yes s
  | some pr =>
    let s1 := updPair s i fun p => { p with units := p.units.filter (·.seq ≠ pr.seq) }
    if u.op = 1 then .yes s1
    else
      let items := prepItems c pr
      let sts := (u.body.drop 8).map (·.toNat)
      if pr.op = 0x20 ∧ slotsFree c items sts = false then .wait
      else
        match commitTo s1 none p.obj u.epoch (pr.op == 0x20) false (some (leAt u.body 0 8)) (some sts) items with
        | (some (t, _, _), _) => .yes t
        | (none, _) => .never

/-- The transplants that a CLOSE names start with cut s + 1. -/
def applyClose (s : State) (i : Nat) (p : Pair) (c : Coll) (u : MUnit) : Applied :=
  let es := chunk 16 ((u.body.drop 16).take (16 * leAt u.body 8 2))
  let s1 := updPair s i fun p => { p with closed := u.epoch }
  if es.all fun e => tpRoom s c (leAt e 0 1) then
    .yes (es.foldl (fun t e => startTp t p.obj (leAt e 0 1) (u.epoch + 1) (leAt e 8 6) ((inServiceList t).headD 0)) s1)
  else .never

/-- The gradients of a ROWS unit are applied in order (R503). -/
def applyRows (s : State) (n : Nat) (t : Table) (u : MUnit) : State :=
  u.frags.foldl (fun s x =>
    let b := x.2.2.2
    let p : OptParams := optOf (zeros 64 ++ b)
    (chunk (16 + 4 * t.cols) (b.drop 24)).foldl (fun s e => (scatterRow s n p 0x0D (BitVec.ofNat 64 (leAt e 0 8)) (e.drop 16)).1) s) s

def applyUnit (s : State) (i : Nat) (u : MUnit) : Applied :=
  let p := pairAt s i
  if p.obj < 4096 then
    match Tbl.get s.store.colls p.obj with
    | none => .wait
    | some c =>
      if u.typ = 0x51 then applyCommit s i p c u else if u.typ = 0x52 then applyClose s i p c u else .yes s
  else
    match Tbl.get s.store.tables (p.obj - 4096) with
    | none => .wait
    | some t =>
      if u.typ = 0x53 then .yes (applyRows s (p.obj - 4096) t u)
      else if u.typ = 0x52 then .yes (updPair s i fun p => { p with closed := u.epoch }) else .yes s

/-- Held units are applied in STREAM_SEQ order, as far as they go; a PREP stays held until it is settled. -/
def drainUnits (s : State) (i : Nat) : Nat → State
  | 0 => s
  | n + 1 =>
    let p := pairAt s i
    match p.units.find? fun u => u.seq == p.applied + 1 && u.whole with
    | none => s
    | some u =>
      match applyUnit s i u with
      | .wait => s
      | .never => diverge s i u
      | .yes t =>
        drainUnits (updPair t i fun p => { p with
          applied := u.seq, units := if u.typ = 0x50 then p.units else p.units.filter (·.seq ≠ u.seq) }) i n

/-- A record or row that a graft has not copied yet (R510): its key is known, its codes are not. -/
def Refine.missing (r : Refine) : Bool := r.codes.isEmpty
def RowSlot.missing (r : RowSlot) : Bool := r.cur.codes.isEmpty

/-- Units of a follower wait while its graft copies the object: a collection until HBM_DONE, a table until its last row (R510). -/
def copying (s : State) (obj : Nat) : Bool :=
  (s.faults.graft.active && !s.faults.graft.hbmDone) ||
  (4096 ≤ obj && (Tbl.get s.store.tables (obj - 4096)).any fun t => t.rows.any (·.2.missing))

def drainPair (s : State) (i : Nat) : State :=
  if (pairAt s i).role = 2 ∧ (pairAt s i).diverged = false ∧ copying s (pairAt s i).obj = false then drainUnits s i (pairAt s i).units.length else s

/-- A fragment joins its unit. -/
def addFrag (p : Pair) (typ cls : Nat) (h : MHdr) (body : List Byte) : Pair :=
  let x := (h.first, h.cnt, body)
  match p.units.find? (·.seq == h.seq) with
  | some _ => { p with units := p.units.map fun u => if u.seq = h.seq then { u with frags := Tbl.set u.frags h.fragNo x } else u }
  | none => { p with units := p.units ++ [⟨h.seq, typ, h.op, h.epoch, cls, h.entries, h.fragCount, [(h.fragNo, x)], 0, false, 0, 0⟩] }

/-- PREP, COMMIT, CLOSE and ROWS at a follower: the unit is held, acknowledged when whole, and applied in order. -/
def mirrorUnit (s : State) (f : Frame) : State :=
  if ctlOk f.body = false then ctlFail s
  else
    let h := parseMHdr f.body
    match s.faults.pairs.find? fun p => p.2.role == 2 && p.2.peer == f.src && p.2.obj == h.dstObj with
    | none => s
    | some (i, p) =>
      if p.diverged then sendAck s i h.seq 1 f.cls
      else if h.seq ≤ p.applied then sendAck s i h.seq 0 f.cls
      else
        let s1 := updPair s i fun p => addFrag p f.typ f.cls h (f.body.drop 64)
        match (pairAt s1 i).units.find? (·.seq == h.seq) with
        | none => s1
        | some u =>
          if 0x200000000 < heldBytes (pairAt s1 i) then diverge s1 i u
          else if u.whole then drainPair (sendAck s1 i h.seq 0 f.cls) i
          else s1

def execMirrorPrep (f : Frame) (s : State) : Host.Outcome State Fault Refusal := .next (receive s f 0x50 fun t => mirrorUnit t f)
def execMirrorCommit (f : Frame) (s : State) : Host.Outcome State Fault Refusal :=
  .next (receive s f 0x51 fun t => if leAt f.body 22 1 = 0 then mirrorUnit t f else t)
def execMirrorAbort (f : Frame) (s : State) : Host.Outcome State Fault Refusal :=
  .next (receive s f 0x51 fun t => if leAt f.body 22 1 = 1 then mirrorUnit t f else t)
def execMirrorClose (f : Frame) (s : State) : Host.Outcome State Fault Refusal := .next (receive s f 0x52 fun t => mirrorUnit t f)
def execMirrorRows (f : Frame) (s : State) : Host.Outcome State Fault Refusal := .next (receive s f 0x53 fun t => mirrorUnit t f)

/-! ## Pair entries take effect (R497, R506, R508) -/

/-- An orphan PREP is committed with epoch `t`, its outcomes decided here. -/
def commitOrphan (i t : Nat) (s : State) (u : MUnit) : State :=
  let p := pairAt s i
  match Tbl.get s.store.colls p.obj with
  | none => s
  | some c =>
    match commitTo s none p.obj t (u.op == 0x20) false none none (prepItems c u) with
    | (some (x, _, _), _) => x
    | (none, _) => s

/-- A PREP that no held COMMIT or ABORT names. -/
def orphans (p : Pair) : List MUnit :=
  let preps := p.units.filter fun u => u.typ == 0x50 && u.whole
  let settled := (p.units.filter fun u => u.typ == 0x51 && u.whole).map (·.entries)
  (settled.foldl (fun l n => match l.find? (·.entries == n) with
    | some u => l.filter (·.seq ≠ u.seq)
    | none => l) preps)

/-- Takeover (R506): orphans in STREAM_SEQ order, then every COMMIT held. -/
def takeover (s : State) (i : Nat) : State :=
  let os := orphans (pairAt s i)
  let s1 := os.foldl (commitOrphan i s.now) s
  let s2 := updPair s1 i fun p => { p with units := p.units.filter fun u => !(os.any (·.seq == u.seq)) }
  let held := (pairAt s2 i).units.filter fun u => u.typ ≠ 0x50 && u.whole
  held.foldl (fun t u => match applyUnit t i u with
    | .yes x => x
    | _ => t) s2

/-- An accepted pair entry takes effect at the open instant. A SOURCE entry pins the graft snapshot of this step. -/
def openPair (s : State) (i : Nat) : State :=
  let p := pairAt s i
  match p.next with
  | none => s
  | some e =>
    let e := e.toNat
    let role := bitsOf e 63 62
    let s1 := if p.role = 2 ∧ (role = 1 ∨ role = 3) then takeover s i else s
    let s2 := if p.role = 1 then endStream s1 i else s1
    let s3 := updPair s2 i fun _ => { Pair.blank with
      role := role, peer := bitsOf e 61 47, peerObj := bitsOf e 44 32, obj := bitsOf e 12 0, snap := if role = 1 then some s.now else none
      snapColl := if role = 1 ∧ bitsOf e 12 0 < 4096 then (Tbl.get s2.store.colls (bitsOf e 12 0)).map Coll.committed else none
      snapTable := if role = 1 ∧ 4096 ≤ bitsOf e 12 0 then Tbl.get s2.store.tables (bitsOf e 12 0 - 4096) else none }
    if role = 1 then wr64 s3 Reg.fault.GRAFT_SNAP_EPOCH s.now
    else if role = 0 then { s3 with faults := { s3.faults with pairs := Tbl.del s3.faults.pairs i } } else s3

def openPairs (s : State) : State := (pairIds s).foldl openPair s

/-! ## What the pair lets an object do (R499, R500, R503, R505) -/

/-- A follower object admits work of epoch `a`. -/
def followerOpen (s : State) (obj a : Nat) : Bool :=
  match followerOf s obj with
  | some i => a ≤ (pairAt s i).closed + 1
  | none => true

def objDiverged (s : State) (obj : Nat) : Bool :=
  match followerOf s obj with
  | some i => (pairAt s i).diverged
  | none => false

/-! ## Owner reads (R333) -/

/-- The header of an owner read frame. -/
def ownerHdr (s : State) (kind cls req object objKind status off n : Nat) : List Byte :=
  let h := toLe 2 (selfNode s) ++ toLe 1 kind ++ toLe 1 cls ++ toLe 4 req ++ toLe 8 s.now ++ toLe 4 object ++ toLe 1 objKind ++ toLe 1 status ++
    zeros 2 ++ toLe 8 off ++ toLe 4 n ++ zeros 24
  h ++ toLe 4 (crc32c (h ++ zeros 4)).toNat

/-- An OWNER_READ goes out; the frame's REQ_NO is the node's request number after it. -/
def sendOwnerRead (s : State) (dst cls object objKind off n : Nat) : State :=
  let s1 := { s with links := { s.links with reqNo := (s.links.reqNo + 1) % 2 ^ 32 } }
  sendFrame s1 0x40 0 cls dst object s1.links.reqNo (ownerHdr s1 0x40 cls s1.links.reqNo object objKind 0 off n)

/-! ## Reads of what a graft has not copied (R511), and of LOST rows (R306) -/

/-- A read of `size` bytes for a flight's slot or row, before it is known which node it asks. -/
def readFor (flight : Nat) (row : Bool) (idx off size : Nat) : RemoteRead := ⟨flight, row, idx, off, size, [], 0, 0, 0⟩

/-- The next piece of a remote read, at most 8,128 bytes, goes out in the flight's class. -/
def askRemote (s : State) (cls : Nat) (r : RemoteRead) : State :=
  let s1 := sendOwnerRead s r.node cls r.object r.objKind (r.off + r.got.length) (min 8128 (r.size - r.got.length))
  { s1 with faults := { s1.faults with graft := { s1.faults.graft with reads := Tbl.set s1.faults.graft.reads s1.links.reqNo r } } }

/-- A read of an object's tier range that its follower entry sends to the source. -/
def remoteRead (s : State) (obj cls : Nat) (r : RemoteRead) : State :=
  match followerOf s obj with
  | some i =>
    let p := pairAt s i
    askRemote (count s Reg.fault.REMOTE_FLASH_READS) cls
      { r with node := p.peer, object := if hallObj s p.obj = 0 then p.peerObj else hallObj s p.obj, objKind := if p.obj < 4096 then 1 else 3 }
  | none => s

/-- A read of a LOST row that goes to the mirror node (R306). -/
def mirrorRead (s : State) (range cls : Nat) (r : RemoteRead) : State :=
  match mirrorNode s range with
  | some node => askRemote s cls { r with node := node, object := hallObj s range, objKind := 3 }
  | none => s

end Sys2Proof.Machine
end

