-- ==== Sys2Proof/Machine/Rake.lean ====
section
/-! DEFINITION. Hall search (R245 to R275): shard maps, RAKE_QUERY and RAKE_CONTRIB frames, participant parts, contributions, replays and the
cross-node merge. -/
namespace Sys2Proof.Machine

/-! ## Shard maps (R245 to R247) -/

def parseShard (e : List Byte) : Shard :=
  { node := leAt e 0 2 % 0x8000, coll := leAt e 2 2, mirrorValid := (leAt e 4 2).testBit 15, mirror := leAt e 4 2 % 0x8000, mirrorColl := leAt e 6 2,
    down := (leAt e 8 1).testBit 0 }

def shardBytes (b : List Byte) : List (List Byte) := (List.range (leAt b 16 2)).map fun i => sub b (64 + 16 * i) 16

def mapFormed (b : List Byte) : Bool :=
  let es := shardBytes b
  let ss := es.map parseShard
  1 ≤ leAt b 16 2 && leAt b 16 2 ≤ 32768 && leAt b 18 2 < leAt b 16 2 && allZero (sub b 24 36) &&
  es.all (fun e => leAt e 0 2 < 0x8000 && leAt e 8 1 < 2 && allZero (sub e 9 7)) && ss.all (fun x => !x.mirrorValid || x.mirror ≠ x.node) &&
  ((ss.map fun x => (x.node, x.coll)).eraseDups.length == ss.length)

/-- A flight is bound to a generation of a collection's map. -/
def mapBound (s : State) (n : Nat) (m : ShardMap) : Bool := s.sched.flights.any fun f => f.obj == n && f.map == some m

/-- RESULT of a map load (R246); the node ID is the one the fabric manager assigned. -/
def mapResult (s : State) (b : List Byte) : Nat :=
  let n := leAt b 6 2
  if leAt b 0 4 ≠ 0x4853564B then 1
  else if imageCrc b ≠ BitVec.ofNat 32 (leAt b 60 4) then 2
  else if leAt b 4 2 ≠ 1 then 3
  else if mapFormed b = false then 4
  else
    match Tbl.get s.store.colls n with
    | none => 5
    | some c =>
      let self := parseShard (sub b (64 + 16 * leAt b 18 2) 16)
      if c.life ≠ .serving ∨ nodeIdValid s = false ∨ self.node ≠ selfNode s ∨ self.coll ≠ n then 5
      else if BitVec.ofNat 32 (leAt b 20 4) ≠ c.proj.crc then 6
      else if (c.map.map fun m => decide (leAt b 12 4 ≤ m.gen)).getD false then 7
      else if c.oldMaps.any (mapBound s n) then 8
      else if s.hall = false then 9
      else 0

def mapImage (s : State) (a : Nat) : List Byte :=
  let h := hbmBytes s a 64
  if leAt h 0 4 = 0x4853564B then hbmBytes s a (64 + 16 * leAt h 16 2) else h

def parseMap (b : List Byte) (since : Nat) : ShardMap :=
  ⟨BitVec.ofNat 32 (leAt b 8 4), leAt b 12 4, leAt b 18 2, (shardBytes b).map parseShard, since⟩

def mapDone (s : State) : State := raiseEvt s (pageBase .sched 0) 13

/-- SHARDMAP_LOAD: an accepted map is current from the next step. -/
def shardmapLoad (s : State) (b : List Byte) : State :=
  let r := mapResult s b
  let s1 := wr s Reg.sched.SHARDMAP_STATUS (BitVec.ofNat 32 r)
  mapDone (if r = 0 then updColl s1 (leAt b 6 2) fun c => { c with mapNext := some (parseMap b (s.ticks + 1)), mapRetiring := none } else s1)

def execShardmapLoad (s : State) : Host.Outcome State Fault Refusal :=
  let a := rd64 s Reg.sched.SHARDMAP_ADDR / 64 * 64
  if inHbm a 64 && inHbm a (mapImage s a).length then .next (shardmapLoad s (mapImage s a)) else .fault (.hbmAddress a)

/-- SHARDMAP_RETIRE: the map of the selected collection goes at the next step. The manual names the current map only; DESIGN CHOICE (log entry
118): a map accepted before in the same step, and not yet current, goes with it. -/
def shardmapRetire (s : State) : State :=
  mapDone (updColl s (rdf s Reg.sched.SHARDMAP_SEL 11 0) fun c => { c with mapRetiring := some (s.ticks + 1), mapNext := none })

def execShardmapRetire (s : State) : Host.Outcome State Fault Refusal := .next (shardmapRetire s)

/-- Maps at an open instant: the next one becomes current, a retired one goes, superseded ones that no flight holds are released. -/
def openMap (s : State) (n : Nat) (c : Coll) : Coll :=
  let due (n : Nat) : Bool := n ≤ s.ticks
  let c1 := match c.mapNext with
    | some m => if due m.since then { c with map := some m, mapNext := none, oldMaps := c.oldMaps ++ c.map.toList } else c
    | none => if c.mapRetiring.any due then { c with map := none, mapRetiring := none, oldMaps := c.oldMaps ++ c.map.toList } else c
  { c1 with oldMaps := c1.oldMaps.filter (mapBound s n) }

def openMaps (s : State) : State :=
  { s with store := { s.store with colls := s.store.colls.map fun (p : Nat × Coll) => (p.1, openMap s p.1 p.2) } }

/-! ## Which stages run where (R75, R250) -/

/-- The stage that sends the contributions. -/
def contribStage (p : Plan) : Nat := ((p.stages.filter fun d => d.kind == 0x0D && 1 ≤ d.off).map (·.no)).foldl max 0

/-- A stage of the participants: from offset 1 to the sending of the contribution. -/
def isPartStage (p : Plan) (d : StageDef) : Bool := 1 ≤ d.off && d.no ≤ contribStage p

/-- A stage that a part runs; a shadow part on a local plan runs the search stages after admission (R512). -/
def partRuns (shadow : Bool) (p : Plan) (d : StageDef) : Bool :=
  if shadow && !p.flags.getLsbD 0 then 1 ≤ d.off && ((3 ≤ d.kind && d.kind ≤ 9) || d.kind == 0x0B) else isPartStage p d

/-- The offset of the sending of the contribution. -/
def contribOff (p : Plan) : Nat :=
  match p.stages[contribStage p]? with
  | some d => d.off
  | none => 0

/-- The fabric frames that R260 needs fit the plan's FABRIC_SLOTS. -/
def fabricNeedOk (p : Plan) (remote m : Nat) : Bool :=
  let slots (d : StageDef) : Nat := (p.rsets[d.rset]?.map (·.fabric)).getD 0
  (p.stages.filter (·.kind == 0x0D)).all fun d => if d.off = 0 then remote ≤ slots d else max 1 (ceilDiv m 254) ≤ slots d

/-! ## RAKE_QUERY (R256, R257) -/

def codeSection (fmt : Nat) (gs : List QGroup) : List Byte :=
  packCodes fmt (gs.flatMap (·.codes)) ++
    gs.flatMap fun g => toLe 2 g.scale.toNat ++ toLe 1 g.zp ++ zeros 1 ++ toLe 4 (BitVec.ofInt 32 g.sum).toNat

def sectionSize (fmt group dims : Nat) : Nat := elemBytes fmt dims + 8 * ceilDiv dims group

def parseCodes (fmt group dims : Nat) (b : List Byte) : List QGroup :=
  let cs := codesOf fmt b dims
  ((chunk group cs).zipIdx).map fun x =>
    let o := elemBytes fmt dims + 8 * x.2
    ⟨x.1, BitVec.ofNat 16 (leAt b o 2), leAt b (o + 2) 1, (BitVec.ofNat 32 (leAt b (o + 4) 4)).toInt⟩

/-- The payload of a RAKE_QUERY for one shard of a flight. -/
def queryPayload (s : State) (f : Flight) (m : ShardMap) (i : CollInfo) (projCrc : Word) (shard coll j : Nat) (replay : Bool) : List Byte :=
  let k1 := kernelOf s i.profile 1
  let k2 := kernelOf s i.profile 2
  let co := codeSection k1.aFmt f.work.coarse
  let fi := codeSection k2.aFmt f.work.fine
  let d := f.desc
  let ctl := toLe 2 (selfNode s) ++ toLe 1 (f.params.sieve.toNat + 2 * replay.toNat) ++ toLe 1 f.cls ++ toLe 4 f.id ++ toLe 8 f.epoch ++
    toLe 4 m.hallColl.toNat ++ toLe 4 m.gen ++ toLe 2 shard ++ toLe 2 coll ++ toLe 2 f.planSlot ++ toLe 2 i.profile ++ toLe 4 f.plan.id.toNat ++
    toLe 4 projCrc.toNat ++ toLe 2 d.k ++ toLe 2 d.refine ++ toLe 2 d.overfetch ++ toLe 2 (d.u 24 2) ++ toLe 1 (d.u 22 1) ++ toLe 1 f.params.metric ++
    toLe 1 (d.u 30 1) ++ zeros 1 ++ toLe 2 co.length ++ toLe 2 fi.length ++ toLe 1 j ++ zeros 3
  let terms := sub d.bytes 64 128
  ctl ++ toLe 4 (crc32c (ctl ++ zeros 4 ++ terms)).toNat ++ terms ++ co ++ fi

/-! ## Contributions (R258, R259) -/

/-- FLAGS of a rake entry: REFINED, and NAN where the key is that of NaN (R175). -/
def RakeEntry.flags (e : RakeEntry) : Nat := e.refined.toNat + 2 * (e.key == 0xFFFFFFFF).toNat

/-- The 24-byte image of a rake entry, as tile stores and merges hold it (R175). -/
def RakeEntry.image (e : RakeEntry) : List Byte := toLe 8 e.order ++ toLe 4 e.key ++ toLe 4 e.flags ++ toLe 8 e.slot

def contribEntry (e : RakeEntry) : List Byte :=
  toLe 4 e.key ++ toLe 2 e.flags ++ toLe 2 e.shard ++ toLe 8 e.order ++ toLe 8 e.item.toNat ++
    toLe 8 e.slot

def parseContribEntry (b : List Byte) : RakeEntry :=
  ⟨leAt b 8 8, leAt b 0 4, (leAt b 4 2).testBit 0, leAt b 24 5, leAt b 6 2, BitVec.ofNat 64 (leAt b 16 8)⟩

/-- PATH_FLAGS with the bits that follow from the counts (R193). -/
def finalFlags (f : Flight) : Word :=
  putBit (putBit f.flags 6 (f.flags.getLsbD 6 || f.counts.shardsContributed < f.counts.shardsExpected || f.work.omitted ≠ 0)) 7 (f.work.nan ≠ 0)

def contribHdr (coord cflags reason flightNo epoch shard fragNo fragCount first cnt total : Nat) (f : Flight) (sender : Nat) : List Byte :=
  let h := toLe 2 coord ++ toLe 1 cflags ++ toLe 1 reason ++ toLe 4 flightNo ++ toLe 8 epoch ++ toLe 2 shard ++ toLe 1 fragNo ++ toLe 1 fragCount ++
    toLe 2 first ++ toLe 2 cnt ++ toLe 2 total ++ toLe 2 f.counts.unrefined ++ toLe 4 (finalFlags f).toNat ++ toLe 2 f.counts.candidates ++
    toLe 2 f.counts.survivors ++ toLe 4 (min f.work.nan 0xFFFFFFFF) ++ toLe 8 f.work.omitted ++ toLe 4 f.work.scanned ++ toLe 2 sender ++ zeros 6
  h ++ toLe 4 (crc32c (h ++ zeros 4)).toNat

/-- The fragments of a contribution. -/
def contribFrags (s : State) (f : Flight) (p : PartInfo) : List (List Byte) :=
  let es := f.work.rake
  let n := max 1 (ceilDiv es.length 254)
  (List.range n).map fun k =>
    let part := (es.drop (254 * k)).take 254
    contribHdr p.coord (2 * p.replay.toNat) 0 p.flightNo f.epoch p.shard k n (254 * k) part.length es.length f (selfNode s) ++ part.flatMap contribEntry

/-- A NONE contribution with its REASON (R265). -/
def nonePayload (s : State) (coord flightNo epoch shard reason : Nat) (replay : Bool) : List Byte :=
  contribHdr coord (1 + 2 * replay.toNat) reason flightNo epoch shard 0 1 0 0 0 default (selfNode s)

/-! ## Flights by number -/

def updFlight (s : State) (id : Nat) (g : Flight → Flight) : State :=
  { s with sched := { s.sched with flights := s.sched.flights.map fun f => if f.id = id then g f else f } }

def updPart (s : State) (id : Nat) (g : Flight → Flight) : State :=
  { s with sched := { s.sched with parts := s.sched.parts.map fun f => if f.id = id then g f else f } }

def flightOf (s : State) (id : Nat) : Option Flight := s.sched.flights.find? (·.id == id)

/-- FABRIC_BYTES of a tenant (R404): a frame of `n` payload bytes with its Riltik header. -/
def meterFabric (s : State) (t n : Nat) : State := meter s t 6 (32 + n)

def sendRake (s : State) (typ : Nat) (t cls dst : Nat) (object flow : Nat) (pay : List Byte) : State :=
  meterFabric (sendFrame s typ 0 cls dst object flow pay) t pay.length

/-! ## The participant's acceptance (R250 to R253, R495) -/

/-- The fields of a RAKE_QUERY; `own` is that of the coordinator's own shard, whose collection the flight bound at admission (R205, R275). -/
structure Query where
  pay : List Byte
  shadow : Bool
  own : Bool

def Query.u (q : Query) (o n : Nat) : Nat := leAt q.pay o n
def Query.coord (q : Query) : Nat := q.u 0 2 % 0x8000
def Query.replay (q : Query) : Bool := (q.u 2 1).testBit 1
def Query.flightNo (q : Query) : Nat := q.u 4 4
def Query.epoch (q : Query) : Nat := q.u 8 6
def Query.shard (q : Query) : Nat := q.u 24 2
def Query.coll (q : Query) : Nat := q.u 26 2
def Query.start (q : Query) : Nat := q.u 56 1

def queryCtlOk (b : List Byte) : Bool := 192 ≤ b.length && crcWithout (b.take 192) 60 4 == BitVec.ofNat 32 (leAt b 60 4)

def Query.params (q : Query) (i : CollInfo) : SParams :=
  { metric := i.metric, k := q.u 40 2, refine := q.u 42 2, overfetch := q.u 44 2, beam := if q.u 48 1 = 0 then i.beam else q.u 48 1,
    probes := if q.u 46 2 = 0 then i.probes else q.u 46 2, sieve := (q.u 2 1).testBit 0, rerank := false, hall := true,
    terms := (List.range (q.u 50 1)).map fun j => parseTerm (sub q.pay (64 + 16 * j) 16) }

/-- A shadow query is searched on the pair's follower collection, whatever shard map it has (R512). -/
def mapMatches (c : Coll) (q : Query) : Bool :=
  match c.map with
  | some m => m.hallColl == BitVec.ofNat 32 (q.u 16 4) && m.self == q.shard
  | none => false

/-- The node answers STALE (R493, R495); shadow work goes on while it serves nothing. -/
def queryStale (s : State) (q : Query) : Bool := (s.faults.nodeState ≠ 3 && !q.shadow) || s.now + 2 ≤ q.epoch

/-- REASON of checks 2 to 7 of R253, 0 when they pass. The coordinator's own shard is searched on what its flight bound: its collection may be
draining (R205). -/
def queryReason (s : State) (q : Query) : Nat :=
  if queryStale s q then 5
  else
  match Tbl.get s.store.colls q.coll with
  | none => 2
  | some c =>
    let i := c.info
    let k1 := kernelOf s i.profile 1
    let k2 := kernelOf s i.profile 2
    if (c.life = .serving ∨ (q.own = true ∧ c.life = .draining)) = false ∨ (mapMatches c q || q.shadow || q.own) = false ∨ objDiverged s (objColl q.coll) = true then 2
    else if (q.u 30 2 == i.profile && q.u 49 1 == i.metric && BitVec.ofNat 32 (q.u 36 4) == c.proj.crc &&
        q.u 52 2 == sectionSize k1.aFmt k1.group i.projDims && q.u 54 2 == sectionSize k2.aFmt k2.group i.refineDims) = false then 3
    else
      match planOf s (q.u 28 2) with
      | none => 4
      | some p =>
        if p.id ≠ BitVec.ofNat 32 (q.u 32 4) ∨ (p.flags.getLsbD 0 || q.shadow) = false then 4
        else if q.epoch + q.start + 1 ≤ s.now then 1
        else if q.replay ∧ ((c.bind q.epoch).isNone ∨ q.epoch < horizon s) then 6
        else if s.quiesce then 7
        else 0

/-- The part that a query makes: it pins its epoch record from now on (R251). DESIGN CHOICE (log entry 137): while a publication of the collection is
late, the record pinned is the older one that is published, and not the one that a flight held back under R233 would bind later. -/
def partOfQuery (s : State) (c : Coll) (p : Plan) (q : Query) (id : Nat) : Flight :=
  let i := c.info
  let k1 := kernelOf s i.profile 1
  let k2 := kernelOf s i.profile 2
  let n1 := q.u 52 2
  { (default : Flight) with
    id := id, kind := .participant, tenant := c.tenant, cls := min 3 (q.u 3 1), epoch := q.epoch, start := s.tickOf (q.epoch + q.start), planSlot := q.u 28 2,
    plan := p, obj := q.coll, bound := ((c.bind q.epoch).map (·.epoch)).getD 0, params := q.params i
    desc := { (default : Desc) with buf := q.pay }
    stages := p.stages.map fun d => { (default : StageRun) with skipped := !partRuns q.shadow p d }
    work := { (default : Work) with
      coarse := parseCodes k1.aFmt k1.group i.projDims (sub q.pay 192 n1)
      fine := parseCodes k2.aFmt k2.group i.refineDims (q.pay.drop (192 + n1)) }
    part := some ⟨q.coord, q.flightNo, q.shard, q.replay, q.shadow, false⟩ }

def addPart (s : State) (f : Flight) : State :=
  { s with sched := { s.sched with parts := s.sched.parts ++ [f], nextFlight := s.sched.nextFlight + 1 } }

/-! ## The coordinator (R249, R265 to R267, R274) -/

/-- A GONE frame of a node has come since tick count `since`. -/
def nodeGone (s : State) (since n : Nat) : Bool := s.faults.gone.any fun g => g.1 == n && since ≤ g.2

/-- Where a shard's first query goes: the primary; its valid mirror when the primary is down or has sent GONE since the map generation took
effect; or nowhere. -/
def shardDest (s : State) (since : Nat) (e : Shard) : Option (Nat × Nat) :=
  if e.down || nodeGone s since e.node then (if e.mirrorValid then some (e.mirror, e.mirrorColl) else none) else some (e.node, e.coll)

/-- No landing that counts an arrival kind has passed or been left (R63). -/
def landingOpen (f : Flight) (bit : Nat) : Bool := f.plan.landings.all fun l => !l.tests.getLsbD bit || !f.landed.contains l.no

/-- The waits that a flight may still take at its REMOTE_ARRIVED landing (R62, R64, R162): none once it has passed. -/
def waitsLeft (s : State) (f : Flight) : Nat :=
  let ok := landingOpen f 3 && f.cls ≠ 0 && f.plan.flags.getLsbD 1 && f.plan.landings.any fun l => l.tests.getLsbD 3 && l.waitOk
  let w := rdf s Reg.sched.WAIT_STEPS 2 0 - f.waits
  let d := f.desc.deadline
  if ok = false then 0 else if d = 0 then w else min w (f.desc.arrival + d - (f.start + f.plan.span + f.waits))

/-- The other node of a shard entry, where a replay may go (R266): valid is a MIRROR_NODE with MIRROR_VALID, and any NODE. DESIGN CHOICE (log entry
135): a primary that its entry marks PRIMARY_DOWN is valid too, since R266 bars a node by its GONE frame alone. -/
def replayDest (s : State) (f : Flight) (shard node : Nat) : Option (Nat × Nat) :=
  match f.map.bind fun m => m.shards[shard]? with
  | none => none
  | some e =>
    let o := if node = e.node then (if e.mirrorValid then some (e.mirror, e.mirrorColl) else none) else some (e.node, e.coll)
    match o with
    | some (n, c) => if nodeGone s ((f.map.map (·.since)).getD 0) n || f.sent.any (fun x => x.shard == shard && (x.node == n || x.replayed)) then none else some (n, c)
    | none => none

def replayable (reason : Nat) : Bool := reason = 1 || reason = 5 || reason = 7 || reason = 8 || reason = 9

def Contrib.none_ (c : Contrib) : Bool := (leAt c.hdr 2 1).testBit 0
def Contrib.total (c : Contrib) : Nat := leAt c.hdr 24 2

/-- Two fragments' headers agree: all but FRAG_NO, ENTRY_FIRST, ENTRY_COUNT and CTL_CRC. -/
def hdrsAgree (a b : List Byte) : Bool :=
  let m (h : List Byte) : List Byte := putAt (putAt (putAt (h.take 60) 18 (zeros 1)) 20 (zeros 4)) 3 (zeros 1)
  m a == m b

/-- Every fragment of a contribution has come. -/
def Contrib.whole (c : Contrib) : Bool := (List.range (leAt c.hdr 19 1)).all fun k => (Tbl.get c.frags k).isSome

/-- A fragment joins its contribution; `true` when CONTRIB_DUP counts: a fragment that came before (R259), or one that makes whole a contribution of
a shard of which another is complete (R267); that one is never marked complete. -/
def addContrib (cs : List Contrib) (b : List Byte) : List Contrib × Bool :=
  let sh := leAt b 16 2
  let snd := leAt b 52 2 % 0x8000
  let es := (chunk 32 ((b.drop 64).take (32 * leAt b 22 2))).map parseContribEntry
  let taken := cs.any fun c => c.shard == sh && c.complete && c.sender ≠ snd
  let finish (c : Contrib) : Contrib := { c with complete := c.whole && !taken }
  match cs.find? fun c => c.shard == sh && c.sender == snd with
  | none =>
    let c : Contrib := ⟨sh, snd, b.take 64, [(leAt b 18 1, es)], false⟩
    (cs ++ [finish c], c.whole && taken)
  | some c =>
    if (Tbl.get c.frags (leAt b 18 1)).isSome then (cs, true)
    else if hdrsAgree c.hdr b = false then (cs, false)
    else
      let d := { c with frags := Tbl.set c.frags (leAt b 18 1) es }
      (cs.map fun x => if x.shard = sh ∧ x.sender = snd then finish d else x, d.whole && taken)

/-- Complete contributions, at most one of each shard (R267). -/
def completeShards (f : Flight) : List Nat := (f.contribs.filter (·.complete)).map (·.shard)

def inMap (f : Flight) (shard : Nat) : Bool :=
  match f.map with
  | some m => shard < m.shards.length
  | none => false

/-! ## Delivery inside the node and over the fabric -/

/-- A query reaches a collection of this node: a part, or the REASON of a refusal. -/
def takeQuery (s : State) (q : Query) : Except Nat State :=
  let r := queryReason s q
  match Tbl.get s.store.colls q.coll, planOf s (q.u 28 2) with
  | some c, some p => if r = 0 then .ok (addPart s (partOfQuery s c p q s.sched.nextFlight)) else .error r
  | _, _ => .error (if r = 0 then 4 else r)

/-- A shard is sent to a node, within this one if it is this node; the REASON where the node itself refuses at once. -/
def sendShard (s : State) (f : Flight) (shard node coll j : Nat) (replay : Bool) : State × Option Nat :=
  match f.map, Tbl.get s.store.colls f.obj with
  | some m, some c =>
    let pay := queryPayload s f m c.info c.proj.crc shard coll j replay
    let s1 := updFlight s f.id fun x => { x with sent := x.sent ++ [⟨shard, node, replay⟩] }
    if node = selfNode s then
      match takeQuery s1 ⟨pay, false, shard == m.self⟩ with
      | .ok t => (t, none)
      | .error r => (count s1 Reg.sched.PART_REFUSED, some r)
    else (sendRake s1 0x20 f.tenant f.cls node m.hallColl.toNat f.id pay, none)
  | _, _ => (s, none)

/-- A replay of a shard lost at `node`, if R266 allows one in this step. A refusal inside this node is a NONE contribution that comes at once; no
second replay follows it. -/
def tryReplay (s : State) (id shard node : Nat) : State :=
  match flightOf s id with
  | none => s
  | some f =>
    let j := s.now - f.epoch
    match replayDest s f shard node with
    | none => s
    | some (n, c) =>
      if j ≤ waitsLeft s f then
        let (t, r) := sendShard s f shard n c j true
        raiseEvt (count (if r.isSome then count t Reg.sched.CONTRIB_NONE else t) Reg.sched.REPLAY_ISSUED) (pageBase .sched 0) 14
      else s

/-- A contribution, or a NONE, for a running flight of this coordinator; one that comes once the REMOTE_ARRIVED landing has passed is discarded
(R63, R265). -/
def takeContrib (s : State) (b : List Byte) : State :=
  let id := leAt b 4 4
  match flightOf s id with
  | none => count s Reg.sched.LATE_DISCARD
  | some f =>
    let sh := leAt b 16 2
    if f.map.isNone ∨ f.epoch ≠ leAt b 8 6 ∨ leAt b 0 2 % 0x8000 ≠ selfNode s ∨ inMap f sh = false then count s Reg.sched.LATE_DISCARD
    else if (leAt b 2 1).testBit 0 then
      let s1 := count s Reg.sched.CONTRIB_NONE
      if replayable (leAt b 3 1) then tryReplay s1 id sh (leAt b 52 2 % 0x8000) else s1
    else if f.merged ∨ landingOpen f 3 = false then count s Reg.sched.LATE_DISCARD
    else
      let (cs, dup) := addContrib f.contribs b
      let s1 := updFlight s id fun x => { x with contribs := cs }
      if dup then count s1 Reg.sched.CONTRIB_DUP else s1

/-- A part sends a payload to its coordinator. -/
def toCoord (s : State) (f : Flight) (p : PartInfo) (pay : List Byte) : State :=
  let obj := match (Tbl.get s.store.colls f.obj).bind (·.map) with
    | some m => m.hallColl.toNat
    | none => 0
  if p.coord = selfNode s then takeContrib s pay else sendRake s 0x21 f.tenant f.cls p.coord obj p.flightNo pay

/-- NONE with a REASON, for a part that ends without a contribution. -/
def sendNone (s : State) (f : Flight) (p : PartInfo) (reason : Nat) : State :=
  count (toCoord s f p (nonePayload s p.coord p.flightNo f.epoch p.shard reason p.replay)) Reg.sched.PART_REFUSED

/-- RAKE_QUERY at a participant. -/
def rakeQuery (s : State) (f : Frame) : State :=
  let q : Query := ⟨f.body, false, false⟩
  if queryCtlOk f.body = false then ctlFail s
  else
    let s1 := if s.now + 2 ≤ q.epoch then count s Reg.fault.STALE_FRAMES else s
    let s2 := match Tbl.get s.store.colls q.coll with
      | some c => meterFabric s1 c.tenant f.body.length
      | none => s1
    match takeQuery s2 q with
    | .ok t => t
    | .error r =>
      count (sendFrame s2 0x21 0 (min 3 (q.u 3 1)) q.coord (q.u 16 4) q.flightNo
        (nonePayload s q.coord q.flightNo q.epoch q.shard r q.replay)) Reg.sched.PART_REFUSED

def execRakeQuery (f : Frame) (s : State) : Host.Outcome State Fault Refusal := .next (receive s f 0x20 fun t => rakeQuery t f)

/-- RAKE_CONTRIB at the coordinator. -/
def rakeContrib (s : State) (f : Frame) : State :=
  if ctlOk f.body = false then ctlFail s
  else
    let s1 := match flightOf s (leAt f.body 4 4) with
      | some x => meterFabric s x.tenant f.body.length
      | none => s
    takeContrib s1 f.body

def execRakeContrib (f : Frame) (s : State) : Host.Outcome State Fault Refusal := .next (receive s f 0x21 fun t => rakeContrib t f)

/-- XNODE_SEND at the coordinator: one query per shard (R249); its own collections get theirs inside the node. -/
def sendShards (s : State) (id : Nat) : State :=
  match flightOf s id with
  | none => s
  | some f =>
    match f.map with
    | none => s
    | some m =>
      (m.shards.zipIdx).foldl (fun t x =>
        let d := if x.2 = m.self then some (selfNode s, f.obj) else shardDest t m.since x.1
        match d with
        | none => t
        | some (n, c) =>
          let (u, r) := sendShard t f x.2 n c 0 false
          match r with
          | some r => takeContrib u (nonePayload u (selfNode u) f.id f.epoch x.2 r false)
          | none => u) s

/-- How many queries of a flight go over the fabric (R260). -/
def remoteShards (s : State) (m : ShardMap) : Nat :=
  ((m.shards.zipIdx).filter fun x => x.2 ≠ m.self && (match shardDest s m.since x.1 with
    | some (n, _) => n ≠ selfNode s
    | none => false)).length

/-! ## The merge (R261 to R263) -/

def Contrib.entries (c : Contrib) : List RakeEntry := c.frags.flatMap (·.2)

/-- Contributions that are merged: those complete when the landing passed, the first of each shard. -/
def mergedContribs (f : Flight) : List Contrib :=
  f.contribs.foldl (fun l c => if c.complete && !l.any (·.shard == c.shard) then l ++ [c] else l) []

def capSum16 (l : List Nat) : Nat := min 0xFFFF (sumOf l id)

/-- The coordinator's flight after XNODE_MERGE. -/
def mergeFlight (f : Flight) : Flight :=
  let cs := mergedContribs f
  let rake := (sortBy RakeEntry.less (cs.flatMap Contrib.entries)).take f.params.m
  let sum (o n : Nat) : Nat := sumOf cs fun c => leAt c.hdr o n
  let bits : Nat := cs.foldl (fun w c => w ||| (leAt c.hdr 28 4 &&& 0x32B)) 0
  let short := f.params.sieve && rake.length < f.params.k && cs.any fun c => leAt c.hdr 34 2 < leAt c.hdr 32 2
  { f with
    merged := true
    flags := putBit (f.flags ||| BitVec.ofNat 32 bits) 4 short
    counts := { f.counts with
      survivors := rake.length, candidates := min 0xFFFF (sum 32 2), unrefined := min 0xFFFF (sum 26 2), shardsContributed := cs.length }
    work := { f.work with
      rake := rake, narrowed := true, nan := min 0xFFFFFFFF (f.work.nan + sum 36 4), omitted := min (2 ^ 64 - 1) (f.work.omitted + sum 40 8),
      scanned := min 0xFFFFFFFF (f.work.scanned + sum 48 4) } }

def countMerged (s : State) (f : Flight) : State :=
  let cs := mergedContribs f
  countN (countN s Reg.sched.CONTRIB_MERGED (cs.filter fun c => c.sender ≠ selfNode s).length) Reg.sched.REPLAY_MERGED
    (cs.filter fun c => (leAt c.hdr 2 1).testBit 1).length

end Sys2Proof.Machine
end

