-- ==== Sys2Proof/Machine/Results.lean ====
section
/-! DEFINITION. How flights and parts end: results (R191 to R197, R200, R217, R298), deferred completions (R498, R503), contributions not sent
(R254), and the comparison of shadow work (R512, R513). -/
namespace Sys2Proof.Machine

/-! ## Flights and parts by number -/

def workOf (s : State) (id : Nat) : Option Flight := (s.sched.flights ++ s.sched.parts).find? (·.id == id)

def updWork (s : State) (id : Nat) (g : Flight → Flight) : State := updPart (updFlight s id g) id g

def Flight.run (f : Flight) (no : Nat) : StageRun := f.stages.getD no default

def Flight.setRun (f : Flight) (no : Nat) (g : StageRun → StageRun) : Flight := { f with stages := updAt f.stages no g }

/-! ## Row batches (R293, R297) -/

def Desc.rowCount (d : Desc) : Nat := d.u 16 4
def Desc.isLookup (d : Desc) : Bool := d.op == 0x30
def Desc.withState (d : Desc) : Bool := d.flags.testBit 0

def stateBytes (t : Table) : Nat := if t.stCount = 0 then 0 else t.stCount * elemBytes t.stFmt t.cols

/-- Bytes of one row's output or gradient, and the DATA_STRIDE. -/
def rowSize (t : Table) (d : Desc) : Nat :=
  if d.isLookup then rowDataBytes t.cols t.fmt + (if d.withState then stateBytes t else 0) else t.cols * (if d.u 14 1 = 0x0D then 4 else 2)

def dataStride (t : Table) (d : Desc) : Nat := roundUp (rowSize t d) 64

def tableOf (s : State) (n : Nat) : Table := (Tbl.get s.store.tables n).getD (Table.blank 0 .empty 0)

/-- The rows that a LOOKUP writes, when it may. -/
def rowWrites (s : State) (f : Flight) : List (Nat × List Byte) :=
  let st := dataStride (tableOf s f.obj) f.desc
  (f.work.rows.zipIdx.filter fun r => r.1.done && !r.1.data.isEmpty).map fun r => (f.desc.u 32 8 + st * r.2, r.1.data)

/-- The status bytes at the end: a LOOKUP's rows that are not written read LATE. -/
def rowStatuses (f : Flight) (wrote : Bool) : List Nat :=
  f.work.rows.map fun r => if f.desc.isLookup && !(wrote && r.done) then 5 else r.status

/-! ## Queries (R191, R192, R197, R200) -/

def queryHdrOf (f : Flight) (cnt : Nat) : QueryHdr :=
  { epoch := f.epoch, flags := finalFlags f, count := cnt, profile := f.plan.profile, planId := f.plan.id, unrefined := f.counts.unrefined,
    waits := f.waits, expected := f.counts.shardsExpected, contributed := f.counts.shardsContributed, nan := f.work.nan,
    omitted := f.work.omitted, leaves := f.work.scanned, candidates := f.counts.candidates, survivors := f.counts.survivors }

/-- SCORE and ENTRY_STATUS of key `i` of a score request: the entry of order `i`, whose key holds the score once refined. -/
def scoreAt (f : Flight) (i : Nat) : Word × Nat :=
  match f.work.rake.find? (·.order == i) with
  | none => (f32nan, 1)
  | some e =>
    if e.refined then (BitVec.ofNat 32 e.key, 0)
    else if f.work.lost.contains e.slot || f.work.lostBoth.contains e.slot then (f32nan, 3) else (f32nan, 2)

def scoreEntries (f : Flight) : List (Quad × Word × Nat) := f.work.keys.zipIdx.map fun k => (k.1, (scoreAt f k.2).1, (scoreAt f k.2).2)

/-- FLASH_BACKSTAIR, COVERAGE_PARTIAL and NAN_COUNT of the score entries (R200); records that have not come are LATE only once the request has run to its
end. -/
def scoreFlags (f : Flight) (ended : Bool) : Flight :=
  let es := scoreEntries f
  let both := f.work.rake.any fun e => !e.refined && f.work.lostBoth.contains e.slot
  { f with
    flags := putBit (putBit f.flags 0 (f.flags.getLsbD 0 || es.any fun e => e.2.2 == 3 || (ended && e.2.2 == 2))) 6 (f.flags.getLsbD 6 || both)
    work := { f.work with nan := f.work.nan + (es.filter fun e => e.2.2 == 0 && f32isNan e.2.1).length } }

/-- The item keys of a result. -/
def resultKeys (f : Flight) : List Quad := (f.work.rake.take f.params.k).map (·.item)

/-- The result of a query that ends with `status`, and RESULT_COUNT. -/
def queryResult (f : Flight) (status : Nat) : List Byte × Nat :=
  if status ≠ ST_OK then
    (queryHeader f.desc.op status f.desc.tag.toNat (queryHdrOf (if f.kind = .score then scoreFlags f false else f) 0), 0)
  else if f.kind = .score then
    let g := scoreFlags f true
    (queryHeader f.desc.op status f.desc.tag.toNat (queryHdrOf g g.work.keys.length) ++ (scoreEntries g).flatMap scoreEntry, g.work.keys.length)
  else
    let ks := resultKeys f
    (queryHeader f.desc.op status f.desc.tag.toNat (queryHdrOf f ks.length) ++ ks.flatMap fun k => toLe 8 k.toNat, ks.length)

/-! ## Shadow work (R512, R513) -/

/-- What identifies a forwarded flight: coordinator, flight number and shard. -/
def shadowKey (coord no shard : Nat) : Nat := (coord * 2 ^ 32 + no) * 2 ^ 16 + shard

def skipShadow (s : State) : State := count s Reg.fault.SHADOW_SKIPPED

def setGraft (s : State) (g : Graft → Graft) : State := { s with faults := { s.faults with graft := g s.faults.graft } }

/-- A contribution can be compared: not NONE, no back stair, no NARROW_KEPT, nothing omitted. -/
def comparable (h : List Byte) : Bool := !(leAt h 2 1).testBit 0 && leAt h 28 4 &&& 0x247 == 0 && leAt h 40 8 == 0

/-- The source's fragments, when all have come. -/
def shadowFrags (s : State) (k : Nat) : Option (List (List Byte)) :=
  match Tbl.get s.faults.graft.results (k * 32) with
  | none => none
  | some b => (List.range (leAt b 19 1)).foldr (fun i acc =>
      match Tbl.get s.faults.graft.results (k * 32 + i), acc with
      | some x, some l => some (x :: l)
      | _, _ => none) (some [])

def entryKeys (b : List Byte) : List Quad := (chunk 32 ((b.drop 64).take (32 * leAt b 22 2))).map fun e => BitVec.ofNat 64 (leAt e 16 8)

/-- Both sides of a forwarded flight are here: they are compared, once. -/
def compareShadow (s : State) (k : Nat) : State :=
  match Tbl.get s.faults.graft.own k, shadowFrags s k with
  | some (h, mine), some frags =>
    let theirs := frags.flatMap entryKeys
    let s1 := setGraft s fun g => { g with own := Tbl.del g.own k, results := g.results.filter fun p => p.1 / 32 ≠ k }
    if comparable h = false ∨ comparable (frags.headD []) = false then skipShadow s1
    else if mine = theirs then countBy (count s1 Reg.fault.SHADOW_MATCHES) Reg.fault.SHADOW_RUN 1
    else
      let s2 := wr (count s1 Reg.fault.SHADOW_MISMATCHES) Reg.fault.SHADOW_RUN 0
      let s3 := if rd64 s2 Reg.fault.FIRST_MISMATCH = 0 then wr64 s2 Reg.fault.FIRST_MISMATCH (leAt h 8 6) else s2
      raiseEvt s3 (pageBase .fault 0) 9
  | _, _ => s

/-- A shadow part has its survivors, or ends without them. -/
def shadowOwn (s : State) (f : Flight) (p : PartInfo) (ok : Bool) : State :=
  let k := shadowKey p.coord p.flightNo p.shard
  if ok then
    let h := (contribFrags s f p).headD []
    compareShadow (setGraft s fun g => { g with own := Tbl.set g.own k (h.take 64, f.work.rake.map (·.item)) }) k
  else skipShadow (setGraft s fun g => { g with results := g.results.filter fun p => p.1 / 32 ≠ k })

/-- The source's survivors go to the follower as SHADOW_RESULT. -/
def sendShadowResult (s : State) (f : Flight) : State :=
  match sourceOf s (objColl f.obj), f.shadow with
  | some i, true =>
    let p : PartInfo := match f.part with
      | some p => p
      | none => ⟨selfNode s, f.id, (match (Tbl.get s.store.colls f.obj).bind (·.map) with | some m => m.self | none => 0), false, false, true⟩
    let s1 := (contribFrags s f p).foldl (fun t b => sendFrame t 0x59 1 3 (pairAt s i).peer (hallObj s (objColl f.obj)) p.flightNo b) s
    updWork s1 f.id fun x => { x with shadow := false }
  | _, _ => s

/-! ## The end of a flight or part -/

def Pass.without (p : Pass) (id : Nat) : Pass := { p with flights := p.flights.filter (· ≠ id) }

/-- The flight leaves the scheduler and the queued passes (R207). -/
def dropFlight (s : State) (id : Nat) : State :=
  { s with
    sched := { s.sched with flights := s.sched.flights.filter (·.id ≠ id), parts := s.sched.parts.filter (·.id ≠ id) }
    mem := { s.mem with near := s.mem.near.map fun u =>
      { u with queue := (u.queue.map (·.without id)).filter fun p => !p.flights.isEmpty } } }

/-- A scatter batch on a paired source completes once the units with its rows are acknowledged (R503). -/
def holdRows (s : State) (f : Flight) (act : Deferred) : State :=
  match sourceOf s (objTable f.obj) with
  | none => runDeferred s act
  | some i =>
    let q := ((pairAt s i).units.filter fun u => u.typ == 0x53 && u.flight == f.id).map (·.seq)
    if q.isEmpty then runDeferred s act else { s with faults := { s.faults with held := s.faults.held ++ [⟨i, q, act⟩] } }

/-- The result buffer's header writes, where R196 lets a header be written. -/
def hdrWrite (d : Desc) (b : List Byte) : List (Nat × List Byte) := if d.hdrOk then [(d.resultAddr, b)] else []

/-- REASON of a part that ends without contributing (R254). -/
def endReason (status : Nat) : Nat := if status = ST_NODE_FAULT then 9 else 8

/-- The result of a batch that ends without a commit (R214, R217). -/
def updateEnded (s : State) (f : Flight) (status : Nat) : List Byte × State :=
  let (durable, s1) := freshEpoch s
  (updateResult f.desc.op status f.desc.tag.toNat
    { items := List.replicate f.desc.items 5, sat := f.work.sat, nan := f.work.nan, durable := durable }, s1)

/-- What COPY prepared for a batch that ends without a commit is released (R214), and no store holds lines of it. -/
def releaseCopy (s : State) (f : Flight) : State :=
  let s1 := { s with chip := { s.chip with galleries := s.chip.galleries.map fun g => { g with lines := g.lines.filter fun d => d.flight ≠ f.id } } }
  match Tbl.get s1.store.colls f.obj with
  | some c => setSeedHigh (putColl s1 f.obj (settleCopy f.id false c))
  | none => setSeedHigh s1

/-- A flight or part ends with a status. An update batch ends here without a commit. -/
def endFlight (s : State) (f : Flight) (status : Nat) : State :=
  let s1 := dropFlight s f.id
  let d := f.desc
  match f.part, f.kind with
  | some p, _ => if p.shadow then shadowOwn s1 f p false else sendNone s1 f p (endReason status)
  | none, .insert | none, .delete =>
    let (b, s2) := updateEnded (releaseCopy s1 f) f status
    countRefused (abortPrep s2 f (.finish d status 0 d.items (hdrWrite d b) f.silent)) status
  | none, .lookup =>
    let wrote := status == ST_OK || status == ST_LANDING_FAILED
    let b := rowResult d.op status d.tag.toNat f.epoch (rowStatuses f wrote)
    let ws := if wrote then rowWrites s f else []
    settleTable (complete s1 d status f.epoch d.rowCount (ws ++ hdrWrite d b) f.silent) f.obj
  | none, .scatter =>
    let b := rowResult d.op status d.tag.toNat f.epoch (rowStatuses f true)
    settleTable (holdRows s1 f (.finish d status f.epoch d.rowCount (hdrWrite d b) f.silent)) f.obj
  | none, .rowServe => settleTable s1 f.obj
  | none, _ =>
    let (b, n) := queryResult f status
    complete s1 d status f.epoch n (hdrWrite d b) f.silent

/-- The status of a flight that would end with LANDING_FAILED (R478). -/
def failStatus (s : State) (f : Flight) : Nat :=
  if s.faults.c1Set.any fun p => f.epoch ≤ p.2 && bitsOf (rd64 s Reg.fault.FAULT_STATUS) p.1 p.1 == 1 then ST_NODE_FAULT else ST_LANDING_FAILED

def failFlight (s : State) (f : Flight) : State := endFlight s f (failStatus s f)

end Sys2Proof.Machine
end

