-- ==== Sys2Proof/Machine/Rows.lean ====
section
/-! DEFINITION. Row batches (R293 to R303): the checks on a descriptor, ROW_REQ and ROW_REPLY frames, and the progress of LOOKUP and SCATTER. -/
namespace Sys2Proof.Machine

/-! ## The descriptor (R293, R294) -/

def descF32 (d : Desc) (o : Nat) : Word := BitVec.ofNat 32 (d.u o 4)

/-- The optimiser parameters that a table's optimiser uses, by offset. -/
def optFields (opt : Nat) : List Nat := if opt = 1 then [64] else if opt = 2 then [64, 76] else if opt = 3 then [64, 68, 72, 76, 80, 84] else []

/-- DETAIL of a row batch descriptor. -/
def rowDetail (t : Table) (grant : Nat) (d : Desc) : Nat :=
  let n := d.rowCount
  let lk := d.isLookup
  let used := if lk then [] else optFields t.opt
  firstFail [
    (0x09, d.cls ≤ 3 && grant ≤ d.cls && (lk || 1 ≤ d.cls)), (0x0B, 64 + n ≤ d.resultBytes),
    (0x0C, d.u 24 8 % 8 == 0 && d.u 32 8 % 64 == 0 && d.resultAddr % 64 == 0),
    (0x0D, d.flags < (if lk then 2 else 1) && d.u 15 1 == 0 && d.u 22 2 == 0 && d.u 56 4 == 0 && allZero (sub d.bytes 88 168) &&
      [64, 68, 72, 76, 80, 84].all fun o => used.contains o || d.u o 4 == 0),
    (0x0E, if lk then d.deadline ≤ 4095 else d.deadline == 0),
    (0x10, if lk then !d.withState || t.placement == 0 else !t.readOnly && t.placement ≠ 1 && t.opt ≠ 0),
    (0x11, 1 ≤ n && n ≤ 65536), (0x12, if lk then d.u 14 1 == 0 else d.u 14 1 == 0x0C || d.u 14 1 == 0x0D),
    (0x13, n * dataStride t d ≤ d.u 52 4),
    (0x14, used.all fun o => f32isFinite (descF32 d o) && ((o ≠ 80 && o ≠ 84) || fld (descF32 d o) 30 0 ≠ 0))]

/-! ## The batch's rows -/

/-- The owner of a key when it is another node (R295). -/
def ownerOf (t : Table) (key : Quad) : Option (Nat × Bool × Nat) :=
  if t.placement = 2 ∧ ownerIndex t key ≠ t.self then t.owners[ownerIndex t key]? else none

/-- Where a sub-batch goes: NODE, or MIRROR under the GONE rule of R249, since the table took effect. -/
def ownerDest (s : State) (since : Nat) (o : Nat × Bool × Nat) : Option Nat :=
  if nodeGone s since o.1 then (if o.2.1 then some o.2.2 else none) else some o.1

/-- The rows at admission. -/
def batchRows (t : Table) (d : Desc) : List RowItem :=
  let st := dataStride t d
  (List.range d.rowCount).map fun i =>
    let key : Quad := BitVec.ofNat 64 (leAt d.keys (8 * i) 8)
    { key := key, grad := if d.isLookup then [] else sub d.buf (st * i) (rowSize t d), status := if d.isLookup then 5 else 4, data := [],
      done := false, remote := match ownerOf t key with
        | some o => o.1 + 1
        | none => 0 }

def setRow (f : Flight) (i : Nat) (g : RowItem → RowItem) : Flight := { f with work := { f.work with rows := updAt f.work.rows i g } }

/-! ## Frames (R296) -/

/-- The number of a hall table at the node that receives a frame about it. The owner list names nodes alone, and no rule says how a node knows the
number of a table at another (DESIGN CHOICE, log entry 138): a free value. -/
def remoteTable (node : Nat) (hall : Word) : Nat := (Config.tableAt node hall).toNat

def rowHdr (coord kind flightNo epoch hall table n : Nat) : List Byte :=
  let h := toLe 2 coord ++ toLe 1 kind ++ zeros 1 ++ toLe 4 flightNo ++ toLe 8 epoch ++ toLe 4 hall ++ toLe 2 table ++ toLe 2 n ++ zeros 36
  h ++ toLe 4 (crc32c (h ++ zeros 4)).toNat

/-- Entries in frames of at most 8,192 bytes of payload. -/
def rowFrames (coord kind flightNo epoch hall table : Nat) (es : List (List Byte)) : List (List Byte) :=
  let per := max 1 (8128 / max 1 ((es.map List.length).foldl max 1))
  (chunk per es).map fun c => rowHdr coord kind flightNo epoch hall table c.length ++ c.flatten

/-- ROW_REQ frames for the rows `l` of a batch, by destination; a row whose owner is gone and has no mirror is not sent. -/
def sendRows (s : State) (f : Flight) (t : Table) (l : List (RowItem × Nat)) : State :=
  let dest (r : RowItem) : Option Nat := (ownerOf t r.key).bind (ownerDest s t.since)
  let nodes := (l.filterMap fun r => dest r.1).eraseDups
  nodes.foldl (fun u n =>
    let mine := l.filter fun r => dest r.1 == some n
    let es := mine.map fun r => toLe 8 r.1.key.toNat ++ toLe 4 r.2 ++ zeros 4 ++ r.1.grad
    let u1 := (rowFrames (selfNode u) f.desc.op f.id f.epoch t.hall.toNat (remoteTable n t.hall) es).foldl
      (fun v b => sendRake v 0x30 f.tenant f.cls n t.hall.toNat f.id b) u
    updFlight u1 f.id fun x => mine.foldl (fun x r => setRow x r.2 fun y =>
      { y with remote := n + 1, status := if f.desc.isLookup then y.status else 7 }) x) s

/-- How many ROW_REQ frames the rows of a LOOKUP need: entries of 16 bytes, a set of frames for each destination. -/
def rowReqFrames (s : State) (t : Table) (rows : List RowItem) : Nat :=
  let dests := rows.filterMap fun r => (ownerOf t r.key).bind (ownerDest s t.since)
  sumOf dests.eraseDups fun n => ceilDiv (dests.filter (· == n)).length 508

/-! ## LOOKUP and SCATTER on this node (R297, R299 to R303, R503) -/

/-- A row whose mapping cannot be read does not arrive (R355). -/
def rowUnmapped (s : State) (n : Nat) (key : Quad) : Bool :=
  let t := tableOf s n
  match rowFind n t key with
  | none => false
  | some idx => !t.pinHbm && (Tbl.get s.mem.flash.plots ((4096 + n) * 2 ^ 32 + rowOff (tableRowBytes t) idx / 262144)).any (·.ok == (false, false))

/-- The index of a key's row that a graft has not copied yet. -/
def rowMissing (s : State) (n : Nat) (key : Quad) : Option Nat :=
  let t := tableOf s n
  (rowFind n t key).bind fun i => if (Tbl.get t.rows i).any (·.missing) then some i else none

/-- A row that the cache holds is read from it (R324). -/
def rowRead (s : State) (n : Nat) (key : Quad) : State :=
  let t := tableOf s n
  match rowFind n t key with
  | some i =>
    let rb := tableRowBytes t
    if !t.pinHbm && spanResident s (4096 + n) (rowOff rb i) rb then cacheHit s (4096 + n) (rowOff rb i) rb else s
  | none => s

/-- A row need not be fetched: it does not lie in a LOST range, or the cache holds it, or its fetch has come. -/
def rowFetched (s : State) (n : Nat) (r : RowItem) : Bool :=
  let t := tableOf s n
  match rowFind n t r.key with
  | none => true
  | some i => rowLost s n t i ≠ 1 || spanResident s (4096 + n) (rowOff (tableRowBytes t) i) (tableRowBytes t) || !r.data.isEmpty

/-- A LOST row is asked of the mirror node, unless it has been (R306). -/
def fetchRow (s : State) (f : Flight) (r : RowItem) (i : Nat) : State :=
  let t := tableOf s f.obj
  let rb := tableRowBytes t
  match rowFind f.obj t r.key with
  | none => s
  | some idx =>
    if s.faults.graft.reads.any fun x => x.2.flight == f.id && x.2.row && x.2.idx == i then s
    else mirrorRead s (4096 + f.obj) f.cls (readFor f.id true i (rowOff rb idx) rb)

/-- The LOST rows of scatter work are fetched before they are updated. -/
def fetchRows (s : State) (f : Flight) : State :=
  (f.work.rows.zipIdx.filter fun r => r.1.remote == 0 && !r.1.done && !rowFetched s f.obj r.1).foldl (fun u r => fetchRow u f r.1 r.2) s

/-- Local rows of a batch or a request are read; one that a graft has not copied is read from the source (R511), one of a LOST range from the mirror
node (R306). -/
def gatherRows (s : State) (f : Flight) : State :=
  let rb := tableRowBytes (tableOf s f.obj)
  (f.work.rows.zipIdx.filter fun r => r.1.remote == 0 && !r.1.done && !(f.kind == .lookup && rowUnmapped s f.obj r.1.key)).foldl (fun u r =>
    match rowMissing u f.obj r.1.key with
    | some i => remoteRead u (objTable f.obj) f.cls (readFor f.id true r.2 (rowOff rb i) rb)
    | none => if rowFetched u f.obj r.1 = false then fetchRow u f r.1 r.2 else
      let (v, st, dat) := lookupRow (rowRead u f.obj r.1.key) f.obj f.desc.withState r.1.key
      updWork v f.id fun x => setRow x r.2 fun y => { y with status := st, data := dat, done := true }) s

/-- ROW_EXCHANGE: the sub-batches of a LOOKUP go to their owners. -/
def exchangeRows (s : State) (f : Flight) : State :=
  if f.desc.isLookup then sendRows s f (tableOf s f.obj) (f.work.rows.zipIdx.filter fun r => r.1.remote ≠ 0 && !r.1.done) else s

/-- A gradient as FP32, for the mirror stream. -/
def gradF32 (cols fmt : Nat) (g : List Byte) : List Byte := (vecOf fmt g cols).flatMap fun v => toLe 4 v.toNat

/-- Updated rows of a paired table, in the order applied, as a MIRROR_ROWS unit. -/
def streamRows (s : State) (n : Nat) (cls flight epoch : Nat) (params : List Byte) (es : List (List Byte)) : State :=
  match sourceOf s (objTable n) with
  | some i => if es.isEmpty then s else stream s i 0x53 0x31 epoch cls flight es.length (fragsOf params es)
  | none => s

/-- A row that was fetched takes the value that came. -/
def putFetched (s : State) (n : Nat) (key : Quad) (b : List Byte) : State :=
  let t := tableOf s n
  match b.isEmpty, rowFind n t key with
  | false, some i => setTable s n { t with rows := Tbl.upd t.rows i fun y => { y with cur := parseRow t b } }
  | _, _ => s

/-- One local row of a SCATTER: its status, and the entry of the mirror stream when it changed the table. -/
def applyRow (s : State) (n tenant : Nat) (p : OptParams) (fmt : Nat) (key : Quad) (grad fetched : List Byte) : State × Nat × List (List Byte) :=
  let (s1, st) := scatterRow (putFetched s n key fetched) n p fmt key grad
  if st = 0 ∨ st = 2 then
    (meter s1 tenant 7 1, st, [toLe 8 key.toNat ++ zeros 8 ++ gradF32 (tableOf s n).cols fmt grad])
  else (s1, st, [])

/-- A received sub-batch of SCATTER rows. -/
def subBatch (f : Flight) : Bool := f.kind == .rowServe && leAt f.desc.buf 2 1 == 0x31

/-- The scatter work of a table runs one batch, or one received sub-batch, at a time, in the order of admission or acceptance (R301), which flight
numbers follow. -/
def scatterTurn (s : State) (f : Flight) : Bool :=
  !(s.sched.flights.any fun g => g.kind == .scatter && g.obj == f.obj && g.id < f.id && g.work.rowPos < g.work.rows.length) &&
  !(s.sched.parts.any fun g => subBatch g && g.obj == f.obj && g.id < f.id)

/-- BATCH_PROGRESS and BATCH_TAG show the batch whose turn it is (R302). -/
def showBatch (s : State) (f : Flight) : State :=
  if f.kind = .scatter ∧ scatterTurn s f then setTable s f.obj { tableOf s f.obj with progress := f.work.rowPos, tag := f.desc.tag } else s

/-- A SCATTER batch advances to row `upto`, or to the first row that is still to be fetched: local rows are updated in batch order, rows of other owners
are sent. -/
def scatterTo (s : State) (f : Flight) (upto : Nat) : State :=
  if scatterTurn s f = false then s
  else
    let t := tableOf s f.obj
    let d := f.desc
    let todo := ((f.work.rows.zipIdx.drop f.work.rowPos).take (upto - f.work.rowPos)).takeWhile fun r => r.1.remote ≠ 0 || rowFetched s f.obj r.1
    let (s1, es) := (todo.filter fun r => r.1.remote == 0).foldl (fun (a : State × List (List Byte)) r =>
      let (u, st, e) := applyRow a.1 f.obj f.tenant (optOf d.bytes) (d.u 14 1) r.1.key r.1.grad r.1.data
      (updFlight u f.id fun x => setRow x r.2 fun y => { y with status := st, data := [], done := true }, a.2 ++ e)) (s, [])
    let s2 := streamRows s1 f.obj f.cls f.id f.epoch (sub d.bytes 64 24) es
    let s3 := sendRows s2 f t (todo.filter fun r => r.1.remote ≠ 0)
    let s4 := updFlight s3 f.id fun x => { x with work := { x.work with rowPos := f.work.rowPos + todo.length } }
    setTable s4 f.obj { tableOf s4 f.obj with progress := f.work.rowPos + todo.length, tag := d.tag }

/-- The batch that comes after one whose rows are done is the one shown. -/
def showNext (s : State) (n : Nat) : State :=
  match s.sched.flights.find? fun f => f.kind == .scatter && f.obj == n && f.work.rowPos < f.work.rows.length && f.stages.any (·.started) with
  | some f => showBatch s f
  | none => s

/-- Every row sent has been answered, or its owner is gone. -/
def rowsAnswered (f : Flight) : Bool := !(f.work.rows.any fun r => r.status == 7 && !r.done)

/-! ## The owner (R296, R301, R503) -/

/-- ROW_REPLY frames to the coordinator; those about rows of a paired table wait for the mirror (R503). -/
def sendReply (s : State) (b : List Byte) (cls : Nat) (wait : List Nat) (pair : Nat) (es : List (List Byte)) : State :=
  (rowFrames (leAt b 0 2) (leAt b 2 1) (leAt b 4 4) (leAt b 8 6) (leAt b 16 4)
    (remoteTable (leAt b 0 2 % 0x8000) (BitVec.ofNat 32 (leAt b 16 4))) es).foldl (fun u p =>
    if wait.isEmpty then sendFrame u 0x31 0 cls (leAt b 0 2 % 0x8000) (leAt b 16 4) (leAt b 4 4) p
    else { u with faults := { u.faults with
      held := u.faults.held ++ [⟨pair, wait, .reply cls (leAt b 0 2 % 0x8000) (leAt b 16 4) (leAt b 4 4) p⟩] } }) s

/-- The entries of a ROW_REQ: key, index, gradient. -/
def reqEntries (b : List Byte) : List (Quad × Nat × List Byte) :=
  let n := leAt b 22 2
  let sz := max 16 ((b.length - 64) / max 1 n)
  (List.range n).map fun i =>
    let e := sub b (64 + sz * i) sz
    (BitVec.ofNat 64 (leAt e 0 8), leAt e 8 4, e.drop 16)

/-- A SERVING table of that hall table on a node that serves; SCATTER not on a follower. -/
def reqServed (s : State) (b : List Byte) : Bool :=
  s.faults.nodeState == 3 && (match Tbl.get s.store.tables (leAt b 20 2) with
    | some t => t.life == .serving && t.hall == BitVec.ofNat 32 (leAt b 16 4) && (leAt b 2 1 == 0x30 || (followerOf s (objTable (leAt b 20 2))).isNone)
    | none => false)

/-- An accepted ROW_REQ waits as work of this node until an open instant. -/
def servePart (s : State) (b : List Byte) (cls : Nat) : Flight :=
  { (default : Flight) with
    id := s.sched.nextFlight, kind := .rowServe, obj := leAt b 20 2, cls := cls, epoch := s.now, start := s.ticks + 1
    tenant := (tableOf s (leAt b 20 2)).tenant, desc := { (default : Desc) with buf := b } }

/-- ROW_REQ at an owner. -/
def rowReq (s : State) (f : Frame) : State :=
  let b := f.body
  if ctlOk b = false then ctlFail s
  else
    let s1 := match Tbl.get s.store.tables (leAt b 20 2) with
      | some t => meterFabric s t.tenant b.length
      | none => s
    if reqServed s b then addPart s1 (servePart s1 b (min 3 f.cls))
    else sendReply s1 b (min 3 f.cls) [] 0 ((reqEntries b).map fun e => toLe 4 e.2.1 ++ toLe 1 1 ++ zeros 3)

def execRowReq (f : Frame) (s : State) : Host.Outcome State Fault Refusal := .next (receive s f 0x30 fun t => rowReq t f)

/-- The optimiser parameters of a received sub-batch: the frame carries none (log entry 20). -/
def freshParams (s : State) : OptParams × State :=
  let (a, s1) := freshWord s
  let (b, s2) := freshWord s1
  let (c, s3) := freshWord s2
  let (d, s4) := freshWord s3
  let (e, s5) := freshWord s4
  let (g, s6) := freshWord s5
  (⟨a, b, c, d, e, g⟩, s6)

/-- A LOOKUP request is answered once its rows have been read; its reply frames are booked in this step (R296). -/
def serveLookup (s : State) (f : Flight) : State :=
  let b := f.desc.buf
  let s1 := gatherRows s f
  match workOf s1 f.id with
  | none => s1
  | some g =>
    if g.work.rows.all (·.done) then
      let out := ((reqEntries b).zip g.work.rows).map fun e => toLe 4 e.1.2.1 ++ toLe 1 e.2.status ++ zeros 3 ++ e.2.data
      let n := (rowFrames 0 0 0 0 0 0 out).length
      let s2 := sendReply (dropFlight s1 f.id) b f.cls [] 0 out
      let s3 := { s2 with sched := { s2.sched with served := s2.sched.served ++ [⟨f.id, s.ticks, f.tenant, f.cls, n⟩] } }
      settleTable (meterFabric s3 f.tenant (64 + (out.map List.length).foldl (· + ·) 0)) f.obj
    else s1

/-- A sub-batch of SCATTER rows is applied in one go once its turn has come and its LOST rows have been fetched. -/
def serveScatter (s : State) (f : Flight) : State :=
  if scatterTurn s f = false then s
  else if f.work.rows.all (rowFetched s f.obj) = false then fetchRows s f
  else
    let b := f.desc.buf
    let es := (reqEntries b).zip (f.work.rows.map (·.data))
    let done (u : State) (wait : List Nat) (pair : Nat) (out : List (List Byte)) : State :=
      settleTable (meterFabric (sendReply u b f.cls wait pair out) f.tenant (64 + (out.map List.length).foldl (· + ·) 0)) f.obj
    let fmt := if ((es.head?.map (·.1.2.2.length)).getD 0) = (tableOf s f.obj).cols * 4 then 0x0D else 0x0C
    let (p, s1) := freshParams (dropFlight s f.id)
    let (u, out, ms) := es.foldl (fun (a : State × List (List Byte) × List (List Byte)) e =>
      let (v, st, m) := applyRow a.1 f.obj f.tenant p fmt e.1.1 e.1.2.2 e.2
      (v, a.2.1 ++ [toLe 4 e.1.2.1 ++ toLe 1 st ++ zeros 3], a.2.2 ++ m)) (s1, [], [])
    let u1 := streamRows u f.obj f.cls f.id f.epoch (([p.lr, p.beta1, p.beta2, p.eps, p.bc1, p.bc2]).flatMap fun w => toLe 4 w.toNat) ms
    match sourceOf u1 (objTable f.obj), ms with
    | some i, _ :: _ => done u1 [(pairAt u1 i).seq] i out
    | _, _ => done u1 [] 0 out

/-- An accepted ROW_REQ is served at an open instant (R296, R301). -/
def serveRows (s : State) (f : Flight) : State :=
  let g : Flight := if f.work.rows = [] then
      { f with work := { f.work with rows := (reqEntries f.desc.buf).map fun e => { (default : RowItem) with key := e.1 } } }
    else f
  let s1 := updPart s f.id fun _ => g
  if subBatch f then serveScatter s1 g else serveLookup s1 g

/-! ## The coordinator's replies (R295, R63) -/

/-- The entries of a ROW_REPLY: index, status, row data. -/
def replyEntries (b : List Byte) (size : Nat) : List (Nat × Nat × List Byte) :=
  let n := leAt b 22 2
  let sz := if b.length = 64 + n * (8 + size) then 8 + size else 8
  (List.range n).map fun i =>
    let e := sub b (64 + sz * i) sz
    (leAt e 0 4, leAt e 4 1, e.drop 8)

/-- ROW_REPLY: rows reach their batch; replies after the landing, or to no running batch, are discarded. -/
def rowReply (s : State) (f : Frame) : State :=
  let b := f.body
  if ctlOk b = false then ctlFail s
  else
    match flightOf s (leAt b 4 4) with
    | none => count s Reg.sched.LATE_DISCARD
    | some x =>
      if (x.kind ≠ .lookup ∧ x.kind ≠ .scatter) ∨ x.epoch ≠ leAt b 8 6 ∨ x.desc.op ≠ leAt b 2 1 ∨ (x.kind = .lookup ∧ landingOpen x 4 = false) then
        count s Reg.sched.LATE_DISCARD
      else
        let size := if x.kind = .lookup then rowSize (tableOf s x.obj) x.desc else 0
        updFlight (meterFabric s x.tenant b.length) x.id fun x => (replyEntries b size).foldl (fun x e => setRow x e.1 fun r =>
          if r.remote = f.src + 1 ∧ r.done = false then { r with status := e.2.1, data := if x.kind = .lookup then padTo e.2.2 size 0 else [], done := true }
          else r) x

def execRowReply (f : Frame) (s : State) : Host.Outcome State Fault Refusal := .next (receive s f 0x31 fun t => rowReply t f)

/-- The owner of rows sent sent GONE: they read UNKNOWN (R303). -/
def ownerGone (s : State) (node : Nat) : State :=
  { s with sched := { s.sched with flights := s.sched.flights.map fun f =>
    if f.kind = .scatter then { f with work := { f.work with rows := f.work.rows.map fun r =>
      if r.remote = node + 1 ∧ r.status = 7 then { r with done := true } else r } }
    else f } }

end Sys2Proof.Machine
end

