-- ==== Sys2Proof/Machine/Stages.lean ====
section
/-! DEFINITION. What the stages of flights and parts do when they complete (R49, R62 to R65, R69 to R73, R164 to R190, R199, R214, R261, R283 to
R288, R110 to R119), and the commit of update batches (R215, R79). -/
namespace Sys2Proof.Machine

/-! ## Common parts -/

def Flight.isSearch (f : Flight) : Bool := f.kind == .search || f.kind == .participant

def collOf (s : State) (f : Flight) : Coll := (Tbl.get s.store.colls f.obj).getD default
def boundVersion (c : Coll) (f : Flight) : Version := (c.versions.find? (·.epoch == f.bound)).getD default
def ownShard (f : Flight) : Nat :=
  match f.part with
  | some p => p.shard
  | none => 0

/-- The physical tiles of a stage. -/
def stageTiles (f : Flight) (d : StageDef) : List Nat :=
  match f.plan.rsets[d.rset]? with
  | some r => setTiles r f.gmap
  | none => []

/-- The lead tile of the layers of a stage (R113, R283). -/
def leadTile (f : Flight) (d : StageDef) : Nat :=
  match stageTiles f d with
  | [] => 0
  | a :: r => r.foldl min a

/-- SAT_TOTAL and NAN_TOTAL of the tiles that converted (R101): the only tile of the stage, or shares that the manual leaves open. -/
def tileStats (s : State) (f : Flight) (d : StageDef) (sat nan : Nat) : State :=
  match stageTiles f d with
  | [t] => countBy (countBy s (Reg.tile.SAT_TOTAL t) sat) (Reg.tile.NAN_TOTAL t) nan
  | ts =>
    let s1 := if sat = 0 then s else ts.foldl (fun u t => countBy u (Reg.tile.SAT_TOTAL t) (Config.tileShare f.id d.no t sat)) s
    if nan = 0 then s1 else ts.foldl (fun u t => countBy u (Reg.tile.NAN_TOTAL t) (Config.tileShare f.id d.no t nan)) s1

def Flight.background (f : Flight) : Bool := f.plan.flags.getLsbD 2

/-! ## Trace packets of stages and landings (R536) -/

/-- The CHANNEL of a packet: 0xFFFF for background work; a part has no channel, and the manual gives none: a free value (log entry 6). -/
def traceChan (s : State) (f : Flight) : Nat × State :=
  if f.background then (0xFFFF, s)
  else if f.part.isSome then
    let (w, s1) := freshWord s
    (w.toNat % 0x10000, s1)
  else (f.desc.chan, s)

/-- STAGE packets of a stage's tiles on the galleries `gs`. -/
def traceStage (s : State) (f : Flight) (d : StageDef) (gs : List Nat) (sflags : Nat) : State :=
  ((stageTiles f d).filter fun t => gs.contains (t / 16)).foldl (fun u t =>
    let (c, v) := traceChan u f
    emitStage v (t / 16) c (f.epoch % 0x10000) d.no (t % 16) sflags d.kind) s

/-- A LANDING packet, by the gallery of the flight's lead tile: that of its first stage with tiles. -/
def traceLanding (s : State) (f : Flight) (no outcome : Nat) : State :=
  match f.plan.stages.findSome? fun d => (stageTiles f d).head? with
  | some t =>
    let (c, v) := traceChan s f
    emitLanding v (t / 16) c (f.epoch % 0x10000) (no % 256) outcome
  | none => s

/-! ## Common parts (continued) -/

def setWork (f : Flight) (g : Work → Work) : Flight := { f with work := g f.work }

/-- Another stage of the same kind is still to complete. -/
def moreOfKind (f : Flight) (d : StageDef) : Bool := f.plan.stages.any fun x => x.no ≠ d.no && x.kind == d.kind && !(f.run x.no).over

/-! ## Back stairs (R65, R69, R184) -/

/-- A back stair at offset `o`: its stages, those before its resumption and the unfinished ones before `o` are left out. -/
def skipStages (f : Flight) (b : BackDef) (o : Nat) : Flight :=
  { f with stages := f.stages.zipIdx.map fun x =>
    let off := match f.plan.stages[x.2]? with
      | some d => d.off
      | none => 0
    if x.1.complete = false ∧ ((b.first ≤ x.2 ∧ x.2 < b.resume) ∨ off < o) then { x.1 with skipped := true } else x.1 }

def backFlag (f : Flight) (b : BackDef) : Word := if b.kind = 1 ∧ f.params.refine = 0 then f.flags else setBit f.flags (b.kind - 1)

def takeBack (s : State) (f : Flight) (b : BackDef) (o : Nat) : State :=
  updWork (meter (count s Reg.sched.BACKSTAIR_COUNT) f.tenant 8 1) f.id fun x => { skipStages x b o with flags := backFlag x b }

/-! ## PROJECT and DESCEND (R164, R214, R220) -/

/-- NaN inputs of an item's conversions to codes. -/
def itemNan (s : State) (c : Coll) (x : List Word) : Nat × Nat :=
  let (y, sa, na) := project (kernelOf s c.info.profile 0) c.proj x
  (sa, na + (x.filter f32isNan).length + (y.filter f32isNan).length)

/-- PROJECT: the query's codes, or every item of an INSERT. -/
def projectStage (s : State) (f : Flight) (d : StageDef) : State :=
  let c := collOf s f
  if f.kind = .search ∨ f.kind = .score then
    let x := prepared c.info.metric f.work.vec
    let (co, fi, sat, nan) := queryCodes s c x
    tileStats (updWork s f.id fun g => { g with
      work := { g.work with vec := x, coarse := co, fine := fi, sat := g.work.sat + sat }
      counts := { g.counts with vecNan := g.counts.vecNan + nan } }) f d sat nan
  else if f.kind = .insert then
    let items := (List.range f.desc.items).map (projectItem s c f.desc)
    let conv := (List.range f.desc.items).map fun i => itemNan s c (prepared c.info.metric (itemVec f.desc i))
    let sat := sumNat (items.map (·.2.1))
    tileStats (updWork s f.id fun g => setWork g fun w =>
      { w with items := items.map (·.1), sat := sat, nan := sumNat (items.map (·.2.2)) }) f d (sat + sumNat (conv.map (·.1))) (sumNat (conv.map (·.2)))
  else s

/-- DESCEND of an INSERT: every item's partition. Without a readable root the batch cannot be placed, and ends NOT_READY (log entry 22). -/
def descendStage (s : State) (f : Flight) (d : StageDef) : State :=
  if f.kind ≠ .insert ∨ moreOfKind f d = true then s
  else
    let c := collOf s f
    let v := boundVersion c f
    let k1 := kernelOf s c.info.profile 1
    let parts := f.work.items.map fun i => choosePartition k1 c.info v (placement s c.info i.coarse)
    let conv := f.work.items.map fun i => placementOut s c.info i.coarse
    let (sat, nan) := (sumNat (conv.map outSat), sumNat (conv.map outNan))
    let fails := ((v.node 1 0).map NodeBlk.fails).getD 0
    let s1 := trellisFails s fails
    if parts.any (·.isNone) then endFlight s1 f ST_NOT_READY
    else
      tileStats (updWork s1 f.id fun g => setWork g fun w =>
        { w with items := (w.items.zip parts).map fun x => { x.1 with part := x.2.getD 0 }, sat := w.sat + sat, nan := w.nan + nan }) f d sat nan

/-! ## LEAF_SELECT, the scans and RAKE_MERGE (R168 to R180, R317) -/

/-- The flights and parts in the order of their admission (R396): by admission step, then number. -/
def admittedBefore (s : State) (a b : Nat) : Bool :=
  let at_ (id : Nat) : Nat := ((workOf s id).map fun f => f.start + (if f.part.isSome then 1 else 0)).getD 0
  at_ a < at_ b || (at_ a == at_ b && a < b)

/-- A flight joins the passes on a block in a scan step that have not begun: of the flights of all of them, PASS_FLIGHTS_MAX each in admission
order. The passes keep their place in the queue. -/
def queuePass (s : State) (q : List Pass) (max : Nat) (new : Pass) : List Pass :=
  let joins (p : Pass) : Bool := p.coll == new.coll && p.version == new.version && p.leaf == new.leaf && p.step == new.step && p.done == 0
  let ids := sortBy (admittedBefore s) ((q.filter joins).flatMap (·.flights) ++ new.flights)
  let ps := (chunk (Nat.max 1 max) ids).map fun l => { new with flights := l }
  q.takeWhile (!joins ·) ++ ps ++ (q.dropWhile (!joins ·)).filter (!joins ·)

/-- The step, by tick count, in which a flight scans its leaves. -/
def scanStep (f : Flight) : Nat := ((f.plan.stages.find? fun d => d.kind == 5 && !(f.run d.no).over).map (stageStep f)).getD 0

def addPass (s : State) (f : Flight) (i : CollInfo) (l : LeafBlk) : State :=
  let k := l.stack
  if k % 2 = 0 ∧ nearReady s k = true ∧ l.ok = true then
    let p : Pass := ⟨f.obj, l.epoch, l.path, scanStep f, [f.id], leafBytesOf i l / 4096, 0⟩
    { s with mem := { s.mem with near := updAt s.mem.near (k / 2) fun u =>
      { u with queue := queuePass s u.queue (rdf s (Reg.nb.PASS_FLIGHTS_MAX k) 7 0) p } } }
  else s

/-- A flight's passes that have not begun move with its bookings (R64, R171). -/
def movePasses (s : State) (f : Flight) : State :=
  { s with mem := { s.mem with near := s.mem.near.zipIdx.map fun x =>
    let mine (p : Pass) : Bool := p.flights.contains f.id && p.done == 0
    let q := (x.1.queue.map fun p => if mine p then p.without f.id else p).filter fun p => !p.flights.isEmpty
    { x.1 with queue := (x.1.queue.filter mine).foldl (fun q p =>
        queuePass s q (rdf s (Reg.nb.PASS_FLIGHTS_MAX (2 * x.2)) 7 0) { p with flights := [f.id], step := scanStep f }) q } } }

/-- LEAF_SELECT: the descent, the probed leaves and the visited partitions; leaves of near-bank stacks are queued. -/
def leafSelect (s : State) (f : Flight) : State :=
  if f.isSearch = false then s
  else
    let c := collOf s f
    let v := boundVersion c f
    let r := descend (kernelOf s c.info.profile 1) c.info v f.params.beam f.params.probes f.work.coarse
    let leaves := r.found.map (·.path)
    let s1 := updWork (trellisFails s r.fails) f.id fun g => setWork g fun w =>
      { w with leaves := leaves, parts := (leaves.map partOf).eraseDups, omitted := w.omitted + r.omitted }
    leaves.foldl (fun u p => match v.leaf p with
      | some l => addPass u f c.info l
      | none => u) s1

/-- Candidates enter the flight's chain (R178). -/
def addScan (f : Flight) (r : Scan) : Flight :=
  setWork f fun w => { w with
    rake := r.cands.foldl (chainInsert f.params.depth) w.rake, nan := w.nan + r.nan, omitted := w.omitted + r.omitted }

/-- A leaf in a failed stack is not scanned (R336, R338): it reads as a failing leaf, without a CRC failure of its own. -/
def stackGone (s : State) (l : LeafBlk) : Bool := stackState s l.stack == 2

/-- What one of several stages of a kind scans: equal shares of the probed leaves or visited partitions, in order (DESIGN CHOICE, log entry 103). -/
def stageShare {α : Type} (f : Flight) (d : StageDef) (l : List α) : List α :=
  let ks := (f.plan.stages.filter (·.kind == d.kind)).map (·.no)
  let i := ks.idxOf d.no
  (l.take ((i + 1) * l.length / ks.length)).drop (i * l.length / ks.length)

def leafScan (s : State) (f : Flight) (d : StageDef) : State :=
  if f.isSearch = false then s
  else
    let c := collOf s f
    let v := boundVersion c f
    let mine := stageShare f d f.work.leaves
    let gone := mine.filter fun p => (v.leaf p).any (stackGone s)
    let lost := sumNat (gone.map fun p => ((v.leaf p).map (·.recs.length)).getD 0)
    let r := scanLeaves (kernelOf s c.info.profile 1) c v f.epoch (ownShard f) f.work.coarse (mine.filter fun p => !gone.contains p)
      f.work.poison
    let s1 := updWork (trellisFails s r.fails) f.id fun g => setWork (addScan g r) fun w =>
      { w with scanned := w.scanned + r.leaves.length, scannedLeaves := w.scannedLeaves ++ r.leaves, omitted := w.omitted + lost }
    meter s1 f.tenant 1 r.leaves.length

def seedScan (s : State) (f : Flight) (d : StageDef) : State :=
  if f.isSearch = false then s
  else
    let c := collOf s f
    let r := scanSeeds (kernelOf s c.info.profile 1) c (boundVersion c f) f.epoch (ownShard f) f.work.coarse (stageShare f d f.work.parts)
    updWork (trellisFails s r.fails) f.id fun g => addScan g r

/-- RAKE_MERGE: the candidate list (R179, R180, R209). DESIGN CHOICE (log entry 134): FEW_ITEMS looks at the chain before a second entry of an item is
removed from it, and no entry from beyond C takes its place. -/
def rakeMerge (s : State) (f : Flight) : State :=
  if f.isSearch = false then s
  else
    updWork s f.id fun g =>
      let l := dedupe g.work.rake
      { setWork g fun w => { w with rake := l, omitted := w.omitted + (w.rake.length - l.length) } with
        flags := if g.work.rake.length < g.params.depth then setBit g.flags 5 else g.flags }

/-! ## Refinement (R181 to R184, R199, R66) -/

/-- What LOST_MAP says of a slot's record; a record whose program has not completed is in HBM (R181). -/
def recordLost (s : State) (n : Nat) (c : Coll) (slot : Nat) : Nat :=
  match Tbl.get c.slots slot with
  | none => 0
  | some d =>
    let st := refineStride c.info.refineDims
    if d.programmed = false then 0 else spanLost s n (rowOff st slot) st

/-- A record whose mapping cannot be read does not arrive (R355). -/
def recordUnmapped (s : State) (n : Nat) (c : Coll) (slot : Nat) : Bool :=
  (Tbl.get s.mem.flash.spill (histKey n slot)).isNone &&
  (Tbl.get s.mem.flash.plots (n * 2 ^ 32 + rowOff (refineStride c.info.refineDims) slot / 262144)).any (·.ok == (false, false))

/-- A record that is not spilled and whose pages the cache holds (R181, R324). -/
def recordCached (s : State) (n : Nat) (c : Coll) (slot : Nat) : Bool :=
  let st := refineStride c.info.refineDims
  (Tbl.get s.mem.flash.spill (histKey n slot)).isNone && spanResident s n (rowOff st slot) st

/-- The flight refines: REFINE_ISSUE reads the record of every candidate (R181, R199). -/
def readsRecords (f : Flight) : Bool := (f.isSearch && f.params.refine ≠ 0) || f.kind == .score

/-- REFINE_ISSUE: records still in HBM are there at once; lost ones will not come; the others wait for flash, and those that a graft has not
copied for the source (R511). A score request first finds its items; DESIGN CHOICE (log entry 133): one left out for a lost array entry (R336) reads
NOT_FOUND and counts in ITEMS_OMITTED, since R200 names no status for it. -/
def refineIssue (s : State) (f : Flight) : State :=
  let c := collOf s f
  let f1 : Flight :=
    if f.kind = .score then
      let found : List RakeEntry := f.work.keys.zipIdx.filterMap fun k => (itemAt s f.obj c k.1 f.epoch).map fun sl => ⟨k.2, 0, false, sl, 0, k.1⟩
      let kept := found.filter fun e => !c.lostSlots.contains e.slot
      setWork f fun w => { w with rake := kept, omitted := w.omitted + (found.length - kept.length) }
    else f
  if readsRecords f then
    let slots := (f1.work.rake.map (·.slot)).eraseDups
    let lostAs (n : Nat) : List Nat := slots.filter fun k => recordLost s f.obj c k == n
    let inCache (k : Nat) (d : SlotData) : Bool := d.programmed && !d.refine.missing && recordCached s f.obj c k
    let here := (lostAs 0).filterMap fun k => match Tbl.get c.slots k with
      | some d => if !d.programmed || inCache k d then some (k, d.refine) else none
      | none => none
    let s0 := (here.filter fun x => (Tbl.get c.slots x.1).any (·.programmed)).foldl (fun u x =>
      cacheHit u f.obj (rowOff (refineStride c.info.refineDims) x.1) (refineStride c.info.refineDims)) s
    let s1 := updWork s0 f.id fun _ => setWork f1 fun w =>
      { w with lost := lostAs 1, lostBoth := lostAs 2, arrived := here.foldl (fun t x => Tbl.set t x.1 x.2) w.arrived }
    let st := refineStride c.info.refineDims
    ((lostAs 0).filter fun k => (Tbl.get c.slots k).any (·.refine.missing)).foldl
      (fun u k => remoteRead u (objColl f.obj) f.cls (readFor f.id false k (rowOff st k) st)) s1
  else s

/-- The records that have arrived are worked into the list, each once. -/
def refineNow (s : State) (f : Flight) : Flight :=
  let c := collOf s f
  let k2 := kernelOf s c.info.profile 2
  if f.kind = .score then
    setWork f fun w =>
      let worked (e : RakeEntry) : RakeEntry :=
        match e.refined, Tbl.get w.arrived e.slot with
        | false, some r => { e with key := (scoreOf k2 c.info.metric w.fine r).toNat, refined := true }
        | _, _ => e
      { w with rake := w.rake.map worked }
  else if f.isSearch && f.params.refine ≠ 0 && !f.work.narrowed then
    let (l, gone, nan) := refineList k2 c (boundVersion c f) f.work.fine f.work.arrived f.work.lostBoth f.work.rake
    let kept := l.any fun e => f.work.lost.contains e.slot
    { setWork f fun w => { w with rake := l, omitted := w.omitted + gone, nan := w.nan + nan } with
      flags := if kept then setBit f.flags 0 else f.flags, counts := { f.counts with unrefined := (l.filter fun e => !e.refined).length } }
  else f

/-- REFINE has started, so records are worked in as they come. -/
def refining (f : Flight) : Bool := f.plan.stages.any fun d => d.kind == 9 && (f.run d.no).started

/-! ## SIEVE (R185 to R190) -/

/-- The first M candidates go on, with their item keys. -/
def narrow (s : State) (f : Flight) : Flight :=
  if f.work.narrowed then f
  else
    let c := collOf s f
    let l := (f.work.rake.take f.params.m).map fun e => { e with item := keyOf c e.slot }
    { setWork f fun w => { w with rake := l, narrowed := true } with
      counts := { f.counts with
        unrefined := if f.params.refine = 0 then 0 else (f.work.rake.filter fun e => !e.refined).length, candidates := l.length, survivors := l.length } }

def sieve (s : State) (f : Flight) : Flight :=
  let g := narrow s f
  if g.params.sieve then
    let l := g.work.rake.filter fun e => survives g.params.terms (attrOf (collOf s f) e.slot)
    { setWork g fun w => { w with rake := l } with
      counts := { g.counts with survivors := l.length }
      flags := if l.length < g.params.k ∧ l.length < g.work.rake.length then setBit g.flags 4 else g.flags }
  else g

/-- The flight with its survivors, and their forwarding to a shadow (R512). -/
def toSurvivors (s : State) (f : Flight) (g : Flight) : State :=
  let s1 := updWork s f.id fun _ => g
  if g.kind = .search ∨ g.kind = .participant then sendShadowResult s1 g else s1

/-! ## Model layers (R281 to R287, R110 to R119) -/

/-- What a run of layers works with: the buffers by item and buffer number, and a WIDEN layer that took a back stair. -/
structure Pass2 where
  state : State
  flight : Flight
  left : Bool

def bufOf (w : Work) (item b : Nat) : List (List Word) := (Tbl.get w.bufs (8 * item + b)).getD []

/-- The statistics records of a layer (R119). DESIGN CHOICE (log entry 123): "the tile" that counts and reports a dropped record is the lead tile,
and a record whose place lies outside HBM counts as dropped. -/
def writeStats (s : State) (f : Flight) (l : Layer) (lead : Nat) (recs : List (Nat × Nat × Word)) : State :=
  (recs.zipIdx).foldl (fun u x =>
    let off := leNat (hbmBytes u l.statsAddr 8)
    if off + 16 ≤ l.statsBytes ∧ inHbm (l.statsAddr + off) 16 = true then
      let b := toLe 4 f.epoch ++ toLe 2 f.desc.chan ++ toLe 1 x.1.1 ++ toLe 1 x.1.2.1 ++ toLe 4 x.2 ++ toLe 4 x.1.2.2.toNat
      { u with mem := { u.mem with hbm := Memory.writes (Memory.writes u.mem.hbm (l.statsAddr + off) b) l.statsAddr (toLe 8 (off + 16)) } }
    else raiseEvt (count u (Reg.tile.STATS_DROPPED lead)) (pageBase .tile lead) 1) s

/-- A layer on every item: outputs, with saturations, NaN, overflows of the outputs and records. -/
def layerOn (k : Kernel) (l : Layer) (weights : List Byte) (wide : Bool) (n : Nat) (w : Work) : List (List (List Word)) × LayerOut :=
  let rs := (List.range n).map fun i => runLayer k l weights wide (bufOf w i l.inBuf) (bufOf w i l.auxBuf)
  (rs.map (·.rows), ⟨[], sumNat (rs.map (·.sat)), sumNat (rs.map (·.nan)), sumNat (rs.map (·.outSat)), rs.flatMap (·.recs)⟩)

def putBufs (w : Work) (l : Layer) (out : List (List (List Word))) : Work :=
  { w with bufs := (out.zipIdx).foldl (fun t x => Tbl.set t (8 * x.2 + l.outBuf) x.1) w.bufs }

/-- The WIDEN_SLOT stage of a layer in the stage's step (R114). -/
def widenSlot (f : Flight) (d : StageDef) (layer : Nat) : Option StageDef :=
  f.plan.stages.find? fun x => x.flags.getLsbD 2 && x.off == d.off && stModel f.plan x == stModel f.plan d &&
    stFirst f.plan x ≤ layer && layer ≤ stLast f.plan x

/-- The back stair of the landing that covers a stage (R67). -/
def coveringBack (f : Flight) (d : StageDef) : Option BackDef :=
  f.plan.landings.findSome? fun l => match f.plan.backs[l.back]? with
    | some b => if b.first ≤ d.no ∧ d.no ≤ b.last then some b else none
    | none => none

def satEvent (s : State) (lead : Nat) : State := raiseEvt (count s (Reg.tile.SAT_EVENTS lead)) (pageBase .tile lead) 0

/-- One layer of a stage for a flight. -/
def layerStep (m : Model) (d : StageDef) (n : Nat) (p : Pass2) (layer : Nat) : Pass2 :=
  match p.left, m.layers[layer]? with
  | false, some l =>
    let f := p.flight
    let k := if l.usesKernel then kernelOf p.state m.profile l.kernel else default
    let (out, o) := layerOn k l m.weights false n f.work
    let lead := leadTile f d
    let s1 := tileStats p.state f d (o.sat + o.outSat) o.nan
    let s2 := if l.usesKernel && l.stats then writeStats s1 f l lead o.recs else s1
    let counted : Flight := { f with work := { f.work with sat := f.work.sat + o.sat + o.outSat, layerSat := Tbl.set f.work.layerSat layer o.sat } }
    let f1 := { counted with work := putBufs counted.work l out }
    if (l.usesKernel && l.qMode ≠ 0 && l.satThresh < o.sat) = false then ⟨s2, f1, false⟩
    else if l.qMode = 1 then ⟨satEvent s2 lead, f1, false⟩
    else
      match widenSlot f d layer with
      | some x =>
        let (out2, o2) := layerOn k l m.weights true n f.work
        let s3 := tileStats (count s2 (Reg.tile.WIDEN_COUNT (leadTile f x))) f x (o2.sat + o2.outSat) o2.nan
        ⟨s3, { f1 with work := putBufs f1.work l out2, flags := setBit f1.flags 3 }, false⟩
      | none =>
        match coveringBack f d with
        | some b => ⟨takeBack (updWork s2 f.id fun _ => counted) counted b d.off, counted, true⟩
        | none => ⟨raiseEvt (satEvent s2 lead) (pageBase .tile lead) 2, { f1 with flags := setBit f1.flags 9 }, false⟩
  | _, _ => p

/-- The feature table of a reranker (R286). -/
def featureTable (s : State) (m : Model) : Option (Nat × Table) :=
  s.store.tables.find? fun t => t.2.life == .serving && t.2.hall == m.featTable && t.2.tenant == m.tenant

def featureOk (s : State) (m : Model) : Bool :=
  m.featCols == 0 || (match featureTable s m with
    | some t => t.2.pinHbm && (if s.hall then t.2.placement == 1 else t.2.placement ≠ 2)
    | none => false)

/-- A survivor's feature row, and whether it was missing (R285, R286). -/
def featureRow (s : State) (m : Model) (key : Quad) : List Word × Bool :=
  if m.featCols = 0 then ([], false)
  else
    let none_ := (List.replicate m.featCols (0 : Word), true)
    match featureTable s m with
    | none => none_
    | some (n, t) => match (rowFind n t key).bind fun i => Tbl.get t.rows i with
      | some r => ((rowValues t r.cur).take m.featCols, false)
      | none => none_

/-- The input of a model: the query vector in rows, or one row per survivor. -/
def modelInput (s : State) (m : Model) (f : Flight) : State × Flight :=
  if m.role = 1 then (s, setWork f fun w => { w with bufs := [(0, chunk m.inCols w.vec)] })
  else
    let rows := f.work.rake.map fun e => featureRow s m e.item
    (countN s Reg.sched.FEATURE_MISS (rows.filter (·.2)).length,
     setWork f fun w => { w with bufs := (rows.zipIdx).map fun r => (8 * r.2, [f.work.vec ++ r.1.1]) })

/-- The output of a model: the encoder's vector, or the survivors' new rank keys and order (R284, R189). -/
def modelOutput (m : Model) (l : Layer) (f : Flight) : Flight :=
  if m.role = 1 then setWork f fun w => { w with vec := (bufOf w 0 l.outBuf).flatten }
  else
    let ks := (f.work.rake.zipIdx).map fun e =>
      { e.1 with key := rankKey (f32neg (((bufOf f.work e.2 l.outBuf).headD []).headD 0)) }
    setWork f fun w => { w with rake := sortBy RakeEntry.less ks, nan := w.nan + (ks.filter (·.key == 0xFFFFFFFF)).length }

/-- A MODEL_LAYER or RERANK stage. A reranker has no work without RERANK; a WIDEN_SLOT stage runs with the layer it re-runs. -/
def modelStage (s : State) (f : Flight) (d : StageDef) : State :=
  match Tbl.get s.store.models (stModel f.plan d) with
  | none => s
  | some m =>
    if d.flags.getLsbD 2 = true ∨ (m.role = 2 ∧ f.params.rerank = false) ∨ (d.kind = 0x0A ∧ f.params.rerank = false) then s
    else
      let f0 := if m.role = 2 then narrow s f else f
      let (s1, f1) := if stFirst f.plan d = 0 then modelInput s m f0 else (s, f0)
      let n := if m.role = 1 then 1 else f1.work.rake.length
      let r := ((List.range (stLast f.plan d + 1 - stFirst f.plan d)).map (stFirst f.plan d + ·)).foldl (layerStep m d n) ⟨s1, f1, false⟩
      if r.left then r.state
      else
        match m.layers[m.layers.length - 1]? with
        | some l => if stLast f.plan d + 1 = m.layers.length then updWork r.state f.id fun _ => modelOutput m l r.flight
          else updWork r.state f.id fun _ => r.flight
        | none => updWork r.state f.id fun _ => r.flight

/-! ## COPY and the commit (R214, R215, R79, R498) -/

/-- What COPY prepares is written through the store of its lead tile's gallery (DESIGN CHOICE in the gallery, log entry 127). -/
def copyWrite (s : State) (f : Flight) (d : StageDef) (g : Flight) : State :=
  match Tbl.get s.store.colls f.obj with
  | none => s
  | some c =>
    let s1 := putColl (updWork s f.id fun _ => g) f.obj (copyItems f.id (f.kind == .insert) g.work.items c)
    updGallery s1 (leadTile f d / 16) fun x => { x with lines := x.lines ++ copyLines f.id f.obj ((Tbl.get s1.store.colls f.obj).getD c) }

/-- COPY: slots for an INSERT, the slot and partition found for each key of a DELETE, what is prepared of them; the mirror's PREP. -/
def copyStage (s : State) (f : Flight) (d : StageDef) : State :=
  let c := collOf s f
  if f.kind = .insert then
    let slots := freeSlots c f.desc.items
    if slots.length < f.desc.items then endFlight s f ST_INDEX_FULL
    else
      let g := setWork f fun w => { w with items := (w.items.zip slots).map fun x => { x.1 with slot := x.2 } }
      sendPrep (copyWrite s f d g) g
  else if f.kind = .delete then
    let items := (List.range f.desc.items).map fun i =>
      let it := deleteItem f.desc i
      match liveOf c it.key with
      | some e => { it with slot := e.slot, part := partOfSlot c e.slot }
      | none => it
    let g := setWork f fun w => { w with items := items }
    sendPrep (copyWrite s f d g) g
  else s

/-- COPY has signalled completion on every gallery, the mirror's acknowledgement included. -/
def stageDone (s : State) (f : Flight) (d : StageDef) : Bool :=
  let r := f.run d.no
  r.skipped || (r.complete && !r.failed && (d.kind ≠ 0x14 || f.kind == .rowServe || prepAcked s f))

def isBatch (f : Flight) : Bool := f.kind == .insert || f.kind == .delete

/-- The batch is ready to commit. -/
def readyToCommit (s : State) (f : Flight) : Bool := isBatch f && f.plan.stages.any (·.kind == 0x14) && f.plan.stages.all (stageDone s f)

/-- Before the commit every gallery flushes what COPY wrote through its store (R320). -/
def flushCopy (s : State) (f : Flight) : State :=
  (List.range 50).foldl (fun t g => writeLines t g fun d => d.flight == f.id) s

/-- The commit of a batch (R215): its outcome and the completion. -/
def commitFlight (s0 : State) (f : Flight) : State :=
  let s := flushCopy s0 f
  let d := f.desc
  match commitTo s (some f.id) f.obj s.now d.isInsert d.ifAbsent none none f.work.items with
  | (some (t, items, first), _) =>
    let b := updateResult d.op ST_OK d.tag.toNat
      { ack := s.now, items := items.map (·.status), seqFirst := first, sat := f.work.sat, nan := f.work.nan
        durable := rd64 t Reg.sched.DURABLE_EPOCH }
    let t1 := sendCommit t f s.now first items
    setSeedHigh (complete (dropFlight t1 f.id) d ST_OK s.now d.items (hdrWrite d b) f.silent)
  | (none, full) => endFlight (if full then count s Reg.sched.KEYMAP_FULL else s) f ST_INDEX_FULL

/-- UPDATE_COMMIT: in the seam the commit waits for the open instant (R79). -/
def updateCommit (s : State) (id : Nat) : State :=
  match flightOf s id with
  | none => s
  | some f => if readyToCommit s f && !s.step.seam then commitFlight s f else s

def execUpdateCommit (flight : Nat) (s : State) : Host.Outcome State Fault Refusal := .next (updateCommit s flight)

/-- At an open instant, the batches that became ready in the seam commit. -/
def commitReady (s : State) : State :=
  (s.sched.flights.map (·.id)).foldl (fun u id => match flightOf u id with
    | some f => if readyToCommit u f then commitFlight u f else u
    | none => u) s

/-! ## Hall stages (R249, R259, R261) -/

/-- A part has its survivors: they go to the coordinator, and the part ends. -/
def contribute (s : State) (f : Flight) (p : PartInfo) : State :=
  let g := narrow s f
  let s1 := toSurvivors s f g
  let s2 := dropFlight s1 f.id
  if p.shadow then shadowOwn s2 g p true else (contribFrags s2 g p).foldl (fun u b => toCoord u g p b) s2

def xnodeSend (s : State) (f : Flight) (d : StageDef) : State :=
  match f.part with
  | some p => contribute s f p
  | none => if d.off = 0 ∧ f.params.hall = true then sendShards s f.id else s

def xnodeMerge (s : State) (f : Flight) : State :=
  if f.params.hall = true ∧ f.part.isNone = true then countMerged (updWork s f.id fun g => mergeFlight g) f else s

/-- RESULT_WRITE: the flight ends with OK. -/
def resultWrite (s : State) (f : Flight) : State :=
  if isBatch f ∨ f.part.isSome = true then s
  else if f.kind = .search then
    let g := narrow s f
    endFlight (toSurvivors s f g) g ST_OK
  else endFlight s f ST_OK

/-! ## A stage completes (R62) -/

/-- What the stage's completion does. -/
def stageEffect (s : State) (f : Flight) (d : StageDef) : State :=
  match d.kind with
  | 0x02 => projectStage s f d
  | 0x03 => descendStage s f d
  | 0x04 => leafSelect s f
  | 0x05 => leafScan s f d
  | 0x06 => seedScan s f d
  | 0x07 => rakeMerge s f
  | 0x08 => refineIssue s f
  | 0x09 => updWork s f.id (refineNow s)
  | 0x0A => modelStage s f d
  | 0x0B => if f.isSearch && !f.merged then toSurvivors s f (sieve s f) else s
  | 0x0C => resultWrite s f
  | 0x0D => xnodeSend s f d
  | 0x0E => xnodeMerge s f
  | 0x0F => modelStage s f d
  | 0x10 => if f.kind = .lookup then gatherRows s f else s
  | 0x11 => if f.kind = .lookup then exchangeRows s f else s
  | 0x12 => if f.kind = .scatter then showNext (scatterTo s f f.work.rows.length) f.obj else s
  | 0x14 => copyStage s f d
  | _ => s

/-- Bytes that the stage read from and wrote to HBM: the manual states no amount (log entry 21). -/
def meterHbm (s : State) (f : Flight) : State :=
  let (w, s1) := freshWord s
  meter s1 f.tenant 2 w.toNat

/-- The query codes are there: a flight marked for it is forwarded to its shadow (R512). -/
def forwardShadow (s : State) (f : Flight) (d : StageDef) : State :=
  match sourceOf s (objColl f.obj), Tbl.get s.store.colls f.obj with
  | some i, some c =>
    if d.kind = 0x02 ∧ f.shadow = true then
      let m : ShardMap := c.map.getD default
      let pay := queryPayload s f m c.info c.proj.crc m.self (pairAt s i).peerObj 0 false
      sendFrame s 0x58 1 3 (pairAt s i).peer m.hallColl.toNat f.id pay
    else s
  | _, _ => s

/-- A part on a local plan has run its last stage. -/
def partFinished (s : State) (f : Flight) : State :=
  match f.part with
  | some p => if p.shadow && !f.plan.flags.getLsbD 0 && f.plan.stages.all fun d => (f.run d.no).over then contribute s f p else s
  | none => s

def finishStage (s : State) (f : Flight) (d : StageDef) : State :=
  let s1 := stageEffect (meterHbm s f) f d
  match workOf s1 f.id with
  | none => s1
  | some g => partFinished (forwardShadow s1 g d) g

/-- The stage cannot have completed yet: a pass of its flight is queued (R318), rows of its batch are unanswered (R303) or
still to be fetched (R306), or an earlier batch of its table is under way (R301). -/
def stageHeld (s : State) (f : Flight) (d : StageDef) : Bool :=
  (d.kind == 0x05 && s.mem.near.any fun u => u.queue.any fun p => p.flights.contains f.id && (stageShare f d f.work.leaves).contains p.leaf) ||
  (d.kind == 0x0C && f.kind == .scatter && !rowsAnswered f) || (d.kind == 0x12 && f.kind == .scatter && (!scatterTurn s f || f.work.rows.any fun r => r.remote == 0 && !r.done && !rowFetched s f.obj r))

/-! ## Starting and resuming stages (R43, R44, R71, R72) -/

/-- A tile that starts a stage leaves doze (R540). -/
def wakeTile (s : State) (t : Nat) : State := updGallery s (t / 16) fun g => { g with dozing := g.dozing &&& ~~~((1 : Half) <<< (t % 16)) }

/-- The tiles of a stage are not free: for foreground work while a background stage has not yielded one (R72), for background work while any
other stage runs on one or waits for it. -/
def tilesHeld (s : State) (f : Flight) (d : StageDef) : Bool :=
  let ts := stageTiles f d
  (ts.any fun t => (tileStages s t).any fun x => (x.1.id ≠ f.id || x.2.no ≠ d.no) && (x.1.background || f.background)) ||
  (f.background && (s.sched.flights ++ s.sched.parts).any fun g => g.plan.stages.any fun x =>
    (g.run x.no).waitsForYield && (stageTiles g x).any ts.contains)

/-- The galleries of a stage that received the step-open token (R44). -/
def tokenGalleries (s : State) (f : Flight) (d : StageDef) : List Nat := (stageGalleries f.plan f.gmap d).filter fun g => !s.step.noToken.contains g

/-- Where ROW_SCATTER starts or resumes, its batch is shown once it has its turn (R302), and its LOST rows are asked for (R306). -/
def startScatter (s : State) (f : Flight) (d : StageDef) : State :=
  if d.kind = 0x12 ∧ f.kind = .scatter then fetchRows (showBatch s f) f else s

/-- One stage starts: its tiles wake, its tenant is charged its TILE_CYCLES (R404). A gallery without the token does none of it, and a foreground
stage booked there fails its next landing (R44). Tiles not yielded delay a foreground stage (R72); a background stage tries again. -/
def startStage (s : State) (f : Flight) (d : StageDef) : State :=
  let on := tokenGalleries s f d
  let whole := on.length == (stageGalleries f.plan f.gmap d).length
  if tilesHeld s f d then (if f.background then s else updWork s f.id fun x => x.setRun d.no fun r => { r with delayed := true })
  else if f.background ∧ whole = false then s
  else
    let ts := (stageTiles f d).filter fun t => on.contains (t / 16)
    let s1 := updWork s f.id fun x => x.setRun d.no fun r => { r with started := true, delayed := false, suspended := false, failed := r.failed || !whole }
    traceStage (meter (ts.foldl wakeTile (startScatter s1 f d)) f.tenant 5 (d.budget * ts.length)) f d on 0

/-- A suspended stage resumes: not without every token, nor on tiles that are held. -/
def resumeStage (s : State) (f : Flight) (d : StageDef) : State :=
  if (tokenGalleries s f d).length ≠ (stageGalleries f.plan f.gmap d).length then s
  else if tilesHeld s f d then (if f.background then s else updWork s f.id fun x => x.setRun d.no fun r => { r with delayed := true })
  else (stageTiles f d).foldl wakeTile (startScatter (updWork s f.id fun x => x.setRun d.no fun r => { r with suspended := false, delayed := false }) f d)

/-- A background stage has freed its tiles: the stages that waited for them start or resume (R72). -/
def startDelayed (s : State) : State :=
  if s.step.seam then s
  else
    ((s.sched.flights ++ s.sched.parts).map (·.id)).foldl (fun t id =>
      match workOf t id with
      | none => t
      | some f => (f.plan.stages.filter fun d => (f.run d.no).waitsForYield && !(f.run d.no).overrun).foldl (fun u d =>
          if (f.run d.no).started then resumeStage u f d else startStage u f d) t) s

/-- STAGE_COMPLETE: a gallery of a running stage signals; with its last gallery the stage is complete. Of a stage that has overrun the signals are
kept until its flight waits (R69). -/
def stageComplete (s : State) (id no g : Nat) : State :=
  match workOf s id with
  | none => s
  | some f =>
    match f.plan.stages[no]? with
    | none => s
    | some d =>
      let gs := stageGalleries f.plan f.gmap d
      if (f.run no).runs = false ∨ (gs ≠ [] ∧ gs.contains g = false) ∨ stageHeld s f d = true then s
      else
        let done := insertNat (f.run no).done g
        let all := gs.all done.contains && !(f.run no).overrun
        let f1 := f.setRun no fun r => { r with done := done, complete := all, yielding := r.yielding && !all }
        let s1 := traceStage (updWork s id fun _ => f1) f d [g] (if (f.run no).overrun || decide (stageStep f d < s.ticks) then 3 else 1)
        if all then (if f.background then startDelayed (finishStage s1 f1 d) else finishStage s1 f1 d) else s1

def execStageComplete (flight stage : Nat) (gallery : Fin 50) (s : State) : Host.Outcome State Fault Refusal :=
  .next (stageComplete s flight stage gallery.val)

/-! ## Yielding, pre-emption points and cancels (R71, R73, R303) -/

/-- BG_FENCE: every running background stage is told to yield. -/
def bgFence (s : State) : State :=
  let y (f : Flight) : Flight :=
    if f.background then { f with stages := f.stages.map fun r => if r.runs then { r with yielding := true } else r } else f
  { s with
    step := { s.step with bgHold := true }
    sched := { s.sched with flights := s.sched.flights.map y, parts := s.sched.parts.map y } }

def execBgFence (s : State) : Host.Outcome State Fault Refusal := .next (bgFence s)

/-- A scatter batch whose rows are all done: a cancel has no effect on it (R308). -/
def scatterDone (f : Flight) : Bool := f.kind == .scatter && f.work.rowPos == f.work.rows.length

/-- A cancelled batch ends once the rows sent are answered (R303). -/
def endCancelled (s : State) (f : Flight) : State := if rowsAnswered f then endFlight s f ST_CANCELLED else s

/-- A stage stops at a pre-emption point. -/
def suspendStage (s : State) (f : Flight) (d : StageDef) : State :=
  traceStage (updWork s f.id fun g => g.setRun d.no fun r => { r with suspended := true, yielding := false }) f d
    (stageGalleries f.plan f.gmap d) (if (f.run d.no).overrun then 7 else 5)

/-- PREEMPTION_POINT: progress is saved. A background stage told to yield, or of a node that quiesces, stops there and frees its tiles; a cancelled
background flight ends, but not a batch whose rows are all done (R308). A foreground stage that has overrun stops (R69). -/
def preemptionPoint (s : State) (id no progress : Nat) : State :=
  match workOf s id with
  | none => s
  | some f =>
    match f.plan.stages[no]? with
    | none => s
    | some d =>
      if (f.run no).runs = false then s
      else if f.background = false then (if (f.run no).overrun then suspendStage s f d else s)
      else
        let s1 := if d.kind = 0x12 ∧ f.kind = .scatter then scatterTo s f (min progress f.work.rows.length) else s
        match workOf s1 id with
        | none => s1
        | some g =>
          if (g.cancel && !scatterDone g) || (g.run no).yielding || s.quiesce then
            let s2 := suspendStage s1 g d
            startDelayed (if g.cancel && !scatterDone g then endCancelled s2 g else s2)
          else s1

def execPreemptionPoint (flight stage progress : Nat) (s : State) : Host.Outcome State Fault Refusal :=
  .next (preemptionPoint s flight stage progress)

/-- FLIGHT_CANCEL: noted, to take effect at the next landing or pre-emption point. -/
def execFlightCancel (flight : Nat) (s : State) : Host.Outcome State Fault Refusal :=
  .next (updFlight s flight fun f => { f with cancel := true })

/-- CORR_UE: the error, and the stage on the gallery fails (R523). -/
def corrUe (s : State) (id no g : Nat) : State :=
  updWork (raiseErr s .atrium 0 3) id fun f =>
    match f.plan.stages[no]? with
    | some d => if (stageGalleries f.plan f.gmap d).contains g then f.setRun no fun r => { r with failed := true } else f
    | none => f

def execCorrUe (flight stage : Nat) (gallery : Fin 50) (s : State) : Host.Outcome State Fault Refusal :=
  .next (corrUe s flight stage gallery.val)

end Sys2Proof.Machine
end

