-- ==== Sys2Proof/Machine/Admission.lean ====
section
/-! DEFINITION. Admission: the checks of R160 and R389 at an attempt, bookings (R58, R391), and the order of R396 and R397. -/
namespace Sys2Proof.Machine

/-! ## Order 4: the channel's entry and the object (R389, R160, R248, R499, R503, R505) -/

/-- The entry in force at this admission; one that no copy holds acts as disabled (R388). -/
def forceOn (s : State) (c : Nat) : Bool :=
  (chan s c).force.enabled && ((chan s c).ok.1 || (chan s c).ok.2 || s.sched.cache.contains c)

/-- OPCODE_MASK's bit of an opcode. -/
def opBit (op : Nat) : Nat := if op < 0x20 then op - 0x10 else if op < 0x30 then op - 0x20 + 2 else op - 0x30 + 4

/-- An object takes work of the admission at tick count `a`: SERVING since an earlier step, or DRAINING since this one (R153, R154). -/
def lifeOpen (l : Life) (since a : Nat) : Bool := (l == .serving && since < a) || (l == .draining && since == a)

/-- A readable epoch record is bound at `a`. -/
def recordOk (c : Coll) (a : Nat) : Bool :=
  match c.bind a with
  | some v => v.ok.1 || v.ok.2
  | none => false

def objectOk (s : State) (d : Desc) : Bool :=
  let t := d.chan / 16
  match d.family with
  | .row =>
    match Tbl.get s.store.tables d.obj with
    | some x => lifeOpen x.life x.since s.ticks && x.tenant == t && !objDiverged s (objTable d.obj) &&
        (d.isLookup || (followerOf s (objTable d.obj)).isNone)
    | none => false
  | _ =>
    match Tbl.get s.store.colls d.obj with
    | some c => lifeOpen c.life c.since s.ticks && c.tenant == t && recordOk c s.now && !objDiverged s (objColl d.obj) &&
        (d.family == .query || ((followerOf s (objColl d.obj)).isNone && !c.stackHit)) && (!d.hallScope || !s.hall || c.map.isSome)
    | none => false

def readyOk (s : State) (d : Desc) : Bool :=
  let e := (chan s d.chan).force
  forceOn s d.chan && e.mask.getLsbD (opBit d.op) && (!d.hallScope || e.hallOk) && objectOk s d

/-! ## Order 5 -/

def descDetail (s : State) (d : Desc) : Nat :=
  let g := (chan s d.chan).force.grant
  match d.family with
  | .row => rowDetail (tableOf s d.obj) g d
  | .update => updateDetail ((Tbl.get s.store.colls d.obj).getD default).info g d
  | _ => queryDetail ((Tbl.get s.store.colls d.obj).getD default).info g d

/-! ## Order 7: the plan (R55, R60, R129, R160, R260, R279, R286) -/

/-- The slot holds a model of the tenant, whose feature table can serve. -/
def slotModelOk (s : State) (t n : Nat) : Bool :=
  match Tbl.get s.store.models n with
  | some m => m.tenant == t && !m.retiring && (m.role ≠ 2 || featureOk s m)
  | none => false

def modelsOk (s : State) (d : Desc) (p : Plan) : Bool :=
  p.stages.all fun x => !(x.namesModel && (x.kind ≠ 0x0A || d.flags.testBit 1)) || slotModelOk s (d.chan / 16) (stModel p x)

def queryPlanOk (s : State) (d : Desc) (p : Plan) : Bool :=
  let rr := d.flags.testBit 1
  let sv := d.flags.testBit 2
  p.flags.getLsbD 0 == d.hallScope && (!rr || p.stages.any (·.kind == 0x0A)) && (!sv || p.stages.any (·.kind == 0x0B)) && modelsOk s d p &&
  (!d.hallScope || (match (Tbl.get s.store.colls d.obj).bind (·.map) with
    | some m => fabricNeedOk p (remoteShards s m) (d.k + d.overfetch)
    | none => true))

/-- The ROW_REQ frames of a LOOKUP fit the FABRIC_SLOTS of its ROW_EXCHANGE stages (R295, R260). -/
def rowNeedOk (s : State) (d : Desc) (p : Plan) : Bool :=
  !d.isLookup || (p.stages.filter (·.kind == 0x11)).all fun x =>
    rowReqFrames s (tableOf s d.obj) (batchRows (tableOf s d.obj) d) ≤ (p.rsets[x.rset]?.map (·.fabric)).getD 0

def planFits (s : State) (d : Desc) (p : Plan) : Bool :=
  p.period == periodSel s && p.galleries ≤ (inServiceList s).length && (!(p.flags.getLsbD 0 && s.hall) || s.step.valid) &&
  (match d.family with
    | .row => rowNeedOk s d p
    | .update => p.profile == ((Tbl.get s.store.colls d.obj).getD default).info.profile
    | _ => p.profile == ((Tbl.get s.store.colls d.obj).getD default).info.profile && queryPlanOk s d p)

/-- A row batch that names a row of another owner (R31, R295). -/
def ownedElsewhere (s : State) (d : Desc) : Bool := d.family == .row && (batchRows (tableOf s d.obj) d).any (·.remote ≠ 0)

/-! ## The attempt (orders 4 to 9) -/

/-- THROTTLED: the backlog limit at arrival (R395), or policing (R393). -/
def policed (s : State) (d : Desc) : Bool := d.overLimit || ((chan s d.chan).force.action == 2 && (chan s d.chan).tokens < 256)

/-- A flight of `span` steps admitted at tick `at_` would end past the deadline (R162). -/
def Desc.tooLate (d : Desc) (at_ span : Nat) : Bool := d.deadline ≠ 0 && d.arrival + d.deadline < at_ + span

/-- STATUS and DETAIL of an attempt at tick `at_`; 0 when every check passes. -/
def admitCheckAt (s : State) (d : Desc) (at_ : Nat) : Nat × Nat :=
  if readyOk s d = false then (ST_NOT_READY, 0)
  else if descDetail s d ≠ 0 then (ST_BAD_PARAM, descDetail s d)
  else if s.hall = false ∧ (d.hallScope = true ∨ (planOf s d.planSlot).any (·.flags.getLsbD 0) = true ∨ ownedElsewhere s d = true) then (ST_NO_FABRIC, 0)
  else
    match planOf s d.planSlot with
    | none => (ST_PLAN_MISMATCH, 0)
    | some p =>
      if planFits s d p = false then (ST_PLAN_MISMATCH, 0)
      else if policed s d then (ST_THROTTLED, 0)
      else if d.tooLate at_ p.span then (ST_EXPIRED, 0)
      else (0, 0)

def admitCheck (s : State) (d : Desc) : Nat × Nat := admitCheckAt s d s.ticks

/-- Pages that are dirty or in write-back (R325). -/
def dirtyMib (s : State) : Nat :=
  ceilDiv (4096 * (s.mem.flash.dirty.length + (s.mem.flash.wb.filter fun p => (Tbl.get s.mem.flash.dirty p.1).isNone).length)) 0x100000

/-- A descriptor that passes its checks and stays queued all the same: shaping (R393), a follower's epoch (R500), a late publication (R233),
half the cache floor dirty (R325), a full slot history (R226). -/
def descHeld (s : State) (d : Desc) : Bool :=
  ((chan s d.chan).force.action == 1 && (chan s d.chan).tokens < 256) ||
  (match d.family with
    | .row => !followerOpen s (objTable d.obj) s.now || !d.isLookup && floorInForce s (rd s Reg.ft.CACHE_FLOOR_MIB).toNat ≤ 2 * dirtyMib s
    | _ => !followerOpen s (objColl d.obj) s.now || tpHolds ((Tbl.get s.store.colls d.obj).getD default) s.now ||
        (d.family == .update && (1048576 < histUsed s + (resvOf d).hist || (d.isInsert && spillHeld s))))

def unqueue (s : State) (d : Desc) : State := { s with sched := { s.sched with queued := s.sched.queued.filter (·.order ≠ d.order) } }

/-- A descriptor completes at an attempt. -/
def refuseQueued (s : State) (d : Desc) (st detail : Nat) : State :=
  let s1 := if st = ST_THROTTLED then count s (schedBank (d.chan / 16) 0x374) else s
  countRefused (refuse (unqueue s1 d) d st detail) st

/-- DESCRIPTOR_ARRIVAL: a descriptor that even the next step is too late for completes at once (R162). -/
def arrival (s : State) (c : Nat) (desc buf keys : List Byte) : State :=
  let t := arrive s c desc buf keys
  match t.sched.queued.find? (·.order == s.sched.nextOrder) with
  | some d => if (admitCheckAt t d (t.ticks + 1)).1 = ST_EXPIRED then refuseQueued t d ST_EXPIRED 0 else t
  | none => t

def execDescriptorArrival (c : Fin 4096) (desc buf keys : List Byte) (s : State) : Host.Outcome State Fault Refusal :=
  .next (if mayFetch s c.val then arrival s c.val desc buf keys else s)

/-- A queued descriptor that no later step is early enough for completes, wherever it stands in its queue (R162). -/
def expireDesc (s : State) (d : Desc) : State :=
  if (planOf s d.planSlot).any fun p => d.tooLate s.ticks p.span then
    match admitCheck s d with
    | (0, _) => s
    | (st, detail) => refuseQueued s d st detail
  else s

/-! ## Bookings (R391) -/

def c0Limits (s : State) (t : Nat) : Limits :=
  let x := tenant s t
  ⟨x.tile * (rd s Reg.sched.TILE_STEP_CYCLES).toNat / 1024, x.hbm, x.flash, x.fabric, x.windows⟩

def keptTenants (s : State) : List Nat := (admittedList s).filter fun t => (tenant s t).c0Kept

/-- The capacity now less the class-0 reservations kept. -/
def sharedLimits (s : State) : Limits :=
  let n := capacityNow s
  let k := (keptTenants s).map (c0Limits s)
  ⟨n.cycles - sumOf k (·.cycles), n.hbm - sumOf k (·.hbm), n.flash - sumOf k (·.flash), n.fabric - sumOf k (·.fabric),
   n.windows - sumOf k (·.windows)⟩

/-- What LOOKUP frames served in a step hold of its fabric slots, in their tenant's reservation or in the shared pool (R296). -/
def Served.booking (b : Served) : Booking := ⟨b.step, [], 0, 0, 0, b.frames, 0, [], 0⟩
def Served.holder (b : Served) : Flight := { (default : Flight) with id := b.id, tenant := b.tenant, cls := b.cls }

/-- The bookings that admitted flights and parts hold. -/
def heldBookings (s : State) (p : Flight → Bool) : List Booking :=
  (s.sched.served.filter fun b => p b.holder).map Served.booking ++
  ((s.sched.flights ++ s.sched.parts).filter fun f => p f && (match f.part with
    | some x => x.admitted
    | none => true)).flatMap flightBookings

/-- Class-0 flights of a kept tenant stand in its reservations; all others in the shared pool. -/
def inReserve (s : State) (f : Flight) : Bool := f.cls == 0 && (tenant s f.tenant).c0Kept

/-- The stages of a flight can be booked. -/
def bookFits (s : State) (f : Flight) : Bool :=
  storeFits ((heldBookings s fun g => g.id ≠ f.id)) (flightBookings f) &&
  if f.cls = 0 then fits (c0Limits s f.tenant) (heldBookings s fun g => g.id ≠ f.id && g.cls == 0 && g.tenant == f.tenant) (flightBookings f)
  else fits (sharedLimits s) (heldBookings s fun g => g.id ≠ f.id && !inReserve s g) (flightBookings f)

/-! ## The flight (R59, R71, R214, R247, R392, R512) -/

def opKind (op : Nat) : FlightKind :=
  match op with
  | 0x10 => .search
  | 0x11 => .score
  | 0x20 => .insert
  | 0x21 => .delete
  | 0x30 => .lookup
  | _ => .scatter

/-- The source forwards its first SHADOW_MAX flights and parts on a collection in each step (R512). -/
def shadowMarks (s : State) (obj : Nat) : Bool :=
  (sourceOf s (objColl obj)).isSome &&
  ((s.sched.flights ++ s.sched.parts).filter fun f => f.shadow && f.obj == obj && (f.start + (match f.part with
    | some _ => 1
    | none => 0)) == s.ticks).length < rdf s Reg.fault.SHADOW_CTRL 7 0

/-- A hall flight's own stages: what the participants run is not booked here, and its landings are not tested here. -/
def flightStages (p : Plan) (hall : Bool) : List StageRun := p.stages.map fun d => { (default : StageRun) with skipped := hall && isPartStage p d }

def flightLanded (p : Plan) (hall : Bool) : List Nat :=
  if hall then (p.landings.filter fun l => 1 ≤ l.off && l.off ≤ contribOff p).map (·.no) ++ (List.range (contribOff p)).map fun k => 257 + k else []

def initWork (s : State) (d : Desc) : Work :=
  match d.family with
  | .row => { (default : Work) with rows := batchRows (tableOf s d.obj) d }
  | .update => default
  | _ =>
    { (default : Work) with
      vec := vecWords (d.u 13 1) (d.u 28 2) d.buf
      keys := if d.isScore then (List.range d.k).map fun i => BitVec.ofNat 64 (leAt d.keys (8 * i) 8) else [] }

def makeFlight (s : State) (d : Desc) (p : Plan) (cls : Nat) (demoted : Bool) : Flight :=
  let c := (Tbl.get s.store.colls d.obj).getD default
  let onColl := d.family ≠ .row
  let map := if d.hallScope then c.map else none
  let n := match map with
    | some m => m.shards.length
    | none => 1
  { (default : Flight) with
    id := s.sched.nextFlight, kind := opKind d.op, desc := d, tenant := d.chan / 16, cls := cls, epoch := s.now, start := s.ticks, entry := (chan s d.chan).force
    planSlot := d.planSlot, plan := p, gmap := (inServiceList s).take p.galleries, obj := d.obj
    bound := if onColl then ((c.bind s.now).map (·.epoch)).getD 0 else 0
    flags := if demoted then setBit 0 8 else 0
    stages := flightStages p d.hallScope, landed := flightLanded p d.hallScope
    params := if d.family = .query then d.sparams c.info else default
    work := initWork s d
    counts := { (default : Counts) with shardsExpected := n, shardsContributed := if map.isSome then 0 else 1 }
    resv := if d.family = .update then resvOf d else ⟨0, 0, 0⟩, map := map
    shadow := d.op == 0x10 && !d.hallScope && shadowMarks s d.obj }

/-- What an attempt to book and reserve comes to. -/
inductive Attempt where
  | admitted (s : State) (id : Nat)
  | completed (s : State)
  | noRoom

/-- SEEDBED_FULL or WEED_FULL, 0 when the reservation can be made (R214, R222). -/
def resvStatus (s : State) (r : Resv) : Nat :=
  if r.seeds ≠ 0 ∧ 64000000 < seedUsed s + r.seeds then ST_SEEDBED_FULL
  else if r.weeds ≠ 0 ∧ 16000000 < weedUsed s + r.weeds then ST_WEED_FULL
  else 0

def takeTokens (s : State) (c : Nat) : State :=
  if (chan s c).force.action = 0 then s else updChan s c fun x => { x with tokens := x.tokens - 256 }

/-- The flight is admitted: it leaves its queue, its bookings stand, its tenant is charged. -/
def admitFlight (s : State) (f : Flight) : State :=
  let s1 := unqueue s f.desc
  let s2 := { s1 with sched := { s1.sched with flights := s1.sched.flights ++ [f], nextFlight := s1.sched.nextFlight + 1 } }
  setSeedHigh (takeTokens (meter s2 f.tenant 0 1) f.desc.chan)

def tryAdmit (s : State) (d : Desc) (cls : Nat) (demoted : Bool) : Attempt :=
  match planOf s d.planSlot with
  | none => .noRoom
  | some p =>
    let f := makeFlight s d p cls demoted
    if bookFits s f = false then .noRoom
    else if resvStatus s f.resv ≠ 0 then .completed (refuseQueued s d (resvStatus s f.resv) 0)
    else .admitted (admitFlight s f) f.id

/-! ## The order of admission (R396, R397) -/

/-- Arrival order. -/
def descBefore (a b : Desc) : Bool :=
  a.arrival < b.arrival || (a.arrival == b.arrival && (a.order < b.order || (a.order == b.order && a.chan < b.chan)))

/-- The descriptors whose checks completed before the tick (R57). -/
def eligibleDescs (s : State) : List Desc := sortBy descBefore (s.sched.queued.filter (·.arrival < s.ticks))

/-- What admission in one step carries: the state, the class-0 descriptors offered as class 1, the flights admitted. -/
structure Filling where
  state : State
  demoted : List Nat
  ids : List Nat

/-- One class-0 descriptor of a tenant. -/
def fillC0 (t : Nat) (x : Filling) (d : Desc) : Filling :=
  let s := x.state
  let (st, detail) := admitCheck s d
  if st ≠ 0 then { x with state := refuseQueued s d st detail }
  else if descHeld s d ∨ s.step.valid = false then x
  else
    let offer : Filling := { x with state := count s (schedBank t 0x370), demoted := d.order :: x.demoted }
    if (tenant s t).c0Kept = true ∧ (tenant s t).seatsUsed < (tenant s t).seats then
      match tryAdmit s d 0 false with
      | .admitted u id => { x with state := updTenant u t fun y => { y with seatsUsed := y.seatsUsed + 1 }, ids := x.ids ++ [id] }
      | .completed u => { x with state := u }
      | .noRoom => offer
    else offer

/-- Channels of tenants that are not ADMITTED offer nothing in class 0; their descriptors still meet the checks. -/
def c0Order (s : State) : List Nat :=
  let rest := ((s.sched.queued.filter (·.cls == 0)).map fun d => d.chan / 16).eraseDups
  let r := byRank s
  r ++ (sortNat rest).filter fun t => !r.contains t

def fillClass0 (s : State) : Filling :=
  (c0Order s).foldl (fun x t => (((eligibleDescs s).filter fun d => d.cls == 0 && d.chan / 16 == t)).foldl (fillC0 t) x) ⟨s, [], []⟩

/-- A descriptor's queue number in this step: its class's, or class 1's of its channel when demoted. -/
def queueOf (dem : List Nat) (d : Desc) : Option Nat :=
  if d.cls = 0 then (if dem.contains d.order then some (d.chan * 4 + 1) else none) else some (d.chan * 4 + d.cls)

def queueDescs (s : State) (dem : List Nat) (q : Nat) : List Desc := (eligibleDescs s).filter fun d => queueOf dem d == some q

/-- The queues that hold a descriptor, ascending. -/
def liveQueues (s : State) (dem : List Nat) : List Nat := sortNat ((eligibleDescs s).filterMap (queueOf dem))

/-- The head of a queue passes its checks; heads that fail complete. -/
def settleHead (dem : List Nat) (q : Nat) (s : State) : Nat → State
  | 0 => s
  | n + 1 =>
    match queueDescs s dem q with
    | [] => s
    | d :: _ =>
      let (st, detail) := admitCheck s d
      if st = 0 then s else settleHead dem q (refuseQueued s d st detail) n

def vtime (s : State) : Nat := rd64 s Reg.sched.VTIME

def fairTag (s : State) (q : Nat) : FairQ := (Tbl.get s.sched.fair q).getD ⟨vtime s, false⟩

def setFair (s : State) (q : Nat) (x : FairQ) : State := { s with sched := { s.sched with fair := Tbl.set s.sched.fair q x } }

/-- Start tags at the open instant: raised to VTIME; an empty queue carries none. -/
def openFair (s : State) (qs : List Nat) : State :=
  { s with sched := { s.sched with fair := qs.map fun q => (q, ⟨max (fairTag s q).tag (vtime s), false⟩) } }

def fairDelta (s : State) (q : Nat) : Nat := 2 ^ 32 / (classWeight s (q % 4) * max 1 (chan s (q / 4)).force.weight)

/-- The eligible queue with the smallest start tag, then number, and its head. -/
def pickQueue (s : State) (dem : List Nat) : Option (Nat × Desc) :=
  let qs := (liveQueues s dem).filterMap fun q =>
    match queueDescs s dem q with
    | d :: _ => if (fairTag s q).blocked || descHeld s d then none else some (q, d)
    | [] => none
  qs.foldl (fun b x => match b with
    | none => some x
    | some y => if (fairTag s x.1).tag < (fairTag s y.1).tag then some x else some y) none

/-- A queue after an admission: its tag advances, or goes with its last descriptor. -/
def advanceQueue (s : State) (dem : List Nat) (q : Nat) (tag : Nat) : State :=
  let s1 := settleHead dem q (wr64 s Reg.sched.VTIME (tag % 2 ^ 64)) (s.sched.queued.length + 1)
  if queueDescs s1 dem q = [] then { s1 with sched := { s1.sched with fair := Tbl.del s1.sched.fair q } }
  else setFair s1 q ⟨tag + fairDelta s1 q, false⟩

/-- Seats are filled by weighted fair queuing. -/
def fairLoop (x : Filling) (seats : Nat) : Nat → Filling
  | 0 => x
  | n + 1 =>
    let s := x.state
    match seats, pickQueue s x.demoted with
    | 0, _ => x
    | _, none => x
    | k + 1, some (q, d) =>
      match tryAdmit s d (q % 4) (x.demoted.contains d.order) with
      | .admitted u id =>
        fairLoop { x with state := advanceQueue u x.demoted q (fairTag s q).tag, ids := x.ids ++ [id] } k n
      | .completed u => fairLoop { x with state := settleHead x.demoted q u (u.sched.queued.length + 1) } (k + 1) n
      | .noRoom => fairLoop { x with state := setFair s q { fairTag s q with blocked := true } } (k + 1) n

/-- Seats that class 0 does not hold. -/
def freeSeats (s : State) : Nat := rdf s Reg.sched.SEATS_PER_STEP 15 0 - sumOf (keptTenants s) fun t => (tenant s t).seats

/-- The descriptors whose deadline has passed complete, in arrival order. -/
def expireAll (s : State) : State := (eligibleDescs s).foldl expireDesc s

/-- Local descriptors at an open instant; without STEP_VALID they are checked and none is admitted (R45, R60). -/
def admitLocal (s : State) : Filling :=
  let x := fillClass0 s
  let qs := liveQueues x.state x.demoted
  let s1 := qs.foldl (fun u q => settleHead x.demoted q u (u.sched.queued.length + 1)) x.state
  let s2 := openFair s1 (liveQueues s1 x.demoted)
  if s2.step.valid then fairLoop { x with state := s2 } (freeSeats s2) (2 * s2.sched.queued.length + (liveQueues s2 x.demoted).length + 1)
  else { x with state := s2 }

end Sys2Proof.Machine
end

