-- ==== Sys2Proof/Machine/Landings.lean ====
section
/-! DEFINITION. Landings, waits and back stairs at an open instant (R62 to R67), the start of stages, background flights (R71, R72), and the
admission of participant parts (R250, R396). -/
namespace Sys2Proof.Machine

/-! ## The landing test (R62, R63) -/

/-- The step offset that a flight's bookings have come to. -/
def offsetNow (s : State) (f : Flight) : Nat := s.ticks - f.start - f.waits

/-- PRIOR_DONE: every stage of a lower offset has signalled completion on all its galleries. -/
def priorDone (s : State) (f : Flight) (o : Nat) : Bool := f.plan.stages.all fun d => decide (o ≤ d.off) || stageDone s f d

/-- FLASH_ARRIVED: lost records count as arrived (R66); a flight that refines nothing waits for none (R181). -/
def flashArrived (f : Flight) (quorum : Nat) : Bool :=
  let w := f.work
  if quorum = 0 then !readsRecords f || w.rake.all fun e => (Tbl.get w.arrived e.slot).isSome || w.lost.contains e.slot || w.lostBoth.contains e.slot
  else quorum ≤ w.arrived.length + w.lost.length + w.lostBoth.length

/-- WEIGHTS_PRESENT: the layers of the stages that start at the landing. -/
def weightsPresent (s : State) (f : Flight) (o : Nat) : Bool :=
  f.plan.stages.all fun d => d.off ≠ o || !runsModel f d || (f.run d.no).skipped || weightsHeld s f d

def orCount (q n : Nat) : Nat := if q = 0 then n else q

def remoteArrived (f : Flight) (quorum : Nat) : Bool :=
  orCount quorum f.counts.shardsExpected ≤ (completeShards f).eraseDups.length

def rowsArrived (f : Flight) (quorum : Nat) : Bool := orCount quorum f.work.rows.length ≤ (f.work.rows.filter (·.done)).length

/-- QUERY_ARRIVED: a local flight has its query since admission, a part once its RAKE_QUERY is admitted (R250). -/
def queryPresent (f : Flight) : Bool := f.part.all (·.admitted)

def landingTest (s : State) (f : Flight) (l : LandingDef) : Bool :=
  let t (b : Nat) : Bool := l.tests.getLsbD b
  (!t 0 || priorDone s f l.off) && (!t 5 || queryPresent f) && (!t 1 || flashArrived f l.quorum) && (!t 2 || weightsPresent s f l.off) &&
  (!t 3 || remoteArrived f l.quorum) && (!t 4 || rowsArrived f l.quorum)

/-- The landings of an offset that are still to pass: the implicit one of a plain boundary first. -/
def landingsAt (f : Flight) (o : Nat) : List LandingDef :=
  let ls := f.plan.landings.filter (·.off == o)
  let plain := if ls.any fun l => l.tests.getLsbD 0 then [] else [(⟨256 + o, o, 1, 0xFF, true, 0⟩ : LandingDef)]
  (plain ++ ls).filter fun l => !f.landed.contains l.no

/-! ## Waits (R62, R64, R69, R162) -/

/-- The bookings of every stage not yet started, one step later. -/
def shiftStages (f : Flight) (o : Nat) : Flight :=
  { f with stages := f.stages.zipIdx.map fun x =>
    match f.plan.stages[x.2]? with
    | some d => if o ≤ d.off ∧ x.1.started = false then { x.1 with shift := x.1.shift + 1 } else x.1
    | none => x.1 }

def mayWait (s : State) (f : Flight) (l : LandingDef) : Bool :=
  f.cls ≠ 0 && f.plan.flags.getLsbD 1 && l.waitOk && f.waits < rdf s Reg.sched.WAIT_STEPS 2 0 &&
  (f.desc.deadline == 0 || f.start + f.plan.span + f.waits + 1 ≤ f.desc.arrival + f.desc.deadline) && bookFits s (shiftStages f l.off)

/-- A stage that overran goes on in the waiting step: it is complete if all its galleries have signalled since, and resumes or starts if it had
stopped or was held up (R69). -/
def goOn (s : State) (id : Nat) (d : StageDef) : State :=
  match workOf s id with
  | none => s
  | some f =>
    let r := f.run d.no
    if r.over ∨ r.failed then s
    else if r.done ≠ [] ∧ (stageGalleries f.plan f.gmap d).all r.done.contains = true then
      let g := f.setRun d.no fun r => { r with complete := true }
      finishStage (updWork s id fun _ => g) g d
    else if r.suspended then resumeStage s f d
    else if r.delayed then startStage s f d
    else s

/-- The flight waits. -/
def waitStep (s : State) (f : Flight) (o : Nat) : State :=
  let late := f.plan.stages.filter fun d => (f.run d.no).overrun
  let s1 := updWork (count s Reg.sched.WAIT_COUNT) f.id fun x =>
    { shiftStages x o with waits := x.waits + 1, stages := (shiftStages x o).stages.map fun r => { r with overrun := false } }
  late.foldl (fun t d => goOn t f.id d) (match workOf s1 f.id with
    | some g => movePasses s1 g
    | none => s1)

/-- The records that came before the landing are worked in, where REFINE has started (R65, R69). -/
def refineFirst (s : State) (f : Flight) : State := if refining f then updWork s f.id (refineNow s) else s

/-- A back stair at a landing: FLASH_LATE keeps the refinement distances that stand; REMOTE_LATE merges what has arrived even where the plan skips
XNODE_MERGE. -/
def stairAt (s : State) (f : Flight) (b : BackDef) (l : LandingDef) : State :=
  let s0 := if b.kind = 1 then refineFirst s f else s
  let s1 := updWork (takeBack s0 ((workOf s0 f.id).getD f) b l.off) f.id fun x => { x with landed := l.no :: x.landed }
  match workOf s1 f.id with
  | some g =>
    if b.kind = 3 ∧ g.merged = false ∧ (g.plan.stages.any fun d => d.kind == 0x0E && !(g.run d.no).over) = false then xnodeMerge s1 g else s1
  | none => s1

/-- at_landing for the landings of an offset in order: the state, and whether the flight goes on into the step. -/
def atLandings (s : State) (id : Nat) : List LandingDef → State × Bool
  | [] => (s, true)
  | l :: r =>
    match workOf s id with
    | none => (s, false)
    | some f =>
      if landingTest s f l then atLandings (traceLanding (updWork s id fun x => { x with landed := l.no :: x.landed }) f l.no 0) id r
      else if mayWait s f l then (traceLanding (waitStep s f l.off) f l.no 1, false)
      else
        match f.plan.backs[l.back]? with
        | some b => atLandings (traceLanding (stairAt s f b l) f l.no 2) id r
        | none => (failFlight (traceLanding s f l.no 3) f, false)

/-! ## Starting stages -/

/-- start_stages: the stages of an offset that are not left out. -/
def startStages (s : State) (id o : Nat) : State :=
  match workOf s id with
  | none => s
  | some f => (f.plan.stages.filter fun d => d.off == o && !(f.run d.no).skipped && !(f.run d.no).started).foldl (fun u d => startStage u f d) s

/-! ## A flight at an open instant -/

/-- A cancel takes effect (R73, R303). -/
def cancelNow (s : State) (f : Flight) : State := if f.kind = .scatter then endCancelled s f else endFlight s f ST_CANCELLED

/-- A foreground flight: its landings, then its stages. One past its span that nothing has ended fails. -/
def openForeground (s : State) (f : Flight) : State :=
  let o := offsetNow s f
  if f.cancel ∧ f.part.isNone = true ∧ scatterDone f = false then cancelNow s f
  else if f.plan.span ≤ o ∧ priorDone s f o = true then failFlight s f
  else
    let (s1, on) := atLandings s f.id (landingsAt f o)
    if on then startStages s1 f.id o else s1

/-- The lowest offset with a stage that is not done. -/
def bgOffset (s : State) (f : Flight) : Option Nat :=
  match (f.plan.stages.filter fun d => !stageDone s f d).map (·.off) with
  | [] => none
  | a :: r => some (r.foldl min a)

/-- A background flight resumes what it had suspended, or goes on to its next stages (R71). -/
def openBackground (s : State) (f : Flight) : State :=
  let busy := f.plan.stages.any fun d => (f.run d.no).runs
  if f.cancel ∧ busy = false ∧ scatterDone f = false then cancelNow s f
  else if f.stages.any (·.failed) then failFlight s f
  else if s.quiesce then s
  else
    match bgOffset s f with
    | none => failFlight s f
    | some o =>
      if f.plan.stages.any fun d => (f.run d.no).started && !stageDone s f d then
        (f.plan.stages.filter fun d => (f.run d.no).suspended && !(f.run d.no).over).foldl (fun t d => resumeStage t f d) s
      else if (f.plan.landings.filter (·.off == o)).all (landingTest s f) then startStages s f.id o
      else s

def openFlight (s : State) (id : Nat) : State :=
  match workOf s id with
  | none => s
  | some f => if f.background then openBackground s f else openForeground s f

/-! ## Participant parts (R250, R253 orders 6 and 8, R396, R400, R479, R500, R512) -/

/-- A part of a paired collection is forwarded to its shadow with its stored query. -/
def forwardPart (s : State) (f : Flight) (p : PartInfo) : State :=
  match sourceOf s (objColl f.obj), f.shadow with
  | some i, true =>
    let b := f.desc.buf
    let h := putAt (putAt (b.take 192) 26 (toLe 2 (pairAt s i).peerObj)) 56 (toLe 1 (s.now - f.epoch))
    sendFrame s 0x58 1 3 (pairAt s i).peer (leAt b 16 4) p.flightNo (putAt h 60 (toLe 4 (crcWithout h 60 4).toNat) ++ b.drop 192)
  | _, _ => s

def refusePart (s : State) (f : Flight) (p : PartInfo) (reason : Nat) : State :=
  let s1 := dropFlight s f.id
  if p.shadow then skipShadow s1 else sendNone s1 f p reason

/-- A part whose step has come is admitted, or refused with QUERY_LATE or NO_SEAT. A class-0 part of a tenant without class-0 reservations is booked
as class 1 (R396). DESIGN CHOICE (log entry 136): it is not marked as demoted; its contribution carries no DEMOTED flag of its own. -/
def admitPart (s : State) (f : Flight) (p : PartInfo) : State :=
  if followerOpen s (objColl f.obj) f.epoch = false then refusePart s f p 1
  else if s.quiesce ∨ s.step.valid = false then refusePart s f p 7
  else
    let cls := if f.cls = 0 ∧ (tenant s f.tenant).c0Kept = false then 1 else f.cls
    let g : Flight := { f with
      cls := cls, gmap := (inServiceList s).take f.plan.galleries, part := some { p with admitted := true }
      shadow := !p.shadow && shadowMarks s f.obj }
    if (inServiceList s).length < f.plan.galleries ∨ bookFits s g = false then refusePart s f p 7
    else
      let s1 := forwardPart (updPart s f.id fun _ => g) g p
      openFlight (if p.shadow then s1 else count s1 Reg.sched.PART_ADMITTED) f.id

def partDue (s : State) (f : Flight) : Bool :=
  match f.part with
  | some p => !p.admitted && f.start + 1 ≤ s.ticks
  | none => false

end Sys2Proof.Machine
end

