-- ==== Sys2Proof/Machine/Memory.lean ====
section
/-! DEFINITION. HBM stacks and near-bank units (R313 to R319), mirrored copies (R331, R332), poisoned and lost structures (R315, R326, R336), and the
cache's dirty pages (R325). -/
namespace Sys2Proof.Machine

def updStack (s : State) (k : Nat) (f : Stack → Stack) : State := { s with mem := { s.mem with stackSt := updAt s.mem.stackSt k f } }
def nearUnit (s : State) (k : Nat) : NearBank := s.mem.near.getD (k / 2) NearBank.reset
def updNear (s : State) (k : Nat) (f : NearBank → NearBank) : State := { s with mem := { s.mem with near := updAt s.mem.near (k / 2) f } }
/-- Stack `k` has a near-bank unit that runs. -/
def nearRuns (s : State) (k : Nat) : Bool := k % 2 == 0 && nearReady s k

/-! ## Training and retirement (R314, R335, R337) -/

/-- HBM_STACK_TRAINING. A stack of another configuration stays UNTRAINED; one that fails is FAILED. In the production test state every stack stays
untrained (R590). -/
def stackTraining (s : State) (k : Nat) (r : StackTraining) : State :=
  if stackState s k ≠ 3 ∨ s.chip.test.prod = true then s
  else
    let s1 := match r with
      | .healthy => wr s (stackStatusReg k) (BitVec.ofNat 32 (64 * 4))
      | .wrongConfig => updStack s k fun x => { x with rejected := true }
      | .failed => raiseErrs (wr s (stackStatusReg k) 2) .hbm k [3, 4]
    setHbmCapacity s1

def execHbmStackTraining (stack : Fin 8) (result : StackTraining) (s : State) : Host.Outcome State Fault Refusal :=
  .next (stackTraining s stack.val result)

def pcRetired (s : State) (k pc : Nat) : Bool := rd64 s (Reg.hbm.PC_RETIRED_MASK k) / 2 ^ pc % 2 == 1

/-- A pseudo-channel is retired; its mapping takes effect with PC_REMAP_DONE. -/
def retirePc (s : State) (k pc : Nat) : State :=
  let s1 := wr64 s (Reg.hbm.PC_RETIRED_MASK k) (rd64 s (Reg.hbm.PC_RETIRED_MASK k) + 2 ^ pc)
  let n := rdf s (stackStatusReg k) 8 2
  let s2 := wr s1 (stackStatusReg k) (BitVec.ofNat 32 (4 * (n - 1) + 1))
  let s3 := raiseEvt (updStack s2 k fun x => { x with remapping := x.remapping ++ [pc] }) (pageBase .hbm k) 0
  let s4 := if k % 2 = 0 then wr s3 (Reg.nb.BURSTS_PER_WIN k) (BitVec.ofNat 32 (20 * (n - 1))) else s3
  setHbmCapacity s4

/-- An uncorrectable read of a pseudo-channel (R315, R335). -/
def uncorrectableRead (s : State) (k pc : Nat) : State :=
  let s1 := raiseErr (count s (Reg.hbm.UE_COUNT k)) .hbm k 1
  let n := (Tbl.get (s.mem.stackSt.getD k Stack.reset).ue pc).getD 0 + 1
  let s2 := updStack s1 k fun x => { x with ue := Tbl.set x.ue pc n }
  if max 1 (rdf s (Reg.hbm.UE_RETIRE k) 7 0) ≤ n ∧ pcRetired s k pc = false then retirePc s2 k pc else s2

/-- The retired pseudo-channels of a stack whose mapping is in force. -/
def pcMapped (s : State) (k : Nat) : List Nat :=
  (List.range 64).filter fun p => pcRetired s k p && !(s.mem.stackSt.getD k Stack.reset).remapping.contains p

/-- The pseudo-channel that serves the block at an offset of a stack (R313, R335): its own, or, for a retired one whose mapping is in force, that of an
in-service block of the removed top. Which one is open: the blocks are taken in ascending order on both sides (DESIGN CHOICE, log entry 129). -/
def servingPc (s : State) (k off : Nat) : Nat :=
  let pc := off / 4096 % 64
  let out := pcMapped s k
  if out.contains pc then
    let live := (List.range 64).filter fun p => !out.contains p
    (live[(off / 2 ^ 18 * out.length + out.idxOf pc) % live.length]?).getD pc
  else pc

/-- Every address of a collection's blocks through `f`. -/
def Coll.mapAddrs (f : Nat → Nat) (c : Coll) : Coll :=
  let two (a : Nat × Nat) : Nat × Nat := (f a.1, f a.2)
  let node (n : NodeBlk) : NodeBlk := { n with addrs := two n.addrs }
  let leaf (l : LeafBlk) : LeafBlk := { l with addr := f l.addr }
  { c with
    projAddrs := two c.projAddrs, arrays := (c.arrays.1.map f, c.arrays.2.map f), segs := c.segs.map fun g => { g with addr := f g.addr }
    versions := c.versions.map fun v => { v with nodes := v.nodes.map node, leaves := v.leaves.map leaf, addrs := two v.addrs, prev := f v.prev }
    tps := c.tps.map fun t => { t with nodes := t.nodes.map node, leaves := t.leaves.map leaf } }

/-- Mladty moves the blocks at the ranges of `out` to stacks of their `groups`, as far as there is room. -/
def moveBlocks (s : State) (groups : Nat → List (List Nat)) (out : Heap) : State :=
  let m := (out.eraseDups.foldl (fun (a : List (Nat × Nat) × Heap) x =>
    match placeIn s a.2 (groups (x.1 / 2 ^ 36)) none x.2 with
    | some p => (a.1 ++ [(x.1, p)], (p, x.2) :: a.2)
    | none => a) ([], heapOf s)).1
  let moved (a : Nat) : Nat := match m.find? (·.1 == a) with
    | some x => x.2
    | none => a
  { s with store := { s.store with colls := s.store.colls.map fun (p : Nat × Coll) => (p.1, p.2.mapAddrs moved) } }

/-- The other stack of the same kind in a stack's wing. -/
def twinStack (k : Nat) : Nat := k ^^^ 2

/-- PC_REMAP_DONE: Mladty has moved what lay in the removed top of the stack, and the mapping of the retired pseudo-channel takes effect. -/
def pcRemapDone (s : State) (k pc : Nat) : State :=
  moveBlocks (updStack s k fun x => { x with remapping := x.remapping.filter (· ≠ pc) }) (fun k => [[k], [twinStack k]])
    ((heapOf s).filter fun x => x.1 / 2 ^ 36 == k && stackEnd s k < x.1 + x.2)

def execPcRemapDone (stack : Fin 8) (pc : Fin 64) (s : State) : Host.Outcome State Fault Refusal := .next (pcRemapDone s stack.val pc.val)

/-! ## Scan windows and bursts (R172, R316 to R319) -/

/-- WIN_BOOKED: the windows that the stages of this step book on every unit. -/
def winBooked (s : State) : Nat := booked (heldBookings s fun _ => true) s.ticks (·.windows)

/-- SCAN_WINDOW: a booked window opens, never before the open instant (R43); tiles have drained candidates, and their reports of flights' chains take
effect. -/
def scanWindow (s : State) (k drained : Nat) (reports : List (Nat × Bool × Nat)) : State :=
  if nearRuns s k = false ∨ s.step.seam = true then s
  else
    let booked := decide ((nearUnit s k).windowsRun < winBooked s)
    updNear s k fun u => { u with
      fill := u.fill - drained
      reports := reports.foldl (fun t r => Tbl.set t r.1 (r.2.1, r.2.2)) (u.reports.filter fun r => (workOf s r.1).isSome)
      windowsRun := if booked then u.windowsRun + 1 else u.windowsRun
      burstsLeft := if booked then rdf s (Reg.nb.BURSTS_PER_WIN k) 10 0 else 0 }

def execScanWindow (stack : Fin 8) (drained : Nat) (reports : List (Nat × Bool × Nat)) (s : State) : Host.Outcome State Fault Refusal :=
  .next (scanWindow s stack.val drained reports)

/-- The rank keys that burst `b` of a pass scores for a flight: the records whose last byte lies in the block and that no poisoned block touches. -/
def burstKeys (s : State) (p : Pass) (b : Nat) (f : Flight) : List Nat :=
  let c := collOf s f
  match (boundVersion c f).leaf p.leaf with
  | none => []
  | some l =>
    let bad := (f.work.poison.filter (·.1 == p.leaf)).map (·.2)
    let rb := recordBytes c.info.projDims
    (l.recs.zipIdx.filter fun x => (64 + (x.2 + 1) * rb - 1) / 4096 == b && !bad.contains 0 && !recordHit c.info l.recs.length x.2 bad).map fun x =>
      recordKey (kernelOf s c.info.profile 1) c.info.metric f.work.coarse x.1 (l.norms.getD x.2 (0, 0)).1

/-- A candidate is sent while the chain is not full or its key is at most the last entry's, as last reported. -/
def mayEnter (u : NearBank) (id key : Nat) : Bool :=
  match Tbl.get u.reports id with
  | some (full, last) => !full || key ≤ last
  | none => true

/-- Flights that share a pass omit what a poisoned block holds. -/
def addPoison (leaf : Word) (b : Nat) (s : State) (id : Nat) : State :=
  updWork s id fun f => setWork f fun w => if w.poison.contains (leaf, b) then w else { w with poison := (leaf, b) :: w.poison }

/-- The first queued pass whose scan step has come, with what stands before and after it. -/
def duePass (now : Nat) : List Pass → Option (List Pass × Pass × List Pass)
  | [] => none
  | p :: r => if p.step ≤ now then some ([], p, r) else (duePass now r).map fun x => (p :: x.1, x.2)

/-- The address of the block that a pass reads next. -/
def passAddr (s : State) (p : Pass) : Nat :=
  ((p.flights.filterMap (workOf s)).findSome? fun f => ((boundVersion (collOf s f) f).leaf p.leaf).map fun l => l.addr + 4096 * p.done).getD 0

/-- SCAN_BURST: one 4 KiB block of the unit's first pass of this step. Without credit for all its records the burst is withheld, and its slot goes by;
it is issued in a later slot once the tiles have drained enough. -/
def scanBurst (s : State) (k : Nat) (b : Burst) : State :=
  let u := nearUnit s k
  match duePass s.ticks u.queue with
  | none => s
  | some (before, p, rest) =>
    let fill := u.fill - b.drained
    if nearRuns s k = false ∨ s.step.seam = true ∨ u.burstsLeft = 0 then s
    else if 16384 < fill + 104 * p.flights.length then
      updNear (count s (Reg.nb.CREDIT_STALL k)) k fun x => { x with burstsLeft := x.burstsLeft - 1, fill := fill }
    else
      let s1 := count s (Reg.nb.BURSTS k)
      let s2 := if b.poisoned then
          p.flights.foldl (addPoison p.leaf p.done) (uncorrectableRead (count s1 (Reg.nb.BURST_UE k)) k (servingPc s k (passAddr s p % 2 ^ 36)))
        else s1
      let keys := (p.flights.filterMap (workOf s2)).flatMap fun f => (burstKeys s2 p p.done f).map fun x => mayEnter u f.id x
      updNear (countBy s2 (Reg.nb.CAND_HELD k) (keys.filter fun x => !x).length) k fun x => { x with
        burstsLeft := x.burstsLeft - 1
        fill := fill + (keys.filter fun y => y).length
        queue := before ++ (if p.done + 1 < p.bursts then [{ p with done := p.done + 1 }] else []) ++ rest }

def execScanBurst (stack : Fin 8) (burst : Burst) (s : State) : Host.Outcome State Fault Refusal := .next (scanBurst s stack.val burst)

/-! ## Dirty pages (R324 to R326, R305) -/

/-- A page that is not in flash as it stands in the cache. -/
def pageDirty (s : State) (range page : Nat) : Bool :=
  (Tbl.get s.mem.flash.dirty (dirtyKey range page)).isSome || (Tbl.get s.mem.flash.wb (dirtyKey range page)).isSome

def rowPages (t : Table) (idx : Nat) : List Nat :=
  let o := rowOff (tableRowBytes t) idx
  (List.range ((o + tableRowBytes t - 1) / 4096 - o / 4096 + 1)).map (o / 4096 + ·)

/-- The table that owns a tier range (R349). -/
def rangeTable (s : State) (range : Nat) : Option (Nat × Table) :=
  if range < 4096 ∨ 5120 ≤ range then none else (Tbl.get s.store.tables (range - 4096)).map fun t => (range - 4096, t)

/-- A page reverts to its flash copy: each of its rows holds an earlier value, or is gone if it was created since. -/
def revertPage (s : State) (range page : Nat) : State :=
  match rangeTable s range with
  | none => s
  | some (n, t) =>
    let hit (idx : Nat) : Bool := (rowPages t idx).contains page
    let gone := (t.rows.filter fun (p : Nat × RowSlot) => hit p.1 && p.2.flash.isNone).map (·.2.key)
    setTable s n { t with
      rows := t.rows.filterMap fun (p : Nat × RowSlot) =>
        if hit p.1 then p.2.flash.map fun r => (p.1, { p.2 with cur := r }) else some p
      rowmap := gone.foldl killKey t.rowmap }

/-- The bucket that a page of a tier range holds: its number and its entries. -/
def pageBucket (s : State) (range page : Nat) : Option (Nat × List KeyEntry) :=
  let of_ (first buckets : Nat) (m : Tbl (List KeyEntry)) : Option (Nat × List KeyEntry) :=
    if first ≤ page ∧ page < first + buckets then some (page - first, (Tbl.get m (page - first)).getD []) else none
  if range < 4096 then (Tbl.get s.store.colls range).bind fun c => of_ (mapPage c.info) c.info.buckets c.keymap
  else (rangeTable s range).bind fun t => of_ (4 * unitsOf (tableRowBytes t.2) t.2.limit) t.2.buckets t.2.rowmap

/-- A key map or row map bucket reverts to its flash copy. -/
def revertBucket (s : State) (range page : Nat) : State :=
  match pageBucket s range page, Tbl.get s.mem.flash.mapOld (dirtyKey range page) with
  | some (x, _), some es =>
    let put (m : Tbl (List KeyEntry)) : Tbl (List KeyEntry) := if es.isEmpty then Tbl.del m x else Tbl.set m x es
    if range < 4096 then updColl s range fun c => { c with keymap := put c.keymap }
    else match rangeTable s range with
      | some (n, t) => setTable s n { t with rowmap := put t.rowmap }
      | none => s
  | _, _ => s

/-- A cache page in stack `k` is lost: a clean one is read again from flash, a dirty one reverts. -/
def dropPage (s : State) (k range page : Nat) : State :=
  if pageDirty s range page then
    let s1 := raiseEvt (count s (Reg.hbm.DIRTY_LOST k)) (pageBase .hbm k) 1
    updFlash (revertBucket (revertPage s1 range page) range page) fun f => { f with
      dirty := Tbl.del f.dirty (dirtyKey range page), wb := Tbl.del f.wb (dirtyKey range page)
      mapOld := Tbl.del f.mapOld (dirtyKey range page), mapWb := Tbl.del f.mapWb (dirtyKey range page) }
  else updFlash s fun f => { f with cache := f.cache.filter (· ≠ dirtyKey range page) }

/-- WRITEBACK_DUE: the write-back of a dirty page starts; it takes the value of every row of which this is the last page still dirty,
or of the bucket that the page is. -/
def writebackDue (s : State) (range page : Nat) : State :=
  let key := dirtyKey range page
  match Tbl.get s.mem.flash.dirty key, Tbl.get s.mem.flash.wb key with
  | some _, none =>
    if flashRunning s = false then s
    else
      let rows := match rangeTable s range with
        | some (_, t) => t.rows.filterMap fun (p : Nat × RowSlot) =>
            let ps := rowPages t p.1
            if ps.contains page && ps.all fun x => x == page || !pageDirty s range x then some (p.1, p.2.cur) else none
        | none => []
      updFlash s fun f => { f with
        dirty := Tbl.del f.dirty key, wb := Tbl.set f.wb key rows
        mapWb := match pageBucket s range page with
          | some (_, es) => Tbl.set f.mapWb key es
          | none => f.mapWb }
  | _, _ => s

def execWritebackDue (range page : Nat) (s : State) : Host.Outcome State Fault Refusal := .next (writebackDue s range page)

/-! ## What a structure's loss does (R315, R332, R336) -/

def setCopy (ok : Bool × Bool) (copy : Nat) (v : Bool) : Bool × Bool := if copy = 0 then (v, ok.2) else (ok.1, v)
def otherCopy (ok : Bool × Bool) (copy : Nat) : Bool := if copy = 0 then ok.2 else ok.1

/-- A failing copy is rewritten from the other one, in stack `k`; `none` where the other one fails too. -/
def repairCopy (s : State) (k : Nat) (ok : Bool × Bool) (copy : Nat) (otherOk : Bool) : Option State :=
  if otherCopy ok copy && otherOk then some (raiseEvt (count s (Reg.hbm.MIRROR_REPAIR k)) (pageBase .hbm k) 2) else none

/-- Copy `copy` of the newest version's node at a path no longer reads; versions that share the block share the loss. -/
def failNode (c : Coll) (lv : Nat) (path : Word) (copy : Nat) : Coll :=
  match (c.versions.head?).bind fun v => v.nodes.find? fun n => n.level == lv && n.path == path with
  | none => c
  | some n => { c with versions := c.versions.map fun v => { v with
      nodes := v.nodes.map fun m => if m.level = lv ∧ m.path = path ∧ m.epoch = n.epoch then { m with ok := setCopy m.ok copy false } else m } }

def nodeOk (c : Coll) (lv : Nat) (path : Word) : Bool × Bool :=
  (((c.versions.head?).bind fun v => v.nodes.find? fun n => n.level == lv && n.path == path).map (·.ok)).getD (true, true)

def failRecord (c : Coll) (copy : Nat) : Coll :=
  match c.versions with
  | [] => c
  | v :: r => { c with versions := { v with ok := setCopy v.ok copy false } :: r }

/-- The plots of a map page (R349), `page` being range × 2^24 + m. -/
def inMapPage (page key : Nat) : Bool := key / 2 ^ 32 == page / 2 ^ 24 && key % 2 ^ 32 / 504 == page % 2 ^ 24
def mapOk (s : State) (page : Nat) : Bool × Bool := (((s.mem.flash.plots.find? fun p => inMapPage page p.1).map (·.2.ok))).getD (true, true)
def failMap (s : State) (page copy : Nat) : State :=
  let fail (p : Nat × Plot) : Nat × Plot := if inMapPage page p.1 then (p.1, { p.2 with ok := setCopy p.2.ok copy false }) else p
  updFlash s fun f => { f with plots := f.plots.map fail }

/-- Both copies of an epoch record have failed: a C1 error and the EPOCH_REC_FAIL event (R225, R243). -/
def bothRecords (s : State) (n : Nat) : State :=
  if ((Tbl.get s.store.colls n).bind (·.versions.head?)).map (·.ok) = some (false, false) then raiseEvt (raiseErr s .sched 0 2) (pageBase .sched 0) 12
  else s

/-- What a structure in stack `k` becomes when a read of it fails, or when its stack does (`read` false): a mirrored copy is repaired or lost, bulk
data is left out. Both copies of an epoch record or a map page failing is an error of its own (R225, R355), a copy of a channel entry likewise
(R388). -/
def poisonStruct (s : State) (k : Nat) (read : Bool) (what : HbmStruct) (otherOk : Bool) : State :=
  let coll (n : Nat) : Coll := (Tbl.get s.store.colls n).getD default
  match what with
  | .node n lv path copy =>
    (repairCopy s k (nodeOk (coll n) lv path) copy otherOk).getD (updColl s n fun c => failNode c lv path copy)
  | .leaf n path b =>
    let reads (f : Flight) : Bool :=
      f.isSearch && f.obj == n.val && f.work.leaves.contains path && f.plan.stages.any fun d => d.kind == 5 && (f.run d.no).runs
    ((s.sched.flights ++ s.sched.parts).filter reads).foldl (fun t f => addPoison path b t f.id) s
  | .epochRecord n copy =>
    let s0 := if read then count s Reg.sched.EPOCH_REC_FAIL else s
    match repairCopy s0 k (((coll n).versions.head?.map (·.ok)).getD (true, true)) copy otherOk with
    | some t => t
    | none => bothRecords (updColl s0 n fun c => failRecord c copy) n
  | .channelEntry n copy =>
    let s1 := if read then raiseErr (count s Reg.sched.CHAN_CRC_FAIL) .sched 0 1 else s
    (repairCopy s1 k (chan s n).ok copy otherOk).getD (updChan s1 n fun c => { c with ok := setCopy c.ok copy false })
  | .segment n p weed i => updColl s n fun c => { c with badSegs := (p.val, weed, i) :: c.badSegs.filter (· ≠ (p.val, weed, i)) }
  | .arrays n sl => updColl s n fun c => { c with lostSlots := c.lostSlots ++ sl.filter fun x => !c.lostSlots.contains x }
  | .mapPage page copy =>
    match repairCopy s k (mapOk s page) copy otherOk with
    | some t => t
    | none =>
      let s1 := failMap s page copy
      if mapOk s1 page = (false, false) then raiseErr s1 .ft 0 0 else s1
  | .cachePage range page => dropPage s k range page
  | .modelWeights n => { s with store := { s.store with models := Tbl.upd s.store.models n.val fun m => { m with lost := true } } }
  | .other => s

/-- HBM_READ_COMPLETE. A command or address parity error is reported, and the controller's repeat of the read is a report of its own. `otherOk` tells, for a mirrored structure whose read is uncorrectable, whether its other copy reads good. -/
def readComplete (s : State) (addr : Nat) (o : HbmOutcome) (what : HbmStruct) (otherOk : Bool) : State :=
  let k := addr / 2 ^ 36
  if 2 ≤ stackState s k then s
  else
    match o with
    | .clean => s
    | .corrected => raiseErr (count s (Reg.hbm.CE_COUNT k)) .hbm k 0
    | .caParity => raiseErr s .hbm k 2
    | .uncorrectable => poisonStruct (uncorrectableRead s k (servingPc s k (addr % 2 ^ 36))) k true what otherOk

def execHbmReadComplete (addr : Nat) (outcome : HbmOutcome) (what : HbmStruct) (otherOk : Bool) (s : State) : Host.Outcome State Fault Refusal :=
  if inHbm addr 1 then .next (readComplete s addr outcome what otherOk) else .fault (.hbmAddress addr)

/-- The collection of a structure that a failed stack held. -/
def structColl : HbmStruct → Option Nat
  | .node n _ _ _ => some n.val
  | .leaf n _ _ => some n.val
  | .epochRecord n _ => some n.val
  | .segment n _ _ _ => some n.val
  | .arrays n _ => some n.val
  | _ => none

/-- The structure is a copy of mirrored metadata (R331). -/
def structMirrored : HbmStruct → Bool
  | .node _ _ _ _ | .epochRecord _ _ | .channelEntry _ _ | .mapPage _ _ => true
  | _ => false

/-- The slots whose key, attribute or partition entries lie in stack `k`. -/
def slotsIn (k : Nat) (c : Coll) : List Nat :=
  let at_ (l : List Nat) (per n : Nat) : Bool := (l[n / per]?).any fun a => a / 2 ^ 36 == k
  (c.slots.filter fun x => at_ c.arrays.1 keyExtent x.1 || at_ c.arrays.2 attrExtent x.1).map (·.1)

/-- The segments of a collection in stack `k`, each as partition, kind and place in its chain. -/
def segsIn (k : Nat) (c : Coll) : List (Nat × Bool × Nat) :=
  ((c.segs.map fun g => (g.part, g.weed)).eraseDups).flatMap fun x =>
    (((chainOf c x.2 x.1).zipIdx).filter fun g => g.1.addr / 2 ^ 36 == k).map fun g => (x.1, x.2, g.2)

/-- What a collection loses with stack `k` (R336): node and epoch record copies, segments, array entries. Its update batches end NOT_READY from now on.
Leaves are left out by the state of their stack. -/
def collHit (k : Nat) (c : Coll) : Coll :=
  let node (n : NodeBlk) : NodeBlk := { n with ok := (n.ok.1 && n.homes.1 ≠ k, n.ok.2 && n.homes.2 ≠ k) }
  { c with
    versions := c.versions.map fun v => { v with
      nodes := v.nodes.map node, ok := (v.ok.1 && v.addrs.1 / 2 ^ 36 ≠ k, v.ok.2 && v.addrs.2 / 2 ^ 36 ≠ k) }
    tps := c.tps.map fun t => { t with nodes := t.nodes.map node }
    badSegs := (segsIn k c).filter (fun x => !c.badSegs.contains x) ++ c.badSegs
    lostSlots := c.lostSlots ++ (slotsIn k c).filter fun x => !c.lostSlots.contains x
    stackHit := c.stackHit || (collSpans c).any fun x => x.1 / 2 ^ 36 == k }

/-- A collection's mirrored copies: projection, nodes, epoch records. -/
def pairsOf (c : Coll) : Heap :=
  pairSpans (projHeld c.proj) c.projAddrs ++
  (c.versions.flatMap fun v => pairSpans 12288 v.addrs ++ v.nodes.flatMap fun n => pairSpans (nodeBytesOf c.info n) n.addrs) ++
  c.tps.flatMap fun t => t.nodes.flatMap fun n => pairSpans (nodeBytesOf c.info n) n.addrs

/-- STACK_FAIL (R335, R336, R338). `lost` lists what the stack held beside the collections' structures, whose addresses the state holds: mirrored
entries, cache pages and weights, which Mladty's placement decides. -/
def stackFail (s : State) (k : Nat) (lost : List HbmStruct) : State :=
  if stackState s k = 2 then s
  else
    let s1 := raiseErr (wr s (stackStatusReg k) 2) .hbm k 3
    let s2 := if k % 2 = 0 then updNear s1 k fun u => { u with queue := [], burstsLeft := 0, fill := 0 } else s1
    let pairs := s2.store.colls.any fun p => (pairsOf p.2).any fun x => x.1 / 2 ^ 36 == k
    let was := (s2.store.colls.filter fun p => (p.2.versions.head?).any fun v => v.ok ≠ (false, false)).map (·.1)
    let s3 := { s2 with store := { s2.store with colls := s2.store.colls.map fun (p : Nat × Coll) => (p.1, collHit k p.2) } }
    let s4 := was.foldl bothRecords s3
    let s5 := lost.foldl (fun t x => if (structColl x).isSome then t else poisonStruct t k false x false) s4
    setHbmCapacity (if pairs || lost.any structMirrored then wrf s5 Reg.ft.MIRROR_SINGLE 0 0 1 else s5)

def execStackFail (stack : Fin 8) (lost : List HbmStruct) (s : State) : Host.Outcome State Fault Refusal := .next (stackFail s stack.val lost)

/-- A copy pair of which one reads has two again. -/
def bothOk (ok : Bool × Bool) : Bool × Bool := if ok.1 || ok.2 then (true, true) else ok

/-- MIRROR_COPY_REWRITTEN: every mirrored structure has two copies again, those of a FAILED stack in another stack of its wing. Mladty has then also
restored the segments that failed, from the journal (R223), and the epoch records of which both copies failed (R225; DESIGN CHOICE, log entry 130). -/
def copyRewritten (s : State) : State :=
  let coll (c : Coll) : Coll := { c with
    versions := c.versions.map fun v => { v with ok := (true, true), nodes := v.nodes.map fun n => { n with ok := bothOk n.ok } }
    tps := c.tps.map fun t => { t with nodes := t.nodes.map fun n => { n with ok := bothOk n.ok } }
    badSegs := [] }
  let gone (h : Heap) : Heap := h.filter fun x => stackState s (x.1 / 2 ^ 36) == 2
  let s0 := moveBlocks s (fun k => [[twinStack k], [k ^^^ 1, k ^^^ 3]]) (gone (s.store.colls.flatMap fun p => pairsOf p.2))
  let s1 := moveBlocks s0 (fun _ => oddStacks) (gone (s.store.colls.flatMap fun p => p.2.segs.map fun g => (g.addr, 65536)))
  let s2 := { s1 with store := { s1.store with
    colls := s1.store.colls.map fun (p : Nat × Coll) => (p.1, coll p.2)
    chans := s1.store.chans.map fun (p : Nat × Chan) => (p.1, { p.2 with ok := bothOk p.2.ok }) } }
  wrf (updFlash s2 fun f => { f with plots := f.plots.map fun (p : Nat × Plot) => (p.1, { p.2 with ok := bothOk p.2.ok }) }) Reg.ft.MIRROR_SINGLE 0 0 0

def execMirrorCopyRewritten (s : State) : Host.Outcome State Fault Refusal := .next (copyRewritten s)

end Sys2Proof.Machine
end

