-- ==== Sys2Proof/Machine/Flash.lean ====
section
/-! DEFINITION. Flash channels, the mapping, blocks, rebuild and lost ranges (R339 to R380), checkpoints (R235). -/
namespace Sys2Proof.Machine

/-! ## Places (R343, R344) -/

def paDie (pa : Nat) : Nat := 32 * (pa / 2 ^ 35) + 4 * (pa / 2 ^ 32 % 8) + pa / 2 ^ 30 % 4
/-- A block's number: die × 65,536 + block. -/
def paBlock (pa : Nat) : Nat := 65536 * paDie pa + pa / 2 ^ 14 % 65536
def paPage (pa : Nat) : Nat := pa / 4 % 4096

/-- The channel takes part: ONLINE, and not write-protected after a C0 fault. -/
def channelRuns (s : State) (ch : Nat) : Bool := flashOnline s ch && !s.mem.flash.wpLow.contains ch
def dieRuns (s : State) (die : Nat) : Bool := channelRuns s (die / 32) && !s.mem.flash.failedDies.contains die

def block? (s : State) (key : Nat) : Option Block := Tbl.get s.mem.flash.blocks key
def setBlock (s : State) (key : Nat) (b : Block) : State := updFlash s fun f => { f with blocks := Tbl.set f.blocks key b }

/-- FLASH_OFFER_GIB (R342): what the mapped blocks offer beside the system flash, which the manual does not size, and the spare pool: a free value
of at most MAPPED_GIB less one thirty-second. -/
def setOffer (s : State) : State :=
  if flashRunning s then
    let m := (rd s Reg.ft.MAPPED_GIB).toNat
    let (w, s1) := freshWord s
    wr s1 Reg.ft.FLASH_OFFER_GIB (BitVec.ofNat 32 (min w.toNat (m - m / 32)))
  else s

/-! ## Bring-up (R340 to R342, R379) -/

/-- RATE_MAX as a CH_RATE code; 6 and 7 act as the highest. -/
def rateMax (s : State) (ch : Nat) : Nat := min 5 (rdf s (Reg.flashCh.RATE_MAX ch) 2 0)

/-- The 32 channels are ONLINE: the flash runs, and its capacity and the place of LOST_MAP are known. -/
def startFlash (s : State) : State :=
  if s.mem.flash.running ∨ s.c0 ∨ !((List.range 32).all (flashOnline s)) then s
  else
    let s1 := updFlash (wr s Reg.ft.MAPPED_GIB (BitVec.ofNat 32 (min 131072 (rd s Reg.ft.RAW_GIB).toNat))) fun f => { f with running := true }
    let (w, s2) := freshWord s1
    setOffer (wr64 s2 Reg.ft.LOST_MAP_ADDR (w.toNat % 2 ^ 27 * 4096))

/-- The dies of an inventory, as target × 4 + LUN. -/
def inventoryDies (targets : Byte) (inv : FlashInventory) : List Nat :=
  (List.range 32).filter fun d => targets.getLsbD (d / 4) && decide (d % 4 < inv.luns)

/-- The inventory of a channel that has come ONLINE: its dies, as target × 4 + LUN, and blocks per LUN; a factory-marked bad block is RETIRED from the
first inventory (R356). -/
def takeInventory (s : State) (ch : Nat) (targets : Byte) (inv : FlashInventory) : State :=
  updFlash s fun f => { f with
    inventory := Tbl.set f.inventory ch (inventoryDies targets inv, inv.blocks)
    blocks := inv.bad.foldl (fun t x =>
      let key := 65536 * (32 * ch + x.1.val) + x.2.val
      if (Tbl.get t key).isSome then t else Tbl.set t key ⟨.retired, 0, false, 0, 0, 0, false, false, false⟩) f.blocks }

/-- The dies and blocks of an inventory are those of channel 0, where that one is known (R341). -/
def sameAsFirst (s : State) (targets : Byte) (inv : FlashInventory) : Bool :=
  (Tbl.get s.mem.flash.inventory 0).all (· == (inventoryDies targets inv, inv.blocks))

/-- FLASH_CHANNEL_TRAINED: training ends at a rate of at most RATE_MAX (0: it failed at 800 MT/s), with an inventory that R342 accepts or not. -/
def channelTrained (s : State) (ch rate : Nat) (targets : Byte) (same : Bool) (inv : FlashInventory) : State :=
  if rdf s (chanStatusReg ch) 1 0 ≠ 1 ∨ s.c0 ∨ s.chip.test.prod then s
  else
    let r := min rate (rateMax s ch)
    let on := r ≠ 0 && same && sameAsFirst s targets inv
    let s1 := wr s (chanStatusReg ch) (BitVec.ofNat 32 (256 * targets.toNat + 4 * r + (if on then 2 else 0)))
    let s2 := if r ≠ 0 ∧ r < rateMax s ch then raiseEvt s1 (pageBase .flashCh ch) 0 else s1
    if on then setStepRates (startFlash (takeInventory (countBy s2 Reg.ft.RAW_GIB inv.gib) ch targets inv)) else raiseErr s2 .flashCh ch 4

def execFlashChannelTrained (ch : Fin 32) (rate : Fin 6) (targets : Byte) (inventoryOk : Bool) (inv : FlashInventory) (s : State) :
    Host.Outcome State Fault Refusal := .next (channelTrained s ch.val rate.val targets inventoryOk inv)

/-! ## Lost ranges (R367 to R370, R376) -/

def Lost.covers (l : Lost) (range page : Nat) : Bool := l.range == range && l.page ≤ page && page < l.page + l.pages
def Lost.meets (l : Lost) (range page pages : Nat) : Bool := l.range == range && l.page ≤ page + pages && page ≤ l.page + l.pages

/-- A record's 4 KiB pages in its refinement space. -/
def recordPages (c : Coll) (slot : Nat) : Nat × Nat :=
  let st := refineStride c.info.refineDims
  let o := rowOff st slot
  (o / 4096, (o + st - 1) / 4096 - o / 4096 + 1)

/-- The slots whose refinement reads a flight has issued and that are still outstanding. -/
def Flight.awaited (f : Flight) : List Nat :=
  if (f.isSearch || f.kind == .score) = false ∨ f.work.narrowed ∨ !(f.plan.stages.any fun d => d.kind == 8 && (f.run d.no).complete) then []
  else ((f.work.rake.map (·.slot)).eraseDups).filter fun k =>
    (Tbl.get f.work.arrived k).isNone && !f.work.lost.contains k && !f.work.lostBoth.contains k

/-- Outstanding refinement reads in a range that becomes lost count as arrived (R376), or omit their item (R183). -/
def loseReads (range page pages : Nat) (both : Bool) (s : State) (f : Flight) : State :=
  if f.obj ≠ range ∨ f.awaited = [] then s
  else
    let c := collOf s f
    let hit (k : Nat) : Bool :=
      let (p, n) := recordPages c k
      p < page + pages && page < p + n && (Tbl.get c.slots k).any (·.programmed)
    let ks := f.awaited.filter hit
    updWork s f.id fun g => setWork g fun w => if both then { w with lostBoth := w.lostBoth ++ ks } else { w with lost := w.lost ++ ks }

/-- Owner and object of a tier range (R349, R368). -/
def rangeTenant (s : State) (range : Nat) : Nat :=
  if range < 4096 then ((Tbl.get s.store.colls range).map (·.tenant)).getD 0
  else if range < 5120 then ((Tbl.get s.store.tables (range - 4096)).map (·.tenant)).getD 0
  else ((Tbl.get s.store.models (range - 5120)).map (·.tenant)).getD 0

def rangeObject (s : State) (range : Nat) : Nat :=
  if range < 4096 then (if s.hall then hallObj s range else range)
  else if range < 5120 then (if s.hall then hallObj s range else range - 4096)
  else range - 5120

/-- Pages of an object's whole tier range. -/
def rangePages (s : State) (range : Nat) : Nat :=
  (if range < 4096 then ((Tbl.get s.store.colls range).map collFlash).getD 0
   else if range < 5120 then ((Tbl.get s.store.tables (range - 4096)).map tableSize).getD 0
   else ((Tbl.get s.store.models (range - 5120)).map modelFlash).getD 0) / 4096

def setLost (s : State) (l : List Lost) : State := updFlash s fun f => { f with lost := l }

/-- LOST ranges are requested piece by piece: the next bytes of entry `i` (R369; DESIGN CHOICE: one frame at a time). -/
def askRepair (s : State) (i : Nat) : State :=
  match s.mem.flash.lost[i]? with
  | none => s
  | some l =>
    match mirrorNode s l.range, l.both || !s.hall with
    | some node, false =>
      let s1 := sendOwnerRead s node 3 l.object.toNat (rangeKind l.range) (4096 * l.page + l.got) (min 8128 (4096 * l.pages - l.got))
      updFlash s1 fun f => { f with lost := updAt f.lost i fun x => { x with asked := s.now, req := s1.links.reqNo, peer := node + 1 } }
    | _, _ => updFlash s fun f => { f with lost := updAt f.lost i fun x => { x with asked := s.now } }

/-- DATA_LOSS: a range has become LOST_BOTH (R370). -/
def dataLoss (s : State) (l : Lost) : State :=
  let s1 := raiseEvt s (pageBase .ft 0) 0
  if s.hall then reportLoss s1 l else s1

/-- How far an entry of the same object lies from a range. -/
def lostDist (l : Lost) (page pages : Nat) : Nat := (page - (l.page + l.pages)) + (l.page - (page + pages))

def hull (l : Lost) (page pages : Nat) : Nat × Nat :=
  let a := min l.page page
  (a, max (l.page + l.pages) (page + pages) - a)

/-- The entry for a range that needs a further one when the table is full (R368): the nearest entry of its object widens, else the kept-back entry
covers the object. -/
def lostOverflow (s : State) (l : Lost) : State :=
  let s1 := raiseErr s .ft 0 1
  let own := s.mem.flash.lost.filter (·.range == l.range)
  match own.foldl (fun (b : Option Lost) x => match b with
      | none => some x
      | some y => if lostDist x l.page l.pages < lostDist y l.page l.pages then some x else b) none with
  | some x =>
    let (a, n) := hull x l.page l.pages
    let y : Lost := { x with page := a, pages := n, both := true, peer := 0 }
    dataLoss (setLost s1 (s.mem.flash.lost.map fun z => if z = x then y else z)) y
  | none =>
    let y : Lost := { l with page := 0, pages := max (rangePages s l.range) (l.page + l.pages), both := true, kept := true }
    dataLoss (setLost s1 (s.mem.flash.lost ++ [y])) y

/-- A range becomes LOST, or LOST_BOTH; adjacent ranges of one object and state are one entry. -/
def addLostAs (s : State) (both : Bool) (range page pages : Nat) : State :=
  let ls := s.mem.flash.lost
  if (List.range pages).all fun i => ls.any fun l => l.covers range (page + i) && (l.both || !both) then s
  else
    let joins (l : Lost) : Bool := l.both == both && !l.kept && l.meets range page pages
    let (a, n) := (ls.filter joins).foldl (fun (x : Nat × Nat) l => hull l x.1 x.2) (page, pages)
    let e : Lost := ⟨range, a, n, both, rangeTenant s range, BitVec.ofNat 32 (rangeObject s range), s.now, false, s.now, 0, 0, 0⟩
    let s1 :=
      if ls.any joins = false ∧ 59392 ≤ (ls.filter fun l => !l.kept).length then lostOverflow s e
      else
        let t := setLost s ((ls.filter fun l => !joins l) ++ [e])
        if both then dataLoss t e else askRepair t ((ls.filter fun l => !joins l).length)
    let s2 := raiseEvt s1 (pageBase .ft 0) 4
    (s2.sched.flights ++ s2.sched.parts).foldl (loseReads range page pages both) s2

/-- A range becomes LOST, in card mode LOST_BOTH at once (R32). -/
def addLost (s : State) (range page pages : Nat) : State := addLostAs s (!s.hall) range page pages

/-- REPAIR_RETRY (R369): REPAIR_STEPS steps after its last request a range that is still LOST is requested again. -/
def repairRetry (s : State) (i : Nat) : State :=
  match s.mem.flash.lost[i]? with
  | some l => if l.both = false ∧ l.asked + max 1 (rd s Reg.ft.REPAIR_STEPS).toNat ≤ s.now then askRepair s i else s
  | none => s

def execRepairRetry (entry : Nat) (s : State) : Host.Outcome State Fault Refusal := .next (repairRetry s entry)

/-- OWNER_DATA for a LOST range (R369): the range is repaired with its last bytes, or the mirror cannot supply it. -/
def repairData (s : State) (i : Nat) (status n : Nat) : State :=
  match s.mem.flash.lost[i]? with
  | none => s
  | some l =>
    if status = 0 then
      if l.got + n < 4096 * l.pages then askRepair (updFlash s fun f => { f with lost := updAt f.lost i fun x => { x with got := x.got + n } }) i
      else count (setLost s (s.mem.flash.lost.eraseIdx i)) Reg.ft.REPAIRED_RANGES
    else if status = 4 then s
    else
      let y : Lost := { l with both := true, peer := 0 }
      dataLoss (setLost s (updAt s.mem.flash.lost i fun _ => y)) y

/-! ## Blocks (R356 to R363) -/

/-- A physical address that the mapping names: a whole plot, a unit, or a spilled record. -/
def plotUses (key : Nat) (p : Plot) : Bool :=
  (match p.whole with | some a => paBlock a == key | none => false) ||
  p.units.any fun u => match u.2 with
    | .unit a => paBlock a == key
    | _ => false

/-- Reads of a spilled page, issued before the fold that superseded it, that have not completed (R378). -/
def readPending (s : State) (key : Nat) : Bool :=
  s.mem.flash.reading.any fun x => x.1 == key && (workOf s x.2.1).any fun f => f.awaited.contains x.2.2

/-- Something maps to a block, the parity of a row whose blocks are not all VERIFIED lies in it, or a read of it is queued. -/
def blockMapped (s : State) (key : Nat) : Bool :=
  s.mem.flash.plots.any (fun p => plotUses key p.2) || s.mem.flash.spill.any (fun e => paBlock e.2.1 == key) ||
  s.mem.flash.rows.any (fun r => r.parity.any fun x => paBlock x.2 == key) || readPending s key

/-! ### Block rows (R358, R363, R364) -/

def dieGroup (die : Nat) : Nat := 2 * (die % 32) + die / 512
/-- The dies of a parity group that the inventory found. -/
def groupDies (s : State) (g : Nat) : List Nat :=
  ((List.range 16).map fun k => 32 * (16 * (g % 2) + k) + g / 2).filter fun d => (Tbl.get s.mem.flash.inventory (d / 32)).any fun x => x.1.contains (d % 32)

/-- The die lies in the capacity that Mladty maps, in ascending die number (R342). -/
def dieMapped (s : State) (die : Nat) : Bool :=
  let inv := s.mem.flash.inventory
  let all := sumOf inv fun x => x.2.1.length
  let below := sumOf inv fun x => if x.1 < die / 32 then x.2.1.length else if x.1 = die / 32 then (x.2.1.filter (· < die % 32)).length else 0
  (below + 1) * (rd s Reg.ft.RAW_GIB).toNat ≤ (rd s Reg.ft.MAPPED_GIB).toNat * all

/-- Blocks that were never opened are ERASED and stand in no list (log entry 107). -/
def blockErased (s : State) (key : Nat) : Bool := (block? s key).all (·.st == .erased)
def eraseCount (s : State) (key : Nat) : Nat := ((block? s key).map (·.erases)).getD 0

/-- The block that is opened next on a die: the ERASED one with the lowest erase count, among those the lowest number (R358). -/
def chosenBlock (s : State) (die : Nat) : Option Nat :=
  let listed := (s.mem.flash.blocks.filter fun p => p.1 / 65536 == die).map (·.1)
  let per := ((Tbl.get s.mem.flash.inventory (die / 32)).map (·.2)).getD 0
  let fresh := ((List.range (min per (listed.length + 1))).map (65536 * die + ·)).find? fun k => !listed.contains k
  (fresh.toList ++ listed.filter (blockErased s)).foldl (fun (b : Option Nat) k => match b with
    | none => some k
    | some x => if eraseCount s k < eraseCount s x ∨ (eraseCount s k = eraseCount s x ∧ k < x) then some k else b) none

/-- The blocks of the row that would open in a group: one on each member die that runs. -/
def groupBlocks (s : State) (g : Nat) : List Nat := ((groupDies s g).filter fun d => dieRuns s d && dieMapped s d).filterMap (chosenBlock s)
/-- Every member die that runs has an ERASED block. -/
def groupOpens (s : State) (g : Nat) : Bool :=
  let ds := (groupDies s g).filter fun d => dieRuns s d && dieMapped s d
  ds ≠ [] && ds.all fun d => (chosenBlock s d).isSome

/-- The group whose turn it is: the next one, from `nextGroup` on, that has blocks. -/
def turnGroup (s : State) : Option Nat := ((List.range 64).map fun k => (s.mem.flash.nextGroup + k) % 64).find? (groupOpens s)

/-- A block row opens in the group whose turn it is, all its blocks in one mode; no block is allocated while one is SUSPECT (R363). SPILL_GIB takes
effect as SLC blocks open. -/
def openRow (s : State) (slc : Bool) : State :=
  match turnGroup s with
  | none => s
  | some g =>
    if s.mem.flash.blocks.any fun p => p.2.st == .suspect then s
    else
      let ks := groupBlocks s g
      let open_ (t : Tbl Block) (k : Nat) : Tbl Block := Tbl.set t k ⟨.open_, eraseCount s k, slc, 0, 0, 0, false, false, false⟩
      let s1 := updFlash s fun f => { f with
        blocks := ks.foldl open_ f.blocks, rows := f.rows ++ [⟨g, slc, ks, ks, [], []⟩], nextGroup := (g + 1) % 64 }
      if slc then setOffer (updFlash s1 fun f => { f with spillGib := (rd s Reg.ft.SPILL_GIB).toNat }) else s1

def updRow (s : State) (key : Nat) (g : BlockRow → BlockRow) : State :=
  updFlash s fun f => { f with rows := f.rows.map fun r => if r.blocks.contains key ∧ r.waiting.contains key then g r else r }

/-- Page `page` of block `key` has been programmed: the stripe's XOR in HBM takes it in. -/
def addStripe (s : State) (key page : Nat) : State :=
  updRow s key fun r => { r with acc := Tbl.set r.acc page ((Tbl.get r.acc page).getD [] ++ [key]) }

/-- A stripe is complete when no block of its row can still program that page. -/
def stripeDone (s : State) (r : BlockRow) (page : Nat) : Bool :=
  r.blocks.all fun k => ((Tbl.get r.acc page).getD []).contains k || !(r.waiting.contains k && (block? s k).any fun b => b.st == .open_ && !b.bad)

/-- The parity page of a complete stripe has been programmed into a block of a different group. -/
def addParity (s : State) (key page pa : Nat) : State :=
  updRow s key fun r =>
    if (Tbl.get r.acc page).isSome ∧ stripeDone s r page = true ∧ dieGroup (paDie pa) ≠ r.group
    then { r with acc := Tbl.del r.acc page, parity := Tbl.set r.parity page pa } else r

/-- Blocks of a row are VERIFIED or hold nothing more; a row none of whose blocks waits is over, and its parity is released. -/
def leaveRows (s : State) (out : Nat → Bool) : State :=
  updFlash s fun f => { f with rows := (f.rows.map fun r => { r with waiting := r.waiting.filter fun k => !out k }).filter (·.waiting ≠ []) }

/-- The parity of a block's page is held, in flash or in HBM. -/
def parityHeld (s : State) (key page : Nat) : Bool :=
  s.mem.flash.rows.any fun r => r.waiting.contains key && ((Tbl.get r.parity page).isSome || ((Tbl.get r.acc page).getD []).contains key)

def retireBlock (s : State) (key : Nat) : State :=
  match block? s key with
  | none => s
  | some b =>
    if b.st = .retired then s
    else setOffer (raiseEvt (count (setBlock s key { b with st := .retired, suspended := false, spill := 0 }) Reg.ft.RETIRE_COUNT) (pageBase .ft 0) 1)

/-- A failed block retires once nothing maps to it; a VERIFIED one whose data is superseded is RELEASED. -/
def settleBlock (s : State) (p : Nat × Block) : State :=
  if blockMapped s p.1 then s
  else if p.2.bad then retireBlock (leaveRows s (· == p.1)) p.1
  else if p.2.st = .verified ∧ p.2.sys = false then setBlock s p.1 { p.2 with st := .released }
  else s

def settleBlocks (s : State) : State := setCond (s.mem.flash.blocks.foldl settleBlock s) (pageBase .ft 0) 3 (spillHeld s)

/-- A die that failed no longer counts as silent. -/
def answered (s : State) (die : Nat) : State := updFlash s fun f => { f with timeouts := Tbl.del f.timeouts die }

/-- ERASE_SUSPEND: one class-0 read waits on a die whose erase is in progress. -/
def eraseSuspend (s : State) (die : Nat) : State :=
  match s.mem.flash.blocks.find? fun p => p.1 / 65536 == die && p.2.st == .erasing with
  | none => s
  | some (key, b) =>
    let wait (t : State) : State := updFlash t fun f => { f with dies := Tbl.set f.dies die ((Tbl.get f.dies die).getD 0 + 1) }
    if dieRuns s die = false then s
    else if b.suspended then wait s
    else if b.suspends < rdf s Reg.ft.ERASE_SUSPEND_MAX 7 0 then
      wait (setBlock (count s (Reg.flashCh.SUSPENDS (die / 32))) key { b with suspended := true, suspends := b.suspends + 1 })
    else count s (Reg.flashCh.SUSPEND_DENIED (die / 32))

def execEraseSuspend (die : Fin 1024) (s : State) : Host.Outcome State Fault Refusal := .next (eraseSuspend s die.val)

/-- A read leaves a die with a suspended erase; the erase resumes after the last one. -/
def servedRead (s : State) (die : Nat) : State :=
  match Tbl.get s.mem.flash.dies die with
  | none => s
  | some n =>
    if 1 < n then updFlash s fun f => { f with dies := Tbl.set f.dies die (n - 1) }
    else
      let resume (p : Nat × Block) : Nat × Block := if p.1 / 65536 = die then (p.1, { p.2 with suspended := false }) else p
      updFlash s fun f => { f with dies := Tbl.del f.dies die, blocks := f.blocks.map resume }

/-- ERASE_COMPLETE: after a C0 fault the erase-done record is not journalled, so the block is SUSPECT after the reset (R374). -/
def eraseComplete (s : State) (die blk : Nat) (ok : Bool) : State :=
  let key := 65536 * die + blk
  match block? s key with
  | none => s
  | some b =>
    if b.st ≠ .erasing ∨ b.suspended ∨ dieRuns s die = false then s
    else
      let s1 := answered (count s (Reg.flashCh.ERASES (die / 32))) die
      if s.c0 then s1
      else if ok then
        settleBlocks (setBlock s1 key { b with st := .erased, erases := b.erases + 1, pages := 0, spill := 0, suspends := 0, bad := false, sys := false })
      else retireBlock (raiseErr s1 .flashCh (die / 32) 2) key

def execEraseComplete (die : Fin 1024) (block : Fin 65536) (ok : Bool) (s : State) : Host.Outcome State Fault Refusal :=
  .next (eraseComplete s die.val block.val ok)

/-! ### The mapping table (R349 to R351) -/

def Plot.none_ : Plot := ⟨none, [], none, [], (true, true)⟩

/-- A plot's entry (R350): TYPE and TARGET_ADDR. A SPLIT plot's unit table lies where Mladty puts it (DESIGN CHOICE, log entry 144: a free value). -/
def Plot.entry (key : Nat) (p : Plot) : Nat :=
  if p.units ≠ [] then 2 * 2 ^ 62 + (Config.unitTableAt key).toNat / 64 * 64
  else match p.whole with
    | some a => 2 ^ 62 + a
    | none => 0

/-- The map page of a plot: its range and page number. -/
def mapPageOf (key : Nat) : Nat := dirtyKey (key / 2 ^ 32) (key % 2 ^ 32 / 504)

/-- A plot takes a new mapping; GEN of its map page counts each change of its entry (R349). -/
def Flash.putPlot (f : Flash) (key : Nat) (p : Plot) : Flash :=
  let changed := p.entry key ≠ ((Tbl.get f.plots key).map (Plot.entry key)).getD 0
  { f with
    plots := Tbl.set f.plots key p
    mapGen := if changed then Tbl.set f.mapGen (mapPageOf key) ((Tbl.get f.mapGen (mapPageOf key)).getD 0 + 1) else f.mapGen }

/-- Map page `m` of a tier range (R349). -/
def Flash.mapPage (f : Flash) (range m : Nat) : List Byte :=
  let h := toLe 4 0x504D564B ++ toLe 2 range ++ zeros 2 ++ toLe 4 m ++ zeros 4 ++ toLe 8 ((Tbl.get f.mapGen (dirtyKey range m)).getD 0) ++ zeros 40
  let b := h ++ (List.range 504).flatMap fun i =>
    let k := dirtyKey range (504 * m + i)
    toLe 8 (((Tbl.get f.plots k).map (Plot.entry k)).getD 0)
  putAt b 60 (toLe 4 (crc32c b).toNat)

/-- The unit table of a SPLIT plot: the entry before the split, then the 64 units (R351). -/
def Plot.unitTable (p : Plot) : List Byte :=
  let prior := match p.whole with
    | some a => 2 ^ 62 + a
    | none => 0
  let b := toLe 8 prior ++ zeros 56 ++ (List.range 64).flatMap fun u => toLe 8 (match Tbl.get p.units u with
    | some (.unit a) => 2 ^ 62 + a
    | some .zero => 2 * 2 ^ 62
    | some .inPlot | none => 0)
  putAt b 60 (toLe 4 (crc32c b).toNat)

/-- A whole plot whose block is VERIFIED is mapped there; the fold clears the spill index entries that are still the ones it read (R375). -/
def mapPlot (key : Nat) (s : State) (p : Nat × Plot) : State :=
  match p.2.next with
  | none => s
  | some a =>
    if paBlock a ≠ key then s
    else
      let stale (e : Nat × (Nat × Nat)) : Bool := Tbl.get p.2.folded e.1 == some e.2
      let reads (e : Nat × (Nat × Nat)) : List (Nat × Nat × Nat) :=
        ((s.sched.flights ++ s.sched.parts).filter fun x => x.obj == e.1 / 2 ^ 40 && x.awaited.contains (e.1 % 2 ^ 40)).map fun x =>
          (paBlock e.2.1, x.id, e.1 % 2 ^ 40)
      updFlash s fun f => { f.putPlot p.1 { p.2 with whole := some a, units := [], next := none, folded := [] } with
        spill := f.spill.filter fun e => !stale e
        cache := f.cache.filter fun k => !(k / 2 ^ 32 == p.1 / 2 ^ 32 && k % 2 ^ 32 / 64 == p.1 % 2 ^ 32)
        reading := (f.reading.filter fun x => (workOf s x.2.1).any fun y => y.awaited.contains x.2.2) ++ (f.spill.filter stale).flatMap reads }

/-- A whole plot that waited in a block that failed is written again from its previous location (R359). -/
def dropPlot (key : Nat) (p : Nat × Plot) : Nat × Plot :=
  match p.2.next with
  | some a => if paBlock a = key then (p.1, { p.2 with next := none, folded := [] }) else p
  | none => p

/-- What maps to a page of a block that can no longer be read becomes LOST: units of plots, and spilled records (R365). -/
def losePage (key : Nat) (s : State) (page : Nat) : State :=
  let here (pa : Nat) : Bool := paBlock pa == key && paPage pa == page
  let units := s.mem.flash.plots.flatMap fun p => (p.2.units.filter fun u => match u.2 with
    | .unit a => here a
    | _ => false).map fun u => (p.1 / 2 ^ 32, 64 * (p.1 % 2 ^ 32) + u.1)
  let recs := s.mem.flash.spill.filter fun e => here e.2.1
  let s1 := units.foldl (fun t x => addLost t x.1 x.2 1) s
  recs.foldl (fun t e => match Tbl.get t.store.colls (e.1 / 2 ^ 40) with
    | some c => addLost t (e.1 / 2 ^ 40) (recordPages c (e.1 % 2 ^ 40)).1 (recordPages c (e.1 % 2 ^ 40)).2
    | none => t) s1

/-- BLOCK_VERIFY: read-back of a CLOSED block, which passes when every page reads with at most VERIFY_LIMIT corrected bits. The pages that cannot be read are served from their stripe's parity; without it, what maps to them is
LOST. -/
def blockVerify (s : State) (die blk : Nat) (r : VerifyResult) : State :=
  let key := 65536 * die + blk
  match block? s key with
  | none => s
  | some b =>
    if b.st ≠ .closed ∨ dieRuns s die = false ∨ s.c0 then s
    else
      let s1 := updFlash s fun f => { f with recheck := f.recheck.filter (· ≠ key) }
      if r.unreadable = [] ∧ r.corrected ≤ rdf s Reg.ft.VERIFY_LIMIT 15 0 then
        settleBlocks (leaveRows (s1.mem.flash.plots.foldl (mapPlot key) (setBlock s1 key { b with st := .verified })) (· == key))
      else
        let s2 := (r.unreadable.filter fun p => !parityHeld s key p).foldl (losePage key) s1
        settleBlocks (updFlash (setBlock s2 key { b with bad := true }) fun f => { f with plots := f.plots.map (dropPlot key) })

def execBlockVerify (die : Fin 1024) (block : Fin 65536) (result : VerifyResult) (s : State) : Host.Outcome State Fault Refusal :=
  .next (blockVerify s die.val block.val result)

/-! ## Reads (R345 to R348, R181, R353) -/

/-- A record reaches its flight, unless it comes too late, or its range was lost before (R63, R376). -/
def recordArrives (s : State) (id slot : Nat) (r : Refine) : State :=
  match workOf s id with
  | none => count s Reg.sched.LATE_DISCARD
  | some f =>
    let waits := f.plan.stages.any fun d => d.kind == 8 && (f.run d.no).complete
    if waits = false ∨ f.work.narrowed ∨ landingOpen f 1 = false ∨ f.work.lost.contains slot ∨ f.work.lostBoth.contains slot ∨
        !(f.work.rake.any fun e => e.slot == slot) then
      count s Reg.sched.LATE_DISCARD
    else updWork s id fun g => setWork g fun w => { w with arrived := Tbl.set w.arrived slot r }

/-- The record of a slot, read from this node's flash. -/
def refineArrives (s : State) (id slot : Nat) : State :=
  match (workOf s id).bind fun f => Tbl.get (collOf s f).slots slot with
  | some d => if d.refine.missing then s else recordArrives s id slot d.refine
  | none => count s Reg.sched.LATE_DISCARD

/-- The tier range and tenant that a read serves. -/
def readTenant (s : State) : FlashReader → Option Nat
  | .refine id _ => (workOf s id).map (·.tenant)
  | .tier range _ => some (rangeTenant s range)
  | .media => none

/-- The physical address that serves a slot's record: the spill index, else the plot, by the unit of its first byte where it is SPLIT (R353). -/
def recordPa (s : State) (n slot : Nat) : Option Nat :=
  match Tbl.get s.mem.flash.spill (histKey n slot), Tbl.get s.store.colls n with
  | some e, _ => some e.1
  | none, some c =>
    let o := rowOff (refineStride c.info.refineDims) slot
    (Tbl.get s.mem.flash.plots (dirtyKey n (o / 262144))).bind fun p =>
      let inPlot := p.whole.map (· + o % 262144 / 4096)
      match Tbl.get p.units (o % 262144 / 4096) with
      | some (.unit a) => some a
      | some .zero => none
      | some .inPlot | none => inPlot
  | none, none => none

/-- The die that serves a read: the one that the mapping names (R353). -/
def readDie (s : State) (rdr : FlashReader) (die : Nat) : Nat :=
  match rdr with
  | .refine id slot => (((workOf s id).bind fun f => recordPa s f.obj slot).map paDie).getD die
  | _ => die

/-- Work `f` is served by a die before work `g`: class 0 first, then classes 1 to 3 in admission order (R347). -/
def servedBefore (f g : Flight) : Bool := if f.cls = 0 then g.cls ≠ 0 else g.cls ≠ 0 && decide (f.id < g.id)

/-- A refinement read that the die's queue serves first is outstanding (R347); media reads come after every other read. -/
def readWaits (s : State) (die : Nat) (rdr : FlashReader) : Bool :=
  let there (f : Flight) : Bool := f.awaited.any fun k => ((recordPa s f.obj k).map paDie) == some die
  match rdr with
  | .refine id _ => (workOf s id).any fun g => (s.sched.flights ++ s.sched.parts).any fun f => servedBefore f g && there f
  | .tier _ _ => false
  | .media => (s.sched.flights ++ s.sched.parts).any there

/-- The columns that a read transfers: S / 32 of a refinement record (R181), 128 of a tier page; media work reads as it likes. -/
def readColumns (s : State) (rdr : FlashReader) (columns : Nat) : Nat :=
  match rdr with
  | .refine id _ => ((workOf s id).map fun f => refineStride (collOf s f).info.refineDims / 32).getD columns
  | .tier _ _ => 128
  | .media => min 512 columns

/-- The mapping of a refinement read cannot be read now, so that the read does not complete (R355). -/
def readUnmapped (s : State) : FlashReader → Bool
  | .refine id slot => (workOf s id).any fun f => recordUnmapped s f.obj (collOf s f) slot
  | _ => false

/-- A refinement record read from flash: its unit grows hotter, unless it was spilled, and it reaches its flight. -/
def refineRead (s : State) (id slot : Nat) : State :=
  let s1 := match workOf s id with
    | some f =>
      if (Tbl.get s.mem.flash.spill (histKey f.obj slot)).isNone then heatUnit s f.obj (rowOff (refineStride (collOf s f).info.refineDims) slot) else s
    | none => s
  refineArrives (count s1 Reg.ft.CACHE_MISSES) id slot

/-- FLASH_READ_COMPLETE: a read in transfers of at most 36 columns of 32 bytes, in the order in which its die serves them. -/
def flashRead (s : State) (given : Nat) (rdr : FlashReader) (asked : Nat) (o : ReadOutcome) : State :=
  let columns := readColumns s rdr asked
  let die := readDie s rdr given
  if dieRuns s die = false ∨ readUnmapped s rdr ∨ readWaits s die rdr then s
  else
    let ch := die / 32
    let s1 := servedRead (answered (countBy s (Reg.flashCh.READS ch) (ceilDiv columns 36)) die) die
    let s2 := match readTenant s rdr with
      | some t => meter s1 t 3 (ceilDiv columns 36)
      | none => s1
    let s3 := match o with
      | .clean => s2
      | .corrected => count s2 (Reg.flashCh.READ_CORR ch)
      | .uncorrectable => raiseErr (count s2 (Reg.flashCh.READ_UNCORR ch)) .flashCh ch 0
    match rdr, o with
    | .refine id slot, .uncorrectable =>
      match workOf s3 id with
      | none => s3
      | some f =>
        let (p, n) := recordPages (collOf s3 f) slot
        addLost s3 f.obj p n
    | .tier range page, .uncorrectable => addLost (count s3 Reg.ft.CACHE_MISSES) range page 1
    | .media, .uncorrectable => s3
    | .refine id slot, _ => refineRead s3 id slot
    | .tier range page, _ => installPage (count s3 Reg.ft.CACHE_MISSES) range page
    | .media, _ => s3

def execFlashReadComplete (die : Fin 1024) (reader : FlashReader) (columns : Nat) (outcome : ReadOutcome) (s : State) :
    Host.Outcome State Fault Refusal := .next (flashRead s die.val reader columns outcome)

/-! ## Programs (R234, R235, R352, R357, R359, R361) -/

def kindSlc : ProgramKind → Bool
  | .plot _ _ | .checkpoint _ _ => false
  | _ => true
def kindSpill : ProgramKind → Bool
  | .journal _ | .record _ _ _ => true
  | _ => false
def kindSys : ProgramKind → Bool
  | .journal _ | .checkpoint _ _ | .intent _ _ | .other => true
  | _ => false

/-- An OPEN block after a program of it. -/
def programBlock (o : Block) (k : ProgramKind) (page bytes : Nat) (last : Bool) : Block :=
  { o with
    pages := max o.pages (page + 1), spill := o.spill + (if kindSpill k then bytes else 0), sys := o.sys || kindSys k
    st := if last then .closed else .open_ }

/-- A journal record is released once it and its refinement records are programmed (R234) and a checkpoint's fold covers its entries (R235). -/
def journalCovered (v : Version) (j : Journal) : Bool :=
  j.programmed && j.recsLeft.isEmpty && j.seeds.all (fun e => j.epoch < v.fold.getD e.part 0) && j.weeds.all fun e => j.epoch < v.fold.getD e.part 0

/-- A collection's newest record, whose blocks are all written back, is a checkpoint; the last two are kept. -/
def takeCheckpoint (s : State) (n : Nat) : State :=
  match Tbl.get s.store.colls n with
  | none => s
  | some c =>
    match c.versions with
    | [] => s
    | v :: _ =>
      if c.life ≠ .serving then s
      else
        let slots := v.leaves.flatMap (·.slots)
        let k : Coll := { c with
          versions := [v], slots := c.slots.filter (fun x => slots.contains x.1), seeds := [], weeds := [], dying := [], keymap := [], tps := [], badSegs := []
          segs := [], blockNext := [], lostSlots := [], stackHit := false, map := none, mapNext := none, mapRetiring := none, oldMaps := [] }
        updFlash s fun f => { f with
          ckpts := Tbl.set f.ckpts n ((k :: (Tbl.get f.ckpts n).getD []).take 2)
          journal := f.journal.filter fun j => j.coll ≠ n || !journalCovered v j }

/-- The spill index entries of a plot's records, as its fold reads them. -/
def plotSpill (s : State) (range plot : Nat) : Tbl (Nat × Nat) :=
  match Tbl.get s.store.colls range with
  | none => []
  | some c => s.mem.flash.spill.filter fun e => e.1 / 2 ^ 40 == range && rowOff (refineStride c.info.refineDims) (e.1 % 2 ^ 40) / 262144 == plot

def updPlot (s : State) (key : Nat) (g : Plot → Plot) : State :=
  updFlash s fun f => f.putPlot key (g ((Tbl.get f.plots key).getD Plot.none_))

/-- Bytes programmed for a tenant's data (R404). -/
def chargeWrite (s : State) (range bytes : Nat) : State := meter s (rangeTenant s range) 4 bytes

/-- The object of a range is being loaded. -/
def rangeLoading (s : State) (range : Nat) : Bool :=
  (s.store.load.any fun l => l.target == range) || (s.store.tload.any fun l => 4096 + l.target == range) ||
  (s.sched.modelLoad.any fun l => 5120 + l.2.1 == range)

/-- A page of a tier range has been written back: its rows or its bucket have their values in flash (R325). -/
def wroteBack (s : State) (range page bytes : Nat) : State :=
  match Tbl.get s.mem.flash.wb (dirtyKey range page) with
  | none => s
  | some rows =>
    let k := dirtyKey range page
    let s1 := updFlash (count s Reg.ft.WRITEBACKS) fun f => { f with
      wb := Tbl.del f.wb k, mapWb := Tbl.del f.mapWb k
      mapOld := match Tbl.get f.dirty k, Tbl.get f.mapWb k with
        | some _, some es => Tbl.set f.mapOld k es
        | _, _ => Tbl.del f.mapOld k }
    let s2 := installPage (chargeWrite s1 range bytes) range page
    match rangeTable s2 range with
    | none => s2
    | some (n, t) => setTable s2 n { t with rows := rows.foldl (fun r x => Tbl.upd r x.1 fun y => { y with flash := some x.2 }) t.rows }

/-- What a program that completed does, by what the page held. -/
def programEffect (s : State) (pa : Nat) (k : ProgramKind) (bytes : Nat) : State :=
  match k with
  | .journal b =>
    match s.mem.flash.journal.find? (·.batch == b) with
    | none => s
    | some j => setDurable (chargeWrite (updFlash s fun f =>
        { f with journal := f.journal.map fun x => if x.batch = b then { x with programmed := true } else x }) j.coll bytes)
  | .record n slot col =>
    let drop (j : Journal) : Journal := if j.coll = n.val then { j with recsLeft := j.recsLeft.filter (· ≠ slot) } else j
    let s1 := updFlash s fun f =>
      { f with spill := Tbl.set f.spill (histKey n slot) (pa - pa % 4, col), journal := f.journal.map drop }
    setDurable (chargeWrite (updColl s1 n fun c => { c with slots := Tbl.upd c.slots slot fun d => { d with programmed := true } }) n bytes)
  | .unit4k range page => wroteBack (updPlot s (dirtyKey range (page / 64)) fun p => { p with units := Tbl.set p.units (page % 64) (.unit pa) }) range page bytes
  | .plot range plot =>
    let s1 := if paPage pa % 16 = 15 then
        updPlot s (dirtyKey range plot) fun p => { p with next := some (pa - pa % 64), folded := plotSpill s range plot }
      else s
    if rangeLoading s range then chargeWrite s1 range bytes else s1
  | .checkpoint n complete => if complete then takeCheckpoint s n else s
  | .intent die blk =>
    let key := 65536 * die.val + blk.val
    match block? s key with
    | some b =>
      if blockMapped s key = false ∧ (b.st = .released ∨ b.st = .verified) then setBlock s key { b with st := .erasing, suspends := 0, suspended := false }
      else s
    | none => s
  | .parity die blk page => addParity s (65536 * die.val + blk.val) page pa
  | .other => s

/-- The state in which a program of kind `k` into block `key` was issued: the block is OPEN in that mode, or the row that opens now holds it. A block that
the node would not open takes no program (R358), and after a reset none completes before every OPEN and CLOSED block is verified (R365). -/
def programIssued (s : State) (key : Nat) (k : ProgramKind) : Option (State × Block) :=
  let t := if blockErased s key then openRow s (kindSlc k) else s
  if s.mem.flash.recheck ≠ [] then none
  else
    match block? t key with
    | some b => if b.st = .open_ ∧ b.slc = kindSlc k then some (t, b) else none
    | none => none

/-- FLASH_PROGRAM_COMPLETE: one page of a block; `last` closes the block. A program that failed leaves its block to be retired. -/
def programDone (s : State) (pa : Nat) (k : ProgramKind) (bytes : Nat) (ok last : Bool) : State :=
  let die := paDie pa
  let key := paBlock pa
  if dieRuns s die = false then s
  else
    match programIssued s key k with
    | none => s
    | some (t, o) =>
      let s1 := answered (count t (Reg.flashCh.PROGRAMS (die / 32))) die
      let b := programBlock o k (paPage pa) bytes last
      if ok then settleBlocks (programEffect (addStripe (setBlock s1 key b) key (paPage pa)) pa k bytes)
      else settleBlocks (raiseErr (updFlash (setBlock s1 key { b with bad := true }) fun f => { f with plots := f.plots.map (dropPlot key) }) .flashCh (die / 32) 1)

def execFlashProgramComplete (pa : BitVec 40) (kind : ProgramKind) (bytes : Nat) (ok last : Bool) (s : State) : Host.Outcome State Fault Refusal :=
  .next (programDone s pa.toNat kind bytes ok last)

/-! ## Dies and rebuild (R348, R366, R367) -/

def rebuildStatus (s : State) : Word :=
  match s.mem.flash.rebuilding with
  | some d => BitVec.ofNat 32 (2 ^ 31 + (s.mem.flash.rebuildQ.length % 32) * 2 ^ 26 + d)
  | none => 0

/-- A die is FAILED: its blocks retire, what waited in it is written again, and its rebuild starts or is queued. -/
def failDie (s : State) (die : Nat) : State :=
  let ch := die / 32
  let s1 := raiseEvt (wr s (Reg.flashCh.DIE_FAILED_MASK ch) (setBit (rd s (Reg.flashCh.DIE_FAILED_MASK ch)) (die % 32))) (pageBase .flashCh ch) 1
  let keys := (s.mem.flash.blocks.filter fun p => p.1 / 65536 == die).map (·.1)
  let s2 := keys.foldl retireBlock (updFlash s1 fun f => { f with
    recheck := f.recheck.filter fun k => k / 65536 ≠ die, failedDies := f.failedDies ++ [die], timeouts := Tbl.del f.timeouts die, dies := Tbl.del f.dies die
    plots := keys.foldl (fun ps k => ps.map (dropPlot k)) f.plots })
  if s.mem.flash.rebuilding.isSome then setOffer (updFlash s2 fun f => { f with rebuildQ := f.rebuildQ ++ [die] })
  else setOffer (wr (updFlash s2 fun f => { f with rebuilding := some die }) Reg.ft.REBUILD_STRIPES 0)

/-- DIE_TIMEOUT: a command to a die that did not return ready in time; the third in a row fails the die. -/
def dieTimeout (s : State) (die : Nat) : State :=
  if dieRuns s die = false then s
  else
    let n := (Tbl.get s.mem.flash.timeouts die).getD 0 + 1
    let s1 := raiseErr (updFlash s fun f => { f with timeouts := Tbl.set f.timeouts die n }) .flashCh (die / 32) 3
    if 3 ≤ n then failDie s1 die else s1

def execDieTimeout (die : Fin 1024) (s : State) : Host.Outcome State Fault Refusal := .next (dieTimeout s die.val)

/-- REBUILD_STRIPE: one piece of the failed die's data has its outcome: data that cannot be placed of a tenant whose reservation is past the cut is
LOST_BOTH (R371). With the last, the rebuild ends and the next die's starts. -/
def rebuildStripe (s : State) (o : StripeOutcome) (last : Bool) : State :=
  match s.mem.flash.rebuilding with
  | none => s
  | some die =>
    let s1 := count s Reg.ft.REBUILD_STRIPES
    let s2 := match o with
      | .rebuilt => s1
      | .lost range page pages => addLostAs s1 (!s.hall || !(tenant s (rangeTenant s range)).capKept) range page pages
      | .system => updFlash s1 fun f => { f with mapCkpt := s.now }
    if last then
      let s3 := raiseEvt (settleBlocks (leaveRows s2 fun k => k / 65536 == die)) (pageBase .ft 0) 2
      match s3.mem.flash.rebuildQ with
      | [] => updFlash s3 fun f => { f with rebuilding := none }
      | d :: r => wr (updFlash s3 fun f => { f with rebuilding := some d, rebuildQ := r }) Reg.ft.REBUILD_STRIPES 0
    else s2

def execRebuildStripe (outcome : StripeOutcome) (last : Bool) (s : State) : Host.Outcome State Fault Refusal := .next (rebuildStripe s outcome last)

/-! ## Map checkpoints and map rebuild (R354, R355) -/

/-- MAP_CHECKPOINT: every MAP_CKPT_STEPS steps a full image of the mapping is written. -/
def mapCheckpoint (s : State) : State :=
  if flashRunning s ∧ s.mem.flash.mapCkpt + max 1 (rd s Reg.ft.MAP_CKPT_STEPS).toNat ≤ s.now then
    updFlash s fun f => { f with mapCkpt := s.now }
  else s

def execMapCheckpoint (s : State) : Host.Outcome State Fault Refusal := .next (mapCheckpoint s)

/-- MAP_REBUILD: a mapping structure both of whose copies failed is rebuilt, or the plots it covers are LOST. -/
def mapRebuild (s : State) (range page pages : Nat) (ok : Bool) : State :=
  let hit (p : Nat × Plot) : Bool :=
    p.2.ok == (false, false) && p.1 / 2 ^ 32 == range && page / 64 ≤ p.1 % 2 ^ 32 && p.1 % 2 ^ 32 ≤ (page + pages - 1) / 64
  if s.mem.flash.plots.any hit then
    let s1 := updFlash s fun f => { f with plots := f.plots.map fun p => if hit p then (p.1, { p.2 with ok := (true, true) }) else p }
    if ok then s1 else addLost s1 range page pages
  else s

def execMapRebuild (range page pages : Nat) (ok : Bool) (s : State) : Host.Outcome State Fault Refusal := .next (mapRebuild s range page pages ok)

/-- FLASH_WRITE_PROTECT (R374, R484): a channel whose last array operation is done asserts WP_N after a C0 fault. -/
def execFlashWriteProtect (ch : Fin 32) (s : State) : Host.Outcome State Fault Refusal :=
  .next (if s.mem.flash.wpPending.contains ch.val then
    updFlash s fun f => { f with wpPending := f.wpPending.filter (· ≠ ch.val), wpLow := f.wpLow ++ [ch.val] }
  else s)

end Sys2Proof.Machine
end

