-- ==== Sys2Proof/Machine/Graft.lean ====
section
/-! DEFINITION. Owner reads (R333, R334, R495), graft images (R509), and the graft: copying, shadow work and its end (R508 to R513). -/
namespace Sys2Proof.Machine

/-! ## Tier ranges as bytes (R135, R142, R291, R292) -/

/-- Bytes `off` to `off + n` of a space of blocks of `size` bytes. -/
def blockSlice (size : Nat) (blk : Nat → List Byte) (off n : Nat) : List Byte :=
  if n = 0 then []
  else (((List.range ((off % size + n + size - 1) / size)).flatMap fun i => blk (off / size + i)).drop (off % size)).take n

/-- A 16 KiB unit of records of stride `st` under R135. -/
def unitBytes (st : Nat) (rec_ : Nat → List Byte) (u : Nat) : List Byte :=
  padTo ((List.range (16384 / st)).flatMap fun i => padTo (rec_ (u * (16384 / st) + i)) st 0) 16384 0

/-- A key map or row map bucket (R142). -/
def bucketBytes (magic : Nat) (es : List KeyEntry) : List Byte :=
  padTo (toLe 4 magic ++ toLe 2 es.length ++ zeros 58 ++ es.flatMap fun e =>
    toLe 8 e.key.toNat ++ toLe 5 e.slot ++ toLe 1 (if e.live then 1 else 2) ++ zeros 2) 4096 0

def rowImage (t : Table) (r : RowSlot) : List Byte := padTo (rowData r.cur ++ r.cur.state.flatten ++ toLe 8 r.key.toNat) (tableRowBytes t) 0

def collRecord (c : Coll) (k : Nat) : List Byte :=
  match Tbl.get c.slots k with
  | some d => refineRecBytes c.info.refineDims d.refine
  | none => []

def tableRecord (t : Table) (k : Nat) : List Byte :=
  match Tbl.get t.rows k with
  | some r => rowImage t r
  | none => []

/-- A tier range: the units of SLOT_LIMIT records or ROW_LIMIT rows, then the buckets (DESIGN CHOICE, log entry 60). -/
structure TierSpace where
  stride : Nat
  units : Nat
  record : Nat → List Byte
  buckets : Nat
  bucket : Nat → List Byte

def collSpace (c : Coll) : TierSpace :=
  ⟨refineStride c.info.refineDims, refineUnits c.info.refineDims c.info.slotLimit, collRecord c, c.info.buckets,
   fun i => bucketBytes 0x4D4B564B ((Tbl.get c.keymap i).getD [])⟩
def tableSpace (t : Table) : TierSpace :=
  ⟨tableRowBytes t, unitsOf (tableRowBytes t) t.limit, tableRecord t, t.buckets, fun i => bucketBytes 0x4D52564B ((Tbl.get t.rowmap i).getD [])⟩

def TierSpace.size (x : TierSpace) : Nat := 16384 * x.units + 4096 * x.buckets
def TierSpace.bytes (x : TierSpace) (off n : Nat) : List Byte :=
  let m := 16384 * x.units
  let a := min n (m - off)
  blockSlice 16384 (unitBytes x.stride x.record) off a ++ blockSlice 4096 x.bucket (max off m - m) (n - a)

/-! ## Graft images (R509, R146, R147, R221, R224, R290) -/

/-- Structures in order with the offsets that they take from `o` on. -/
def laidOut {α : Type} (size : α → Nat) (o : Nat) : List α → List (Nat × α)
  | [] => []
  | x :: r => (o, x) :: laidOut size (o + size x) r

/-- The bytes with their CRC-32C at `off`, over themselves and `more`. -/
def sealCrc (b : List Byte) (off : Nat) (more : List Byte) : List Byte :=
  putAt b off (toLe 4 (crc32c (putAt b off (zeros 4) ++ more)).toNat)

/-- A node as R139 lays it out; `ref` gives a child's offset and bytes. -/
def nodeImage (i : CollInfo) (obj : Nat) (ref : Nat → Nat × Nat) (n : NodeBlk) : List Byte :=
  let k := n.kids.length
  let refs := (n.kids.zipIdx).flatMap fun x => toLe 8 (ref x.2).1 ++ toLe 4 (ref x.2).2 ++ toLe 4 x.1
  let h := toLe 4 0x4E54564B ++ toLe 1 1 ++ zeros 1 ++ toLe 2 obj ++ toLe 4 n.path.toNat ++ toLe 1 n.level ++ toLe 1 i.depth ++ toLe 2 k ++
    toLe 8 n.epoch ++ toLe 4 (nodeSize i.projDims k) ++ toLe 1 (n.level == i.depth).toNat ++ zeros 3 ++ toLe 4 (nodeRefOff i.projDims k) ++ zeros 28
  padTo (padTo (sealCrc h 60 refs ++ n.cents.flatMap (coarseBytes i.projDims)) (nodeRefOff i.projDims k) 0 ++ refs) (nodeSize i.projDims k) 0

def leafImage (i : CollInfo) (obj : Nat) (l : LeafBlk) : List Byte :=
  let n := l.recs.length
  let h := toLe 4 0x464C564B ++ toLe 1 1 ++ zeros 1 ++ toLe 2 obj ++ toLe 4 l.path.toNat ++ toLe 2 n ++ toLe 2 (recordBytes i.projDims) ++
    toLe 8 l.epoch ++ toLe 4 (leafSize i.projDims n i.l2) ++ toLe 1 i.l2.toNat ++ zeros 3 ++ toLe 4 (leafSlotOff i.projDims n) ++
    toLe 4 (if i.l2 then leafNormOff i.projDims n else 0) ++ zeros 24
  let b := padTo (sealCrc h 60 [] ++ l.recs.flatMap (coarseBytes i.projDims)) (leafSlotOff i.projDims n) 0 ++ l.slots.flatMap (toLe 5)
  let c := if i.l2 then padTo b (leafNormOff i.projDims n) 0 ++ l.norms.flatMap fun x => toLe 4 x.1.toNat ++ toLe 4 x.2.toNat else b
  padTo c (leafSize i.projDims n i.l2) 0

def projBytes (p : Projection) : List Byte :=
  p.rows.flatten ++ (p.scales.flatMap fun l => l.flatMap fun x => toLe 2 x.toNat) ++ p.bias.flatMap fun w => toLe 4 w.toNat

/-- A segment (R221). -/
def segImage (weed : Bool) (obj p size next : Nat) (es : List (List Byte)) : List Byte :=
  let h := toLe 4 0x4453564B ++ toLe 1 (if weed then 2 else 1) ++ toLe 1 1 ++ toLe 2 obj ++ toLe 1 p ++ zeros 3 ++ toLe 2 size ++
    toLe 2 ((65536 - 64) / size) ++ toLe 8 next ++ toLe 4 es.length ++ zeros 36
  padTo (sealCrc h 60 [] ++ es.flatten) 65536 0

/-- The segments of one partition's chain; `next` gives NEXT of the one at a place that is not the last. -/
def chainSegs (weed : Bool) (obj p size : Nat) (next : Nat → Nat) (es : List (List Byte)) : List (List Byte) :=
  let cs := chunk ((65536 - 64) / size) es
  cs.zipIdx.map fun x => segImage weed obj p size (if x.2 + 1 < cs.length then next x.2 else 0) x.1

def seedImage (pd : Nat) (e : SeedEntry) : List Byte :=
  padTo (toLe 8 e.seq ++ toLe 8 (e.epoch + if e.valid then 2 ^ 63 else 0) ++ toLe 5 e.slot ++ zeros 3 ++ toLe 4 e.nc.toNat ++ toLe 4 e.nf.toNat ++
    coarseBytes pd e.record) (seedBytes pd) 0
def weedImage (e : WeedEntry) : List Byte := toLe 8 (e.epoch + if e.valid then 2 ^ 63 else 0) ++ toLe 5 e.slot ++ zeros 3

/-- The valid entries below `h`, as segments, partition by partition; NEXT is the next segment's place in the chain (log entry 60). -/
def seedSection (c : Coll) (obj h : Nat) : List (List Byte) :=
  (List.range 256).flatMap fun p => chainSegs false obj p (seedBytes c.info.projDims) (· + 1)
    ((c.seeds.filter fun e => e.part == p && e.valid && e.epoch < h).map (seedImage c.info.projDims))
def weedSection (c : Coll) (obj h : Nat) : List (List Byte) :=
  (List.range 256).flatMap fun p => chainSegs true obj p 16 (· + 1) ((c.weeds.filter fun e => e.part == p && e.valid && e.epoch < h).map weedImage)

/-- The address of the segment at place `k` of a chain, 0 where there is none. -/
def segAddr (c : Coll) (weed : Bool) (p k : Nat) : Nat := (((chainOf c weed p)[k]?).map (·.addr)).getD 0

/-- The epoch record of a version as its two copies hold it (R224). -/
def epochImage (c : Coll) (obj : Nat) (v : Version) : List Byte :=
  let root := v.nodes.find? (·.level == 1)
  let parts := (root.map fun n => n.kids.length).getD 0
  let at_ := (root.map (·.addrs)).getD (0, 0)
  let tbl := (List.range 256).flatMap fun p =>
    if p < parts then
      toLe 8 (segAddr c false p (seedHead c v p)) ++ toLe 8 (segAddr c true p (weedHead c v p)) ++ toLe 8 (v.fold.getD p 0) ++
      toLe 1 (v.blocked.getD p false).toNat ++ zeros 7
    else zeros 32
  let r := toLe 4 0x5245564B ++ toLe 2 1 ++ toLe 2 obj ++ toLe 8 v.epoch ++ toLe 8 at_.1 ++ toLe 8 at_.2 ++ toLe 8 v.items ++ toLe 8 v.prev ++
    toLe 2 parts ++ zeros 14 ++ tbl
  padTo (sealCrc r 60 []) 12288 0

/-- STATE: the epoch record, then the next sequence number, the free slots below the highest in use, and the transplants cut below `h`
(DESIGN CHOICE in its last parts, log entry 60). -/
def stateSection (c : Coll) (obj h top : Nat) (v : Version) : List Byte :=
  let free := (List.range top).filter fun k => (Tbl.get c.slots k).isNone
  let tps := c.tps.filter (·.cut < h)
  epochImage c obj v ++ toLe 8 c.nextSeq ++ toLe 8 free.length ++ free.flatMap (toLe 8) ++ toLe 8 tps.length ++
    tps.flatMap fun t => toLe 8 t.part ++ toLe 8 t.cut ++ toLe 8 t.pub

/-- ADDR and CHILD_BYTES of child `k` of a node: nodes and leaves stand beside their addresses (R139). -/
def childRef (i : CollInfo) (ns : List (Nat × NodeBlk)) (ls : List (Nat × LeafBlk)) (n : NodeBlk) (k : Nat) : Nat × Nat :=
  let p := childPath n.path n.level k
  if n.level = i.depth then
    match ls.find? (·.2.path == p) with
    | some x => (x.1, leafBytesOf i x.2)
    | none => (0, 0)
  else
    match ns.find? fun x => x.2.level == n.level + 1 && x.2.path == p with
    | some x => (x.1, nodeBytesOf i x.2)
    | none => (0, 0)

/-- The nodes and leaves of a tree as they lie in HBM: each copy's address and bytes, with COLLECTION, the HBM addresses of children and a HDR_CRC of
their own (R137, R139, R148). -/
def treeBlocks (i : CollInfo) (obj : Nat) (ns : List NodeBlk) (ls : List LeafBlk) : List (Nat × List Byte) :=
  let ref := childRef i (ns.map fun n => (n.addrs.1, n)) (ls.map fun l => (l.addr, l))
  (ns.flatMap fun n => let b := nodeImage i obj (ref n) n; [(n.addrs.1, b), (n.addrs.2, b)]) ++ ls.map fun l => (l.addr, leafImage i obj l)

/-- The segments of a chain as they lie in HBM (R221). -/
def chainBlocks (c : Coll) (obj : Nat) (weed : Bool) (p : Nat) : List (Nat × List Byte) :=
  let next (k : Nat) : Nat := segAddr c weed p (k + 1)
  let bs := if weed then chainSegs true obj p 16 next ((partChain (·.part) p c.weeds).map weedImage)
    else chainSegs false obj p (seedBytes c.info.projDims) next ((partChain (·.part) p c.seeds).map (seedImage c.info.projDims))
  ((chainOf c weed p).map (·.addr)).zip bs

/-- The extents of an array of `n`-byte entries, `per` to an extent (R136). -/
def extentBlocks (addrs : List Nat) (per : Nat) (entry : Nat → List Byte) : List (Nat × List Byte) :=
  addrs.zipIdx.map fun a => (a.1, padTo ((List.range per).flatMap fun k => entry (a.2 * per + k)) 0x4000000 0)

/-- What a collection holds in HBM, block by block: epoch records, trees, transplants' blocks, segments, projection copies, and the key and attribute
arrays with the partition bytes behind the attributes of their extent (log entry 124). -/
def collBlocks (c : Coll) (obj : Nat) : List (Nat × List Byte) :=
  let get (k : Nat) (g : SlotData → Nat) : Nat := ((Tbl.get c.slots k).map g).getD 0
  (c.versions.flatMap fun v =>
    [(v.addrs.1, epochImage c obj v), (v.addrs.2, epochImage c obj v)] ++ treeBlocks c.info obj v.nodes v.leaves) ++
  (c.tps.flatMap fun t => treeBlocks c.info obj t.nodes t.leaves) ++
  ((c.segs.map fun g => (g.weed, g.part)).eraseDups.flatMap fun x => chainBlocks c obj x.1 x.2) ++
  [(c.projAddrs.1, projBytes c.proj), (c.projAddrs.2, projBytes c.proj)] ++
  extentBlocks c.arrays.1 keyExtent (fun k => toLe 8 (get k fun d => d.key.toNat)) ++
  c.arrays.2.zipIdx.map fun a =>
    let ks := (List.range attrExtent).map (· + a.2 * attrExtent)
    (a.1, padTo ((ks.flatMap fun k => toLe 8 (get k fun d => d.attr.toNat)) ++ ks.flatMap fun k => toLe 1 (get k (·.part))) 0x4000000 0)

/-- The block of a collection's structure at an HBM address. -/
def blockAt (s : State) (addr : Nat) : Option (List Byte) :=
  s.store.colls.findSome? fun p => ((collBlocks p.2 p.1).find? (·.1 == addr)).map (·.2)

/-- The sections of an image from 4 KiB on, each with its KIND, offset, bytes and COUNT. -/
def placeSections (o : Nat) : List (Nat × List Byte × Nat) → List (Nat × Nat × List Byte × Nat)
  | [] => []
  | (k, b, n) :: r => (k, o, b, n) :: placeSections (o + roundUp b.length 4096) r

/-- The graft image of a collection: snapshot `c` of epoch `h`. -/
def collGraftImage (c : Coll) (obj h : Nat) : List Byte :=
  match c.bind h with
  | none => []
  | some v =>
    let i := c.info
    let pd := i.projDims
    let top := topSlot c
    let proj := projBytes c.proj
    let no := 4096 + roundUp proj.length 4096
    let ns := laidOut (nodeBytesOf i) no (sortBy (fun a b : NodeBlk => a.level < b.level || (a.level == b.level && a.path < b.path)) v.nodes)
    let nEnd := no + sumOf v.nodes (nodeBytesOf i)
    let ls := laidOut (leafBytesOf i) nEnd (sortBy (fun a b : LeafBlk => a.path < b.path) v.leaves)
    let ref := childRef i ns ls
    let sd := seedSection c obj h
    let wd := weedSection c obj h
    let slot (g : SlotData → Quad) (k : Nat) : List Byte := toLe 8 (((Tbl.get c.slots k).map fun d => (g d).toNat).getD 0)
    let secs := placeSections 4096 [
      (1, proj, pd), (2, ns.flatMap fun x => nodeImage i obj (ref x.2) x.2, ns.length), (3, ls.flatMap fun x => leafImage i obj x.2, ls.length),
      (4, (List.range top).flatMap (slot (·.key)), top), (5, (List.range top).flatMap (slot (·.attr)), top), (7, sd.flatten, sd.length),
      (8, wd.flatten, wd.length), (9, stateSection c obj h top v, 1),
      (6, (List.range (refineUnits i.refineDims top)).flatMap (unitBytes (refineStride i.refineDims) (collRecord c)), refineUnits i.refineDims top)]
    let size := secs.foldl (fun n x => max n (x.2.1 + x.2.2.1.length)) 4096
    let tbl := secs.flatMap fun x => toLe 1 x.1 ++ zeros 7 ++ toLe 8 x.2.1 ++ toLe 8 x.2.2.1.length ++ toLe 8 x.2.2.2
    let hdr := toLe 4 0x5849564B ++ toLe 2 1 ++ toLe 2 0 ++ toLe 8 size ++ zeros 8 ++ toLe 2 i.profile ++ toLe 1 i.metric ++ toLe 1 i.depth ++ toLe 2 pd ++
      toLe 2 i.refineDims ++ toLe 8 top ++ toLe 8 i.slotLimit ++ toLe 4 ls.length ++ toLe 4 ns.length ++ toLe 4 i.buckets ++ toLe 1 i.beam ++ zeros 1 ++
      toLe 2 i.probes ++ toLe 1 9 ++ zeros 3 ++ toLe 4 128 ++ zeros 56
    padTo (sealCrc hdr 124 tbl ++ tbl) 4096 0 ++ secs.flatMap fun x => padTo x.2.2.1 (roundUp x.2.2.1.length 4096) 0

/-- The graft image of a row table. -/
def tableGraftImage (t : Table) : List Byte :=
  let rb := tableRowBytes t
  let n := t.rows.foldl (fun n p => max n (p.1 + 1)) 0
  let mo := roundUp (128 + 4 * t.owners.length) 4096
  let ro := roundUp (mo + 4096 * t.buckets) 16384
  let owners := t.owners.flatMap fun o => toLe 2 o.1 ++ toLe 2 (o.2.2 + o.2.1.toNat * 0x8000)
  let hdr := toLe 4 0x5452564B ++ toLe 2 1 ++ toLe 1 t.placement ++ [t.flags] ++ toLe 8 (ro + 16384 * unitsOf rb n) ++ toLe 8 n ++ toLe 8 t.limit ++
    toLe 2 t.cols ++ toLe 1 t.fmt ++ toLe 1 t.stFmt ++ toLe 1 t.opt ++ toLe 1 t.stCount ++ toLe 2 rb ++ toLe 4 t.hall.toNat ++
    toLe 2 t.owners.length ++ toLe 2 t.self ++ toLe 4 t.buckets ++ zeros 4 ++ toLe 8 ro ++ zeros 64
  padTo (padTo (sealCrc hdr 124 owners ++ owners) mo 0 ++ (List.range t.buckets).flatMap fun i => bucketBytes 0x4D52564B ((Tbl.get t.rowmap i).getD [])) ro 0 ++
    (List.range (unitsOf rb n)).flatMap (unitBytes rb (tableRecord t))

/-- The graft image that a SOURCE entry holds for its follower. -/
def pairImage (p : Pair) : List Byte :=
  match p.snapColl, p.snapTable, p.snap with
  | some c, _, some h => collGraftImage c p.obj h
  | _, some t, _ => tableGraftImage t
  | _, _, _ => []

/-! ## The owner (R334) -/

/-- What an owner read reads: a tier range, or a graft image. -/
inductive OwnerSpace where
  | tier (range tenant : Nat) (x : TierSpace)
  | image (tenant : Nat) (b : List Byte)

def OwnerSpace.tenant : OwnerSpace → Nat
  | .tier _ t _ => t
  | .image t _ => t

/-- An object read by its hall number, or by this node's own number where a pair entry names the requester (log entry 61). -/
def readsObj (s : State) (src o : Nat) (hall object : Nat) : Bool :=
  hall == object || (s.faults.pairs.any fun p => p.2.role == 1 && p.2.peer == src && p.2.obj == o && o == object)

def ownerSpace (s : State) (b : List Byte) : Option OwnerSpace :=
  let src := leAt b 0 2 % 0x8000
  let object := leAt b 16 4
  let kind := leAt b 20 1
  if kind = 4 then
    (s.faults.pairs.find? fun p => p.2.streams && p.2.peer == src && p.2.obj == object).map fun p => .image (rangeTenant s p.2.obj) (pairImage p.2)
  else if kind = 3 then
    (s.store.tables.find? fun p => p.2.life == .serving && readsObj s src (objTable p.1) p.2.hall.toNat object).map fun p =>
      .tier (4096 + p.1) p.2.tenant (tableSpace p.2)
  else if kind = 1 ∨ kind = 2 then
    (s.store.colls.find? fun p => p.2.life == .serving && ((p.2.map.any fun m => m.hallColl.toNat == object) || readsObj s src p.1 0x100000000 object)).map
      fun p => .tier p.1 p.2.tenant (collSpace p.2)
  else none

/-- STATUS of an owner read; `none` where the range is LOST here and not on both, so that it cannot be served now (log entry 62). -/
def ownerStatus (s : State) (b : List Byte) : Option Nat :=
  let off := leAt b 24 8
  let n := leAt b 32 4
  if s.faults.nodeState ≠ 3 ∨ s.now + 2 ≤ leAt b 8 6 then some 4
  else
    match ownerSpace s b with
    | none => some 1
    | some (.image _ im) => if im = [] then some 1 else if off + n ≤ im.length then some 0 else some 2
    | some (.tier range _ x) =>
      if x.size < off + n then some 2
      else
        match spanLost s range off n with
        | 0 => some 0
        | 1 => none
        | _ => some 3

/-- OWNER_DATA: the request's header with KIND and STATUS, and the data where it is OK. -/
def ownerAnswer (s : State) (b : List Byte) (status : Nat) : State :=
  let h := putAt (putAt (b.take 64) 2 (toLe 1 0x41)) 21 (toLe 1 status)
  let hdr := sealCrc h 60 []
  let n := leAt b 32 4
  let x := ownerSpace s b
  let dat := if status = 0 then
      match x with
      | some (.image _ im) => sub im (leAt b 24 8) n
      | some (.tier _ _ t) => t.bytes (leAt b 24 8) n
      | none => []
    else []
  let s1 := sendFrame s 0x41 0 (min 3 (leAt b 3 1)) (leAt b 0 2 % 0x8000) (leAt b 16 4) (leAt b 4 4) (hdr ++ dat)
  match x with
  | some o => meterFabric s1 o.tenant (64 + dat.length)
  | none => s1

/-- OWNER_READ: one that passes waits for the next open instant; the others are answered at once with the first failing status. -/
def ownerRead (s : State) (f : Frame) : State :=
  let b := f.body
  if ctlOk b = false then ctlFail s
  else
    let s1 := if s.now + 2 ≤ leAt b 8 6 then count s Reg.fault.STALE_FRAMES else s
    match ownerStatus s1 b with
    | some 0 => { s1 with links := { s1.links with ownerReads := s1.links.ownerReads ++ [b.take 64] } }
    | some st => ownerAnswer s1 b st
    | none => s1

def execOwnerRead (f : Frame) (s : State) : Host.Outcome State Fault Refusal := .next (receive s f 0x40 fun t => ownerRead t f)

/-- The frame of an answer is booked in this step for the tenant that owns the object, in the read's class (R334). -/
def bookAnswer (s : State) (b : List Byte) : State :=
  match ownerSpace s b with
  | some o => { s with sched := { s.sched with served := s.sched.served ++ [⟨2 ^ 32, s.ticks, o.tenant, min 3 (leAt b 3 1), 1⟩] } }
  | none => s

/-- The owner reads accepted before the tick are served (R334), also while the node is quiesced (R479). -/
def serveOwners (s : State) : State :=
  s.links.ownerReads.foldl (fun t b => match ownerStatus t b with
    | some st => bookAnswer (ownerAnswer t b st) b
    | none => t) { s with links := { s.links with ownerReads := [] } }

/-! ## The follower's objects (R510) -/

/-- A collection's image has a header that this node reads (R146, R149, R152). -/
def graftHdrOk (s : State) (p : Pair) (b : List Byte) : Bool :=
  if p.obj < 4096 then
    leAt b 0 4 == 0x5849564B && leAt b 64 1 == 9 && leAt b 68 4 == 128 &&
    crc32c (putAt (sub b 0 128) 124 (zeros 4) ++ sub b 128 288) == BitVec.ofNat 32 (leAt b 124 4) && fmtOk s (leAt b 4 2) (leAt b 6 2) &&
    profileFits s (leAt b 24 2)
  else leAt b 0 4 == 0x5452564B && leAt b 4 2 == 1

/-- Where the sections before REFINEMENT, or a table's row map, end. -/
def hbmPoint (p : Pair) (b : List Byte) : Nat := if p.obj < 4096 then secOff b 9 else leAt b 56 8
/-- The size of an image, as its header says. -/
def imageSize (b : List Byte) : Nat := leAt b 8 8

def imageOf (s : State) (i : Nat) : List Byte := (Tbl.get s.faults.graft.images i).getD []
def hbmPlaced (s : State) (i : Nat) : Bool := 4096 ≤ (imageOf s i).length && hbmPoint (pairAt s i) (imageOf s i) ≤ (imageOf s i).length
def imageWhole (s : State) (i : Nat) : Bool := 4096 ≤ (imageOf s i).length && imageSize (imageOf s i) ≤ (imageOf s i).length

def followerPairs (s : State) : List Nat := (s.faults.pairs.filter (·.2.role == 2)).map (·.1)

/-- The entries of a section of segments. -/
def segEntries (b : List Byte) (k : Nat) : List (Nat × List Byte) :=
  (List.range (secCount b k)).flatMap fun j =>
    let g := sub b (secOff b k + 65536 * j) 65536
    (List.range (leAt g 24 4)).map fun e => (leAt g 8 1, sub g (64 + leAt g 12 2 * e) (leAt g 12 2))

def parseSeed (pd : Nat) (x : Nat × List Byte) : SeedEntry :=
  let e := x.2
  ⟨x.1, leAt e 0 8 % 2 ^ 63, leAt e 8 6, (leAt e 8 8).testBit 63, leAt e 16 5, BitVec.ofNat 32 (leAt e 24 4), BitVec.ofNat 32 (leAt e 28 4),
   parseCoarse pd (e.drop 32), none⟩
def parseWeed (x : Nat × List Byte) : WeedEntry := ⟨x.1, leAt x.2 0 6, (leAt x.2 0 8).testBit 63, leAt x.2 8 5, none⟩

/-- The slot's item is not deleted: a leaf or an unfolded seedbed entry holds it, and no unfolded weed entry names it. -/
def slotLive (fold : List Nat) (ls : List LeafBlk) (sd : List SeedEntry) (wd : List WeedEntry) (k : Nat) : Bool :=
  ((ls.any fun l => l.slots.contains k) || sd.any fun e => e.slot == k && e.valid && fold.getD e.part 0 ≤ e.epoch) &&
  !(wd.any fun e => e.slot == k && e.valid && fold.getD e.part 0 ≤ e.epoch)

/-- The collection that a graft image's sections before REFINEMENT make, with the transplants that its STATE lists; `none` where a check of R152
fails or it does not fit. -/
def graftColl (s : State) (p : Pair) (b : List Byte) : Option (Coll × List (Nat × Nat × Nat)) :=
  let i := imgInfo b
  let g : GraftOf := some p.peerObj
  let so := secOff b 8
  let free := (List.range (leAt b (so + 12296) 8)).map fun k => leAt b (so + 12304 + 8 * k) 8
  let tpo := so + 12304 + 8 * free.length
  let tps := (List.range (leAt b tpo 8)).map fun k =>
    (leAt b (tpo + 8 + 24 * k) 8, leAt b (tpo + 16 + 24 * k) 8, leAt b (tpo + 24 + 24 * k) 8)
  let fold := (List.range 256).map fun k => leAt b (so + 64 + 32 * k + 16) 8
  let sd := (segEntries b 6).map (parseSeed i.projDims)
  let wd := (segEntries b 7).map parseWeed
  match placeImage s g b [] with
  | .error _ => none
  | .ok pl =>
  let ls := pl.leaves
  let partAt (k : Nat) : Nat :=
    match ls.find? (·.slots.contains k), sd.find? (·.slot == k) with
    | some l, _ => l.path.toNat / 2 ^ 24
    | _, some e => e.part
    | _, _ => 0
  let slots : Tbl SlotData := ((List.range (leAt b 32 8)).filter (!free.contains ·)).map fun k =>
    let key : Quad := BitVec.ofNat 64 (leAt b (secOff b 4 + 8 * k) 8)
    let attr : Quad := BitVec.ofNat 64 (leAt b (secOff b 5 + 8 * k) 8)
    (k, ⟨key, attr, partAt k, ⟨[], [], [], key, attr⟩, true, none⟩)
  let unfolded (k : Nat) : Bool := wd.any fun e => e.slot == k && e.valid && fold.getD e.part 0 ≤ e.epoch
  let dying := ((slots.map (·.1)).filter fun k => !slotLive fold ls sd wd k && !unfolded k).map fun k => (k, leAt b (so + 8) 6)
  let km := slots.foldl (fun (m : Option (Tbl (List KeyEntry))) x => m.bind fun m =>
    keyInsert m (keyHome x.2.key i.buckets) i.buckets ⟨x.2.key, x.1, slotLive fold ls sd wd x.1⟩) (some [])
  match km with
  | none => none
  | some km =>
    let need := imageNeed b (projGroup s i.profile)
    let blocked := (List.range 256).map fun k => leAt b (so + 64 + 32 * k + 24) 1 == 1
    let c : Coll := { Coll.blank (collTenant s) .serving (s.tickOf (leAt b (so + 8) 6)) i with
      proj := parseProj b i (projGroup s i.profile), projAddrs := pl.proj, arrays := pl.arrays
      versions := [⟨leAt b (so + 8) 6, leAt b (so + 32) 8, fold, blocked, pl.nodes, ls, (true, true), pl.record, 0, none⟩]
      nextSeq := leAt b (so + 12288) 8, slots := slots, keymap := km, seeds := sd, weeds := wd, dying := dying }
    if treeFaults s g b ≠ [] ∨ roomFor s (collTenant s) need.1 need.2 = false ∨ 4000000000 < nodeItems s + liveItems c then none
    else some (fitPlaces s pl.heap c, tps)

/-- The table that a graft image's header and row map make; its rows are still to come. -/
def graftTable (s : State) (b : List Byte) : Option Table :=
  let t := tableOfHdr (tableTenant s) s.ticks b
  let bs := (List.range t.buckets).filterMap fun i =>
    let es := parseBucket b (rowmapOff b + 4096 * i)
    if es.isEmpty then none else some (i, es)
  if (bucketFail b).isSome ∨ roomFor s (tableTenant s) (tableNeed b).1 (tableNeed b).2 = false then none
  else some { t with
    rowmap := bs
    rows := bs.foldl (fun r x => x.2.foldl (fun r e => Tbl.set r e.slot ⟨e.key, ⟨[], [], []⟩, none⟩) r) [] }

/-- An object of a follower is placed. -/
def placeObject (s : State) (i : Nat) : Option State :=
  let p := pairAt s i
  let b := imageOf s i
  if p.obj < 4096 then
    (graftColl s p b).map fun x =>
      let s1 := dirtyMap { s with store := { s.store with colls := Tbl.set s.store.colls p.obj x.1 } } p.obj []
      setUse (x.2.foldl (fun t y => startTp t p.obj y.1 y.2.1 y.2.2 ((inServiceList t).headD 0)) s1) x.1.tenant
  else (graftTable s b).map fun t => setUse (setTable s (p.obj - 4096) t) t.tenant

/-! ## Failure and progress (R510, R513) -/

/-- The graft fails: the node is ISOLATED again; the objects keep their contents. -/
def graftFail (s : State) : State :=
  raiseEvt { s with faults := { s.faults with nodeState := 0, graft := Graft.reset } } (pageBase .fault 0) 8

/-- HBM_DONE: every object is placed, the transplants start and the held units are applied. -/
def hbmDone (s : State) : State :=
  match (followerPairs s).foldl (fun (o : Option State) i => o.bind fun t => placeObject t i) (some s) with
  | none => graftFail s
  | some t =>
    let t1 := raiseEvt (setGraft t fun g => { g with hbmDone := true }) (pageBase .fault 0) 10
    (followerPairs t1).foldl drainPair (setTrellisEpoch t1)

/-- The records of a collection that have come: each is compared with the copied arrays. -/
def fillColl (s : State) (p : Pair) (b : List Byte) : State :=
  match Tbl.get s.store.colls p.obj with
  | none => s
  | some c =>
    let st := refineStride c.info.refineDims
    let come := c.slots.filter fun x => x.2.refine.missing && secOff b 9 + rowOff st x.1 + st ≤ b.length
    come.foldl (fun t x =>
      let r := parseRefine c.info.refineDims (sub b (secOff b 9 + rowOff st x.1) st)
      let t1 := updColl t p.obj fun c => { c with slots := Tbl.upd c.slots x.1 fun d => { d with refine := r } }
      if r.key = x.2.key ∧ r.attr = x.2.attr then t1 else count t1 Reg.fault.RECORD_MISMATCH) s

def fillTable (s : State) (p : Pair) (b : List Byte) : State :=
  match Tbl.get s.store.tables (p.obj - 4096) with
  | none => s
  | some t =>
    let rb := tableRowBytes t
    let fill (x : Nat × RowSlot) : Nat × RowSlot :=
      if x.2.missing ∧ leAt b 56 8 + rowOff rb x.1 + rb ≤ b.length then
        let v := parseRow t (sub b (leAt b 56 8 + rowOff rb x.1) rb)
        (x.1, { x.2 with cur := v, flash := some v })
      else x
    setTable s (p.obj - 4096) { t with rows := t.rows.map fill }

def fillObject (s : State) (i : Nat) : State :=
  let p := pairAt s i
  if p.obj < 4096 then fillColl s p (imageOf s i) else drainPair (fillTable s p (imageOf s i)) i

/-- What the bytes that have come lead to. -/
def graftProgress (s : State) (i : Nat) : State :=
  if 4096 ≤ (imageOf s i).length ∧ graftHdrOk s (pairAt s i) (imageOf s i) = false then graftFail s
  else
    let ps := followerPairs s
    let s1 := if s.faults.graft.hbmDone = false ∧ ps.all (hbmPlaced s) = true then hbmDone s else s
    if s1.faults.graft.hbmDone = false then s1
    else
      let s2 := ps.foldl fillObject s1
      if ps.all (imageWhole s2) ∧ s2.faults.graft.flashDone = false then
        raiseEvt (setGraft s2 fun g => { g with flashDone := true }) (pageBase .fault 0) 11
      else s2

/-- OWNER_DATA of a graft image: bytes are taken in order. -/
def graftData (s : State) (i : Nat) (b : List Byte) : State :=
  if leAt b 21 1 ≠ 0 ∨ s.faults.graft.active = false then s
  else
    let dat := (b.drop 64).take (leAt b 32 4)
    let s1 := setGraft s fun g => { g with lastData := s.now }
    if leAt b 24 8 ≠ (imageOf s i).length then s1
    else graftProgress (wr64 (setGraft s1 fun g => { g with images := Tbl.set g.images i (imageOf s i ++ dat) }) Reg.fault.GRAFT_BYTES
      (rd64 s Reg.fault.GRAFT_BYTES + dat.length)) i

/-- OWNER_DATA of a remote read: the next piece is asked for, or the record or row reaches its flight. -/
def remoteData (s : State) (r : RemoteRead) (b : List Byte) : State :=
  if leAt b 21 1 ≠ 0 then s
  else
    let got := r.got ++ (b.drop 64).take (leAt b 32 4)
    match workOf s r.flight with
    | none => count s Reg.sched.LATE_DISCARD
    | some f =>
      if got.length < r.size then
        askRemote s f.cls { r with got := got }
      else if r.row ∧ (f.kind = .scatter ∨ subBatch f = true) then updWork s f.id fun x => setRow x r.idx fun y => if y.done then y else { y with data := got }
      else if r.row then
        if f.kind = .lookup ∧ landingOpen f 4 = false then count s Reg.sched.LATE_DISCARD
        else
          let t := tableOf s f.obj
          let v := parseRow t got
          updWork s f.id fun x => setRow x r.idx fun y =>
            { y with status := 0, data := rowData v ++ (if f.desc.withState then v.state.flatten else []), done := true }
      else recordArrives s f.id r.idx (parseRefine (collOf s f).info.refineDims got)

/-- OWNER_DATA goes to what asked for it: a repair, a graft image or a remote read; anything else is late. -/
def ownerData (s : State) (f : Frame) : State :=
  let b := f.body
  let req := leAt b 4 4
  let g := s.faults.graft
  if ctlOk b = false then ctlFail s
  else
    match Tbl.get g.reqs req, Tbl.get g.reads req with
    | some i, _ => graftData (setGraft s fun g => { g with reqs := Tbl.del g.reqs req }) i b
    | _, some r => remoteData (setGraft s fun g => { g with reads := Tbl.del g.reads req }) r b
    | _, _ =>
      match s.mem.flash.lost.findIdx? fun l => l.req == req && l.peer == f.src + 1 && !l.both with
      | some i => repairData s i (leAt b 21 1) (leAt b 32 4)
      | none => count s Reg.sched.LATE_DISCARD

def execOwnerData (f : Frame) (s : State) : Host.Outcome State Fault Refusal := .next (receive s f 0x41 fun t => ownerData t f)

/-! ## Reading the images (R510) -/

/-- How far an image is asked for: its first frame, then its size. -/
def askEnd (s : State) (i : Nat) : Nat :=
  let b := imageOf s i
  if b.length < 4096 then 8128 else if s.faults.graft.hbmDone then imageSize b else min (imageSize b) (roundUp (hbmPoint (pairAt s i) b) 32)

/-- `n` OWNER_READ frames of class 3 for an image, from `o` on. -/
def askImage (s : State) (i o : Nat) : Nat → State
  | 0 => s
  | n + 1 =>
    let stop := askEnd s i
    if stop ≤ o then s
    else
      let p := pairAt s i
      let s1 := sendOwnerRead s p.peer 3 p.peerObj 4 o (min 8128 (stop - o))
      let s2 := setGraft s1 fun g => { g with reqs := Tbl.set g.reqs s1.links.reqNo i, asked := Tbl.set g.asked i (o + min 8128 (stop - o), s.now) }
      askImage s2 i (o + min 8128 (stop - o)) n

/-- At an open instant: the first image that is not read goes on, at up to GRAFT_GBPS; a piece that does not come is asked for again after two
steps. -/
def readImages (s : State) : State :=
  let g := s.faults.graft
  if g.active = false ∨ g.flashDone then s
  else
    match (followerPairs s).find? fun i => (imageOf s i).length < askEnd s i with
    | none => s
    | some i =>
      let have_ := (imageOf s i).length
      let (asked, at_) := (Tbl.get g.asked i).getD (0, 0)
      let again := asked ≤ have_ || (at_ + 2 ≤ s.now && g.lastData + 2 ≤ s.now)
      if again then askImage s i have_ (max 1 (rdf s Reg.fault.GRAFT_GBPS 15 0 * periodNs (periodSel s) / 8128)) else s

/-! ## Shadow work at the follower (R512) -/

/-- SHADOW_QUERY: a part of the follower's object, where the node compares. -/
def shadowQuery (s : State) (f : Frame) : State :=
  if queryCtlOk f.body = false then ctlFail s
  else
    let q : Query := ⟨f.body, true, false⟩
    let mine := s.faults.pairs.any fun p => p.2.role == 2 && p.2.peer == f.src && p.2.obj == objColl (q.u 26 2)
    let on := s.faults.nodeState = 2 ∨ (s.faults.nodeState = 3 ∧ testBit (rd s Reg.fault.SHADOW_CTRL) 8 = true)
    if mine = true ∧ on then
      match takeQuery s q with
      | .ok t => updPart t s.sched.nextFlight fun x => { x with cls := 3 }
      | .error _ => skipShadow s
    else s

def execShadowQuery (f : Frame) (s : State) : Host.Outcome State Fault Refusal := .next (receive s f 0x58 fun t => shadowQuery t f)

/-- SHADOW_RESULT: a fragment of the source's survivors. -/
def shadowResult (s : State) (f : Frame) : State :=
  let b := f.body
  if ctlOk b = false then ctlFail s
  else
    let k := shadowKey (leAt b 0 2 % 0x8000) (leAt b 4 4) (leAt b 16 2)
    let wanted := (Tbl.get s.faults.graft.own k).isSome || s.sched.parts.any fun x => match x.part with
      | some p => p.shadow && shadowKey p.coord p.flightNo p.shard == k
      | none => false
    if wanted then compareShadow (setGraft s fun g => { g with results := Tbl.set g.results (k * 32 + leAt b 18 1) b }) k else s

def execShadowResult (f : Frame) (s : State) : Host.Outcome State Fault Refusal := .next (receive s f 0x59 fun t => shadowResult t f)

end Sys2Proof.Machine
end

