-- ==== Sys2Proof/Machine/Faults.lean ====
section
/-! DEFINITION. Service states (R492 to R494), the graft commands (R508, R513), quiesce (R479), clearing faults (R480), the history queue (R489),
the gone set (R485), completions after a C0 fault (R488, R434), and the errors of R482 that no other family raises. -/
namespace Sys2Proof.Machine

def setFaults (s : State) (g : Faults → Faults) : State := { s with faults := g s.faults }

/-! ## NODE_CMD (R492, R508) -/

/-- RESULT of NODE_CMD: OK, STATE, NO_PAIR, NO_FABRIC. -/
def nodeResult (s : State) (r : Nat) : State := wrf s Reg.fault.NODE_CMD_STATUS 7 0 r

/-- A FOLLOWER entry names an EMPTY object. -/
def followerEmpty (s : State) : Bool := s.faults.pairs.any fun p => p.2.role == 2 && objEmpty s p.2.obj

def graftStartResult (s : State) : Nat :=
  let st := s.faults.nodeState
  if s.hall = false then 3
  else if ¬((st = 0 ∨ st = 4 ∨ s.faults.fenceAsked = true) ∧ s.step.valid = true ∧ nodeIdValid s = true) then 1
  else if followerEmpty s = false then 2
  else 0

/-- GRAFT_START: the node becomes COPYING at the next open instant. -/
def graftStart (s : State) : State :=
  let r := graftStartResult s
  let s1 := nodeResult s r
  if r = 0 then
    wr64 (wr64 (wr (setFaults s1 fun f => { f with graftAsked := true, graft := Graft.reset }) Reg.fault.SHADOW_RUN 0) Reg.fault.FIRST_MISMATCH 0)
      Reg.fault.GRAFT_BYTES 0
  else s1

def execGraftStart (s : State) : Host.Outcome State Fault Refusal := .next (graftStart s)

/-- A graft is in progress: COPYING or SHADOW, or about to copy. -/
def grafting (s : State) : Bool := s.faults.nodeState == 1 || s.faults.nodeState == 2 || s.faults.graftAsked

/-- GRAFT_ABORT. -/
def graftAbort (s : State) : State :=
  if s.hall = false then nodeResult s 3
  else if grafting s then graftFail (nodeResult (setFaults s fun f => { f with graftAsked := false }) 0)
  else nodeResult s 1

def execGraftAbort (s : State) : Host.Outcome State Fault Refusal := .next (graftAbort s)

/-- SERVE: from ISOLATED, without a FOLLOWER entry. -/
def serve (s : State) : State :=
  if s.hall = false then nodeResult s 3
  else if s.faults.nodeState = 0 ∧ s.faults.graftAsked = false ∧ followerPairs s = [] then
    nodeResult (setFaults s fun f => { f with nodeState := 3 }) 0
  else nodeResult s 1

def execServe (s : State) : Host.Outcome State Fault Refusal := .next (serve s)

/-- FENCE: a SERVING node becomes STALE at the next open instant. -/
def fence (s : State) : State :=
  if s.hall = false then nodeResult s 3
  else if s.faults.nodeState = 3 then nodeResult (setFaults s fun f => { f with fenceAsked := true }) 0
  else nodeResult s 1

def execFence (s : State) : Host.Outcome State Fault Refusal := .next (fence s)

/-- FENCE_TIMEOUT (R494): FENCE_STEPS steps without a route to the fabric manager. -/
def fenceTimeout (s : State) : State :=
  if s.hall = true ∧ s.faults.nodeState = 3 ∧ max 1 (rdf s Reg.fault.FENCE_STEPS 7 0) ≤ s.faults.noRoute then
    setFaults s fun f => { f with fenceAsked := true }
  else s

def execFenceTimeout (s : State) : Host.Outcome State Fault Refusal := .next (fenceTimeout s)

/-- GRAFT_STALL (R510): no OWNER_DATA for GRAFT_STALL steps while the image is copied. -/
def graftStall (s : State) : State :=
  let g := s.faults.graft
  if g.active = true ∧ (s.faults.nodeState = 1 ∨ (s.faults.nodeState = 2 ∧ g.flashDone = false)) ∧
      g.lastData + max 1 (rd s Reg.fault.GRAFT_STALL).toNat ≤ s.now then graftFail s
  else s

def execGraftStall (s : State) : Host.Outcome State Fault Refusal := .next (graftStall s)

/-- GRAFT_WINDOW (R513): the steps allowed in SHADOW have passed. -/
def graftWindow (s : State) : State :=
  if s.faults.nodeState = 2 ∧ s.faults.graft.started + (rd s Reg.fault.GRAFT_WINDOW).toNat ≤ s.now then graftFail s else s

def execGraftWindow (s : State) : Host.Outcome State Fault Refusal := .next (graftWindow s)

/-- What takes effect at an open instant: the fence first (R520), then COPYING, SHADOW and the pass. -/
def openService (s : State) : State :=
  let s1 := if s.faults.fenceAsked then
      let t := setFaults s fun f => { f with fenceAsked := false }
      if s.hall = true ∧ s.faults.nodeState = 3 then raiseEvt (setFaults t fun f => { f with nodeState := 4 }) (pageBase .fault 0) 3 else t
    else s
  if s1.faults.graftAsked then
    setFaults s1 fun f => { f with graftAsked := false, nodeState := 1, graft := { Graft.reset with active := true, started := s.now, lastData := s.now } }
  else if s1.faults.nodeState = 1 ∧ s1.faults.graft.hbmDone = true then
    setFaults s1 fun f => { f with nodeState := 2, graft := { f.graft with started := s.now } }
  else if s1.faults.nodeState = 2 ∧ max 1 (rd s Reg.fault.GRAFT_PASS).toNat ≤ (rd s Reg.fault.SHADOW_RUN).toNat then
    raiseEvt (setFaults s1 fun f => { f with nodeState := 3 }) (pageBase .fault 0) 7
  else s1

/-! ## Quiesce (R479) -/

def execQuiesce (s : State) : Host.Outcome State Fault Refusal := .next (wrf s Reg.fault.CTRL 0 0 1)
def execQuiesceEnd (s : State) : Host.Outcome State Fault Refusal := .next (wrf s Reg.fault.CTRL 0 0 0)

/-- STATUS.QUIESCED: it holds from an open instant to the next. -/
def quiesced (s : State) : Bool := testBit (rd s 0x2018) 6

/-- At an open instant: QUIESCED while no flight or participant part is admitted. -/
def openQuiesce (s : State) : State :=
  let idle := s.sched.flights.isEmpty && !(s.sched.parts.any fun f => f.part.any (·.admitted))
  if s.quiesce then (if idle && !quiesced s then raiseEvt (wrf s 0x2018 6 6 1) (pageBase .fault 0) 4 else s) else wrf s 0x2018 6 6 0

/-! ## Clearing faults (R480, R481) -/

/-- Pages that can hold an error of their own, by kind. -/
def errPages : List (PageKind × Nat) :=
  [(.atrium, 1), (.sched, 1), (.fault, 1), (.intc, 1), (.power, 1), (.test, 1), (.pcie, 1), (.ft, 1), (.port, 4), (.hbm, 8), (.flashCh, 32),
   (.trace, 51), (.gallery, 50), (.tile, 800)]

/-- A page's C1 bits in ERR_STAT read 0. -/
def c1Clear (s : State) (k : PageKind) (n : Nat) : Bool :=
  (List.range 32).all fun b => !(errClass k b == .c1 && testBit (rd s (pageBase k n + 0x30)) b)

/-- A set bit may be cleared. -/
def mayClear (s : State) (g : Nat) : Bool :=
  quiesced s && bitsOf (rd64 s Reg.fault.FAULT_C0_GROUPS) g g == 0 &&
  errPages.all fun p => (List.range p.2).all fun n => faultGroup p.1 n ≠ g || c1Clear s p.1 n

/-- FAULT_FIRST.VALID returns to 0 when FAULT_STATUS reads 0 (R490). -/
def releaseFirstFault (s : State) : State :=
  if rd64 s Reg.fault.FAULT_STATUS = 0 then wrf s Reg.fault.FAULT_FIRST 7 7 0 else s

def clearBit (s : State) (g : Nat) : State :=
  if bitsOf (rd64 s Reg.fault.FAULT_STATUS) g g = 0 then s
  else if mayClear s g = false then count s Reg.fault.CLEAR_REFUSED
  else
    let s1 := wr64 s Reg.fault.FAULT_STATUS (rd64 s Reg.fault.FAULT_STATUS - 2 ^ g)
    let s2 := setFaults s1 fun f => { f with c1Set := Tbl.del f.c1Set g }
    if g = 0 then wrf s2 Reg.atrium.STEP_STATUS 3 3 0 else s2

/-- FAULT_CLEAR: a write of 1 to each of the bits of `v`. -/
def faultClear (s : State) (v : Quad) : State :=
  releaseFirstFault (((List.range 64).filter fun g => v.getLsbD g).foldl clearBit s)

def execFaultClear (value : Quad) (s : State) : Host.Outcome State Fault Refusal := .next (faultClear s value)

/-! ## The history queue and the gone set (R489, R485) -/

/-- HIST_POP (R23, R24): a pop at empty does nothing but set UNDERFLOW, and not even that when a push falls in the same cycle. -/
def histPop (s : State) (push : Bool) : State :=
  match s.faults.hist with
  | [] => if push then s else wr s Reg.fault.HIST_CTRL (setBit (rd s Reg.fault.HIST_CTRL) 30)
  | _ :: r => setFaults s fun f => { f with hist := r }

/-- The pop without a push in its cycle; one that meets a push is a REGISTER_WRITE of HIST_POP whose `sets` says so. -/
def execHistPop (s : State) : Host.Outcome State Fault Refusal := .next (histPop s false)

def execGoneClear (node : BitVec 15) (s : State) : Host.Outcome State Fault Refusal :=
  .next (setFaults s fun f => { f with gone := f.gone.filter (·.1 ≠ node.toNat) })

/-- GONE: the sender joins the gone set; shards sent to it are replayed where R266 allows, rows read UNKNOWN (R303), and a source loses its
follower (R505). -/
def gone (s : State) (f : Frame) : State :=
  let n := f.src % 0x8000
  let g := s.faults.gone.filter (·.1 ≠ n) ++ [(n, s.ticks)]
  let s1 := raiseEvt (count (setFaults s fun x => { x with gone := g.drop (g.length - 1024) }) Reg.fault.GONE_RX) (pageBase .fault 0) 5
  let s2 := ((s1.faults.pairs.filter fun p => p.2.streams && p.2.peer == n).map (·.1)).foldl goSolo s1
  ownerGone ((s2.sched.flights.flatMap fun x => (x.sent.filter fun y => y.node == n).map fun y => (x.id, y.shard)).foldl
    (fun t y => tryReplay t y.1 y.2 n) s2) n

def execGone (f : Frame) (s : State) : Host.Outcome State Fault Refusal := .next (receive s f 0x04 fun t => gone t f)

/-! ## After a C0 fault (R434, R488) -/

/-- A flight that was admitted before the fault completes with its admission epoch, flags and counts (R197). -/
def faultFlight (s : State) (f : Flight) : State :=
  let d := f.desc
  match f.kind with
  | .insert | .delete =>
    let (b, s1) := updateEnded s f ST_NODE_FAULT
    complete s1 d ST_NODE_FAULT 0 d.items (hdrWrite d b) f.silent
  | .lookup | .scatter =>
    complete s d ST_NODE_FAULT f.epoch d.rowCount
      (hdrWrite d (rowResult d.op ST_NODE_FAULT d.tag.toNat f.epoch (rowStatuses f (f.kind == .scatter)))) f.silent
  | _ =>
    let (b, n) := queryResult f ST_NODE_FAULT
    complete s d ST_NODE_FAULT f.epoch n (hdrWrite d b) f.silent

/-- A batch that waited for its mirror completes as NODE_FAULT; it may have committed (R488). -/
def faultHeld (s : State) : Deferred → State
  | .finish d _ e n ws si => complete s d ST_NODE_FAULT e n (ws.map fun w => (w.1, restamp w.2 ST_NODE_FAULT)) si
  | .reply _ _ _ _ _ => s

/-- NODE_FAULT_COMPLETIONS: every descriptor outstanding at the fault completes. -/
def nodeFaultCompletions (s : State) : State :=
  if s.c0 then
    let s1 := setFaults s fun f => { f with ended := [], endedFlights := [], held := [] }
    let s2 := s.faults.held.foldl (fun t h => faultHeld t h.act) (s.faults.endedFlights.foldl faultFlight s1)
    s.faults.ended.foldl (fun t d => refuse t d ST_NODE_FAULT 0) s2
  else s

def execNodeFaultCompletions (s : State) : Host.Outcome State Fault Refusal := .next (nodeFaultCompletions s)

/-! ## Errors (R482, R523, R484) -/

/-- D2D_FAIL: a die-to-die link is lost. -/
def execD2dFail (s : State) : Host.Outcome State Fault Refusal := .next (raiseErr s .atrium 0 2)

/-- MC_UE: the management cores halt as well. -/
def execMcUe (s : State) : Host.Outcome State Fault Refusal :=
  .next (let t := raiseErr s .atrium 0 4
    { t with chip := { t.chip with intc := { t.chip.intc with cores := t.chip.intc.cores.map fun c => { c with enabled := false } } } })

def execCollectorParity (s : State) : Host.Outcome State Fault Refusal := .next (raiseErr s .fault 0 0)

/-- AER_ERROR: CORR, UNCORR_NONFATAL or UNCORR_FATAL of the PCIe page. -/
def execAerError (kind : AerKind) (s : State) : Host.Outcome State Fault Refusal :=
  .next (raiseErr s .pcie 0 (match kind with
    | .corr => 0
    | .nonfatal => 1
    | .fatal => 2))

end Sys2Proof.Machine
end

