-- ==== Sys2Proof/Machine/Recovery.lean ====
section
/-! DEFINITION. Recovery after a node reset (R236, R363, R365, R372). -/
namespace Sys2Proof.Machine

/-- A SUSPECT block is erased again and checked blank; the blocks of `failed` fail (R363). -/
def settleSuspect (failed : List Nat) (s : State) (p : Nat × Block) : State :=
  if p.2.st ≠ .suspect then s
  else
    let s1 := count s Reg.ft.SUSPECT_COUNT
    if failed.contains p.1 then retireBlock (raiseErr s1 .flashCh (p.1 / 65536 / 32) 2) p.1
    else setBlock s1 p.1 { p.2 with st := .erased, erases := p.2.erases + 1, pages := 0, spill := 0, suspends := 0, suspended := false, bad := false, sys := false }

/-- A block that was being programmed is closed at its last good page, to be verified (R365, R372). -/
def closeOpen (p : Nat × Block) : Nat × Block := if p.2.st = .open_ then (p.1, { p.2 with st := .closed }) else p

/-- A batch that is recovered: its journal record and refinement records were programmed. -/
def Journal.whole (j : Journal) : Bool := j.programmed && j.recsLeft.isEmpty

/-- What is replayed of a journal record on a checkpoint: the entries that its leaves do not hold yet, with EPOCH 0. -/
def Journal.replayed (v : Version) (j : Journal) : Journal :=
  let sd := (j.seeds.filter fun e => e.valid && v.fold.getD e.part 0 ≤ e.epoch).map fun e => { e with epoch := 0 }
  { j with
    epoch := 0, seeds := sd, weeds := (j.weeds.filter fun e => e.valid && v.fold.getD e.part 0 ≤ e.epoch).map fun e => { e with epoch := 0 }
    slots := j.slots.filter fun x => sd.any fun e => e.slot == x.1 }

/-- The blocks of a checkpoint take places in the stacks now in service, as a load's do; what finds none keeps address 0 and does not read. -/
def recoverPlaces (s : State) (i : CollInfo) (v : Version) (proj : Nat) : (Nat × Nat) × Version × Heap :=
  let (pr, h0) := match placePair s (heapOf s) true proj with
    | some p => (p, pairSpans proj p ++ heapOf s)
    | none => ((0, 0), heapOf s)
  let ns := v.nodes.foldl (fun (a : List NodeBlk × Heap) n =>
    match placePair s a.2 true (nodeBytesOf i n) with
    | some p => (a.1 ++ [{ n with addrs := p, ok := (true, true) }], pairSpans (nodeBytesOf i n) p ++ a.2)
    | none => (a.1 ++ [{ n with addrs := (0, 0), ok := (false, false) }], a.2)) ([], h0)
  let ls := v.leaves.foldl (fun (a : List LeafBlk × Heap) l =>
    match placeIn s a.2 leafStackGroups none (leafBytesOf i l) with
    | some p => (a.1 ++ [{ l with addr := p, ok := true }], (p, leafBytesOf i l) :: a.2)
    | none => (a.1 ++ [{ l with addr := 0, ok := false }], a.2)) ([], ns.2)
  let (rc, h1) := match placePair s ls.2 false 12288 with
    | some p => (p, pairSpans 12288 p ++ ls.2)
    | none => ((0, 0), ls.2)
  (pr, { v with epoch := 0, fold := List.replicate 256 0, ok := (true, true), nodes := ns.1, leaves := ls.1, addrs := rc, prev := 0, upTo := none }, h1)

/-- A slot's key and attribute entries, rebuilt from its refinement record where flash holds one that can be read (R136). -/
def SlotData.rebuilt (d : SlotData) : SlotData :=
  if d.programmed && !d.refine.missing then { d with key := d.refine.key, attr := d.refine.attr } else d

/-- A collection recovered from checkpoint `k` and the replayed records. -/
def recoverColl (s : State) (k : Coll) (v : Version) (js : List Journal) : Coll :=
  let (pr, w, h) := recoverPlaces s k.info v (projHeld k.proj)
  let sd := js.flatMap (·.seeds)
  let wd := js.flatMap (·.weeds)
  let slots := ((js.flatMap (·.slots)).foldl (fun (t : Tbl SlotData) x => Tbl.set t x.1 { x.2 with programmed := true }) k.slots).map fun x =>
    (x.1, x.2.rebuilt)
  fitPlaces s h { k with
    life := .serving, since := 0, versions := [w], seeds := sd, weeds := wd, slots := slots, projAddrs := pr, arrays := ([], []), segs := []
    nextSeq := sd.foldl (fun n e => max n (e.seq + 1)) k.nextSeq
    keymap := slots.foldl (fun m x =>
      (keyInsert m (keyHome x.2.key k.info.buckets) k.info.buckets ⟨x.2.key, x.1, slotLive w.fold w.leaves sd wd x.1⟩).getD m) [] }

/-- One collection's recovery from its checkpoints, newest first: the collection, its journal and its checkpoint become those of epoch 0. Without a
checkpoint whose copies pass it stays EMPTY. -/
def recoverOne (failed : List Nat) (s : State) (p : Nat × List Coll) : State :=
  match (if failed.contains p.1 then p.2.drop 1 else p.2) with
  | [] => s
  | k :: _ =>
    match k.versions with
    | [] => s
    | v :: _ =>
      if (Tbl.get s.store.colls p.1).isSome then s
      else
        let js := ((s.mem.flash.journal.filter fun j => j.coll == p.1 && j.whole).map (·.replayed v)).filter fun j => !(j.seeds.isEmpty && j.weeds.isEmpty)
        let c := recoverColl s k v js
        let s1 := { s with store := { s.store with colls := Tbl.set s.store.colls p.1 c } }
        setUse (updFlash (dirtyMap s1 p.1 []) fun f => { f with
          journal := f.journal.filter (·.coll ≠ p.1) ++ js
          ckpts := Tbl.set f.ckpts p.1 [{ k with versions := c.versions, slots := k.slots.map fun x => (x.1, x.2.rebuilt) }] }) k.tenant

def recoverTable (s : State) (p : Nat × Table) : State :=
  if (Tbl.get s.store.tables p.1).isSome then s
  else setUse (setTable s p.1 { p.2 with life := .serving, since := 0 }) p.2.tenant

/-- RECOVERY: blocks first, then every collection with a checkpoint and every table, as the snapshot of epoch 0. It needs the flash. -/
def recovery (s : State) (r : RecoveryFound) : State :=
  if flashRunning s = false ∨ s.c0 then s
  else
    let s1 := s.mem.flash.blocks.foldl (settleSuspect r.suspectFailed) s
    let s2 := updFlash s1 fun f => { f with blocks := f.blocks.map closeOpen }
    let s3 := s2.mem.flash.tables.foldl recoverTable (s2.mem.flash.ckpts.foldl (recoverOne r.ckptFailed) s2)
    setTrellisEpoch (setDurable (updFlash s3 fun f => { f with tables := [] }))

def execRecovery (found : RecoveryFound) (s : State) : Host.Outcome State Fault Refusal := .next (recovery s found)

end Sys2Proof.Machine
end

