-- ==== Sys2Proof/Machine/Steps.lean ====
section
/-! DEFINITION. The step (R34 to R47): ticks, alignment, and what happens at an open instant. -/
namespace Sys2Proof.Machine

def setStep (s : State) (g : Step → Step) : State := { s with step := g s.step }

/-! ## The tick (R38, R39, R45, R46, R69, R233) -/

/-- The pending STEP_MARK number is used up. -/
def dropMark (s : State) : State :=
  wr (setStep s fun p => { p with mark := none }) (Reg.atrium.STEP_MARK + 4) (rd s (Reg.atrium.STEP_MARK + 4) &&& 0x7FFFFFFF)

/-- How far apart two step numbers lie. -/
def countGap (a b : Epoch) : Nat := min (a - b).toNat (b - a).toNat

/-- A pending STEP_MARK number at a tick: before alignment STEP_COUNT takes it, afterwards the two are compared. -/
def markAtTick (s : State) : State :=
  match s.step.mark with
  | none => setStep s fun p => { p with mismatchRun := 0 }
  | some n =>
    let s1 := dropMark s
    let c := s.step.count
    if s.step.valid = false then
      let t := setStep s1 fun p => { p with count := n, valid := true, mismatchRun := 0, realignFrom := none }
      if s.step.realignFrom.isSome ∧ 1 < countGap n c then { t with faults := { t.faults with fenceAsked := true } } else t
    else if n = c then setStep s1 fun p => { p with mismatchRun := 0 }
    else
      let t := raiseEvt (count s1 Reg.atrium.STEP_MISMATCH) (pageBase .atrium 0) 3
      if s.step.mismatchRun = 0 then setStep t fun p => { p with mismatchRun := 1 }
      else setStep t fun p => { p with mismatchRun := 0, valid := false, realignFrom := some c }

/-- A foreground stage that has not signalled completion by the tick has overrun, one that still waits for a late yield among them (R72); it is
suspended at its next pre-emption point. -/
def overrunStages (f : Flight) : Flight × Nat :=
  let late (r : StageRun) : Bool := (r.runs || r.waitsForYield) && !r.overrun
  if f.background then (f, 0)
  else ({ f with stages := f.stages.map fun r => if late r then { r with overrun := true } else r }, (f.stages.filter late).length)

def overruns (s : State) : State :=
  let fs := s.sched.flights.map overrunStages
  let ps := s.sched.parts.map overrunStages
  countN { s with sched := { s.sched with flights := fs.map (·.1), parts := ps.map (·.1) } } Reg.sched.OVERRUN_COUNT
    (sumOf fs (·.2) + sumOf ps (·.2))

/-- Channel-table versions accepted before the tick govern the step that it opens (R387). -/
def forceChans (s : State) : State :=
  { s with store := { s.store with chans := s.store.chans.map fun (p : Nat × Chan) => (p.1, { p.2 with force := p.2.accepted }) } }

/-- T(s + 1): the count rises, the commit gate closes until the open instant. -/
def tick (s : State) : State :=
  let s1 := overruns (raiseEvt s (pageBase .atrium 0) 0)
  let s2 := setStep s1 fun p => { p with count := p.count + 1, ticks := p.ticks + 1, seam := true, everRun := true, noToken := [] }
  forceChans (lateTps (if s.hall then markAtTick s2 else s2))

/-- INTERNAL_TICK: the internal generator of card mode, while STEP_RUN is 1. -/
def execInternalTick (s : State) : Host.Outcome State Fault Refusal :=
  .next (if s.hall = false ∧ s.step.run = true ∧ s.running = true then tick s else s)

/-- TICK_IN_EDGE, `ns` after the previous tick: early, accepted, or after the window; the first edge of all is accepted. -/
def tickInEdge (s : State) (ns : Nat) : State :=
  let period := periodNs (periodSel s)
  let guard_ := (rd s Reg.atrium.TICK_GUARD).toNat
  if s.hall = false ∨ s.running = false then s
  else if s.step.everRun = false ∨ (period - guard_ ≤ ns ∧ ns ≤ period + guard_) then
    tick (setStep s fun p => { p with flywheel := false, missedRun := 0, lossRaised := false })
  else if ns < period - guard_ then raiseEvt (count s Reg.atrium.TICK_EARLY) (pageBase .atrium 0) 2
  else s

def execTickInEdge (ns : Nat) (s : State) : Host.Outcome State Fault Refusal := .next (tickInEdge s ns)

/-- TICK_LOSS_LIMIT; 0 acts as 1. -/
def lossLimit (s : State) : Nat := max 1 (rdf s Reg.atrium.STEP_CTRL 15 8)

/-- TICK_LOST: the bit, the event where it rises, and the C1 fault, once in a run of flywheel ticks. -/
def tickLost (s : State) : State :=
  let s1 := if rdf s Reg.atrium.STEP_STATUS 3 3 = 0 then raiseEvt s (pageBase .atrium 0) 4 else s
  raiseErr (wrf (setStep s1 fun p => { p with lossRaised := true }) Reg.atrium.STEP_STATUS 3 3 1) .atrium 0 0

/-- FLYWHEEL_TICK: no edge came by the end of the window. -/
def flywheelTick (s : State) : State :=
  if s.hall = false ∨ s.step.everRun = false ∨ s.running = false then s
  else
    let s1 := setStep (raiseEvt (count s Reg.atrium.TICK_MISSED) (pageBase .atrium 0) 1) fun p => { p with flywheel := true, missedRun := p.missedRun + 1 }
    tick (if lossLimit s ≤ s1.step.missedRun ∧ s.step.lossRaised = false then tickLost s1 else s1)

def execFlywheelTick (s : State) : Host.Outcome State Fault Refusal := .next (flywheelTick s)

/-- PERIOD_SEL takes force: PERIOD_ACTIVE and what follows it. -/
def usePeriod (s : State) : State :=
  setStepRates (wrf s Reg.atrium.STEP_STATUS 5 4 (rdf s Reg.atrium.STEP_CTRL 2 1))

/-- STEP_RUN (R41): in card mode 1 starts stepping, with the period of PERIOD_SEL, and 0 stops it unless a flight or part is admitted. -/
def stepRun (s : State) (run : Bool) : State :=
  let busy := !s.sched.flights.isEmpty || s.sched.parts.any fun f => f.part.any (·.admitted)
  if s.hall ∨ (run = false ∧ busy = true) then s
  else if run = false then setStep s fun p => { p with run := false }
  else if s.step.run then s
  else usePeriod (setStep s fun p => { p with run := true, valid := true })

def execStepRun (run : Bool) (s : State) : Host.Outcome State Fault Refusal := .next (stepRun s run)

/-! ## Transplants at a grid step (R229, R500) -/

/-- TRANSPLANT_GRID: then the CLOSE frames that waited for it go out. -/
def execTransplantGrid (carriers : List (Fin 50)) (s : State) : Host.Outcome State Fault Refusal :=
  .next (let t := transplantGrid s carriers
    (pairIds t).foldl flushClose t)

/-! ## The open instant (R42 to R44) -/


/-- Streams, maps, versions and the service state. -/
def openObjects (s : State) : State :=
  let s1 := (pairIds s).foldl flushClose s
  let s2 := openPairs ((pairIds s1).foldl openClose s1)
  heartbeat (openService (setDurable (freeOld (openMaps s2))))

/-- Galleries; then each wing's clock for this step, as the last evaluation and the target now leave it; then the sensors and the ceilings for the next
step (R561, R563, R577). -/
def openPower (s : State) (e : OpenEnv) : State := thermalEvaluate (clockSet (clockSet ((List.range 50).foldl openGallery s) false) true) e

/-- What the step holds (R346, R411), guarantees, meters, tenants, shapers. -/
def openTenants (s : State) : State :=
  let ts := s.store.tenants.map (·.1)
  refillAll (ts.foldl freeTenant (ts.foldl latchTenant (evaluateGuarantees (setStepRates s))))

/-- The flights and admitted parts that run in the background, or that do not. -/
def flightIds (s : State) (bg : Bool) : List Nat :=
  ((s.sched.flights ++ s.sched.parts.filter fun f => f.part.any (·.admitted)).filter (·.background == bg)).map (·.id)

/-- Landings and stage starts of the foreground flights admitted before. -/
def openFlights (s : State) : State := (flightIds s false).foldl openFlight s

/-- Background work takes what the foreground leaves (R71). -/
def openBackgrounds (s : State) : State := (flightIds s true).foldl openFlight s

/-- Participant parts and row requests accepted before the tick, in order of acceptance; what row requests held of an earlier step is released. -/
def openParts (s0 : State) : State :=
  let s := { s0 with sched := { s0.sched with served := s0.sched.served.filter (·.step == s0.ticks) } }
  (s.sched.parts.map (·.id)).foldl (fun t id => match t.sched.parts.find? (·.id == id) with
    | none => t
    | some f =>
      match f.part with
      | some p => if partDue t f then admitPart t f p else t
      | none => if f.start ≤ t.ticks then serveRows t f else t) s

/-- Local admission; not while the node is quiesced (R479), nor in step 0 of card mode (R40). -/
def openAdmission (s0 : State) : State :=
  let s := expireAll s0
  if s.quiesce ∨ (s.hall = false ∧ s.now = 0) then s
  else
    let x := admitLocal s
    (x.ids.filter fun id => (flightOf x.state id).any fun f => !f.background).foldl openFlight x.state

/-- Background stages that have not yielded are counted (R72). -/
def lateYields (s : State) : State :=
  countN s Reg.sched.BG_LATE_YIELD (sumOf (s.sched.flights ++ s.sched.parts) fun f => (f.stages.filter fun r => r.yielding && r.runs).length)

/-- Steps without a route to the fabric manager (R494), and steps in which INSERT batches are held (R357). -/
def openCounts (s : State) : State :=
  let route := s.hall && (eligiblePorts s (fmNode s)).isEmpty
  let s1 := { s with faults := { s.faults with noRoute := if route then s.faults.noRoute + 1 else 0 } }
  if flashRunning s1 ∧ spillHeld s1 = true then count s1 Reg.ft.SPILL_HOLD else s1

def newWindows (s : State) : State :=
  { s with mem := { s.mem with near := s.mem.near.map fun u => { u with windowsRun := 0, burstsLeft := 0 } } }

/-- O(s): nothing of the step has started before (R43). -/
def openInstant (s : State) (e : OpenEnv) : State :=
  let lost := e.tokenMissing.map (·.val)
  let s1 := setStep s fun p => { p with seam := false, noToken := lost }
  if s.c0 then openPower s1 e
  else
    let s2 := openTenants (openPower (openObjects (openLevel (lost.foldl (fun t g => raiseErr t .gallery g 2) s1))) e)
    let s3 := openFlights (commitReady (newWindows (lateYields s2)))
    let s4 := openAdmission (serveOwners (openParts s3))
    let s5 := openBackgrounds (readImages (setStep s4 fun p => { p with bgHold := false }))
    openCounts (openQuiesce s5)

/-- STEP_OPEN: 250 ns after a tick; none occurs while card-mode stepping is stopped (R41). -/
def execStepOpen (env : OpenEnv) (s : State) : Host.Outcome State Fault Refusal :=
  .next (if s.step.seam = true ∧ (s.hall = true ∨ s.step.run = true) then openInstant s env else s)

end Sys2Proof.Machine
end

