-- ==== Sys2Proof/Machine/RegRead.lean ====
section
/-! DEFINITION. Reading registers (R9 to R15, R81, R415, R590, R597 to R603): what a word shows, what a read changes, and the spaces in
which a requester's addresses lie. -/
namespace Sys2Proof.Machine

def word (n : Nat) : Word := BitVec.ofNat 32 n
def flag (b : Bool) (bit : Nat) : Nat := if b then 2 ^ bit else 0

/-- The low or the high word of a 64-bit value shown at `a` and `a + 4`. -/
def half (a o v : Nat) : Word := if o = a then word v else word (v / 2 ^ 32)

/-! ## Words that show a state of the node (by page) -/

def lifeCode (l : Life) : Nat :=
  match l with
  | .empty => 0
  | .loading => 1
  | .serving => 2
  | .draining => 3

/-- STEP_RUN as read (R41). -/
def stepRunBit (s : State) : Bool := if s.hall then s.step.valid else s.step.run

/-- STEP_CTRL, STEP_STATUS, STEP_COUNT, the identity registers and LOSS_PENDING. -/
def atriumWord (s : State) (o : Nat) : Option Word :=
  match o with
  | 0x40 => some (putBit (rd s o) 0 s.hall)
  | 0x48 | 0x4C => some (half 0x48 o Config.serial.toNat)
  | 0x100 => some (putBit (rd s o) 0 (stepRunBit s))
  | 0x104 => some (putBit (putBit (putBit (rd s o) 2 s.step.flywheel) 1 s.hall) 0 s.step.valid)
  | 0x108 | 0x10C => some (half 0x108 o s.now)
  | 0x120 => some (word s.now)
  | 0x1AC => some (word (lossPending s))
  | _ => none

/-- COLL_STATE and TABLE_STATE: the owner and the state of R150. -/
def lifeWord (x : Option (Nat × Life)) : Word :=
  match x with
  | some (t, l) => word (2 ^ 24 * t + lifeCode l)
  | none => 0

/-- The current map of the collection in SHARDMAP_SEL. -/
def selMap (s : State) : Option ShardMap := (Tbl.get s.store.colls (rdf s Reg.sched.SHARDMAP_SEL 11 0)).bind (·.map)

def selTable (s : State) : Option Table := Tbl.get s.store.tables (rdf s Reg.sched.TABLE_SEL 9 0)

def selChan (s : State) : Chan := chan s (rdf s Reg.sched.CHAN_SEL 11 0)

/-- The version of the channel in CHAN_SEL that the next admission binds: in the seam, one accepted in it does not count yet (R387). -/
def selForce (s : State) : ChanEntry := if s.step.seam then (selChan s).force else (selChan s).accepted
def pinnedNow (s : State) (c : Chan) : Bool := if s.step.seam then c.force.pin else c.accepted.pin

/-- The words of the tenant in TENANT_SEL (R411). METER_SEL itself is one register. -/
def tenantWord (s : State) (o : Nat) : Option Word :=
  let t := tenantSel s
  let sel := rdf s Reg.sched.METER_SEL 3 0
  match o with
  | 0x348 => some (word (256 * tenantState s t + rdf s (schedBank t o) 7 0))
  | 0x380 | 0x384 => some (half 0x380 o (if sel ≤ 8 then (tenant s t).latched.getD sel 0 else 0))
  | 0x388 | 0x38C => some (half 0x388 o (tenant s t).latchEpoch)
  | _ => if 0x34C ≤ o ∧ o < 0x378 then some (rd s (schedBank t o)) else none

def schedWord (s : State) (o : Nat) : Option Word :=
  match o with
  | 0xEC => some (lifeWord ((Tbl.get s.store.colls (rdf s Reg.sched.COLL_STATE_SEL 11 0)).map fun c => (c.tenant, c.life)))
  | 0xFC => some (word (trellisSpill s))
  | 0x100 => some (word (seedUsed s))
  | 0x104 => some (word (weedUsed s))
  | 0x128 | 0x12C => some (half 0x128 o (horizon s))
  | 0x13C => some (word (histUsed s))
  | 0x194 => some (word ((selMap s).elim 0 (·.gen)))
  | 0x198 => some (word ((selMap s).elim 0 fun m => 2 ^ 16 * m.self + m.shards.length))
  | 0x214 => some (word (pinFreeKib s))
  | 0x244 => some (lifeWord ((selTable s).map fun t => (t.tenant, t.life)))
  | 0x248 => some (word ((selTable s).elim 0 (·.progress)))
  | 0x24C => some ((selTable s).elim 0 (·.tag))
  | 0x314 => some (selForce s).version
  | 0x318 => some (word (flag (selForce s).enabled 0))
  | 0x328 => some (word (s.store.chans.filter fun p => pinnedNow s p.2).length)
  | _ => tenantWord s o

/-- PAIR_ENTRY as read: the entry in force (R496). -/
def pairEntry (p : Pair) : Nat := 2 ^ 62 * p.role + 2 ^ 47 * p.peer + 2 ^ 32 * p.peerObj + p.obj

/-- PAIR_STATE (R504, R505). -/
def pairState (s : State) (p : Pair) : Nat :=
  if p.diverged then 2
  else if p.role = 2 ∧ p.closed + 2 < s.now then 1
  else if p.streams ∧ p.units.any (fun u => !u.acked && decide (u.since + 2 < s.now)) = true then 1
  else 0

/-- HIST_CTRL as read (R23 to R25). -/
def histCtrl (s : State) : Word :=
  let n := s.faults.hist.length
  word (2 ^ 30 * rdf s Reg.fault.HIST_CTRL 31 30 + flag (n == 32) 29 + flag (n == 0) 28 + n)

def faultWord (s : State) (o : Nat) : Option Word :=
  let p := pairAt s (rdf s Reg.fault.PAIR_SEL 7 0)
  let h := s.faults.hist.headD ⟨0, 0⟩
  match o with
  | 0x18 => some (word (flag s.c0 7 + flag (quiesced s) 6 + s.faults.nodeState))
  | 0x80 | 0x84 => some (half 0x80 o h.entry.toNat)
  | 0x88 | 0x8C => some (half 0x88 o h.ts.toNat)
  | 0x90 => some (histCtrl s)
  | 0xF8 => some (word (min 256 (peerSet s).length))
  | 0x108 | 0x10C => some (half 0x108 o (pairEntry p))
  | 0x114 => some (word (2 ^ 24 * pairState s p + rdf s Reg.fault.PAIR_STATUS 7 0))
  | 0x118 | 0x11C => some (half 0x118 o p.closed)
  | _ => none

/-- The words of core `c` from 0x50 + 16 × c, and the mailbox status words. -/
def intcWord (s : State) (o : Nat) : Option Word :=
  if o = 0x48 then some (srcCfg ((getSrc s (rdf s Reg.intc.SRC_SEL 11 0)).levelNow s (rdf s Reg.intc.SRC_SEL 11 0)))
  else if 0x50 ≤ o ∧ o < 0x90 then
    let c := (o - 0x50) / 16
    match o % 16 with
    | 0 => some (coreSource s c)
    | 8 => some (coreState s c)
    | 12 => some (word (flag (getCore s c).enabled 0))
    | _ => some 0
  else if 0x140 ≤ o ∧ o < 0x150 then some (mboxStatus s ((o - 0x140) / 4))
  else none

/-- STATUS, TEMP_C and SEQ_LOG. A THROTTLE bit reads 1 while its wing's ceiling is below FREQ_TARGET_MHZ (R563). -/
def powerWord (s : State) (o : Nat) : Option Word :=
  match o with
  | 0x18 => some (putBit (putBit (rd s (pageBase .power 0 + 0x18)) 0 (ceiling s false < freqTarget s)) 1 (ceiling s true < freqTarget s))
  | 0x60 => some (word (s.chip.power.temps.getD (rdf s Reg.power.TEMP_SEL 5 0) 0 % 256))
  | 0x6C => some (seqLog s)
  | _ => none

/-- Blocks of the block table in a state. -/
def blocksIn (s : State) (st : BlkState) : Nat := (s.mem.flash.blocks.filter fun p => p.2.st == st).length

/-- ERASED blocks: of those that the inventory found, all but the ones that have a state of their own. -/
def blocksErased (s : State) : Nat :=
  sumOf s.mem.flash.inventory (fun x => x.2.1.length * x.2.2) - (s.mem.flash.blocks.filter fun p => p.2.st ≠ .erased).length

def ftWord (s : State) (o : Nat) : Option Word :=
  match o with
  | 0x4C => some (word (spillFree s))
  | 0x54 => some (word (blocksErased s))
  | 0x58 => some (word (blocksIn s .suspect))
  | 0x5C => some (word (blocksIn s .retired))
  | 0x70 => some (rebuildStatus s)
  | 0x80 => some (word (s.mem.flash.lost.filter fun l => !l.both && !l.kept).length)
  | 0x84 => some (word (s.mem.flash.lost.filter fun l => l.both && !l.kept).length)
  | 0x414 => some (word (dirtyMib s))
  | 0x43C => some (word (reserveFree s / 0x100000))
  | _ => if 0x41C ≤ o ∧ o < 0x42C then some (rd s (ftBank (rdf s Reg.ft.TENANT_SEL 7 0) o)) else none

/-- ROUTE_ENTRY as read: the selected entry in force (R459). -/
def routeEntry (s : State) (p : Nat) : Nat :=
  let i := rdf s (Reg.port.ROUTE_SEL p) 15 0
  if i < 32784 then
    let r := (Tbl.get (port s p).routes i).getD ⟨false, 0, 0⟩
    flag r.valid 63 + 2 ^ 56 * r.gen + r.mac.toNat
  else 0

/-- GEN of the selected classification entry (R462). -/
def classGen (s : State) (p : Nat) : Nat := ((Tbl.get (port s p).classes (rdf s (Reg.port.CLASS_SEL p) 7 0)).map (·.gen)).getD 0

def portWord (s : State) (p o : Nat) : Option Word :=
  let t := port s p
  match o with
  | 0x18 => some (word (2 ^ 12 * t.ver + 2 ^ 4 * t.lanes + t.st))
  | 0x50 | 0x54 => some (half 0x50 o (routeEntry s p))
  | 0x70 => some (withFld (rd s (Reg.port.CLASS_ATTR p)) 27 24 (classGen s p))
  | 0x7C => some (word (flag t.waitWrite.isSome 31))
  | 0x80 => some (word (inflightOld t))
  | _ => none

/-- A near-bank unit runs a pass while windows of this step are booked on it and passes wait. -/
def nbWord (s : State) (n o : Nat) : Option Word :=
  match o with
  | 0x18 => some (word (flag (nearReady s n) 0 + flag (nearReady s n && (nearUnit s n).burstsLeft != 0 && !(nearUnit s n).queue.isEmpty) 1))
  | 0x44 => some (word (winBooked s))
  | _ => none

/-- The kernel of a running stage: that of its single model layer, or the one its kind names (R128, R165, R170, R173, R182); for other stages
the manual names none (log entry 24). -/
def stageKernel (s : State) (f : Flight) (d : StageDef) : Nat :=
  match d.kind with
  | 0x02 => 0
  | 0x03 | 0x04 | 0x05 | 0x06 => 1
  | 0x08 | 0x09 => 2
  | 0x0A | 0x0F =>
    match (Tbl.get s.store.models (stModel f.plan d)).bind fun m => m.layers[stFirst f.plan d]? with
    | some l => if stFirst f.plan d = stLast f.plan d ∧ l.usesKernel = true then l.kernel else (Config.openKernel d.kind).toNat
    | none => (Config.openKernel d.kind).toNat
  | k => (Config.openKernel k).toNat

/-- A tile's STATUS, profile and kernel; DOZE reads 0 while a stage runs (R540). -/
def tileWord (s : State) (t o : Nat) : Option Word :=
  let l := tileStages s t
  let doze := l.isEmpty && (gallery s (t / 16)).dozing.getLsbD (t % 16)
  match o with
  | 0x18 => some (word (flag doze 2 + flag (l.any fun x => x.1.background) 1 + flag (!l.isEmpty) 0))
  | 0x40 => some (word (l.head?.elim 0 fun x => x.1.plan.profile))
  | 0x44 => some (word (l.head?.elim 0 fun x => stageKernel s x.1 x.2))
  | _ => none

/-- A queue pair's state word (R436). -/
def cqWord (s : State) (c : Nat) : Word :=
  let x := chan s c
  word (flag x.phase 31 + flag (!x.waiting.isEmpty) 30 + 2 ^ 16 * x.cqTail + flag x.arm 15 + x.sqHead)

def tstatusWord (s : State) (i o : Nat) : Option Word :=
  match o with
  | 0x40 => some (word s.now)
  | 0x48 | 0x4C => some (rd s (Reg.sched.DURABLE_EPOCH + (o - 0x48)))
  | _ => if 0x140 ≤ o ∧ o < 0x180 ∧ o % 4 = 0 then some (cqWord s (16 * i + (o - 0x140) / 4)) else none

/-- A publication of some collection is held under R233. -/
def tpHeld (s : State) : Bool := s.store.colls.any fun p => p.2.tps.any (·.late)

/-- EVT_RAW of the pages with conditions that last (R17): TICK_LOST; SEED_HIGH and TP_LATE; STALE and QUIESCED; SPILL_LOW as the register file has
it. The conditions of the other event bits are moments, and read 0. -/
def rawWord (s : State) (k : PageKind) : Option Word :=
  match k with
  | .atrium => some (word (flag (testBit (rd s Reg.atrium.STEP_STATUS) 3) 4))
  | .sched => some (word (flag (decide (48000000 ≤ seedUsed s)) 8 + flag (tpHeld s) 11))
  | .fault => some (word (flag (s.faults.nodeState == 4) 3 + flag (quiesced s) 4))
  | _ => none

/-- The word that a page shows where it is not the register file's own. -/
def pageWord (s : State) (k : PageKind) (n o : Nat) : Option Word :=
  if o = 0x20 then rawWord s k else
  match k with
  | .atrium => atriumWord s o
  | .sched => schedWord s o
  | .fault => faultWord s o
  | .intc => intcWord s o
  | .power => powerWord s o
  | .ft => ftWord s o
  | .port => portWord s n o
  | .nb => nbWord s n o
  | .trace => if o = 0x48 then some (fifoStatus s n) else none
  | .gallery => if o = 0x144 then some (fallowStatus s n) else none
  | .tile => tileWord s n o
  | .tstatus => tstatusWord s n o
  | .test | .pcie | .hbm | .flashCh | .doorbell => none

/-! ## The common layout (R15, R599, R603) -/

/-- INSTANCE of a page (R3, R414). -/
def pageInstance (k : PageKind) (n : Nat) : Nat :=
  match k with
  | .doorbell => 0x100 + n
  | .tstatus => 0x200 + n
  | _ => n

def pageId (k : PageKind) (n : Nat) : Word := word (2 ^ 16 * blockType k + pageInstance k n)

/-- MAJOR 1, MINOR 0, and the build (log entry 4). -/
def pageVer (k : PageKind) : Word := word (2 ^ 24 + (Config.pageBuild (blockType k)).toNat)

def isVfPage (k : PageKind) : Bool := k == .doorbell || k == .tstatus

/-- PAGE_CAP (log entry 4); a VF page has none. -/
def pageCap (k : PageKind) (o : Nat) : Word := if isVfPage k then 0 else half 8 o (Config.pageCap (blockType k)).toNat

/-- A tile page of a gallery in RETAIN or OFF (R602). -/
def tileAsleep (s : State) (k : PageKind) (n : Nat) : Bool :=
  k == .tile && ((gallery s (n / 16)).fstate == 2 || (gallery s (n / 16)).fstate == 3)

/-- With STAGE FAILED only the atrium global page and the power page are readable (R568). -/
def unreadable (s : State) (k : PageKind) : Bool := bootStage s == 0x0F && k != .atrium && k != .power

/-- The word at a register address as a read shows it: 0 where no page or no table holds it (R15, R598). -/
def readWord (s : State) (a : Nat) : Word :=
  match pageAt a with
  | none => 0
  | some (k, n, o) =>
    if unreadable s k then 0
    else if o = 0 then pageId k n
    else if o = 4 then pageVer k
    else if tileAsleep s k n then 0
    else if o = 8 ∨ o = 0xC then pageCap k o
    else match pageWord s k n o with
      | some w => w
      | none => if (regDefAt a).isSome then rd s a else 0

/-! ## What a read changes (R11 to R13) -/

def wideAt (a : Nat) : Wide :=
  match regDefAt a with
  | some r => r.wide
  | none => .one

def clearsOnRead (a : Nat) : Bool :=
  match regDefAt a with
  | some r => r.rc
  | none => false

/-- The mailbox whose pop register's low word lies at an address: whether it is an inbound one, and its number (R552). -/
def popAt (a : Nat) : Option (Bool × Nat) :=
  if 0x30E0 ≤ a ∧ a < 0x3100 ∧ a % 8 = 0 then some (true, (a - 0x30E0) / 8)
  else if 0x3120 ≤ a ∧ a < 0x3140 ∧ a % 8 = 0 then some (false, (a - 0x3120) / 8)
  else none

/-- A pop by a read: the value, and the state after it; `push` when a push falls in its cycle (R23). -/
def popRead (s : State) (inb : Bool) (n : Nat) (push : Bool) : Nat × State :=
  let t := if inb then mboxInPop s n push else mboxOutPop s n push
  (t.links.answer.elim 0 (·.toNat), { t with links := { t.links with answer := s.links.answer, abort := s.links.abort } })

/-- Where the counter of a register of the TENANT_SEL window is held (R411). -/
def heldAt (s : State) (a : Nat) : Nat :=
  if a = Reg.sched.C0_OVERFLOW ∨ a = Reg.sched.THROTTLED_COUNT then schedBank (tenantSel s) (a - pageBase .sched 0) else a

/-- An RC counter is cleared; increments of the same cycle stay in it (R12). A 64-bit one clears on the read of its low word (R13). -/
def clearRead (s : State) (a same : Nat) : State :=
  match wideAt a with
  | .one => wr s (heldAt s a) (word same)
  | .low => wr64 s a same
  | .high => s

/-- The read of one 4-byte register: its value and the state after it. The read of a low word latches the high word, and the next read of
the high word returns what was latched (R13). -/
def readReg (s : State) (a same : Nat) : Word × State :=
  if (pageAt a).any (fun x => unreadable s x.1 || tileAsleep s x.1 x.2.1) = true then (readWord s a, s)
  else match popAt a with
  | some (inb, n) =>
    let (v, t) := popRead s inb n (same != 0)
    (word v, { t with latched := Tbl.set t.latched (a + 4) (word (v / 2 ^ 32)) })
  | none =>
    match wideAt a with
    | .one => (readWord s a, if clearsOnRead a then clearRead s a same else s)
    | .low =>
      let s1 := { s with latched := Tbl.set s.latched (a + 4) (readWord s (a + 4)) }
      (readWord s a, if clearsOnRead a then clearRead s1 a same else s1)
    | .high =>
      match Tbl.get s.latched a with
      | some w => (w, { s with latched := Tbl.del s.latched a })
      | none => (readWord s a, s)

/-! ## The spaces of the requesters (R414, R600) -/

/-- What a requester's address names: a register, a word of an MSI-X table, a word of a pending-bit array, or nothing. -/
inductive Loc where
  | reg (a : Nat)
  | msix (fn : PciFn) (off : Nat)
  | pba (fn : PciFn) (off : Nat)
  | gap
  deriving DecidableEq, Repr

/-- Vectors of a function (R412). -/
def vectorsOf (fn : PciFn) : Nat :=
  match fn with
  | .pf => 64
  | .vf _ => 16

/-- An offset in the part of a BAR that holds a function's MSI-X structures, the table at `t` and the pending bits at `p`. -/
def msixLoc (fn : PciFn) (t p a : Nat) : Loc :=
  if t ≤ a ∧ a < t + 16 * vectorsOf fn then .msix fn (a - t)
  else if p ≤ a ∧ a < p + 8 then .pba fn (a - p)
  else .gap

def locate (req : Requester) (bar : Bar) (a : Nat) : Loc :=
  match req, bar with
  | .vf i, .bar0 => if a < 0x2000 then .reg (vfBase i.val + a) else msixLoc (.vf i) 0x2000 0x3000 a
  | .vf _, .bar2 => .gap
  | .mgmt, .bar2 => msixLoc .pf 0 0x2000 a
  | _, .bar0 => if a < 2 ^ 28 then .reg a else .gap
  | _, .bar2 => .gap

/-- A word of an MSI-X table: address, data, then vector control with the mask bit (PRESUMED, log entry 23). -/
def msixWord (s : State) (fn : PciFn) (off : Nat) : Word :=
  let x := pciState s fn
  if off / 4 % 4 = 3 then word (flag (!x.unmasked.getLsbD (off / 16)) 0) else (Tbl.get x.table (off / 4)).getD 0

/-- The read of one 4-byte word of a space. -/
def readLoc (s : State) (l : Loc) (same : Nat) : Word × State :=
  match l with
  | .reg a => readReg s a same
  | .msix fn off => (msixWord s fn off, s)
  | .pba fn off => (half 0 off (pciState s fn).pba.toNat, s)
  | .gap => (0, s)

/-- Requests that come over PCIe (R412, R415). -/
def pcieFn (r : Requester) : Option PciFn :=
  match r with
  | .mgmt => some .pf
  | .vf i => some (.vf i)
  | _ => none

/-- A request reaches the node: not in reset, and not through a function in D3hot, whose memory space is off (R413). -/
def reaches (s : State) (req : Requester) : Bool :=
  s.running && !((pcieFn req).any fun fn => (pciState s fn).d3)

/-- A counter of the PCIe page, for requests over PCIe (R415). -/
def countMmio (s : State) (req : Requester) (a : Nat) : State := if (pcieFn req).isSome then count s a else s

/-- A request that R415 refuses: longer than 8 bytes, or across an 8-byte boundary. -/
def badSpan (a len : Nat) : Bool := 8 < a % 8 + len

/-- The words that a request touches, lower address first. -/
def spanWords (a len : Nat) : List Nat :=
  if len = 0 then []
  else if a / 4 = (a + len - 1) / 4 then [a / 4 * 4] else [a / 4 * 4, a / 4 * 4 + 4]

/-- The words of a request, read one after the other: their bytes. An 8-byte read of a 64-bit register is atomic, since its low word latches
the high one. -/
def readWords (s : State) (req : Requester) (bar : Bar) (same : Nat) (l : List Nat) : List Byte × State :=
  match l with
  | [] => ([], s)
  | w :: r =>
    let (v, s1) := readLoc s (locate req bar w) same
    let (bs, s2) := readWords s1 req bar same r
    (toLe 4 v.toNat ++ bs, s2)

def setAnswer (s : State) (v : Option Quad) (ca : Bool) : State := { s with links := { s.links with answer := v, abort := ca } }

/-- Table writes of the ports that wait for a generation (R462). -/
def tableWaits (s : State) : Bool := s.links.ports.any (·.waitWrite.isSome)

/-- A read of READBACK by a requester other than a VF waits for the side effects not yet taken: a channel-table entry being checked (R386), a port
table write that waits (R462). The state does not tell whose writes they are, and every such read waits (log entry 119). -/
def readbackWaits (s : State) (req : Requester) (a len : Nat) : Bool :=
  (match req with
    | .vf _ => false
    | _ => true) && (spanWords a len).contains Reg.atrium.STEP_LOW && (s.sched.inval.isSome || tableWaits s)

/-- A read of `len` bytes (R14, R415): it completes with Completer Abort, waits (R81), or returns the addressed bytes. -/
def readSpan (s : State) (req : Requester) (bar : Bar) (a len same : Nat) : State :=
  if reaches s req = false then setAnswer s none false
  else if badSpan a len then setAnswer (countMmio s req Reg.pcie.MMIO_BAD) none true
  else
    let s1 := if len < 4 then countMmio s req Reg.pcie.MMIO_SHORT_RD else s
    if bar = .bar0 ∧ readbackWaits s1 req a len = true then
      { setAnswer s1 none false with links := { (setAnswer s1 none false).links with readbacks := s1.links.readbacks ++ [req] } }
    else
      let (bs, s2) := readWords s1 req bar same (spanWords a len)
      setAnswer s2 (some (BitVec.ofNat 64 (leNat (sub bs (a % 4) len)))) false

/-- RC_READ: a read of a register; `sameCycle` increments of an RC counter, or pushes of a mailbox that it pops, meet the read in its cycle. -/
def execRcRead (req : Requester) (bar : Bar) (addr len sameCycle : Nat) (s : State) : Host.Outcome State Fault Refusal :=
  .next (readSpan s req bar addr len sameCycle)

/-- MMIO_BAD_REQUEST: a request that R415 refuses; any other is not this command's. -/
def mmioBad (s : State) (req : Requester) (isWrite : Bool) (a len : Nat) : State :=
  if reaches s req = false ∨ badSpan a len = false then s
  else
    let t := countMmio s req Reg.pcie.MMIO_BAD
    if isWrite then t else setAnswer t none true

def execMmioBadRequest (req : Requester) (isWrite : Bool) (addr len : Nat) (s : State) : Host.Outcome State Fault Refusal :=
  .next (mmioBad s req isWrite addr len)

/-- The address of a requester's READBACK (R81, R603). -/
def readbackAddr (req : Requester) : Nat :=
  match req with
  | .vf _ => 0x1040
  | _ => Reg.atrium.STEP_LOW

/-- READBACK: the read returns STEP_COUNT [31:0] once every earlier write of the requester has taken effect. -/
def execReadback (req : Requester) (s : State) : Host.Outcome State Fault Refusal :=
  .next (readSpan s req .bar0 (readbackAddr req) 4 0)

end Sys2Proof.Machine
end

