-- ==== Sys2Proof/Machine/RegWrite.lean ====
section
/-! DEFINITION. Writing registers (R10 to R14, R415, R600): what each page's words do, the fabric manager's requests (R452, R453) and the
REG_ACCESS data register (R590). -/
namespace Sys2Proof.Machine

/-! ## Helpers -/

/-- The bits of a value that the word at an address takes. -/
def rwBits (a : Nat) (v : Word) : Nat :=
  match regDefAt a with
  | some r => (v &&& BitVec.ofNat 32 r.rw).toNat
  | none => 0

/-- A write that is clamped to lo … hi. -/
def clampWrite (s : State) (a : Nat) (v : Word) (lo hi : Nat) : State := softWrite s a (word (clampTo (rwBits a v) lo hi))

/-- The actions of a command word whose bits are set, in order from bit [0] (DESIGN CHOICE where the manual does not say; log entry 25). -/
def eachBit (s : State) (v : Word) (acts : List (State → State)) : State :=
  acts.zipIdx.foldl (fun t x => if testBit v x.2 then x.1 t else t) s

/-- The action of the single bit that is set; a write of several bits is ignored whole (R54, R155, R384, R492). -/
def oneBit (s : State) (v : Word) (acts : List (State → State)) : State :=
  if ((List.range acts.length).filter (testBit v)).length = 1 then eachBit s v acts else s

/-- A command word of one bit. -/
def onBit (s : State) (v : Word) (act : State → State) : State := eachBit s v [act]

/-! ## The words of each page -/

/-- STEP_CTRL: PERIOD_SEL is ignored while STEP_RUN reads 1 (R41); in hall mode it takes force at once. -/
def writeStepCtrl (s : State) (v : Word) : State :=
  let s1 := wrf s Reg.atrium.STEP_CTRL 15 8 (fld v 15 8)
  let s2 := if stepRunBit s then s1
    else
      let t := wrf s1 Reg.atrium.STEP_CTRL 2 1 (fld v 2 1)
      if s.hall then usePeriod t else t
  stepRun s2 (testBit v 0)

def writeAtrium (s : State) (req : Requester) (o : Nat) (v : Word) : State :=
  match o with
  | 0x100 => writeStepCtrl s v
  | 0x110 => clampWrite s o v 100 2000
  | 0x180 => writeNodeId s (BitVec.ofNat 15 (fld v 14 0))
  | 0x1C8 => writeStage s req (fld v 31 24)
  | _ => softWrite s o v

/-- The fields of the tenant in TENANT_SEL, and the scheduler's commands (R411). -/
def writeTenant (s : State) (o : Nat) (v : Word) : State :=
  let t := tenantSel s
  match o with
  | 0x344 => oneBit s v [(tenantAdmit · t), (tenantRelease · t)]
  | 0x34C => guaranteeRankWrite s t (fld v 7 0)
  | 0x350 => c0ReservationWrite s t .seats v
  | 0x354 => c0ReservationWrite s t .tileShare v
  | 0x358 => c0ReservationWrite s t .hbmShare v
  | 0x35C => c0ReservationWrite s t .flashSlots v
  | 0x360 => c0ReservationWrite s t .nbWindows v
  | 0x364 => c0ReservationWrite s t .fabricSlots v
  | 0x37C => onBit s v (updTenant · t fun x => { x with latchPending := true })
  | 0x3A0 => c0ReservationWrite s t .seatsPerStep v
  | _ => softWrite s (0x1000 + o) v

def writeSched (s : State) (o : Nat) (v : Word) : State :=
  match o with
  | 0x5C => oneBit s v [planLoad, planRetire]
  | 0x88 => onBit s v profileLoad
  | 0xD0 => oneBit s v [collLoadStart, collLoadContinue, fun t => failLoad t 9 (rd64 t Reg.sched.COLL_LOAD_OFFSET), collDrop]
  | 0x114 => clampWrite s (0x1000 + o) v 16 4096
  | 0x118 => clampWrite s (0x1000 + o) v 1 4096
  | 0x188 => eachBit s v [fun t => shardmapLoad t (mapImage t (rd64 t Reg.sched.SHARDMAP_ADDR / 64 * 64)), shardmapRetire]
  | 0x20C => eachBit s v [modelLoad, modelRetire]
  | 0x230 => oneBit s v [tableLoadStart, tableLoadContinue, fun t => failTable t 9 (rd64 t Reg.sched.TABLE_LOAD_OFFSET), tableDrop]
  | 0x308 => chanInval s (fld v 11 0)
  | _ => writeTenant s o v

def writeFault (s : State) (o : Nat) (v : Word) : State :=
  match o with
  | 0x94 => onBit s v (histPop · false)
  | 0xA0 => oneBit s v [graftStart, graftAbort, fence, serve]
  | 0xB8 => clampWrite s (0x2000 + o) v 1 400
  | 0xF0 => setFaults s fun f => { f with gone := f.gone.filter (·.1 ≠ fld v 14 0) }
  | 0x110 => onBit s v pairWrite
  | _ => softWrite s (0x2000 + o) v

def writeIntc (s : State) (o : Nat) (v : Word) : State :=
  if o = 0x48 then writeSrcCfg s v
  else if o = 0x4C then swTrigger s (fld v 11 0)
  else if 0x50 ≤ o ∧ o < 0x90 then
    let c := (o - 0x50) / 16
    match o % 16 with
    | 4 => completeSource s c (fld v 11 0)
    | 12 => setCoreEn s c (testBit v 0)
    | _ => s
  else softWrite s (0x3000 + o) v

/-- FREQ_TARGET_MHZ takes 600 to 1,400 in multiples of 50 (R561). -/
def writePower (s : State) (o : Nat) (v : Word) : State :=
  let a := 0x4000 + o
  match o with
  | 0x40 =>
    let f := rwBits a v
    if 600 ≤ f ∧ f ≤ 1400 ∧ f % 50 = 0 then softWrite s a v else s
  | 0x4C => clampWrite s a v 10 100
  | 0x54 => clampWrite s a v 80 104
  | _ => softWrite s a v

/-- STOP ends a running test (R583). -/
def patStop (s : State) : State := if patRunning s then patEnd s else s

def snap (s : State) : State := updTest (wr s Reg.test.EYE_CTRL 0) fun t => { t with eyeRun := true }

def writeTest (s : State) (o : Nat) (v : Word) : State :=
  match o with
  | 0x44 => eachBit (softWrite s (0x5000 + o) v) v [patStart, patStop]
  | 0x84 => onBit s v snap
  | 0xA4 => onBit s v mbistStart
  | _ => softWrite s (0x5000 + o) v

def writeFt (s : State) (o : Nat) (v : Word) : State :=
  match o with
  | 0x48 => clampWrite s (0x7000 + o) v 32 1024
  | 0x408 => capacityReservationWrite s .cacheFloor v
  | 0x41C => capacityReservationWrite s .hbmResv v
  | 0x424 => capacityReservationWrite s .flashResv v
  | _ => softWrite s (0x7000 + o) v

def writePort (s : State) (p a o : Nat) (v : Word) : State :=
  match o with
  | 0x78 => eachBit s v [(routeWrite · p), (classWrite · p)]
  | 0xBC => writeLaneEn s p (BitVec.ofNat 4 (fld v 3 0))
  | _ => softWrite s a v

/-- TRACE_BUF_BYTES keeps whole 4 KiB (log entry 25); SYNC_STEPS is clamped (R553). -/
def writeTrace (s : State) (a o : Nat) (v : Word) : State :=
  match o with
  | 0x88 => clampWrite s a (v &&& 0xFFFFF000) 65536 (2 ^ 30)
  | 0xA0 => clampWrite s a v 1 4096
  | _ => softWrite s a v

/-- GAL_FLUSH_CTRL: OP and BCAST are kept; GO starts the flush they name, unless OP is 3 (R321). -/
def writeGallery (s : State) (g a o : Nat) (v : Word) : State :=
  match o with
  | 0x10C =>
    let s1 := softWrite s a v
    if testBit v 0 = true ∧ fld v 2 1 ≠ 3 then startFlush s1 g (fld v 2 1) (testBit v 3) else s1
  | 0x140 => writeFallowReq s g (fld v 1 0)
  | _ => softWrite s a v

/-- The doorbells of VF i (R435). -/
def writeDoorbell (s : State) (i o : Nat) (v : Word) : State :=
  if 0x40 ≤ o ∧ o < 0xC0 then
    let c := 16 * i + (o - 0x40) / 8
    if o % 8 = 0 then sqTail s c v else cqHead s c v
  else s

/-- DESC_VER_ENABLE: bits of versions that are not supported read 0 and ignore writes (R429). -/
def writeTstatus (s : State) (i a o : Nat) (v : Word) : State :=
  if o = 0x104 then softWrite s a (v &&& rd s (Reg.tstatus.OFFER_VER i)) else softWrite s a v

/-- A write of one 32-bit register. -/
def writeOne (s : State) (req : Requester) (a : Nat) (v : Word) : State :=
  match pageAt a with
  | none => s
  | some (k, n, o) =>
    match k with
    | .atrium => writeAtrium s req o v
    | .sched => writeSched s o v
    | .fault => writeFault s o v
    | .intc => writeIntc s o v
    | .power => writePower s o v
    | .test => writeTest s o v
    | .ft => writeFt s o v
    | .port => writePort s n a o v
    | .flashCh => if o = 0x4C then clampWrite s a v 16 512 else softWrite s a v
    | .trace => if (regDefAt a).isSome then writeTrace s a o v else s
    | .gallery => writeGallery s n a o v
    | .tile => if tileAsleep s .tile n then s else softWrite s a v
    | .doorbell => writeDoorbell s n o v
    | .tstatus => writeTstatus s n a o v
    | .pcie | .hbm | .nb => softWrite s a v

/-! ## 64-bit registers (R13) -/

/-- The registers written as a whole: mailbox pushes and SW packets (R552, R553), HALL_LEVEL_STEP (R456), FAULT_STATUS (R480); the others take
their RW bits. Afterwards no low word is staged. -/
def writeWide (s : State) (a v : Nat) : State :=
  let s1 := { s with staged := Tbl.del s.staged a }
  if a = Reg.fault.FAULT_STATUS then faultClear s1 (BitVec.ofNat 64 v)
  else if 0x30C0 ≤ a ∧ a < 0x30E0 then mboxIn s1 ((a - 0x30C0) / 8) (BitVec.ofNat 64 v)
  else if 0x3100 ≤ a ∧ a < 0x3120 then mboxOut s1 ((a - 0x3100) / 8) (BitVec.ofNat 64 v)
  else if a = Reg.atrium.HALL_LEVEL_STEP then hallLevelStep { s with staged := Tbl.set s.staged a (word v) } (word (v / 2 ^ 32))
  else match pageAt a with
    | some (.trace, u, 0x40) => emit s1 u 0x03 (toLe 8 v)
    | _ => softWrite64 s1 a v

/-- The low word of the register at `a` in force: its RW bits as a read shows them (of a table's window, those of the selected entry), 0 for a
register that is only written. -/
def lowInForce (s : State) (a : Nat) : Nat :=
  rwBits a (match pageAt a with
    | some (k, n, o) => (pageWord s k n o).getD (rd s a)
    | none => rd s a)

/-- FAULT_STATUS has no staged word: its bits clear as they are written (DEDUCED, log entry 26). -/
def writeLow (s : State) (a : Nat) (v : Word) : State :=
  if a = Reg.fault.FAULT_STATUS then faultClear s (v.setWidth 64) else { s with staged := Tbl.set s.staged a v }

def writeHigh (s : State) (a : Nat) (v : Word) : State :=
  if a = Reg.fault.FAULT_STATUS then faultClear s (v.setWidth 64 <<< 32)
  else writeWide s a (((Tbl.get s.staged a).elim (lowInForce s a) (·.toNat)) + 2 ^ 32 * v.toNat)

/-- A 64-bit register that takes writes: any bit RW or W1C, or one of the write-only registers. -/
def takesWide (a : Nat) : Bool :=
  (match regDefAt a with
    | some r => r.rw != 0 || r.w1c != 0
    | none => false) ||
  (0x30C0 ≤ a && a < 0x30E0) || (0x3100 ≤ a && a < 0x3120) ||
  (match pageAt a with
    | some (.trace, _, 0x40) => true
    | _ => false)

/-- A 4-byte write at a register address. -/
def writeReg (s : State) (req : Requester) (a : Nat) (v : Word) : State :=
  match wideAt a with
  | .one => writeOne s req a v
  | .low => if takesWide a then writeLow s a v else s
  | .high => if takesWide (a - 4) then writeHigh s (a - 4) v else s

/-! ## Requests (R14, R415) -/

/-- A word of an MSI-X table; a change of the mask bit may send what is pending (R426). -/
def writeMsix (s : State) (fn : PciFn) (off : Nat) (v : Word) : State :=
  if off / 4 % 4 = 3 then setVectorMask s fn (off / 16) (testBit v 0)
  else
    let x := pciState s fn
    setPciState s fn { x with table := if v = 0 then Tbl.del x.table (off / 4) else Tbl.set x.table (off / 4) v }

def writeLoc (s : State) (req : Requester) (l : Loc) (v : Word) : State :=
  match l with
  | .reg a => writeReg s req a v
  | .msix fn off => writeMsix s fn off v
  | .pba _ _ | .gap => s

/-- An aligned 8-byte write: one 64-bit register at once, or two 4-byte registers, the lower address first. -/
def writeEight (s : State) (req : Requester) (bar : Bar) (a v : Nat) : State :=
  let two := writeLoc (writeLoc s req (locate req bar a) (word v)) req (locate req bar (a + 4)) (word (v / 2 ^ 32))
  match locate req bar a with
  | .reg r => if wideAt r = .low then (if takesWide r then writeWide s r v else s) else two
  | _ => two

/-- A write of some bytes: it takes effect only on whole registers; a discarded one is counted (R14, R415). -/
def writeSpan (s : State) (req : Requester) (bar : Bar) (a : Nat) (data : List Byte) : State :=
  if reaches s req = false then s
  else if badSpan a data.length then countMmio s req Reg.pcie.MMIO_BAD
  else if data.length = 4 ∧ a % 4 = 0 then writeLoc s req (locate req bar a) (word (leNat data))
  else if data.length = 8 then writeEight s req bar a (leNat data)
  else countMmio s req Reg.pcie.MMIO_SHORT_WR

/-- A write that loads a shard map from outside the HBM address space. -/
def mapFault (s : State) (req : Requester) (bar : Bar) (a : Nat) (data : List Byte) : Bool :=
  let m := rd64 s Reg.sched.SHARDMAP_ADDR / 64 * 64
  reaches s req && locate req bar a == .reg Reg.sched.SHARDMAP_CMD && (data.length == 4 || data.length == 8) && (leNat data).testBit 0 &&
  !(inHbm m 64 && inHbm m (mapImage s m).length)

/-- The written bits of the word at a place that have no effect in a cycle: a W1C bit that hardware sets in the same cycle stays 1 (R12), and a
pop of the empty history queue that meets a push does nothing (R23). -/
def metBits (s : State) (l : Loc) (sets : Word) : Word :=
  match l with
  | .reg a =>
    if a = Reg.fault.HIST_POP then (if s.faults.hist.isEmpty && sets != 0 then 0xFFFFFFFF else 0)
    else match regDefAt a with
      | some r => sets &&& BitVec.ofNat 32 r.w1c
      | none => 0
  | .msix _ _ | .pba _ _ | .gap => 0

/-- The bytes of a write without the bits that its cycle takes from it; `sets` counts from the first word of a 64-bit quantity. -/
def metBytes (s : State) (req : Requester) (bar : Bar) (a : Nat) (d : WData) : List Byte :=
  if d.sets = 0 then d.bytes
  else if d.bytes.length = 4 then
    toLe 4 (word (leNat d.bytes) &&& ~~~(metBits s (locate req bar a) (d.sets.setWidth 32))).toNat
  else if d.bytes.length = 8 then
    toLe 4 (word (leAt d.bytes 0 4) &&& ~~~(metBits s (locate req bar a) (d.sets.setWidth 32))).toNat ++
      toLe 4 (word (leAt d.bytes 4 4) &&& ~~~(metBits s (locate req bar (a + 4)) ((d.sets >>> 32).setWidth 32))).toNat
  else d.bytes

/-- REGISTER_WRITE. -/
def execRegisterWrite (req : Requester) (bar : Bar) (addr : Nat) (data : WData) (s : State) : Host.Outcome State Fault Refusal :=
  if mapFault s req bar addr data.bytes then .fault (.hbmAddress (rd64 s Reg.sched.SHARDMAP_ADDR / 64 * 64))
  else .next (writeSpan s req bar addr (metBytes s req bar addr data))

/-! ## The fabric manager's requests (R452, R453, R472) -/

/-- Entry `i` of an FM_REQ: address, width, value. -/
structure FmEntry where
  addr : Nat
  width : Nat
  value : Nat
  deriving DecidableEq, Repr, Inhabited

def fmEntry (b : List Byte) (i : Nat) : FmEntry := ⟨leAt b (8 + 16 * i) 4, leAt b (12 + 16 * i) 1, leAt b (16 + 16 * i) 8⟩

/-- The entries of a request; COUNT beyond 32 counts as 32 (log entry 27). -/
def fmEntries (b : List Byte) : List FmEntry := (List.range (min 32 (leAt b 5 1))).map (fmEntry b)

/-- The address of an entry can be accessed at its width. -/
def fmAddrOk (e : FmEntry) : Bool :=
  e.addr < 2 ^ 28 && ((e.width == 4 && e.addr % 4 == 0) || (e.width == 8 && e.addr % 8 == 0))

/-- The addresses that the fabric manager may write. -/
def fmMayWrite (e : FmEntry) : Bool := (0x10000 ≤ e.addr && e.addr < 0x14000) || (0x180 ≤ e.addr && e.addr < 0x1B0)

/-- One entry of an FM_RESP. -/
def fmAnswer (e : FmEntry) (st v : Nat) : List Byte := toLe 4 e.addr ++ toLe 1 st ++ zeros 3 ++ toLe 8 v

/-- The VALUE of an entry without an access: the manual states none (log entry 27). -/
def fmNoValue (s : State) (e : FmEntry) (st : Nat) : List Byte × State :=
  let (a, s1) := freshWord s
  let (b, s2) := freshWord s1
  (fmAnswer e st (a.toNat + 2 ^ 32 * b.toNat), s2)

def fmReadOne (s : State) (e : FmEntry) : List Byte × State :=
  if fmAddrOk e then
    let (bs, t) := readWords s .fm .bar0 0 (spanWords e.addr e.width)
    (fmAnswer e 0 (leNat bs), t)
  else fmNoValue s e 2

def fmWriteOne (s : State) (e : FmEntry) : List Byte × State :=
  if fmMayWrite e = false then fmNoValue s e 1
  else if fmAddrOk e = false then fmNoValue s e 2
  else (fmAnswer e 0 (e.value % 2 ^ (8 * e.width)), writeSpan s .fm .bar0 e.addr (toLe e.width e.value))

/-- The entries in order, with their answers. -/
def fmRun (one : State → FmEntry → List Byte × State) (s : State) : List FmEntry → List Byte × State
  | [] => ([], s)
  | e :: r =>
    let (a, s1) := one s e
    let (b, s2) := fmRun one s1 r
    (a ++ b, s2)

/-- The FM_RESP goes out on the ingress port, to the request's source MAC and SRC_NODE, while that port is UP. -/
def fmRespond (s : State) (f : Frame) (payload : List Byte) : State :=
  let p := f.port.val
  let ver := min (port s p).ver (levelVersion (rdf s Reg.atrium.HALL_LEVEL 7 0))
  if (port s p).isUp then
    pushEgress s p ⟨f.src, f.srcMac, none, 0x09, 0, frameBytes ver 0x09 0 0 (selfNode s) f.src 0 s.now payload⟩
  else s

/-- The entries of a request are run and answered. -/
def fmServe (one : State → FmEntry → List Byte × State) (s : State) (f : Frame) : State :=
  let (a, u) := fmRun one s (fmEntries f.body)
  fmRespond u f (f.body.take 8 ++ a)

/-- A READ of READBACK waits for the fabric manager's earlier writes (R453); its request is held. -/
def fmReads (s : State) (f : Frame) : State :=
  if tableWaits s = true ∧ ((fmEntries f.body).any fun e => (spanWords e.addr e.width).contains Reg.atrium.STEP_LOW) = true then
    { s with links := { s.links with fmHeld := s.links.fmHeld ++ [f] } }
  else fmServe fmReadOne s f

/-- An FM_REQ of one OP; another OP is not this command's. -/
def fmReq (s : State) (f : Frame) (op : Nat) (serve : State → Frame → State) : State :=
  if leAt f.body 4 1 ≠ op then s else receive s f 0x08 fun t => serve t f

def execFmReqRead (f : Frame) (s : State) : Host.Outcome State Fault Refusal := .next (fmReq s f 1 fmReads)

def execFmReqWrite (f : Frame) (s : State) : Host.Outcome State Fault Refusal := .next (fmReq s f 2 (fmServe fmWriteOne))

/-! ## Side effects that complete later (R81, R386, R462) -/

/-- The reads of READBACK that waited complete, once no side effect is left. -/
def answerReadbacks (s : State) : State :=
  let s1 := if s.links.readbacks ≠ [] ∧ s.sched.inval.isNone = true ∧ tableWaits s = false then
      setAnswer { s with links := { s.links with readbacks := [] } } (some (BitVec.ofNat 64 (s.now % 2 ^ 32))) false
    else s
  if tableWaits s1 then s1 else s1.links.fmHeld.foldl (fmServe fmReadOne) { s1 with links := { s1.links with fmHeld := [] } }

def execChanInvalDone (s : State) : Host.Outcome State Fault Refusal :=
  match s.sched.inval with
  | none => .next s
  | some c =>
    if inHbm (rd64 s Reg.sched.CHAN_TABLE_BASE + 256 * c) 256 then .next (answerReadbacks (chanInvalDone s c))
    else .fault (.hbmAddress (rd64 s Reg.sched.CHAN_TABLE_BASE + 256 * c))

def execTableWriteComplete (p : Fin 4) (s : State) : Host.Outcome State Fault Refusal := .next (answerReadbacks (tableWriteComplete s p.val))

/-! ## REG_ACCESS (R590) -/

/-- An Update-DR of the 98-bit register: a write, or a read whose value the next Capture-DR returns. -/
def regAccess (s : State) (w : BitVec 98) : State :=
  let a := (w.toNat / 2 ^ 64) % 2 ^ 32
  let n := if w.getLsbD 96 then 8 else 4
  if s.chip.test.prod = false then tapLoad s 0x11 false
  else
    let s1 := tapLoad s 0x11 true
    if w.getLsbD 97 then writeSpan s1 .tap .bar0 a (toLe n w.toNat)
    else if badSpan a n then s1
    else
      let (bs, t) := readWords s1 .tap .bar0 0 (spanWords a n)
      updTest t fun x => { x with readOut := BitVec.ofNat 64 (leNat (sub bs (a % 4) n)) }

/-- REG_ACCESS: a shard map load that it writes may lie outside the HBM address space. -/
def execRegAccess (word : BitVec 98) (s : State) : Host.Outcome State Fault Refusal :=
  if s.chip.test.prod && word.getLsbD 97 && mapFault s .tap .bar0 ((word.toNat / 2 ^ 64) % 2 ^ 32) (toLe (if word.getLsbD 96 then 8 else 4) word.toNat) then
    .fault (.hbmAddress (rd64 s Reg.sched.SHARDMAP_ADDR / 64 * 64))
  else .next (regAccess s word)

end Sys2Proof.Machine
end

