-- ==== Sys2Proof/Machine/Dispatch.lean ====
section
/-! DEFINITION. The dispatch: one arm per command. -/
namespace Sys2Proof.Machine

def exec (i : Instr) (s : State) : Host.Outcome State Fault Refusal :=
  match i with
  | .registerWrite req bar addr data => Sys2Proof.Machine.execRegisterWrite req bar addr data s
  | .rcRead req bar addr len sameCycle => Sys2Proof.Machine.execRcRead req bar addr len sameCycle s
  | .mmioBadRequest req isWrite addr len => Sys2Proof.Machine.execMmioBadRequest req isWrite addr len s
  | .readback req => Sys2Proof.Machine.execReadback req s
  | .railTransition rail cross us => Sys2Proof.Machine.execRailTransition rail cross us s
  | .railUv rail => Sys2Proof.Machine.execRailUv rail s
  | .powerCycle => Sys2Proof.Machine.execPowerCycle s
  | .resetNAssert => Sys2Proof.Machine.execResetNAssert s
  | .nodeReset modeHall traySlot => Sys2Proof.Machine.execNodeReset modeHall traySlot s
  | .bootRomHandover copy0Ok copy1Ok error level levelMin => Sys2Proof.Machine.execBootRomHandover copy0Ok copy1Ok error level levelMin s
  | .recovery found => Sys2Proof.Machine.execRecovery found s
  | .pcieReset kind => Sys2Proof.Machine.execPcieReset kind s
  | .vfFlr vf => Sys2Proof.Machine.execVfFlr vf s
  | .flrComplete vf => Sys2Proof.Machine.execFlrComplete vf s
  | .busMasterDisable vf => Sys2Proof.Machine.execBusMasterDisable vf s
  | .busMasterEnable vf => Sys2Proof.Machine.execBusMasterEnable vf s
  | .pcieLinkChange rate width flit => Sys2Proof.Machine.execPcieLinkChange rate width flit s
  | .internalTick => Sys2Proof.Machine.execInternalTick s
  | .tickInEdge ns => Sys2Proof.Machine.execTickInEdge ns s
  | .flywheelTick => Sys2Proof.Machine.execFlywheelTick s
  | .stepOpen env => Sys2Proof.Machine.execStepOpen env s
  | .bgFence => Sys2Proof.Machine.execBgFence s
  | .preemptionPoint flight stage progress => Sys2Proof.Machine.execPreemptionPoint flight stage progress s
  | .stageComplete flight stage gallery => Sys2Proof.Machine.execStageComplete flight stage gallery s
  | .flightCancel flight => Sys2Proof.Machine.execFlightCancel flight s
  | .updateCommit flight => Sys2Proof.Machine.execUpdateCommit flight s
  | .transplantGrid carriers => Sys2Proof.Machine.execTransplantGrid carriers s
  | .transplantSeal coll part leafStacks => Sys2Proof.Machine.execTransplantSeal coll part leafStacks s
  | .transplantPublish coll => Sys2Proof.Machine.execTransplantPublish coll s
  | .descriptorArrival chan desc buf keys => Sys2Proof.Machine.execDescriptorArrival chan desc buf keys s
  | .fetchError chan desc => Sys2Proof.Machine.execFetchError chan desc s
  | .sqTail chan value => Sys2Proof.Machine.execSqTail chan value s
  | .cqHead chan value => Sys2Proof.Machine.execCqHead chan value s
  | .stepRun run => Sys2Proof.Machine.execStepRun run s
  | .stepMark f => Sys2Proof.Machine.execStepMark f s
  | .planLoad => Sys2Proof.Machine.execPlanLoad s
  | .planLoadDone => Sys2Proof.Machine.execPlanLoadDone s
  | .planRetire => Sys2Proof.Machine.execPlanRetire s
  | .planSlotEmptied => Sys2Proof.Machine.execPlanSlotEmptied s
  | .profileLoad => Sys2Proof.Machine.execProfileLoad s
  | .profileLoadDone => Sys2Proof.Machine.execProfileLoadDone s
  | .collLoadStart => Sys2Proof.Machine.execCollLoadStart s
  | .collLoadContinue => Sys2Proof.Machine.execCollLoadContinue s
  | .collLoadAbort => Sys2Proof.Machine.execCollLoadAbort s
  | .collDrop => Sys2Proof.Machine.execCollDrop s
  | .collChunkDone data leafStacks => Sys2Proof.Machine.execCollChunkDone data leafStacks s
  | .collLoadCommit => Sys2Proof.Machine.execCollLoadCommit s
  | .collDrained coll => Sys2Proof.Machine.execCollDrained coll s
  | .tableLoadStart => Sys2Proof.Machine.execTableLoadStart s
  | .tableLoadContinue => Sys2Proof.Machine.execTableLoadContinue s
  | .tableLoadAbort => Sys2Proof.Machine.execTableLoadAbort s
  | .tableDrop => Sys2Proof.Machine.execTableDrop s
  | .tableChunkDone data => Sys2Proof.Machine.execTableChunkDone data s
  | .tableLoadCommit => Sys2Proof.Machine.execTableLoadCommit s
  | .modelLoad => Sys2Proof.Machine.execModelLoad s
  | .modelLoadDone => Sys2Proof.Machine.execModelLoadDone s
  | .modelRetire => Sys2Proof.Machine.execModelRetire s
  | .modelSlotEmptied => Sys2Proof.Machine.execModelSlotEmptied s
  | .weightStageInDone slot layer => Sys2Proof.Machine.execWeightStageInDone slot layer s
  | .pinRelayDone slot => Sys2Proof.Machine.execPinRelayDone slot s
  | .shardmapLoad => Sys2Proof.Machine.execShardmapLoad s
  | .shardmapRetire => Sys2Proof.Machine.execShardmapRetire s
  | .chanInval chan => Sys2Proof.Machine.execChanInval chan s
  | .chanInvalDone => Sys2Proof.Machine.execChanInvalDone s
  | .tenantAdmit => Sys2Proof.Machine.execTenantAdmit s
  | .tenantRelease => Sys2Proof.Machine.execTenantRelease s
  | .guaranteeRankWrite rank => Sys2Proof.Machine.execGuaranteeRankWrite rank s
  | .c0ReservationWrite kind value => Sys2Proof.Machine.execC0ReservationWrite kind value s
  | .capacityReservationWrite kind value => Sys2Proof.Machine.execCapacityReservationWrite kind value s
  | .meterLatch => Sys2Proof.Machine.execMeterLatch s
  | .flushWriteback gallery bcast => Sys2Proof.Machine.execFlushWriteback gallery bcast s
  | .flushWbInval gallery bcast => Sys2Proof.Machine.execFlushWbInval gallery bcast s
  | .flushInval gallery bcast => Sys2Proof.Machine.execFlushInval gallery bcast s
  | .flushComplete gallery => Sys2Proof.Machine.execFlushComplete gallery s
  | .scanWindow stack drained reports => Sys2Proof.Machine.execScanWindow stack drained reports s
  | .scanBurst stack burst => Sys2Proof.Machine.execScanBurst stack burst s
  | .hbmReadComplete addr outcome what otherOk => Sys2Proof.Machine.execHbmReadComplete addr outcome what otherOk s
  | .pcRemapDone stack pc => Sys2Proof.Machine.execPcRemapDone stack pc s
  | .stackFail stack lost => Sys2Proof.Machine.execStackFail stack lost s
  | .writebackDue range page => Sys2Proof.Machine.execWritebackDue range page s
  | .flashChannelTrained ch rate targets inventoryOk inv => Sys2Proof.Machine.execFlashChannelTrained ch rate targets inventoryOk inv s
  | .flashReadComplete die reader columns outcome => Sys2Proof.Machine.execFlashReadComplete die reader columns outcome s
  | .eraseSuspend die => Sys2Proof.Machine.execEraseSuspend die s
  | .flashProgramComplete pa kind bytes ok last => Sys2Proof.Machine.execFlashProgramComplete pa kind bytes ok last s
  | .eraseComplete die block ok => Sys2Proof.Machine.execEraseComplete die block ok s
  | .blockVerify die block result => Sys2Proof.Machine.execBlockVerify die block result s
  | .dieTimeout die => Sys2Proof.Machine.execDieTimeout die s
  | .rebuildStripe outcome last => Sys2Proof.Machine.execRebuildStripe outcome last s
  | .repairRetry entry => Sys2Proof.Machine.execRepairRetry entry s
  | .mapCheckpoint => Sys2Proof.Machine.execMapCheckpoint s
  | .mapRebuild range page pages ok => Sys2Proof.Machine.execMapRebuild range page pages ok s
  | .dataLossResend => Sys2Proof.Machine.execDataLossResend s
  | .portTrained port lanes => Sys2Proof.Machine.execPortTrained port lanes s
  | .portLinkLoss port lane => Sys2Proof.Machine.execPortLinkLoss port lane s
  | .portRetrainTimer port => Sys2Proof.Machine.execPortRetrainTimer port s
  | .helloTimer port => Sys2Proof.Machine.execHelloTimer port s
  | .hello f => Sys2Proof.Machine.execHello f s
  | .fmReqRead f => Sys2Proof.Machine.execFmReqRead f s
  | .fmReqWrite f => Sys2Proof.Machine.execFmReqWrite f s
  | .rakeQuery f => Sys2Proof.Machine.execRakeQuery f s
  | .rakeContrib f => Sys2Proof.Machine.execRakeContrib f s
  | .rowReq f => Sys2Proof.Machine.execRowReq f s
  | .rowReply f => Sys2Proof.Machine.execRowReply f s
  | .ownerRead f => Sys2Proof.Machine.execOwnerRead f s
  | .ownerData f => Sys2Proof.Machine.execOwnerData f s
  | .gone f => Sys2Proof.Machine.execGone f s
  | .dataLossAck f => Sys2Proof.Machine.execDataLossAck f s
  | .mirrorPrep f => Sys2Proof.Machine.execMirrorPrep f s
  | .mirrorCommit f => Sys2Proof.Machine.execMirrorCommit f s
  | .mirrorAbort f => Sys2Proof.Machine.execMirrorAbort f s
  | .mirrorClose f => Sys2Proof.Machine.execMirrorClose f s
  | .mirrorRows f => Sys2Proof.Machine.execMirrorRows f s
  | .mirrorAck f => Sys2Proof.Machine.execMirrorAck f s
  | .mirrorResend pair => Sys2Proof.Machine.execMirrorResend pair s
  | .shadowQuery f => Sys2Proof.Machine.execShadowQuery f s
  | .shadowResult f => Sys2Proof.Machine.execShadowResult f s
  | .pairWrite => Sys2Proof.Machine.execPairWrite s
  | .graftStart => Sys2Proof.Machine.execGraftStart s
  | .graftStall => Sys2Proof.Machine.execGraftStall s
  | .graftWindow => Sys2Proof.Machine.execGraftWindow s
  | .graftAbort => Sys2Proof.Machine.execGraftAbort s
  | .serve => Sys2Proof.Machine.execServe s
  | .fence => Sys2Proof.Machine.execFence s
  | .fenceTimeout => Sys2Proof.Machine.execFenceTimeout s
  | .quiesce => Sys2Proof.Machine.execQuiesce s
  | .quiesceEnd => Sys2Proof.Machine.execQuiesceEnd s
  | .faultClear value => Sys2Proof.Machine.execFaultClear value s
  | .flashWriteProtect ch => Sys2Proof.Machine.execFlashWriteProtect ch s
  | .nodeFaultCompletions => Sys2Proof.Machine.execNodeFaultCompletions s
  | .histPop => Sys2Proof.Machine.execHistPop s
  | .goneClear node => Sys2Proof.Machine.execGoneClear node s
  | .nodeId node => Sys2Proof.Machine.execNodeId node s
  | .hallLevelStep high => Sys2Proof.Machine.execHallLevelStep high s
  | .routeWrite port => Sys2Proof.Machine.execRouteWrite port s
  | .classWrite port => Sys2Proof.Machine.execClassWrite port s
  | .tableWriteComplete port => Sys2Proof.Machine.execTableWriteComplete port s
  | .laneEn port value => Sys2Proof.Machine.execLaneEn port value s
  | .fallowRequest gallery off => Sys2Proof.Machine.execFallowRequest gallery off s
  | .fallowGate gallery => Sys2Proof.Machine.execFallowGate gallery s
  | .fallowWake gallery => Sys2Proof.Machine.execFallowWake gallery s
  | .fallowExit gallery => Sys2Proof.Machine.execFallowExit gallery s
  | .fallowAbort gallery => Sys2Proof.Machine.execFallowAbort gallery s
  | .doze tile => Sys2Proof.Machine.execDoze tile s
  | .droopStretch gallery => Sys2Proof.Machine.execDroopStretch gallery s
  | .droopRelease gallery => Sys2Proof.Machine.execDroopRelease gallery s
  | .thermTrip sensor => Sys2Proof.Machine.execThermTrip sensor s
  | .avsAck east => Sys2Proof.Machine.execAvsAck east s
  | .avsTimeout east => Sys2Proof.Machine.execAvsTimeout east s
  | .interruptAssert src phase => Sys2Proof.Machine.execInterruptAssert src phase s
  | .handlerReturn core => Sys2Proof.Machine.execHandlerReturn core s
  | .swTrigger src => Sys2Proof.Machine.execSwTrigger src s
  | .complete core src => Sys2Proof.Machine.execComplete core src s
  | .coreEn core enable => Sys2Proof.Machine.execCoreEn core enable s
  | .mcWdog core => Sys2Proof.Machine.execMcWdog core s
  | .mboxIn n value => Sys2Proof.Machine.execMboxIn n value s
  | .mboxInPop n => Sys2Proof.Machine.execMboxInPop n s
  | .mboxOut n value => Sys2Proof.Machine.execMboxOut n value s
  | .mboxOutPop n => Sys2Proof.Machine.execMboxOutPop n s
  | .swPacket unit value => Sys2Proof.Machine.execSwPacket unit value s
  | .traceMergerPop unit => Sys2Proof.Machine.execTraceMergerPop unit s
  | .summary unit => Sys2Proof.Machine.execSummary unit s
  | .traceSync unit => Sys2Proof.Machine.execTraceSync unit s
  | .patStart => Sys2Proof.Machine.execPatStart s
  | .patStop => Sys2Proof.Machine.execPatStop s
  | .patLimitExpired => Sys2Proof.Machine.execPatLimitExpired s
  | .patAbort cause => Sys2Proof.Machine.execPatAbort cause s
  | .snap => Sys2Proof.Machine.execSnap s
  | .eyeCaptureDone trained heights widths => Sys2Proof.Machine.execEyeCaptureDone trained heights widths s
  | .mbistStart => Sys2Proof.Machine.execMbistStart s
  | .mbistDone pass array offset => Sys2Proof.Machine.execMbistDone pass array offset s
  | .trstN => Sys2Proof.Machine.execTrstN s
  | .idcode => Sys2Proof.Machine.execIdcode s
  | .samplePreload => Sys2Proof.Machine.execSamplePreload s
  | .extest => Sys2Proof.Machine.execExtest s
  | .clamp => Sys2Proof.Machine.execClamp s
  | .highz => Sys2Proof.Machine.execHighz s
  | .extestPulse => Sys2Proof.Machine.execExtestPulse s
  | .extestTrain => Sys2Proof.Machine.execExtestTrain s
  | .prodTest => Sys2Proof.Machine.execProdTest s
  | .regAccess word => Sys2Proof.Machine.execRegAccess word s
  | .bypass => Sys2Proof.Machine.execBypass s
  | .i3cDynamicAddress addr => Sys2Proof.Machine.execI3cDynamicAddress addr s
  | .trayManagementRead reg => Sys2Proof.Machine.execTrayManagementRead reg s
  | .lsUe e => Sys2Proof.Machine.execLsUe e s
  | .d2dFail => Sys2Proof.Machine.execD2dFail s
  | .mcUe => Sys2Proof.Machine.execMcUe s
  | .collectorParity => Sys2Proof.Machine.execCollectorParity s
  | .corrUe flight stage gallery => Sys2Proof.Machine.execCorrUe flight stage gallery s
  | .aerError kind => Sys2Proof.Machine.execAerError kind s
  | .hbmStackTraining stack result => Sys2Proof.Machine.execHbmStackTraining stack result s
  | .referenceClockStable => Sys2Proof.Machine.execReferenceClockStable s
  | .perstNDeassert => Sys2Proof.Machine.execPerstNDeassert s
  | .d3hot fn enter => Sys2Proof.Machine.execD3hot fn enter s
  | .msixUnmask fn vector => Sys2Proof.Machine.execMsixUnmask fn vector s
  | .frameTransmitted port queue => Sys2Proof.Machine.execFrameTransmitted port queue s
  | .receivedFrameDropped f => Sys2Proof.Machine.execReceivedFrameDropped f s
  | .mirrorCopyRewritten => Sys2Proof.Machine.execMirrorCopyRewritten s
  | .checkerLock => Sys2Proof.Machine.execCheckerLock s
  | .checkerLockLoss => Sys2Proof.Machine.execCheckerLockLoss s

end Sys2Proof.Machine
end

