-- ==== Sys2Proof/Safety.lean ====
section
/-! DEFINITION. What counts as a safe run of the node. -/
namespace Sys2Proof.Machine

/-- A step is safe in a state if it answers a next state. -/
def Safe (s : State) : Prop := ∃ t, step s = .next t

/-- A run of `n` steps is safe if each of them is. -/
def SafeRun (s : State) : Nat → Prop
  | 0 => True
  | n + 1 => ∃ t, step s = .next t ∧ SafeRun t n

/-- How many galleries, ports, stacks, near-bank units, trace units, management cores and mailboxes of each direction a node holds. -/
abbrev shapeOf (m : Mem) (l : Links) (c : Chip) : List Nat :=
  [c.galleries.length, l.ports.length, m.stackSt.length, m.near.length, c.trace.length, c.intc.cores.length, c.intc.mboxIn.length,
   c.intc.mboxOut.length]

/-- The node has the parts the manual gives it: 50 galleries, 4 ports, 8 stacks, 4 near-bank units, 51 trace units, 4 management cores and 4
mailboxes in each direction. -/
def State.Shape (s : State) : Prop := shapeOf s.mem s.links s.chip = [50, 4, 8, 4, 51, 4, 4, 4]

/-- The frame of a command that acts on registers: nothing but the register file changes, and of it only the registers of `l`. -/
def OnlyRegs (s t : State) (l : List Nat) : Prop := t = { s with regs := t.regs } ∧ ∀ a, a ∉ l → rd t a = rd s a

/-- The management function's requests reach the node: it runs and the function is not in D3hot (R413, R559, R570). -/
def mgmtReaches (s : State) : Prop := s.running = true ∧ s.links.pf.d3 = false

/-- A received frame passes the ingress checks of R446. -/
def accepts (s : State) (f : Frame) : Prop := (ingress s f).2 = true

/-- The node as the ingress checks leave it: only the port's counters have changed. -/
def delivered (s : State) (f : Frame) : State := (ingress s f).1

end Sys2Proof.Machine
end

