-- ==== Sys2Proof/Certificates/Slice0/Obligations.lean ====
section
/-! DEFINITION. The statements for the provers, one per group of commands, and the invariants of a step. `OnlyRegs s t l` says the frame of a command
that acts on registers alone. -/
open Sys2Proof Sys2Proof.Machine

/-! ## Power, reset and boot (R453 to R457, R556 to R571) -/

/-- A rail that rises above a tenth, becomes valid or falls below its minimum changes in the VDD_AUX domain alone; one that becomes valid out of
order sets SEQ_VIOLATION; a rail but VDD_AUX that goes off is off, and the C0 latch stays while a rail is up (R486, R556 to R560). The pins, the
reference clocks and the I3C address: one field each, nothing else (R565, R568, R570, R569). -/
def Obligations.Rails_and_pins_take_their_level : Prop :=
  (∀ (s : State) (rail : Fin 12) (us : Nat),
       exec (.railTransition rail .aboveTenth us) s =
         .next (updAux s fun x => { x with rails := updAt x.rails rail.val fun q => { q with above := true } }) ∧
       exec (.railTransition rail .belowMin us) s =
         .next (updAux s fun x => { x with rails := updAt x.rails rail.val fun q => { q with valid := false } }) ∧
       (railOffends s.chip.aux.rails rail.val us = false →
         exec (.railTransition rail .valid us) s =
           .next (updAux s fun x => { x with rails := updAt x.rails rail.val fun _ => ⟨true, true, us⟩ })) ∧
       (railOffends s.chip.aux.rails rail.val us = true → ∃ t, exec (.railTransition rail .valid us) s = .next t ∧
         t = updAux s (fun _ => t.chip.aux) ∧ t.chip.aux.seqViolation = true ∧
         (s.chip.aux.seqViolation = false ∧ s.chip.aux.uvSeen = false → t.chip.aux.rail = BitVec.ofNat 4 rail.val)) ∧
       (rail.val ≠ 0 → exec (.railTransition rail .off us) s =
         .next (updAux s fun x => { x with rails := updAt x.rails rail.val fun _ => Rail.off,
                                           c0 := x.c0 && (updAt x.rails rail.val fun _ => Rail.off).any (·.above) }))) ∧
  (∀ (s : State) (addr : BitVec 7),
       exec .resetNAssert s = .next { s with chip := { s.chip with pins := { s.chip.pins with resetN := false } } } ∧
       exec .perstNDeassert s = .next { s with chip := { s.chip with pins := { s.chip.pins with perstN := true } } } ∧
       exec .referenceClockStable s = .next { s with chip := { s.chip with aux := { s.chip.aux with clocks := true } } } ∧
       exec (.i3cDynamicAddress addr) s = .next { s with chip := { s.chip with aux := { s.chip.aux with i3c := some addr } } })

/-- POWER_CYCLE ends every latch: the VDD_AUX domain and the C0 latch are clear, registers and HBM are at reset, and the commands that wait stay
(R486, R559, R571). NODE_RESET with stable clocks and nothing latched resets registers,
HBM, the schedule, the stored objects and the fault state, and keeps the VDD_AUX domain; MODE_HALL and the tray slot are sampled (R29, R566, R567).
Both keep the mapping, the journal and LOST_MAP of every object but those that were LOADING or DRAINING, of which nothing stays (R155). A latched C0 fault or sequencing violation outlives the node reset, which then changes nothing but the pin
(R486, R567). -/
def Obligations.Resets_keep_what_outlives_them : Prop :=
  let kept (s t : State) : Prop :=
    (∀ k, k / 2 ^ 32 ∉ emptiedRanges s → Tbl.get t.mem.flash.plots k = Tbl.get s.mem.flash.plots k) ∧
    (∀ k q, (k, q) ∈ t.mem.flash.plots → k / 2 ^ 32 ∉ emptiedRanges s) ∧
    (∀ j, j ∈ t.mem.flash.journal ↔ j ∈ s.mem.flash.journal ∧ j.coll ∉ emptiedRanges s) ∧
    (∀ l, l ∈ t.mem.flash.lost ↔ l ∈ s.mem.flash.lost ∧ l.range ∉ emptiedRanges s) ∧
    (emptiedRanges s = [] → t.mem.flash.spill = s.mem.flash.spill)
  (∀ s : State, ∃ t, exec .powerCycle s = .next t ∧
       t.chip.aux = Aux.off ∧ t.c0 = false ∧ t.chip.pins.resetN = false ∧ t.regs = [] ∧ t.mem.hbm = [] ∧ t.sched = Sched.reset ∧
       kept s t ∧ t.pending = s.pending) ∧
  (∀ (s : State) (m : Bool) (slot : Fin 8), s.chip.aux.clocks = true → s.c0 = false → s.chip.aux.seqViolation = false →
       ∃ t, exec (.nodeReset m slot) s = .next t ∧
         t.hall = m ∧ t.chip.pins.traySlot = slot.val ∧ t.chip.pins.resetN = true ∧ t.chip.aux = s.chip.aux ∧
         t.regs = [] ∧ t.mem.hbm = [] ∧ t.sched = Sched.reset ∧ t.store = Store.reset ∧ t.faults = Faults.reset ∧
         kept s t ∧ t.pending = s.pending) ∧
  (∀ (s : State) (m : Bool) (slot : Fin 8), s.chip.aux.clocks = true → (s.c0 = true ∨ s.chip.aux.seqViolation = true) →
       exec (.nodeReset m slot) s = .next { s with chip := { s.chip with pins := { s.chip.pins with resetN := true } } })

/-- BOOT_ROM_HANDOVER of a good image: STAGE reads HANDOVER, and the interrupt controller, TIER_WIDTH and the level bytes are set; with both copies
bad STAGE reads FAILED with the error code. Nothing else of the node changes (R532, R555, R568). RECOVERY with the flash running takes the tables
that waited for it; where one block is known, it is CLOSED if it was being programmed, and ERASED and counted in SUSPECT_COUNT if it was SUSPECT;
where one collection with a checkpoint and no journal is known, it is SERVING from the checkpoint as the snapshot of epoch 0 (R236, R363, R365). -/
def Obligations.Boot_and_recovery : Prop :=
  (∀ (s : State) (c0 c1 : Bool) (e l m : Byte), bootStage s = 0 →
       ((c0 || c1) = true → s.chip.test.ir ≠ 0x10 → ∃ t, exec (.bootRomHandover c0 c1 e l m) s = .next t ∧
         bootStage t = 2 ∧ t.chip = { s.chip with intc := Intc.reset, bootLevel := (l, m) } ∧ rd t Reg.intc.TIER_WIDTH = 8 ∧
         (∀ a, a ≠ Reg.atrium.MC_BOOT → a ≠ Reg.intc.TIER_WIDTH → rd t a = rd s a) ∧
         t = { s with regs := t.regs, chip := t.chip }) ∧
       ((c0 || c1) = false → ∃ t, exec (.bootRomHandover c0 c1 e l m) s = .next t ∧
         bootStage t = 0x0F ∧ rdf t Reg.atrium.MC_BOOT 7 0 = e.toNat ∧ OnlyRegs s t [Reg.atrium.MC_BOOT])) ∧
  (∀ s : State, flashRunning s = true → s.c0 = false →
       (∀ l, ∃ t, exec (.recovery l) s = .next t ∧ t.mem.flash.tables = []) ∧
       (s.mem.flash.ckpts = [] → s.mem.flash.tables = [] → ∀ key b, s.mem.flash.blocks = [(key, b)] → ∃ t, exec (.recovery ⟨[], []⟩) s = .next t ∧
         t.store.colls = s.store.colls ∧ (b.st = .open_ → block? t key = some { b with st := .closed }) ∧
         (b.st = .suspect → block? t key = some { b with st := .erased, erases := b.erases + 1, pages := 0, spill := 0, suspends := 0,
                                                         suspended := false, bad := false, sys := false } ∧
           rd t Reg.ft.SUSPECT_COUNT = counted Reg.ft.SUSPECT_COUNT (rd s Reg.ft.SUSPECT_COUNT))) ∧
       (s.mem.flash.blocks = [] → s.mem.flash.tables = [] → s.mem.flash.journal = [] → ∀ n k v, s.mem.flash.ckpts = [(n, [k])] → k.versions = [v] →
         Tbl.get s.store.colls n = none → ∃ t, exec (.recovery ⟨[], []⟩) s = .next t ∧ Tbl.get t.store.colls n = some (recoverColl s k v []) ∧
           (∀ m, m ≠ n → Tbl.get t.store.colls m = Tbl.get s.store.colls m) ∧ (recoverColl s k v []).life = .serving ∧
           (recoverColl s k v []).versions.map (·.epoch) = [0]))

/-! ## PCIe (R412 to R437) -/

/-- Bus mastering and D-states of a function: its own state changes and no other function's (R413, R426). MSIX_UNMASK of a vector that is pending
sends its message at once and clears the pending bit (R426). -/
def Obligations.Functions_hold_and_send_interrupts : Prop :=
  (∀ (s : State) (i : Fin 256),
       exec (.busMasterDisable i) s = .next (setPciState s (.vf i) { pciState s (.vf i) with bme := false }) ∧
       (∃ t, exec (.busMasterEnable i) s = .next t ∧ (pciState t (.vf i)).bme = true ∧ t = { s with links := t.links } ∧
         ∀ j, j ≠ i → pciState t (.vf j) = pciState s (.vf j)) ∧
       exec (.d3hot (.vf i) true) s = .next (setPciState s (.vf i) { pciState s (.vf i) with d3 := true }) ∧
       (∃ t, exec (.d3hot (.vf i) false) s = .next t ∧ (pciState t (.vf i)).d3 = false ∧ t = { s with links := t.links } ∧
         ∀ j, j ≠ i → pciState t (.vf j) = pciState s (.vf j))) ∧
  (∀ (s : State) (i : Fin 256) (v : Fin 64), v.val < 16 → (pciState s (.vf i)).bme = true → (pciState s (.vf i)).d3 = false →
       (pciState s (.vf i)).pba.getLsbD v.val = true →
       ∃ t, exec (.msixUnmask (.vf i) v) s = .next t ∧ t.links.out = s.links.out ++ [.msix (.vf i) v.val] ∧
         (pciState t (.vf i)).unmasked.getLsbD v.val = true ∧ (pciState t (.vf i)).pba.getLsbD v.val = false ∧ t = { s with links := t.links })

/-- PCIE_LINK_CHANGE: the link's STATUS reports the trained rate, width and FLIT mode; only STATUS and the pending event change (R437). AER_ERROR:
the error bit of its kind in the PCIe page is set and ERR_COUNT counts it, whether or not the bit is masked; masked, it goes no further (R18, R437). -/
def Obligations.PcieLink_and_its_errors_are_reported : Prop :=
  (∀ (s : State) (rate : Fin 7) (w : Nat) (flit : Bool), rate.val ≠ 0 → w < 32 →
       ∃ t, exec (.pcieLinkChange rate w flit) s = .next t ∧ OnlyRegs s t [pcieStatusReg, pageBase .pcie 0 + 0x28] ∧
         fld (rd t pcieStatusReg) 0 0 = 1 ∧ fld (rd t pcieStatusReg) 3 1 = rate.val ∧ fld (rd t pcieStatusReg) 8 4 = w ∧
         fld (rd t pcieStatusReg) 9 9 = flit.toNat) ∧
  (∀ (s : State) (k : AerKind) (bit : Nat), (k, bit) ∈ [(AerKind.corr, 0), (.nonfatal, 1), (.fatal, 2)] →
       ∃ t, exec (.aerError k) s = .next t ∧ testBit (rd t (pageBase .pcie 0 + 0x30)) bit = true ∧
         rd t (pageBase .pcie 0 + 0x3C) = counted (pageBase .pcie 0 + 0x3C) (rd s (pageBase .pcie 0 + 0x3C)) ∧
         (testBit (rd s (pageBase .pcie 0 + 0x34)) bit = true → OnlyRegs s t [pageBase .pcie 0 + 0x30, pageBase .pcie 0 + 0x3C]))

/-- VF_FLR: the tenant's unadmitted descriptors go without completion, its flights are cancelled and write nothing more, its ring state, DB_ERR,
DESC_VER_ENABLE and MSI-X state return to reset; the collections, tables and models stay (R431). FLR_COMPLETE once the last cancelled flight has
ended: the FLR is over and FLR_COUNT has counted it (R431). PCIE_RESET: an FLR of every VF, with bus mastering off and D0; but for the clear of VF
Enable the PF's configuration space is at reset too; PERST_N is asserted by its own kind; a reset that takes the link down sets LINK_DOWN. What the
node stores stays (R432). -/
def Obligations.Function_resets : Prop :=
  (∀ (s : State) (i : Fin 256), ∃ t, exec (.vfFlr i) s = .next t ∧
       (∀ d ∈ t.sched.queued, d.chan / 16 ≠ i.val) ∧
       (∀ f ∈ t.sched.flights, f.part.isNone = true → f.desc.chan / 16 = i.val → f.cancel = true ∧ f.silent = true) ∧
       rd t (Reg.tstatus.DB_ERR i.val) = 0 ∧ rd t (Reg.tstatus.ENABLE_VER i.val) = 0x01010101 ∧
       (pciState t (.vf i)).flr = true ∧ (pciState t (.vf i)).table = [] ∧ (pciState t (.vf i)).pba = 0 ∧
       t.store.colls = s.store.colls ∧ t.store.tables = s.store.tables ∧ t.store.models = s.store.models ∧ t.store.tenants = s.store.tenants ∧
       (∀ c, c < 4096 → c / 16 = i.val → (Tbl.get s.store.chans c).isSome = true → (chan t c).sqHead = 0 ∧ (chan t c).sqTail = 0 ∧ (chan t c).cqHead = 0 ∧
         (chan t c).cqTail = 0 ∧ (chan t c).waiting = []) ∧ t.mem = s.mem ∧ t.chip = s.chip) ∧
  (∀ (s : State) (i : Fin 256), (pciState s (.vf i)).flr = true → s.sched.flights = [] → s.faults.endedFlights = [] →
       ∃ t, exec (.flrComplete i) s = .next t ∧ (pciState t (.vf i)).flr = false ∧
         rd t Reg.pcie.FLR_COUNT = counted Reg.pcie.FLR_COUNT (rd s Reg.pcie.FLR_COUNT) ∧
         (∀ a, a ≠ Reg.pcie.FLR_COUNT → a ≠ pageBase .pcie 0 + 0x28 → rd t a = rd s a) ∧
         t = { s with regs := t.regs, links := t.links }) ∧
  (∀ (s : State) (k : PcieReset), ∃ t, exec (.pcieReset k) s = .next t ∧
       (∀ p ∈ t.links.vfs, p.2.bme = false ∧ p.2.d3 = false) ∧ t.store.colls = s.store.colls ∧ t.store.tables = s.store.tables ∧ t.mem = s.mem ∧
       (k = .vfEnableClear ∨ k = .pfFlr → t.chip = s.chip) ∧ (k = .vfEnableClear → t.links.pf = s.links.pf) ∧
       (k ≠ .vfEnableClear → t.links.pf.bme = false ∧ t.links.pf.pba = 0 ∧ t.links.pf.table = []) ∧ (k = .perstN → t.chip.pins.perstN = false) ∧
       (k = .hotReset ∨ k = .linkDown ∨ k = .perstN → testBit (rd t (pageBase .pcie 0 + 0x30)) 3 = true))

/-! ## Registers (R9 to R15, R81, R415, R590, R600) -/

/-- A 4-byte write of a register of a PCIe, HBM or near-bank page by the management function sets its RW bits, clears the W1C bits written 1, but
those that hardware sets in the same cycle (R12), and leaves its other bits; no other register changes, but that ERR_STAT at 0 releases ERR_FIRST, and nothing else of the node does (R11, R14, R19). A
64-bit register takes effect whole: the write of the low word is only staged, the write of the high word puts both in force (R13, here PORT_MAC of a
port). -/
def Obligations.Register_writes : Prop :=
  (∀ (s : State) (a : Nat) (v c : Word) (k : PageKind) (n o : Nat) (r : RegDef), k ∈ [PageKind.pcie, .hbm, .nb] → pageAt a = some (k, n, o) →
       regDefAt a = some r → r.wide = .one → mgmtReaches s →
       ∃ t, exec (.registerWrite .mgmt .bar0 a ⟨toLe 4 v.toNat, c.setWidth 64⟩) s = .next t ∧
         rd t a = writtenWord r (rd s a) (v &&& ~~~(c &&& BitVec.ofNat 32 r.w1c)) ∧
         OnlyRegs s t (if o = 0x30 then [a, a + 8] else [a]) ∧
         (o = 0x30 → rd t (a + 8) = if rd t a = 0 then rd s (a + 8) &&& 0x7FFFFFFF else rd s (a + 8))) ∧
  (∀ (s : State) (p : Fin 4) (lo hi : Word), mgmtReaches s →
       ∃ t u, exec (.registerWrite .mgmt .bar0 (Reg.port.PORT_MAC p) ⟨toLe 4 lo.toNat, 0⟩) s = .next t ∧
         t = { s with staged := Tbl.set s.staged (Reg.port.PORT_MAC p) lo } ∧
         exec (.registerWrite .mgmt .bar0 (Reg.port.PORT_MAC p + 4) ⟨toLe 4 hi.toNat, 0⟩) t = .next u ∧
         rd u (Reg.port.PORT_MAC p) = lo ∧ rd u (Reg.port.PORT_MAC p + 4) = hi &&& 0xFFFF ∧ Tbl.get u.staged (Reg.port.PORT_MAC p) = none ∧
         u = { s with regs := u.regs, staged := u.staged } ∧
         ∀ a, a ≠ Reg.port.PORT_MAC p → a ≠ Reg.port.PORT_MAC p + 4 → rd u a = rd s a)

/-- What R14 and R415 discard: a write of another length than 4 or 8 bytes within an 8-byte quantity, or of 4 bytes off a 4-byte boundary, changes
nothing but MMIO_SHORT_WR; a request across an 8-byte boundary is counted in MMIO_BAD, and a read of that kind completes with Completer Abort. -/
def Obligations.Bad_requests_are_counted : Prop :=
  ∀ (s : State) (bar : Bar) (a : Nat), mgmtReaches s →
    (∀ data : List Byte, badSpan a data.length = false → data.length ≠ 8 → (data.length = 4 → a % 4 ≠ 0) →
      ∀ sets, exec (.registerWrite .mgmt bar a ⟨data, sets⟩) s = .next (count s Reg.pcie.MMIO_SHORT_WR)) ∧
    (∀ len, badSpan a len = true →
      exec (.mmioBadRequest .mgmt true a len) s = .next (count s Reg.pcie.MMIO_BAD) ∧
      ∃ t, exec (.mmioBadRequest .mgmt false a len) s = .next t ∧ t.links.abort = true ∧ t.links.answer = none ∧
        t = { count s Reg.pcie.MMIO_BAD with links := t.links } ∧ t.links = { s.links with answer := t.links.answer, abort := t.links.abort })

/-! ## The pages (R15, R597 to R602) -/

/-- Every BAR0 address outside the pages reads as 0 and ignores writes, those of the odd near-bank instances too; a page's PAGE_ID holds its block
type, which is not 0, and every page, those of the VFs too, reports MAJOR 1 and MINOR 0. Of a tile whose gallery is in RETAIN or OFF, every offset
beyond PAGE_ID and PAGE_VER reads as 0 and ignores writes (R598, R599, R602). -/
def Obligations.Pages_identify_themselves : Prop :=
  ∀ (s : State) (req : Requester) (a same : Nat), reaches s req = true → a % 4 = 0 →
    let answers (v : Word) : Host.Outcome State Fault Refusal :=
      .next { s with links := { s.links with answer := some (v.setWidth 64), abort := false } }
    ((∀ i, req ≠ .vf i) → a < 2 ^ 28 →
      (pageAt a = none → exec (.rcRead req .bar0 a 4 same) s = answers 0 ∧ (∀ (v : Word) (c : Quad), exec (.registerWrite req .bar0 a ⟨toLe 4 v.toNat, c⟩) s = .next s) ∧
        (a % 8 = 0 → ∀ v c : Quad, exec (.registerWrite req .bar0 a ⟨toLe 8 v.toNat, c⟩) s = .next s)) ∧
      (∀ n o, n < 8 → n % 2 = 1 → o < 0x1000 → a = 0x30000 + 0x1000 * n + o → pageAt a = none) ∧
      (∀ k n o, pageAt a = some (k, n, o) → bootStage s ≠ 0x0F →
        (o = 0 → ∃ v, exec (.rcRead req .bar0 a 4 same) s = answers v ∧ fld v 31 16 = blockType k ∧ v ≠ 0) ∧
        (o = 4 → ∃ v, exec (.rcRead req .bar0 a 4 same) s = answers v ∧ fld v 31 24 = 1 ∧ fld v 23 16 = 0) ∧
        (8 ≤ o → tileAsleep s k n = true → exec (.rcRead req .bar0 a 4 same) s = answers 0 ∧
          ∀ (v : Word) (c : Quad), exec (.registerWrite req .bar0 a ⟨toLe 4 v.toNat, c⟩) s = .next s))) ∧
    (∀ i, req = .vf i → bootStage s ≠ 0x0F → a = 4 ∨ a = 0x1004 →
      ∃ v, exec (.rcRead req .bar0 a 4 same) s = answers v ∧ fld v 31 24 = 1 ∧ fld v 23 16 = 0)

/-! ## Registers (R9 to R15, R81, R415, R590, R600) -/

/-- RC_READ of a 32-bit RC register of a PCIe or HBM page returns its value and leaves in it the increments of the read's cycle (R11, R12); of a
register that is not RC it returns the value and changes nothing. READBACK returns STEP_COUNT [31:0], to a tenant through its status page, and
changes nothing; but a read other than a tenant's waits while a channel-table entry is being checked or a port's table write waits (R81; whose writes
those are the state does not tell, log entry 119). -/
def Obligations.Register_reads : Prop :=
  (∀ (s : State) (a same : Nat) (k : PageKind) (n o : Nat) (r : RegDef), k ∈ [PageKind.pcie, .hbm] → pageAt a = some (k, n, o) → 0x10 ≤ o →
       regDefAt a = some r → r.wide = .one → mgmtReaches s → bootStage s ≠ 0x0F →
       ∃ t, exec (.rcRead .mgmt .bar0 a 4 same) s = .next t ∧ t.links.answer = some ((rd s a).setWidth 64) ∧ t.links.abort = false ∧
         rd t a = (if r.rc then BitVec.ofNat 32 same else rd s a) ∧ (∀ b, b ≠ a → rd t b = rd s b) ∧
         t = { s with regs := t.regs, links := t.links } ∧ t.links = { s.links with answer := t.links.answer, abort := false }) ∧
  (∀ (s : State) (req : Requester), reaches s req = true → (∀ i, req ≠ .vf i) → (s.sched.inval.isSome = true ∨ tableWaits s = true) →
       exec (.readback req) s = .next { s with links := { s.links with answer := none, abort := false, readbacks := s.links.readbacks ++ [req] } }) ∧
  (∀ (s : State) (req : Requester), reaches s req = true → bootStage s ≠ 0x0F → ((∃ i, req = .vf i) ∨ s.sched.inval = none ∧ tableWaits s = false) →
       ∃ t, exec (.readback req) s = .next t ∧ t.links.answer = some (BitVec.ofNat 64 (s.now % 2 ^ 32)) ∧
         t = { s with links := t.links } ∧ t.links = { s.links with answer := t.links.answer, abort := false })

/-- REG_ACCESS outside the production test state acts as BYPASS and is counted; in it, a 4-byte write reaches the registers as one of the management
function does, and a read leaves its value for the next Capture-DR (R587, R590). -/
def Obligations.RegAccess_needs_the_production_test_state : Prop :=
  ∀ (s : State) (w : BitVec 98),
    (s.chip.test.prod = false → ∃ t, exec (.regAccess w) s = .next t ∧ t.chip.test.ir = 0xFF ∧
      t.chip.test = { s.chip.test with ir := 0xFF } ∧ OnlyRegs { s with chip := t.chip } t [Reg.test.TAP_REFUSED] ∧
      t.chip = { s.chip with test := t.chip.test } ∧ rd t Reg.test.TAP_REFUSED = counted Reg.test.TAP_REFUSED (rd s Reg.test.TAP_REFUSED)) ∧
    (∀ (n : Fin 8) (r : RegDef) (o : Nat), s.chip.test.prod = true → s.running = true → bootStage s ≠ 0x0F → 0x10 ≤ o → o < 0x1000 → o ≠ 0x30 →
      w.getLsbD 96 = false → (w.toNat / 2 ^ 64) % 2 ^ 32 = pageBase .hbm n.val + o → regDefAt (pageBase .hbm n.val + o) = some r → r.wide = .one → r.rc = false →
      ∃ t, exec (.regAccess w) s = .next t ∧ t.chip.test.ir = 0x11 ∧
        (w.getLsbD 97 = true → rd t (pageBase .hbm n.val + o) = writtenWord r (rd s (pageBase .hbm n.val + o)) (w.setWidth 32)) ∧
        (w.getLsbD 97 = false → t.chip.test.readOut = (rd s (pageBase .hbm n.val + o)).setWidth 64 ∧ t.regs = s.regs) ∧
        (∀ a, a ≠ pageBase .hbm n.val + o → rd t a = rd s a) ∧ t = { s with regs := t.regs, chip := t.chip } ∧
        t.chip = { s.chip with test := t.chip.test })

/-! ## The step clock (R34 to R47) -/

/-- A tick of card mode (R38, R39, R387): INTERNAL_TICK while STEP_RUN is 1 raises STEP_COUNT by 1 and opens the seam, and the channel-table
versions accepted before it come into force. Memory, fabric and chip stay as they are. A TICK_IN edge of hall mode within TICK_GUARD of its time,
the first edge of all too, is accepted: without a pending mark STEP_COUNT rises by 1 and the flywheel ends. An earlier edge only counts in
TICK_EARLY and raises its event (R37 to R39, R45). FLYWHEEL_TICK in hall mode below TICK_LOSS_LIMIT: the tick comes from the flywheel, TICK_MISSED
counts it, and without a pending mark STEP_COUNT rises by 1 (R39, R45). -/
def Obligations.Ticks_open_the_next_step : Prop :=
  (∀ s : State, s.hall = false → s.step.run = true → s.running = true →
       ∃ t, exec .internalTick s = .next t ∧
         t.step = { s.step with count := s.step.count + 1, ticks := s.step.ticks + 1, seam := true, everRun := true, noToken := [] } ∧
         (∀ c, (chan t c).force = (chan s c).accepted) ∧
         t.mem = s.mem ∧ t.links = s.links ∧ t.chip = s.chip ∧ t.faults = s.faults ∧
         (∀ a, a ≠ pageBase .atrium 0 + 0x28 → a ≠ pageBase .sched 0 + 0x28 → a ≠ Reg.sched.OVERRUN_COUNT → a ≠ Reg.sched.TP_LATE → rd t a = rd s a)) ∧
  (∀ (s : State) (ns : Nat), s.hall = true → s.running = true →
       (s.step.everRun = false ∨ (periodNs (periodSel s) - (rd s Reg.atrium.TICK_GUARD).toNat ≤ ns ∧ ns ≤ periodNs (periodSel s) + (rd s Reg.atrium.TICK_GUARD).toNat) →
         s.step.mark = none → ∃ t, exec (.tickInEdge ns) s = .next t ∧
           t.step = { s.step with count := s.step.count + 1, ticks := s.step.ticks + 1, seam := true, everRun := true, noToken := [], flywheel := false,
                                  missedRun := 0, lossRaised := false, mismatchRun := 0 } ∧
           t.mem = s.mem ∧ t.links = s.links ∧ t.chip = s.chip) ∧
       (s.step.everRun = true → ns < periodNs (periodSel s) - (rd s Reg.atrium.TICK_GUARD).toNat →
         ∃ t, exec (.tickInEdge ns) s = .next t ∧ rd t Reg.atrium.TICK_EARLY = counted Reg.atrium.TICK_EARLY (rd s Reg.atrium.TICK_EARLY) ∧
           (testBit (rd s (pageBase .atrium 0 + 0x24)) 2 = true → testBit (rd t (pageBase .atrium 0 + 0x28)) 2 = true) ∧
           OnlyRegs s t [Reg.atrium.TICK_EARLY, pageBase .atrium 0 + 0x28])) ∧
  (∀ s : State, s.hall = true → s.step.everRun = true → s.running = true → s.step.missedRun + 1 < lossLimit s → s.step.mark = none →
       ∃ t, exec .flywheelTick s = .next t ∧
         t.step = { s.step with count := s.step.count + 1, ticks := s.step.ticks + 1, seam := true, noToken := [], flywheel := true,
                                missedRun := s.step.missedRun + 1, mismatchRun := 0 } ∧
         rd t Reg.atrium.TICK_MISSED = counted Reg.atrium.TICK_MISSED (rd s Reg.atrium.TICK_MISSED) ∧
         t.mem = s.mem ∧ t.links = s.links ∧ t.chip = s.chip)

/-- STEP_OPEN in the seam of a node in its C0 safe state ends the seam and does no work: no queue, table, channel, tenant, memory or port changes
(R42, R484). None follows a tick once card-mode stepping is stopped (R41). In a node without a fault the background work may start again, and what was issued stays issued (R42, R43, R71). STEP_RUN in card mode:
1 starts stepping and makes the step valid, with the period of PERIOD_SEL; 0 stops it unless a flight or an admitted part is there, which keeps it
(R41). -/
def Obligations.Steps_open_and_stepping_stops : Prop :=
  (∀ (s : State) (env : OpenEnv), s.step.seam = true →
       (s.hall = false → s.step.run = false → exec (.stepOpen env) s = .next s) ∧
       (s.hall = true ∨ s.step.run = true → s.c0 = true → ∃ t, exec (.stepOpen env) s = .next t ∧
         t.step = { s.step with seam := false, noToken := env.tokenMissing.map (·.val) } ∧ t.sched.queued = s.sched.queued ∧
         t.sched.ready = s.sched.ready ∧ t.store.tables = s.store.tables ∧ t.store.chans = s.store.chans ∧ t.store.tenants = s.store.tenants ∧
         t.mem = s.mem ∧ t.links.ports = s.links.ports) ∧
       (s.hall = true ∨ s.step.run = true → s.c0 = false → ∃ t, exec (.stepOpen env) s = .next t ∧ t.step.bgHold = false ∧ t.pending = s.pending ∧ t.hall = s.hall ∧
         s.links.out <+: t.links.out ∧ s.links.wire <+: t.links.wire)) ∧
  (∀ s : State, s.hall = false →
       (s.step.run = false → ∃ t, exec (.stepRun true) s = .next t ∧ t.step = { s.step with run := true, valid := true } ∧
         rdf t Reg.atrium.STEP_STATUS 5 4 = rdf s Reg.atrium.STEP_CTRL 2 1 ∧ t = { s with regs := t.regs, step := t.step }) ∧
       (s.sched.flights = [] → (∀ f ∈ s.sched.parts, f.part.any (·.admitted) = false) →
         exec (.stepRun false) s = .next { s with step := { s.step with run := false } }) ∧
       (s.sched.flights ≠ [] → exec (.stepRun false) s = .next s))

/-- A STEP_MARK frame that passes the ingress checks: its number becomes PENDING; of the current step it is late, and before alignment the first
number stands (R45, R465). Only the mark's registers and the port's counters change. -/
def Obligations.StepMark_becomes_pending : Prop :=
  ∀ (s : State) (f : Frame), f.typ = 0x02 → accepts s f → s.hall = true →
    let n : Epoch := BitVec.ofNat 48 (leAt f.body 0 6)
    let u := delivered s f
    (s.step.valid = true ∧ n = s.step.count → ∃ t, exec (.stepMark f) s = .next t ∧
      rd t Reg.atrium.MARK_LATE = counted Reg.atrium.MARK_LATE (rd s Reg.atrium.MARK_LATE) ∧ OnlyRegs u t [Reg.atrium.MARK_LATE]) ∧
    (s.step.valid = false ∧ s.step.mark.isSome = true → exec (.stepMark f) s = .next u) ∧
    ((s.step.valid = true → n ≠ s.step.count) → (s.step.valid = false → s.step.mark = none) → ∃ t, exec (.stepMark f) s = .next t ∧
      t.step = { s.step with mark := some n } ∧ rd64 t Reg.atrium.STEP_MARK = 2 ^ 63 + n.toNat ∧
      OnlyRegs { u with step := t.step } t [Reg.atrium.STEP_MARK, Reg.atrium.STEP_MARK + 4])

/-! ## Flights and their stages (R59 to R73, R179, R215, R523) -/

/-- FLIGHT_CANCEL is noted in the flight alone; BG_FENCE tells every running background stage to yield; a yielding stage at its pre-emption point is
suspended with its progress, and starts nothing where no foreground stage waits for its tiles (R71, R72, R73). CORR_UE: CORR_UE is set in the atrium page's ERR_STAT, and the stage fails if it runs on the gallery (R523). -/
def Obligations.Flights_yield_and_stages_fail : Prop :=
  (∀ s : State,
       (∀ id, exec (.flightCancel id) s = .next { s with sched := { s.sched with
         flights := s.sched.flights.map fun f => if f.id = id then { f with cancel := true } else f } }) ∧
       (∃ t, exec .bgFence s = .next t ∧ t.step = { s.step with bgHold := true } ∧ t = { s with step := t.step, sched := t.sched } ∧
         t.sched = { s.sched with flights := t.sched.flights, parts := t.sched.parts } ∧ t.sched.flights.length = s.sched.flights.length ∧
         (∀ f ∈ t.sched.flights, f.background = true → ∀ r ∈ f.stages, r.runs = true → r.yielding = true) ∧
         (∀ f ∈ s.sched.flights, f.background = false → f ∈ t.sched.flights)) ∧
       (∀ (f : Flight) (d : StageDef) (no p : Nat), workOf s f.id = some f → f.background = true → f.plan.stages[no]? = some d → d.no = no → d.kind ≠ 0x12 →
         (∀ g ∈ s.sched.flights ++ s.sched.parts, ∀ r ∈ g.stages, r.waitsForYield = false) →
         (f.run no).runs = true → (f.run no).yielding = true → f.cancel = false →
         ∃ t, exec (.preemptionPoint f.id no p) s = .next t ∧
           t.sched = (updWork s f.id fun _ => f.setRun no fun r => { r with suspended := true, yielding := false }).sched ∧
           t.store = s.store ∧ t.mem = s.mem ∧ t.links = s.links ∧ t.step = s.step)) ∧
  (∀ (s : State) (f : Flight) (d : StageDef) (no : Nat) (g : Fin 50), testBit (rd s (pageBase .atrium 0 + 0x34)) 3 = true → workOf s f.id = some f →
       f.plan.stages[no]? = some d → no < f.stages.length → (stageGalleries f.plan f.gmap d).contains g.val = true →
       ∃ t w, exec (.corrUe f.id no g) s = .next t ∧ workOf t f.id = some w ∧ (w.run no).failed = true ∧ (∀ k, k ≠ no → w.run k = f.run k) ∧
         testBit (rd t (pageBase .atrium 0 + 0x30)) 3 = true ∧ t = { s with regs := t.regs, sched := t.sched } ∧
         ∀ a, a ≠ pageBase .atrium 0 + 0x30 → a ≠ pageBase .atrium 0 + 0x3C → rd t a = rd s a)

/-- STAGE_COMPLETE of a gallery while another is still to signal only notes it. The last gallery of a search's RAKE_MERGE completes the stage: the
candidates are deduplicated, and the flight's other stages stand (R62, R179, R180, R209). Of a stage that has overrun the signal is only kept
(R69). -/
def Obligations.StageComplete_waits_for_every_gallery : Prop :=
  ∀ (s : State) (f : Flight) (d : StageDef) (no : Nat) (g : Fin 50), workOf s f.id = some f → f.part = none → f.plan.stages[no]? = some d →
    (f.run no).runs = true → (stageGalleries f.plan f.gmap d).contains g.val = true → stageHeld s f d = false → no < f.stages.length →
    ((∃ h ∈ stageGalleries f.plan f.gmap d, h ≠ g.val ∧ h ∉ (f.run no).done) →
      ∃ t, exec (.stageComplete f.id no g) s = .next t ∧
        workOf t f.id = some (f.setRun no fun r => { r with done := insertNat r.done g.val, complete := false }) ∧
        t.store = s.store ∧ t.mem = s.mem ∧ t.links = s.links ∧ t.step = s.step) ∧
    ((∀ h ∈ stageGalleries f.plan f.gmap d, h = g.val ∨ h ∈ (f.run no).done) → d.kind = 0x07 → f.kind = .search → f.background = false →
      (f.run no).overrun = false →
      ∃ t w, exec (.stageComplete f.id no g) s = .next t ∧ workOf t f.id = some w ∧ (w.run no).complete = true ∧
        w.work.rake = dedupe f.work.rake ∧ (∀ k, k ≠ no → w.run k = f.run k) ∧ t.mem = s.mem ∧ t.links = s.links ∧ t.step = s.step) ∧
    ((f.run no).overrun = true → ∃ t, exec (.stageComplete f.id no g) s = .next t ∧
      workOf t f.id = some (f.setRun no fun r => { r with done := insertNat r.done g.val, complete := false }) ∧
      t.store = s.store ∧ t.mem = s.mem ∧ t.links = s.links ∧ t.step = s.step)

/-- UPDATE_COMMIT of a batch whose stages are done waits in the seam; outside it the galleries flush what COPY wrote (R320), and the collections, the slot history and the journal take the commit
and the batch is a flight no more (R79, R215). -/
def Obligations.UpdateCommit_commits_outside_the_seam : Prop :=
  ∀ (s : State) (f : Flight), flightOf s f.id = some f → readyToCommit s f = true →
    (s.step.seam = true → exec (.updateCommit f.id) s = .next s) ∧
    (∀ (u : State) (items : List UpdItem) (first : Nat), s.step.seam = false →
      (commitTo (flushCopy s f) (some f.id) f.obj s.now f.desc.isInsert f.desc.ifAbsent none none f.work.items).1 = some (u, items, first) →
      ∃ t, exec (.updateCommit f.id) s = .next t ∧ flightOf t f.id = none ∧ t.store.colls = u.store.colls ∧ t.sched.hist = u.sched.hist ∧
        t.mem.flash = u.mem.flash ∧ t.mem.hbm = s.mem.hbm)

/-! ## Transplants (R229 to R233) -/

/-- TRANSPLANT_GRID in a grid step with a free place: the first eligible partition with room takes it, with the step as its cut and its publication
TP_LAG steps later; with one eligible partition nothing else changes, and in a step that is not a grid step, with TP_EN 0 or without alignment,
nothing starts (R229). TRANSPLANT_SEAL of a partition whose nodes read good stores the rebuilt partition, or ends a transplant that cannot split,
counted in TP_BLOCKED; it ends that of a dropped collection, and does nothing between BG_FENCE and the open instant. TRANSPLANT_PUBLISH waits while
one of the epoch has not sealed, in the seam and while stepping is stopped; then it puts a version with the publication epoch first and ends the
transplants, or only ends those of a dropped collection (R41, R71, R231, R232, R233, R241). -/
def Obligations.Transplants_start_seal_and_publish : Prop :=
  (∀ (s : State) (carriers : List (Fin 50)), (∀ i, (pairAt s i).due = none) →
       let grid := s.step.valid = true ∧ s.now % max 1 (rdf s Reg.sched.TP_GRID 15 0) = 0 ∧ testBit (rd s Reg.sched.TP_CTRL) 0 = true
       (¬grid → exec (.transplantGrid carriers) s = .next s) ∧
       (grid → eligibleParts s = [] → exec (.transplantGrid carriers) s = .next s) ∧
       (∀ (n p : Nat) (c : Coll) (rest : List (Nat × Nat)), grid → tpRunning s < max 1 (rdf s Reg.sched.TP_CTRL 4 1) →
         eligibleParts s = (n, p) :: rest → Tbl.get s.store.colls n = some c → tpRoom s c p = true →
         ∃ t d x, exec (.transplantGrid carriers) s = .next t ∧ Tbl.get t.store.colls n = some d ∧ x ∈ d.tps ∧ x.part = p ∧ x.cut = s.now ∧
           x.pub = s.now + rdf s Reg.sched.TP_LAG 15 0 ∧ x.sealed = false ∧ d.versions = c.versions ∧ d.slots = c.slots ∧
           (rest = [] → t = { s with store := { s.store with colls := Tbl.set s.store.colls n { c with tps := c.tps ++ [x] } } } ∧
             ∀ h, carriers.head? = some h → x.gallery = h.val))) ∧
  (∀ (s : State) (n : Fin 4096) (c : Coll) (x : Transplant) (p : Fin 256), Tbl.get s.store.colls n.val = some c → c.tps = [x] → x.part = p.val →
       let put (k : Coll) : State := { s with store := { s.store with colls := Tbl.set s.store.colls n.val k } }
       (x.sealed = false → s.step.bgHold = false →
         (c.life ≠ .serving → ∀ choices, exec (.transplantSeal n p choices) s = .next (put { c with tps := [] })) ∧
         (∀ (choices : List (Fin 8)) (v : Version), c.life = .serving → c.bind x.cut = some v → (∀ m ∈ partNodes v p.val, m.ok = (true, true)) →
           (∀ y cw ns ls, rebuildPart s c v x = some (y, cw) → placeNew s c.info x.pub choices y.nodes y.leaves = some (ns, ls) →
             ∃ t, exec (.transplantSeal n p choices) s = .next t ∧
               t.store = (put { c with tps := [{ x with sealed := true, nodes := ns, leaves := ls, carried := cw }] }).store ∧
               t = { s with regs := t.regs, store := t.store, chip := { s.chip with free := s.chip.free + 1 } } ∧
               ∀ a, a ≠ Reg.gallery.FLUSH_LINES x.gallery →
                 (∀ k, k < 16 → a ≠ Reg.tile.SAT_TOTAL (16 * x.gallery + k) ∧ a ≠ Reg.tile.NAN_TOTAL (16 * x.gallery + k)) → rd t a = rd s a) ∧
           (rebuildPart s c v x = none → ∃ t, exec (.transplantSeal n p choices) s = .next t ∧
             t.store = (put { c with tps := [], blockNext := c.blockNext ++ [p.val] }).store ∧
             rd t Reg.sched.TP_BLOCKED = counted Reg.sched.TP_BLOCKED (rd s Reg.sched.TP_BLOCKED) ∧
             OnlyRegs { s with store := t.store } t [Reg.sched.TP_BLOCKED, pageBase .sched 0 + 0x28]))) ∧
       (s.step.bgHold = true → ∀ choices, exec (.transplantSeal n p choices) s = .next s) ∧
       (c.life ≠ .serving → exec (.transplantPublish n) s = .next (put { c with tps := [] })) ∧
       (c.life = .serving → (x.sealed = false ∨ s.now < x.pub ∨ s.step.seam = true ∨ s.hall = false ∧ s.step.run = false) →
         exec (.transplantPublish n) s = .next s) ∧
       (∀ places, places = rootPlaces s (rootBytes c) (heapOf s) c.versions.length → places.length = c.versions.length → c.life = .serving →
         x.sealed = true → x.pub ≤ s.now → s.step.seam = false → (s.hall = true ∨ s.step.run = true) → ∃ t k, exec (.transplantPublish n) s = .next t ∧
         Tbl.get t.store.colls n.val = some k ∧ k.tps = [] ∧ k.versions = publishInto [x] c.blockNext x.pub places c.versions ∧ k.slots = c.slots ∧
         k.keymap = c.keymap ∧ (∀ m, m ≠ n.val → Tbl.get t.store.colls m = Tbl.get s.store.colls m) ∧
         rd t Reg.sched.TP_PUBLISHED = counted Reg.sched.TP_PUBLISHED (rd s Reg.sched.TP_PUBLISHED) ∧
         t.mem = s.mem ∧ t.sched = s.sched ∧ t.links = s.links))

/-! ## The host's rings (R157, R416 to R427) -/

/-- A descriptor that arrives from a channel the node may fetch from, that passes orders 1 to 3 of R160 and that the next step is not too late for,
waits for admission with its arrival step and the bytes its fields name (R157, R162); the ring's head moves on, and only the cache of channel entries and its counters change besides (R157, R388, R418, R420). A descriptor that
could not be read takes its slot and completes with FETCH_ERROR, without TAG and OPCODE; FETCH_ERR is set and FETCH_ERRORS counts it. With room in
the completion ring one entry goes out (R420, R421). -/
def Obligations.Descriptors_are_queued_or_fail : Prop :=
  (∀ (s : State) (c : Fin 4096) (desc buf keys : List Byte), mayFetch s c.val = true → s.c0 = false →
       let ch := chan s c.val
       let d0 : Desc := ⟨c.val, ch.sqHead, fetched 256 desc, [], [], s.ticks, s.sched.nextOrder, ch.accepted.backlog ≤ backlog s c.val⟩
       let d : Desc := { d0 with buf := fetched d0.bufferBytes.1 buf, keys := fetched d0.bufferBytes.2 keys }
       earlyStatus s d = 0 → (∀ x ∈ s.sched.queued, x.order ≠ s.sched.nextOrder) →
       (∀ p, planOf s d.planSlot = some p → d.tooLate (s.ticks + 1) p.span = false) →
       ∃ t, exec (.descriptorArrival c desc buf keys) s = .next t ∧ t.sched.queued = s.sched.queued ++ [d] ∧ t.sched.nextOrder = s.sched.nextOrder + 1 ∧
         chan t c.val = { ch with sqHead := (ch.sqHead + 1) % 2 ^ ch.accepted.sqLog, outstanding := ch.outstanding + 1 } ∧
         (∀ k, k ≠ c.val → chan t k = chan s k) ∧ t.sched.flights = s.sched.flights ∧ t.store.colls = s.store.colls ∧
         t = { s with regs := t.regs, sched := t.sched, store := t.store } ∧
         ∀ a, a ≠ Reg.sched.CHAN_HITS → a ≠ Reg.sched.CHAN_MISSES → rd t a = rd s a) ∧
  (∀ (s : State) (c : Fin 4096), mayFetch s c.val = true → testBit (rd s (pageBase .pcie 0 + 0x34)) 4 = true → cqFull (chan s c.val) = false →
       (chan s c.val).arm = false →
       ∃ t, exec (.fetchError c none) s = .next t ∧
         t.links.out = s.links.out ++ [.write (vfOf c.val) (BitVec.ofNat 64 ((chan s c.val).accepted.cqAddr.toNat + 32 * (chan s c.val).cqTail))
           (cqeBytes c.val { chan s c.val with sqHead := ((chan s c.val).sqHead + 1) % 2 ^ (chan s c.val).accepted.sqLog }
             ⟨0, ST_FETCH_ERROR, 0, false, (chan s c.val).sqHead, 0, 0⟩)] ∧
         (chan t c.val).sqHead = ((chan s c.val).sqHead + 1) % 2 ^ (chan s c.val).accepted.sqLog ∧
         (chan t c.val).outstanding = (chan s c.val).outstanding ∧ testBit (rd t (pageBase .pcie 0 + 0x30)) 4 = true ∧
         rd t Reg.pcie.FETCH_ERRORS = counted Reg.pcie.FETCH_ERRORS (rd s Reg.pcie.FETCH_ERRORS) ∧ t.sched = s.sched ∧ t.mem = s.mem ∧ t.chip = s.chip)

/-- Doorbells. SQ_TAIL within the ring moves the tail; CQ_HEAD within the ring frees entries, and without ARM and waiting completions does no more;
any other value changes nothing but DB_ERR and DB_ERRORS (R418, R425). -/
def Obligations.Doorbells_move_the_ring_or_are_errors : Prop :=
  ∀ (s : State) (c : Fin 4096) (v : Word), (pciState s (vfOf c.val)).d3 = false →
    (sqTailOk s c.val (fld v 11 0) = true →
      exec (.sqTail c v) s = .next (updChan s c.val fun x => { x with sqTail := fld v 11 0 })) ∧
    (cqHeadOk s c.val (fld v 13 0) = true → testBit v 31 = false → (chan s c.val).waiting = [] →
      ∃ t, exec (.cqHead c v) s = .next t ∧ chan t c.val = { chan s c.val with cqHead := fld v 13 0 } ∧
        (∀ k, k ≠ c.val → chan t k = chan s k) ∧ t = { s with store := t.store } ∧ t.store = { s.store with chans := t.store.chans }) ∧
    (sqTailOk s c.val (fld v 11 0) = false → ∃ t, exec (.sqTail c v) s = .next t ∧
      testBit (rd t (Reg.tstatus.DB_ERR (c.val / 16))) (c.val % 16) = true ∧ rd t Reg.pcie.DB_ERRORS = counted Reg.pcie.DB_ERRORS (rd s Reg.pcie.DB_ERRORS) ∧
      OnlyRegs s t [Reg.tstatus.DB_ERR (c.val / 16), Reg.pcie.DB_ERRORS]) ∧
    (cqHeadOk s c.val (fld v 13 0) = false → ∃ t, exec (.cqHead c v) s = .next t ∧
      testBit (rd t (Reg.tstatus.DB_ERR (c.val / 16))) (c.val % 16) = true ∧ OnlyRegs s t [Reg.tstatus.DB_ERR (c.val / 16), Reg.pcie.DB_ERRORS])

/-- CHAN_INVAL starts the check of one entry; CHAN_INVAL_DONE leaves its RESULT, accepts a good entry with the next VERSION and leaves a refused one
out, and the reads of READBACK that waited for it complete (R81, R82). A second CHAN_INVAL changes nothing. An edit entry beyond HBM's 39 bits is a fault (R385, R386, R313). -/
def Obligations.ChanInval_checks_one_entry : Prop :=
  ∀ (s : State) (c : Fin 4096),
    (s.sched.inval = none → ∃ t, exec (.chanInval c) s = .next t ∧ t.sched = { s.sched with inval := some c.val } ∧
      testBit (rd t Reg.sched.CHAN_STATUS) 31 = true ∧ OnlyRegs { s with sched := t.sched } t [Reg.sched.CHAN_STATUS]) ∧
    (s.sched.inval.isSome = true → exec (.chanInval c) s = .next s) ∧
    (s.sched.inval = some c.val →
      let a := rd64 s Reg.sched.CHAN_TABLE_BASE + 256 * c.val
      let b := hbmBytes s a 256
      (inHbm a 256 = false → exec .chanInvalDone s = .fault (.hbmAddress a)) ∧
      (inHbm a 256 = true → s.links.fmHeld = [] → s.links.readbacks ≠ [] → tableWaits s = false → ∃ t, exec .chanInvalDone s = .next t ∧
        t.sched = { s.sched with inval := none } ∧ t.links.readbacks = [] ∧ t.links.answer = some (BitVec.ofNat 64 (s.now % 2 ^ 32))) ∧
      (inHbm a 256 = true → s.links.fmHeld = [] → s.links.readbacks = [] → ∃ t, exec .chanInvalDone s = .next t ∧ t.sched = { s.sched with inval := none } ∧
        rd t Reg.sched.CHAN_STATUS = BitVec.ofNat 32 (invalResult s c.val b) ∧
        (invalResult s c.val b = 0 → (chan t c.val).accepted.version = (chan s c.val).accepted.version + 1 ∧
          (chan t c.val).accepted.enabled = (parseEntry b).enabled ∧ (chan t c.val).force = (chan s c.val).force) ∧
        (invalResult s c.val b ≠ 0 → t.store = s.store) ∧ (∀ k, k ≠ c.val → chan t k = chan s k) ∧
        t = { s with regs := t.regs, sched := t.sched, store := t.store } ∧
        ∀ r, r ≠ Reg.sched.CHAN_STATUS → r ≠ pageBase .sched 0 + 0x28 → rd t r = rd s r))

/-! ## Flight plans and profiles (R54, R55, R107, R108) -/

/-- PLAN_LOAD and PLAN_RETIRE with BUSY 0 set BUSY and note what they act on; a plan being retired takes no new work. With BUSY 1 they are ignored
(R54, R55). PLAN_LOAD_DONE leaves RESULT with BUSY 0 and puts an accepted plan in its slot; an image outside HBM's 39 bits is a fault.
PLAN_SLOT_EMPTIED empties a retired slot that no admitted flight uses (R54, R55, R313). -/
def Obligations.Plans_are_loaded_and_retired : Prop :=
  (∀ s : State,
       (busyBit s Reg.sched.PLAN_STATUS = false →
         (∃ t, exec .planLoad s = .next t ∧ busyBit t Reg.sched.PLAN_STATUS = true ∧
           t.sched = { s.sched with planLoad := some (rd64 s Reg.sched.PLAN_LOAD_ADDR, rdf s Reg.sched.PLAN_LOAD_SLOT 9 0) } ∧
           OnlyRegs { s with sched := t.sched } t [Reg.sched.PLAN_STATUS]) ∧
         (∃ t, exec .planRetire s = .next t ∧ busyBit t Reg.sched.PLAN_STATUS = true ∧ t.sched.planRetire = some (rdf s Reg.sched.PLAN_LOAD_SLOT 9 0) ∧
           planOf t (rdf s Reg.sched.PLAN_LOAD_SLOT 9 0) = none ∧ (∀ k, k ≠ rdf s Reg.sched.PLAN_LOAD_SLOT 9 0 → planOf t k = planOf s k) ∧
           OnlyRegs { s with sched := t.sched } t [Reg.sched.PLAN_STATUS])) ∧
       (busyBit s Reg.sched.PLAN_STATUS = true → exec .planLoad s = .next s ∧ exec .planRetire s = .next s)) ∧
  (∀ (s : State) (slot : Nat),
       (∀ a, s.sched.planLoad = some (a, slot) →
         ((inHbm a 64 && inHbm a (planImage s a).length) = false → exec .planLoadDone s = .fault (.hbmAddress a)) ∧
         ((inHbm a 64 && inHbm a (planImage s a).length) = true → ∃ t, exec .planLoadDone s = .next t ∧
           rd t Reg.sched.PLAN_STATUS = BitVec.ofNat 32 (planResult s slot (planImage s a)) ∧ t.sched.planLoad = none ∧
           (planResult s slot (planImage s a) = 0 → planOf t slot = some (parsePlan (planImage s a)) ∧ ∀ k, k ≠ slot → planOf t k = planOf s k) ∧
           (planResult s slot (planImage s a) ≠ 0 → t.sched.plans = s.sched.plans) ∧
           OnlyRegs { s with sched := t.sched } t [Reg.sched.PLAN_STATUS])) ∧
       (s.sched.planRetire = some slot → slotUsed s slot = true → exec .planSlotEmptied s = .next s) ∧
       (s.sched.planRetire = some slot → slotUsed s slot = false → ∃ t, exec .planSlotEmptied s = .next t ∧ planOf t slot = none ∧
         t.sched.planRetire = none ∧ (∀ k, k ≠ slot → planOf t k = planOf s k) ∧ busyBit t Reg.sched.PLAN_STATUS = false ∧
         OnlyRegs { s with sched := t.sched } t [Reg.sched.PLAN_STATUS]))

/-- PROFILE_LOAD notes its address and sets BUSY; PROFILE_LOAD_DONE leaves RESULT and FAIL_KERNEL, adds an accepted profile to the store, and
PROFILE_COUNT follows it; a refused one leaves the store (R107, R108). -/
def Obligations.Profiles_are_loaded : Prop :=
  ∀ s : State,
    (busyBit s Reg.sched.PROFILE_STATUS = false → ∃ t, exec .profileLoad s = .next t ∧ busyBit t Reg.sched.PROFILE_STATUS = true ∧
      t.sched = { s.sched with profileLoad := some (rd64 s Reg.sched.PROFILE_LOAD_ADDR) } ∧
      OnlyRegs { s with sched := t.sched } t [Reg.sched.PROFILE_STATUS]) ∧
    (∀ a, s.sched.profileLoad = some a → (inHbm a 64 && inHbm a (profileImage s a).length) = true →
      ∃ t, exec .profileLoadDone s = .next t ∧ t.sched.profileLoad = none ∧
        rd t Reg.sched.PROFILE_STATUS = BitVec.ofNat 32 ((profileResult s (profileImage s a)).2 * 256 + (profileResult s (profileImage s a)).1) ∧
        rd t Reg.sched.PROFILE_COUNT = BitVec.ofNat 32 t.sched.profiles.length ∧
        ((profileResult s (profileImage s a)).1 = 0 → t.sched.profiles = addProfile s.sched.profiles (profileImage s a)) ∧
        ((profileResult s (profileImage s a)).1 ≠ 0 → t.sched.profiles = s.sched.profiles) ∧
        OnlyRegs { s with sched := t.sched } t [Reg.sched.PROFILE_STATUS, Reg.sched.PROFILE_COUNT])

/-! ## Loads of collections and tables (R150 to R155, R290) -/

/-- A load of a collection or of a table starts where no load is in progress, the chunk is well formed, the target EMPTY and the tenant ADMITTED:
the target is LOADING, BUSY is 1 and OFFSET 0. CONTINUE takes a further chunk while NEED_DATA is 1. Both note the chunk's length as it was checked
(R151, R152, R290). -/
def Obligations.Loads_start_and_continue : Prop :=
  ∀ s : State,
    (s.store.load = none → chunkShape s collRegs = true → 4096 ≤ chunkLen s collRegs → Tbl.get s.store.colls (collTarget s) = none →
      tenantState s (collTenant s) = 1 → ∃ t, exec .collLoadStart s = .next t ∧
        t.store = { s.store with load := some ⟨collTarget s, collTenant s, chunkLen s collRegs, [], [], false⟩, colls := t.store.colls } ∧
        (∃ c, Tbl.get t.store.colls (collTarget s) = some c ∧ c.life = .loading ∧ c.tenant = collTenant s) ∧
        (∀ k, k ≠ collTarget s → Tbl.get t.store.colls k = Tbl.get s.store.colls k) ∧
        busyBit t Reg.sched.COLL_STATUS = true ∧ rd64 t Reg.sched.COLL_LOAD_OFFSET = 0 ∧
        OnlyRegs { s with store := t.store } t [Reg.sched.COLL_STATUS, Reg.sched.COLL_LOAD_OFFSET, Reg.sched.COLL_LOAD_OFFSET + 4]) ∧
    (s.store.tload = none → chunkShape s tableRegs = true → 4096 ≤ chunkLen s tableRegs → Tbl.get s.store.tables (tableTarget s) = none →
      tenantState s (tableTenant s) = 1 → ∃ t, exec .tableLoadStart s = .next t ∧
        t.store = { s.store with tload := some ⟨tableTarget s, tableTenant s, chunkLen s tableRegs, [], [], false⟩, tables := t.store.tables } ∧
        (∃ x, Tbl.get t.store.tables (tableTarget s) = some x ∧ x.life = .loading ∧ x.tenant = tableTenant s) ∧
        (∀ k, k ≠ tableTarget s → Tbl.get t.store.tables k = Tbl.get s.store.tables k) ∧
        busyBit t Reg.sched.TABLE_STATUS = true ∧ rd64 t Reg.sched.TABLE_LOAD_OFFSET = 0 ∧
        OnlyRegs { s with store := t.store } t [Reg.sched.TABLE_STATUS, Reg.sched.TABLE_LOAD_OFFSET, Reg.sched.TABLE_LOAD_OFFSET + 4]) ∧
    (∀ l, s.store.load = some l → needData s collRegs = true → chunkShape s collRegs = true →
      chunkFits (chunkLen s collRegs) (l.bytes.length + chunkLen s collRegs) (leAt l.bytes 8 8) = true →
      ∃ t, exec .collLoadContinue s = .next t ∧ busyBit t Reg.sched.COLL_STATUS = true ∧ needData t collRegs = false ∧
        t.store = { s.store with load := some { l with chunk := chunkLen s collRegs } } ∧ OnlyRegs { s with store := t.store } t [Reg.sched.COLL_STATUS]) ∧
    (∀ l, s.store.tload = some l → needData s tableRegs = true → chunkShape s tableRegs = true →
      chunkFits (chunkLen s tableRegs) (l.bytes.length + chunkLen s tableRegs) (leAt l.bytes 8 8) = true →
      ∃ t, exec .tableLoadContinue s = .next t ∧ busyBit t Reg.sched.TABLE_STATUS = true ∧ needData t tableRegs = false ∧
        t.store = { s.store with tload := some { l with chunk := chunkLen s tableRegs } } ∧ OnlyRegs { s with store := t.store } t [Reg.sched.TABLE_STATUS])

/-- ABORT of a load in progress leaves the target EMPTY with RESULT ABORTED and releases what the load placed; DROP takes a SERVING collection or a
SERVING table with work to DRAINING, and a collection's shard map goes at the next step (R152, R154, R247, R290). -/
def Obligations.Loads_are_aborted_and_objects_dropped : Prop :=
  ∀ s : State,
    (∀ l, s.store.load = some l → ∃ t, exec .collLoadAbort s = .next t ∧ t.store.load = none ∧ Tbl.get t.store.colls l.target = none ∧
      (∀ k, k ≠ l.target → Tbl.get t.store.colls k = Tbl.get s.store.colls k) ∧ fld (rd t Reg.sched.COLL_STATUS) 7 0 = 9 ∧
      busyBit t Reg.sched.COLL_STATUS = false ∧ t.mem = { s.mem with flash := s.mem.flash.release l.target } ∧ t.sched = s.sched) ∧
    (∀ l, s.store.tload = some l → ∃ t, exec .tableLoadAbort s = .next t ∧ t.store.tload = none ∧ Tbl.get t.store.tables l.target = none ∧
      (∀ k, k ≠ l.target → Tbl.get t.store.tables k = Tbl.get s.store.tables k) ∧ fld (rd t Reg.sched.TABLE_STATUS) 7 0 = 9 ∧
      busyBit t Reg.sched.TABLE_STATUS = false ∧ t.mem = { s.mem with flash := s.mem.flash.release (4096 + l.target) } ∧ t.sched = s.sched) ∧
    (∀ c, Tbl.get s.store.colls (collTarget s) = some c → c.life = .serving → ∃ t d, exec .collDrop s = .next t ∧
      Tbl.get t.store.colls (collTarget s) = some d ∧ d = { c with life := .draining, since := s.ticks, mapNext := none, mapRetiring := some (s.ticks + 1) } ∧
      (∀ k, k ≠ collTarget s → Tbl.get t.store.colls k = Tbl.get s.store.colls k) ∧ rd64 t Reg.atrium.TRELLIS_EPOCH = s.now ∧
      t.mem = s.mem ∧ t.sched = s.sched) ∧
    (∀ x, Tbl.get s.store.tables (tableTarget s) = some x → x.life = .serving → tableInUse s (tableTarget s) = true →
      ∃ t, exec .tableDrop s = .next t ∧ t.store = { s.store with
        tables := Tbl.set s.store.tables (tableTarget s) { x with life := .draining, since := s.ticks } } ∧ fld (rd t Reg.sched.TABLE_STATUS) 7 0 = 0 ∧
        OnlyRegs { s with store := t.store } t [Reg.sched.TABLE_STATUS])

/-- CHUNK_DONE of a further chunk that fits so far appends it, OFFSET follows, and NEED_DATA is 1 unless the image is complete; a failed read aborts
the load. COMMIT of a complete image whose refinement units are programmed and whose structures find their places makes the object SERVING from the
step, with what the image builds; before that it does nothing, and with more than 4e9 items on the node it ends NO_CAPACITY. COLL_DRAINED makes a
dropped collection EMPTY once no flight holds it (R125, R152, R153, R154, R290). -/
def Obligations.Loads_take_chunks_and_commit : Prop :=
  ∀ s : State,
    (∀ l, s.store.load = some l → l.last = false → busyBit s Reg.sched.COLL_STATUS = true →
      (∀ st, ∃ t, exec (.collChunkDone none st) s = .next t ∧ t.store.load = none ∧ Tbl.get t.store.colls l.target = none ∧
        fld (rd t Reg.sched.COLL_STATUS) 7 0 = 9) ∧
      (∀ (d : List Byte) (st : List (Fin 8)), l.bytes ≠ [] → d.length = l.chunk → streamFail s none (l.bytes ++ d) (l.leafStacks ++ st) = none →
        l.bytes.length + d.length < 2 ^ 64 →
        ∃ t, exec (.collChunkDone (some d) st) s = .next t ∧
          t.store.load = some { l with bytes := l.bytes ++ d, leafStacks := l.leafStacks ++ st, last := (l.bytes ++ d).length == leAt (l.bytes ++ d) 8 8 } ∧
          rd64 t Reg.sched.COLL_LOAD_OFFSET = (l.bytes ++ d).length ∧ needData t collRegs = !((l.bytes ++ d).length == leAt (l.bytes ++ d) 8 8) ∧
          t.store.colls = s.store.colls ∧ t.mem = s.mem)) ∧
    (∀ l, s.store.load = some l → (l.last = false ∨ loadProgrammed s l = false) → exec .collLoadCommit s = .next s) ∧
    (∀ l p, s.store.load = some l → l.last = true → loadProgrammed s l = true → nodeItems s ≤ 4000000000 →
      placeImage s none l.bytes l.leafStacks = .ok p → ∃ t, exec .collLoadCommit s = .next t ∧ t.store.load = none ∧
      Tbl.get t.store.colls l.target = some (buildColl s l p) ∧ (∀ k, k ≠ l.target → Tbl.get t.store.colls k = Tbl.get s.store.colls k) ∧
      busyBit t Reg.sched.COLL_STATUS = false ∧ rd64 t Reg.sched.COLL_LOAD_EPOCH = s.now ∧ rd64 t Reg.atrium.TRELLIS_EPOCH = s.now ∧
      t.mem.hbm = s.mem.hbm ∧ t.sched = s.sched) ∧
    (∀ l, s.store.load = some l → l.last = true → loadProgrammed s l = true → 4000000000 < nodeItems s → ∃ t, exec .collLoadCommit s = .next t ∧
      t.store.load = none ∧ Tbl.get t.store.colls l.target = none ∧ fld (rd t Reg.sched.COLL_STATUS) 7 0 = 8) ∧
    (∀ l, s.store.tload = some l → l.last = false → busyBit s Reg.sched.TABLE_STATUS = true →
      (∃ t, exec (.tableChunkDone none) s = .next t ∧ t.store.tload = none ∧ Tbl.get t.store.tables l.target = none ∧
        fld (rd t Reg.sched.TABLE_STATUS) 7 0 = 9) ∧
      (∀ d : List Byte, l.bytes ≠ [] → d.length = l.chunk → bucketFail (l.bytes ++ d) = none → l.bytes.length + d.length < 2 ^ 64 →
        ∃ t, exec (.tableChunkDone (some d)) s = .next t ∧
          t.store.tload = some { l with bytes := l.bytes ++ d, last := (l.bytes ++ d).length == leAt (l.bytes ++ d) 8 8 } ∧
          rd64 t Reg.sched.TABLE_LOAD_OFFSET = (l.bytes ++ d).length ∧ t.mem = s.mem)) ∧
    (∀ l, s.store.tload = some l → l.last = true → ∃ t, exec .tableLoadCommit s = .next t ∧ t.store.tload = none ∧
      Tbl.get t.store.tables l.target = some (buildTable l.tenant s.ticks l.bytes) ∧
      (∀ k, k ≠ l.target → Tbl.get t.store.tables k = Tbl.get s.store.tables k) ∧ busyBit t Reg.sched.TABLE_STATUS = false ∧ t.mem = s.mem) ∧
    (∀ (n : Fin 4096) (c : Coll), Tbl.get s.store.colls n.val = some c → c.life = .draining → collInUse s n.val = false →
      ∃ t, exec (.collDrained n) s = .next t ∧ Tbl.get t.store.colls n.val = none ∧
        (∀ k, k ≠ n.val → Tbl.get t.store.colls k = Tbl.get s.store.colls k) ∧ t.mem = { s.mem with flash := s.mem.flash.release n.val } ∧
        t.sched = s.sched)

/-! ## Models (R277 to R289) -/

/-- MODEL_LOAD and MODEL_RETIRE with BUSY 0 note their slot; MODEL_LOAD_DONE fills the slot of an accepted image and leaves RESULT and FAIL_LAYER;
MODEL_SLOT_EMPTIED empties a retired slot that nothing uses (R279). WEIGHT_STAGE_IN_DONE of a layer whose weights HBM holds puts it in the tile stores
of the stages of the earliest step that wait for it (R288; that it is those is the model's choice, log entry 140); PIN_RELAY_DONE ends a relay, with PIN_EPOCH at the step where the weights fit, and as a failed relay where they do not (R288, R289). -/
def Obligations.Models_are_loaded_and_their_weights_placed : Prop :=
  (∀ s : State,
       (busyBit s Reg.sched.MODEL_STATUS = false →
         (∃ t, exec .modelLoad s = .next t ∧ busyBit t Reg.sched.MODEL_STATUS = true ∧
           t.sched = { s.sched with modelLoad := some (rd64 s Reg.sched.MODEL_LOAD_ADDR, rdf s Reg.sched.MODEL_TARGET 5 0, rdf s Reg.sched.MODEL_TARGET 31 24) } ∧
           OnlyRegs { s with sched := t.sched } t [Reg.sched.MODEL_STATUS]) ∧
         (∃ t, exec .modelRetire s = .next t ∧ busyBit t Reg.sched.MODEL_STATUS = true ∧ t.sched = { s.sched with modelRetire := some (rdf s Reg.sched.MODEL_TARGET 5 0) } ∧
           (∀ m, Tbl.get s.store.models (rdf s Reg.sched.MODEL_TARGET 5 0) = some m →
             Tbl.get t.store.models (rdf s Reg.sched.MODEL_TARGET 5 0) = some { m with retiring := true }) ∧
           OnlyRegs { s with sched := t.sched, store := t.store } t [Reg.sched.MODEL_STATUS])) ∧
       (∀ a slot tn, s.sched.modelLoad = some (a, slot, tn) → (inHbm a 64 && inHbm a (modelImage s a).length) = true →
         ∃ t, exec .modelLoadDone s = .next t ∧ t.sched = { s.sched with modelLoad := none } ∧
           rd t Reg.sched.MODEL_STATUS = BitVec.ofNat 32 (s.sched.modelRetire.isSome.toNat * 2 ^ 31 + (modelResult s slot tn (modelImage s a)).2 * 256 +
             (modelResult s slot tn (modelImage s a)).1) ∧
           ((modelResult s slot tn (modelImage s a)).1 = 0 → Tbl.get t.store.models slot = some (parseModel s tn (modelImage s a)) ∧
             (∀ k, k ≠ slot → Tbl.get t.store.models k = Tbl.get s.store.models k) ∧ rd64 t Reg.atrium.PIN_EPOCH = s.now) ∧
           ((modelResult s slot tn (modelImage s a)).1 ≠ 0 → t.store = s.store) ∧ t.mem = s.mem) ∧
       (∀ slot, s.sched.modelRetire = some slot → modelUsed s slot = false → ∃ t, exec .modelSlotEmptied s = .next t ∧
         Tbl.get t.store.models slot = none ∧ (∀ k, k ≠ slot → Tbl.get t.store.models k = Tbl.get s.store.models k) ∧
         t.sched = { s.sched with modelRetire := none } ∧ busyBit t Reg.sched.MODEL_STATUS = s.sched.modelLoad.isSome ∧
         t.mem = { s.mem with flash := s.mem.flash.release (5120 + slot) })) ∧
  (∀ (s : State) (slot : Fin 64) (m : Model), Tbl.get s.store.models slot.val = some m →
       (∀ layer, m.staged = true → layer < m.layers.length → m.lost = false → weightsInHbm s slot.val m layer = true →
         (∀ f ∈ s.sched.flights, ∀ d ∈ f.plan.stages, d.no < f.stages.length) →
         ∃ t, exec (.weightStageInDone slot layer) s = .next t ∧ t = { s with sched := { s.sched with flights := t.sched.flights } } ∧
           (∀ f ∈ s.sched.flights, stageIns s slot.val layer f = [] → f ∈ t.sched.flights) ∧
           ∀ f ∈ s.sched.flights, ∀ d ∈ stageIns s slot.val layer f,
             (∀ g ∈ s.sched.flights, ∀ e ∈ stageIns s slot.val layer g, stageStep f d ≤ stageStep g e) →
             ∃ g ∈ t.sched.flights, g.id = f.id ∧ layer ∈ (g.stages.getD d.no default).staged) ∧
       (∀ layer, m.staged = false ∨ m.lost = true ∨ weightsInHbm s slot.val m layer = false → exec (.weightStageInDone slot layer) s = .next s) ∧
       (m.relay = true → pinsLaid s slot.val + m.weights.length ≤ pinnedArea s → m.lost = false → ∃ t, exec (.pinRelayDone slot) s = .next t ∧
         Tbl.get t.store.models slot.val = some { m with relay := false, relayFail := false } ∧ rd64 t Reg.atrium.PIN_EPOCH = s.now ∧
         t.store.colls = s.store.colls ∧ t.mem = s.mem) ∧
       (m.relay = true → (pinnedArea s < pinsLaid s slot.val + m.weights.length ∨ m.lost = true) → ∃ t, exec (.pinRelayDone slot) s = .next t ∧
         t.store = { s.store with models := Tbl.set s.store.models slot.val { m with relay := false, relayFail := true } } ∧
         OnlyRegs { s with store := t.store } t [pageBase .sched 0 + 0x28]))

/-! ## Shard maps (R245 to R247) -/

/-- SHARDMAP_LOAD leaves RESULT; an accepted map becomes the collection's next map, current from the next step, and the current one stays.
SHARDMAP_RETIRE marks the current map to go at the next step, and drops one accepted but not yet current (the latter the model's choice, log entry
118). A map outside HBM's 39 bits is a fault (R245, R246, R247, R313). -/
def Obligations.Shard_maps_change_at_the_next_step : Prop :=
  ∀ s : State,
    let a := rd64 s Reg.sched.SHARDMAP_ADDR / 64 * 64
    let b := mapImage s a
    ((inHbm a 64 && inHbm a b.length) = false → exec .shardmapLoad s = .fault (.hbmAddress a)) ∧
    ((inHbm a 64 && inHbm a b.length) = true → ∃ t, exec .shardmapLoad s = .next t ∧ rd t Reg.sched.SHARDMAP_STATUS = BitVec.ofNat 32 (mapResult s b) ∧
      (∀ c, mapResult s b = 0 → Tbl.get s.store.colls (leAt b 6 2) = some c →
        Tbl.get t.store.colls (leAt b 6 2) = some { c with mapNext := some (parseMap b (s.ticks + 1)), mapRetiring := none }) ∧
      (∀ k, k ≠ leAt b 6 2 → Tbl.get t.store.colls k = Tbl.get s.store.colls k) ∧ (mapResult s b ≠ 0 → t.store = s.store) ∧
      OnlyRegs { s with store := t.store } t [Reg.sched.SHARDMAP_STATUS, pageBase .sched 0 + 0x28]) ∧
    (∀ c, Tbl.get s.store.colls (rdf s Reg.sched.SHARDMAP_SEL 11 0) = some c → ∃ t, exec .shardmapRetire s = .next t ∧
      t.store = { s.store with colls := Tbl.set s.store.colls (rdf s Reg.sched.SHARDMAP_SEL 11 0) { c with mapRetiring := some (s.ticks + 1), mapNext := none } } ∧
      OnlyRegs { s with store := t.store } t [pageBase .sched 0 + 0x28])

/-! ## Tenants (R328, R382 to R384, R390, R405) -/

/-- TENANT_ADMIT of a FREE tenant with a rank of its own makes it ADMITTED with its meters at 0; TENANT_RELEASE of an ADMITTED tenant without
channels and objects makes it RELEASING; METER_LATCH asks for the meters of the next open instant (R382, R383, R384, R405). A reservation or rank is
stored where its rule allows it and ignored otherwise: a rank that another ADMITTED tenant has, a class-0 field whose sum would pass the full-health
capacity, SEATS_PER_STEP outside 1 to 4096 or below the seats reserved, a capacity below what is in use or beyond what may be reserved, a cache
floor out of its range or that leaves too little HBM (R328, R383, R390). -/
def Obligations.Tenants_and_their_reservations : Prop :=
  (∀ s : State,
       let n := tenantSel s
       (tenantState s n = 0 → rankTaken s n (rankReg s n) = false → ∃ t, exec .tenantAdmit s = .next t ∧ tenantState t n = 1 ∧
         (tenant t n).meters = List.replicate 9 0 ∧ fld (rd t (schedBank n 0x348)) 7 0 = 0 ∧ (∀ k, k ≠ n → tenant t k = tenant s k) ∧
         t.store = { s.store with tenants := t.store.tenants } ∧ t = { s with regs := t.regs, store := t.store }) ∧
       (tenantState s n ≠ 0 → ∃ t, exec .tenantAdmit s = .next t ∧ t.store = s.store ∧ fld (rd t (schedBank n 0x348)) 7 0 = 1) ∧
       (tenantState s n = 1 → tenantIdle s n = true → ∃ t, exec .tenantRelease s = .next t ∧ tenant t n = { tenant s n with tstate := 2 } ∧
         (∀ k, k ≠ n → tenant t k = tenant s k) ∧ t.store = { s.store with tenants := t.store.tenants } ∧ t = { s with regs := t.regs, store := t.store }) ∧
       (tenantState s n = 1 → tenantIdle s n = false → ∃ t, exec .tenantRelease s = .next t ∧ t.store = s.store ∧
         fld (rd t (schedBank n 0x348)) 7 0 = 3) ∧
       exec .meterLatch s = .next { s with store := { s.store with tenants := Tbl.set s.store.tenants n { tenant s n with latchPending := true } } }) ∧
  (∀ (s : State) (rank : Byte) (kind : C0Kind) (w : Word),
       let n := tenantSel s
       let v := fld w (c0Field kind).2 0
       let f := rdf s Reg.ft.TENANT_SEL 7 0
       (¬(tenantState s n = 1 ∧ rankTaken s n rank.toNat = true) → ∃ t, exec (.guaranteeRankWrite rank) s = .next t ∧
         rankReg t n = rank.toNat ∧ OnlyRegs s t [schedBank n 0x34C]) ∧
       (tenantState s n = 1 → rankTaken s n rank.toNat = true → exec (.guaranteeRankWrite rank) s = .next s) ∧
       (kind ≠ .seatsPerStep → tenantState s n ≠ 0 → sumWith s n v kind ≤ fullHealth s kind → ∃ t, exec (.c0ReservationWrite kind w) s = .next t ∧
         c0Reg t n kind = v ∧ OnlyRegs s t [schedBank n (c0Field kind).1]) ∧
       (kind ≠ .seatsPerStep → fullHealth s kind < sumWith s n v kind → exec (.c0ReservationWrite kind w) s = .next s) ∧
       (let m := fld w 15 0
        (1 ≤ m ∧ m ≤ 4096 ∧ sumWith s 256 0 .seats ≤ m → ∃ t, exec (.c0ReservationWrite .seatsPerStep w) s = .next t ∧
           rdf t Reg.sched.SEATS_PER_STEP 15 0 = m ∧ OnlyRegs s t [Reg.sched.SEATS_PER_STEP]) ∧
         (m = 0 ∨ 4096 < m ∨ m < sumWith s 256 0 .seats → exec (.c0ReservationWrite .seatsPerStep w) s = .next s)) ∧
       (tenantState s f ≠ 0 → (rd s (ftBank f 0x428)).toNat ≤ w.toNat → capSum s 0x424 f w.toNat ≤ (rd s Reg.ft.FLASH_OFFER_GIB).toNat →
         ∃ t, exec (.capacityReservationWrite .flashResv w) s = .next t ∧ rd t (ftBank f 0x424) = w ∧ OnlyRegs s t [ftBank f 0x424]) ∧
       (w.toNat < 16384 ∨ 131072 < w.toNat ∨ hbmReservable s w.toNat < capSum s 0x41C 256 0 →
         exec (.capacityReservationWrite .cacheFloor w) s = .next s) ∧
       (16384 ≤ w.toNat → w.toNat ≤ 131072 → capSum s 0x41C 256 0 ≤ hbmReservable s w.toNat →
         ∃ t, exec (.capacityReservationWrite .cacheFloor w) s = .next t ∧ rd t Reg.ft.CACHE_FLOOR_MIB = w ∧
           OnlyRegs s t [Reg.ft.CACHE_FLOOR_MIB, Reg.ft.HBM_RESERVABLE_MIB, Reg.ft.CACHE_MIB]) ∧
       (tenantState s f ≠ 0 → (rd s (ftBank f 0x420)).toNat ≤ w.toNat → capSum s 0x41C f w.toNat ≤ (rd s Reg.ft.HBM_RESERVABLE_MIB).toNat →
         ∃ t, exec (.capacityReservationWrite .hbmResv w) s = .next t ∧ rd t (ftBank f 0x41C) = w ∧ OnlyRegs s t [ftBank f 0x41C]) ∧
       (w.toNat < (rd s (ftBank f 0x420)).toNat → exec (.capacityReservationWrite .hbmResv w) s = .next s))

/-! ## HBM and the near-bank units (R313 to R319, R325, R331, R335 to R338) -/

/-- HBM_STACK_TRAINING of an UNTRAINED stack, outside the production test state, leaves it HEALTHY with 64 pseudo-channels, UNTRAINED and rejected, or
FAILED with both of its errors; besides them only the HBM capacity registers change. STACK_FAIL makes a stack FAILED: the node and record copies that
it held no longer read, its segments and array entries are left out, and no work ends by it (R314, R331, R335 to R338, R590). -/
def Obligations.Hbm_stacks_train_and_fail : Prop :=
  ∀ (s : State) (k : Fin 8), s.mem.stackSt.length = 8 → s.mem.near.length = 4 →
    let st := stackStatusReg k.val
    let p := pageBase .hbm k.val
    (stackState s k.val = 3 → s.chip.test.prod = false →
      (∃ t, exec (.hbmStackTraining k .healthy) s = .next t ∧ stackState t k.val = 0 ∧ rdf t st 8 2 = 64 ∧
        OnlyRegs s t [st, Reg.ft.HBM_RESERVABLE_MIB, Reg.ft.CACHE_MIB]) ∧
      (∃ t, exec (.hbmStackTraining k .wrongConfig) s = .next t ∧ stackState t k.val = 3 ∧ (t.mem.stackSt.getD k.val Stack.reset).rejected = true ∧
        OnlyRegs { s with mem := { s.mem with stackSt := t.mem.stackSt } } t [Reg.ft.HBM_RESERVABLE_MIB, Reg.ft.CACHE_MIB]) ∧
      (testBit (rd s (p + 0x34)) 3 = true → testBit (rd s (p + 0x34)) 4 = true →
        ∃ t, exec (.hbmStackTraining k .failed) s = .next t ∧ stackState t k.val = 2 ∧ testBit (rd t (p + 0x30)) 3 = true ∧
          testBit (rd t (p + 0x30)) 4 = true ∧ OnlyRegs s t [st, p + 0x30, p + 0x3C, Reg.ft.HBM_RESERVABLE_MIB, Reg.ft.CACHE_MIB])) ∧
    (stackState s k.val ≠ 3 ∨ s.chip.test.prod = true → ∀ r, exec (.hbmStackTraining k r) s = .next s) ∧
    (stackState s k.val ≠ 2 → testBit (rd s (p + 0x34)) 3 = true → ∃ t, exec (.stackFail k []) s = .next t ∧ stackState t k.val = 2 ∧
      testBit (rd t (p + 0x30)) 3 = true ∧ (k.val % 2 = 0 → (nearUnit t k.val).queue = []) ∧
      (∀ n, Tbl.get t.store.colls n = (Tbl.get s.store.colls n).map (collHit k.val)) ∧
      ((∀ c ∈ s.store.colls, ∀ v ∈ c.2.versions.head?, v.addrs.1 / 2 ^ 36 ≠ k.val ∧ v.addrs.2 / 2 ^ 36 ≠ k.val) →
        t.sched = s.sched ∧ t.links = s.links ∧ t.faults = s.faults ∧ t.chip = s.chip ∧ t.mem.hbm = s.mem.hbm ∧ t.mem.flash = s.mem.flash ∧
        ∀ a, a ∉ [st, p + 0x30, p + 0x3C, Reg.ft.HBM_RESERVABLE_MIB, Reg.ft.CACHE_MIB, Reg.ft.MIRROR_SINGLE] → rd t a = rd s a)) ∧
    (stackState s k.val = 2 → ∀ l, exec (.stackFail k l) s = .next s)

/-- HBM_READ_COMPLETE: a clean read changes nothing, a parity error of its command sets CA_PARITY, a corrected read counts in CE_COUNT, an
uncorrectable one of bulk data in UE_COUNT, for the pseudo-channel that serves its block; the one that reaches UE_RETIRE retires that pseudo-channel,
whose mapping follows with PC_REMAP_DONE: where nothing lies past the stack's new end, no block moves. An address outside HBM is a fault (R313, R314,
R315, R335). MIRROR_COPY_REWRITTEN restores the second copies of channel entries, of plots and of tree versions, and the segments (model's choice,
log entry 130), and clears MIRROR_SINGLE. WRITEBACK_DUE of a dirty page starts its write-back with the rows whose last dirty page it is, or with the
key map bucket that it holds; of a page that is not dirty it does nothing (R325, R331). -/
def Obligations.Hbm_reads_retire_and_copies_return : Prop :=
  (∀ (s : State) (a : Nat) (other : Bool) (what : HbmStruct), s.mem.stackSt.length = 8 →
       let k := a / 2 ^ 36
       let pc := servingPc s k (a % 2 ^ 36)
       let p := pageBase .hbm k
       (inHbm a 1 = false → ∀ o, exec (.hbmReadComplete a o what other) s = .fault (.hbmAddress a)) ∧
       (inHbm a 1 = true →
         exec (.hbmReadComplete a .clean what other) s = .next s ∧
         (2 ≤ stackState s k → ∀ o, exec (.hbmReadComplete a o what other) s = .next s) ∧
         (stackState s k ≤ 1 → testBit (rd s (p + 0x34)) 0 = true → ∃ t, exec (.hbmReadComplete a .corrected what other) s = .next t ∧
           rd t (Reg.hbm.CE_COUNT k) = counted (Reg.hbm.CE_COUNT k) (rd s (Reg.hbm.CE_COUNT k)) ∧ testBit (rd t (p + 0x30)) 0 = true ∧
           OnlyRegs s t [Reg.hbm.CE_COUNT k, p + 0x30, p + 0x3C]) ∧
         (stackState s k ≤ 1 → testBit (rd s (p + 0x34)) 2 = true → ∃ t, exec (.hbmReadComplete a .caParity what other) s = .next t ∧
           testBit (rd t (p + 0x30)) 2 = true ∧ OnlyRegs s t [p + 0x30, p + 0x3C]) ∧
         (stackState s k ≤ 1 → testBit (rd s (p + 0x34)) 1 = true →
           let n := (Tbl.get (s.mem.stackSt.getD k Stack.reset).ue pc).getD 0 + 1
           ∃ t, exec (.hbmReadComplete a .uncorrectable .other other) s = .next t ∧ Tbl.get (t.mem.stackSt.getD k Stack.reset).ue pc = some n ∧
             rd t (Reg.hbm.UE_COUNT k) = counted (Reg.hbm.UE_COUNT k) (rd s (Reg.hbm.UE_COUNT k)) ∧ testBit (rd t (p + 0x30)) 1 = true ∧
             (n < rdf s (Reg.hbm.UE_RETIRE k) 7 0 → t.mem.stackSt.map (·.remapping) = s.mem.stackSt.map (·.remapping) ∧
               ∀ b, b ∉ [Reg.hbm.UE_COUNT k, p + 0x30, p + 0x3C] → rd t b = rd s b) ∧
             (max 1 (rdf s (Reg.hbm.UE_RETIRE k) 7 0) ≤ n → pcRetired s k pc = false →
               pcRetired t k pc = true ∧ stackState t k = 1 ∧ rdf t (stackStatusReg k) 8 2 = rdf s (stackStatusReg k) 8 2 - 1 ∧
               (t.mem.stackSt.getD k Stack.reset).remapping = (s.mem.stackSt.getD k Stack.reset).remapping ++ [pc]) ∧
             t = { s with regs := t.regs, mem := { s.mem with stackSt := t.mem.stackSt } })) ∧
       (∀ (st : Fin 8) (c : Fin 64), ∃ t g, exec (.pcRemapDone st c) s = .next t ∧ c.val ∉ (t.mem.stackSt.getD st.val Stack.reset).remapping ∧
         (∀ j, j ≠ st.val → t.mem.stackSt.getD j Stack.reset = s.mem.stackSt.getD j Stack.reset) ∧
         ((∀ x ∈ heapOf s, x.1 / 2 ^ 36 = st.val → x.1 + x.2 ≤ stackEnd s st.val) → ∀ b, g b = b) ∧
         t = { s with
           mem := { s.mem with stackSt := t.mem.stackSt }
           store := { s.store with colls := s.store.colls.map fun x => (x.1, x.2.mapAddrs g) } })) ∧
  (∀ s : State,
       (∃ t, exec .mirrorCopyRewritten s = .next t ∧ rdf t Reg.ft.MIRROR_SINGLE 0 0 = 0 ∧ (∀ a, a ≠ Reg.ft.MIRROR_SINGLE → rd t a = rd s a) ∧
         (∀ c e, Tbl.get s.store.chans c = some e → Tbl.get t.store.chans c = some { e with ok := bothOk e.ok }) ∧
         (∀ k q, Tbl.get s.mem.flash.plots k = some q → Tbl.get t.mem.flash.plots k = some { q with ok := bothOk q.ok }) ∧
         (∀ n c, Tbl.get s.store.colls n = some c → ∃ d, Tbl.get t.store.colls n = some d ∧ d.slots = c.slots ∧ d.keymap = c.keymap ∧ d.badSegs = [] ∧
           d.versions.map (·.ok) = c.versions.map (fun _ => (true, true)) ∧
           d.versions.map (·.nodes.map (·.ok)) = c.versions.map (·.nodes.map (fun x => bothOk x.ok))) ∧
         t.sched = s.sched ∧ t.mem.hbm = s.mem.hbm ∧ t.links = s.links ∧ t.chip = s.chip) ∧
       (∀ range page, pageDirty s range page = false → exec (.writebackDue range page) s = .next s) ∧
       (∀ range page, (Tbl.get s.mem.flash.dirty (dirtyKey range page)).isSome = true → Tbl.get s.mem.flash.wb (dirtyKey range page) = none →
         flashRunning s = true → ∃ t rows, exec (.writebackDue range page) s = .next t ∧
           t = updFlash s (fun f => { f with
             dirty := Tbl.del f.dirty (dirtyKey range page), wb := Tbl.set f.wb (dirtyKey range page) rows, mapWb := t.mem.flash.mapWb }) ∧
           (∀ b es, pageBucket s range page = some (b, es) → Tbl.get t.mem.flash.mapWb (dirtyKey range page) = some es) ∧
           ∀ r ∈ rows, ∃ n x v, rangeTable s range = some (n, x) ∧ (r.1, v) ∈ x.rows ∧ r.2 = v.cur ∧ page ∈ rowPages x r.1))

/-- SCAN_WINDOW of a booked window gives its bursts, and what tiles drained frees credit; in the seam nothing opens. SCAN_BURST without room for 104
candidates per flight is withheld and counted in CREDIT_STALL; with it the first pass whose step has come moves on by one block, and the passes of
later steps wait (R43, R316 to R319). -/
def Obligations.Scan_windows_and_bursts : Prop :=
  ∀ (s : State) (k : Fin 8), s.mem.near.length = 4 → nearRuns s k.val = true →
    (∀ (drained : Nat) (reports : List (Nat × Bool × Nat)), s.step.seam = false → ∃ t, exec (.scanWindow k drained reports) s = .next t ∧
      (nearUnit t k.val).fill = (nearUnit s k.val).fill - drained ∧ (nearUnit t k.val).queue = (nearUnit s k.val).queue ∧
      ((nearUnit s k.val).windowsRun < winBooked s → (nearUnit t k.val).burstsLeft = rdf s (Reg.nb.BURSTS_PER_WIN k.val) 10 0 ∧
        (nearUnit t k.val).windowsRun = (nearUnit s k.val).windowsRun + 1) ∧
      (winBooked s ≤ (nearUnit s k.val).windowsRun → (nearUnit t k.val).burstsLeft = 0) ∧
      t = { s with mem := { s.mem with near := t.mem.near } }) ∧
    (s.step.seam = true → (∀ drained reports, exec (.scanWindow k drained reports) s = .next s) ∧ ∀ b, exec (.scanBurst k b) s = .next s) ∧
    (∀ (before : List Pass) (q : Pass) (rest : List Pass) (drained : Nat), (nearUnit s k.val).queue = before ++ q :: rest →
      (∀ x ∈ before, s.ticks < x.step) → q.step ≤ s.ticks → (nearUnit s k.val).burstsLeft ≠ 0 → s.step.seam = false →
      let fill := (nearUnit s k.val).fill - drained
      (16384 < fill + 104 * q.flights.length → ∀ b, ∃ t, exec (.scanBurst k ⟨b, drained⟩) s = .next t ∧
        nearUnit t k.val = { nearUnit s k.val with burstsLeft := (nearUnit s k.val).burstsLeft - 1, fill := fill } ∧
        rd t (Reg.nb.CREDIT_STALL k.val) = counted (Reg.nb.CREDIT_STALL k.val) (rd s (Reg.nb.CREDIT_STALL k.val)) ∧
        OnlyRegs { s with mem := { s.mem with near := t.mem.near } } t [Reg.nb.CREDIT_STALL k.val]) ∧
      (fill + 104 * q.flights.length ≤ 16384 → ∃ t, exec (.scanBurst k ⟨false, drained⟩) s = .next t ∧
        (nearUnit t k.val).burstsLeft = (nearUnit s k.val).burstsLeft - 1 ∧ fill ≤ (nearUnit t k.val).fill ∧
        (nearUnit t k.val).queue = before ++ (if q.done + 1 < q.bursts then { q with done := q.done + 1 } :: rest else rest) ∧
        rd t (Reg.nb.BURSTS k.val) = counted (Reg.nb.BURSTS k.val) (rd s (Reg.nb.BURSTS k.val)) ∧
        OnlyRegs { s with mem := { s.mem with near := t.mem.near } } t [Reg.nb.BURSTS k.val, Reg.nb.CAND_HELD k.val])) ∧
    ((∀ x ∈ (nearUnit s k.val).queue, s.ticks < x.step) → ∀ b, exec (.scanBurst k b) s = .next s)

/-! ## Flash (R339 to R380) -/

/-- FLASH_CHANNEL_TRAINED of a TRAINING channel, outside the production test state, whose inventory is channel 0's makes it ONLINE at the rate reached,
at most RATE_MAX, and a block that the factory marked bad is RETIRED; one that fails is OFFLINE with TRAIN_FAIL (R340, R341, R356, R379). A clean read
of the media counts its transfers and nothing else; a read that lacks a record's data for a flight that waits for it delivers it, on the die that the
mapping names (R181, R345, R353); a read that the die's queue serves later does not complete (R347). ERASE_SUSPEND lets a read wait on an erase, up to ERASE_SUSPEND_MAX times (R361).
FLASH_WRITE_PROTECT asserts WP_N of a channel that waits for it (R374). -/
def Obligations.Flash_channels_train_and_read : Prop :=
  ∀ (s : State) (ch : Fin 32) (die : Fin 1024),
    (∀ (rate : Fin 6) (targets : Byte) (inv : FlashInventory), rdf s (chanStatusReg ch.val) 1 0 = 1 → s.c0 = false → s.chip.test.prod = false →
      (rate.val ≠ 0 → rateMax s ch.val ≠ 0 → sameAsFirst s targets inv = true → (rd s Reg.ft.RAW_GIB).toNat + inv.gib < 2 ^ 32 →
        ∃ t, exec (.flashChannelTrained ch rate targets true inv) s = .next t ∧ flashOnline t ch.val = true ∧
          rdf t (chanStatusReg ch.val) 4 2 = min rate.val (rateMax s ch.val) ∧ rdf t (chanStatusReg ch.val) 15 8 = targets.toNat ∧
          (rd t Reg.ft.RAW_GIB).toNat = (rd s Reg.ft.RAW_GIB).toNat + inv.gib ∧
          Tbl.get t.mem.flash.inventory ch.val = some (inventoryDies targets inv, inv.blocks) ∧
          (∀ key b, block? s key = some b → block? t key = some b) ∧
          (∀ x ∈ inv.bad, let key := 65536 * (32 * ch.val + x.1.val) + x.2.val
            block? s key = none → (block? t key).map (·.st) = some .retired) ∧
          (∀ j, j < 32 → j ≠ ch.val → rd t (chanStatusReg j) = rd s (chanStatusReg j)) ∧
          t.sched = s.sched ∧ t.store = s.store ∧ t.links = s.links ∧ t.mem.hbm = s.mem.hbm) ∧
      (testBit (rd s (pageBase .flashCh ch.val + 0x34)) 4 = true → ∃ t, exec (.flashChannelTrained ch 0 targets true inv) s = .next t ∧
        rdf t (chanStatusReg ch.val) 1 0 = 0 ∧ testBit (rd t (pageBase .flashCh ch.val + 0x30)) 4 = true ∧
        OnlyRegs s t [chanStatusReg ch.val, pageBase .flashCh ch.val + 0x30, pageBase .flashCh ch.val + 0x3C])) ∧
    (∀ rdr columns o, readWaits s (readDie s rdr die.val) rdr = true → exec (.flashReadComplete die rdr columns o) s = .next s) ∧
    (∀ columns, dieRuns s die.val = true → Tbl.get s.mem.flash.dies die.val = none →
      (columns ≤ 512 → readWaits s die.val .media = false → ∃ t, exec (.flashReadComplete die .media columns .clean) s = .next t ∧
        t.mem = { s.mem with flash := { s.mem.flash with timeouts := Tbl.del s.mem.flash.timeouts die.val } } ∧
        OnlyRegs { s with mem := t.mem } t [Reg.flashCh.READS (die.val / 32)] ∧
        ((rd s (Reg.flashCh.READS (die.val / 32))).toNat + ceilDiv columns 36 < 2 ^ 32 →
          (rd t (Reg.flashCh.READS (die.val / 32))).toNat = (rd s (Reg.flashCh.READS (die.val / 32))).toNat + ceilDiv columns 36)) ∧
      (∀ (f : Flight) (slot : Nat) (d : SlotData), workOf s f.id = some f → Tbl.get (collOf s f).slots slot = some d → d.refine.missing = false →
        readDie s (.refine f.id slot) die.val = die.val → readWaits s die.val (.refine f.id slot) = false → readUnmapped s (.refine f.id slot) = false →
        (f.plan.stages.any fun x => x.kind == 8 && (f.run x.no).complete) = true → f.work.narrowed = false → landingOpen f 1 = true →
        slot ∉ f.work.lost → slot ∉ f.work.lostBoth → (∃ e ∈ f.work.rake, e.slot = slot) →
        ∃ t w, exec (.flashReadComplete die (.refine f.id slot) columns .clean) s = .next t ∧ workOf t f.id = some w ∧
          Tbl.get w.work.arrived slot = some d.refine ∧ w.stages = f.stages ∧ t.store.colls = s.store.colls ∧ t.mem.hbm = s.mem.hbm)) ∧
    (∀ (key : Nat) (b : Block), (s.mem.flash.blocks.find? fun p => p.1 / 65536 == die.val && p.2.st == .erasing) = some (key, b) →
      dieRuns s die.val = true → b.suspended = false →
      (b.suspends < rdf s Reg.ft.ERASE_SUSPEND_MAX 7 0 → ∃ t, exec (.eraseSuspend die) s = .next t ∧
        block? t key = some { b with suspended := true, suspends := b.suspends + 1 } ∧
        Tbl.get t.mem.flash.dies die.val = some ((Tbl.get s.mem.flash.dies die.val).getD 0 + 1) ∧
        rd t (Reg.flashCh.SUSPENDS (die.val / 32)) = counted (Reg.flashCh.SUSPENDS (die.val / 32)) (rd s (Reg.flashCh.SUSPENDS (die.val / 32))) ∧
        OnlyRegs { s with mem := t.mem } t [Reg.flashCh.SUSPENDS (die.val / 32)]) ∧
      (rdf s Reg.ft.ERASE_SUSPEND_MAX 7 0 ≤ b.suspends →
        exec (.eraseSuspend die) s = .next (count s (Reg.flashCh.SUSPEND_DENIED (die.val / 32))))) ∧
    (ch.val ∈ s.mem.flash.wpPending → ∃ t, exec (.flashWriteProtect ch) s = .next t ∧ ch.val ∈ t.mem.flash.wpLow ∧
      ch.val ∉ t.mem.flash.wpPending ∧ (s.running = true → wpN t ch.val = some false) ∧
      t = updFlash s fun f => { f with wpPending := t.mem.flash.wpPending, wpLow := t.mem.flash.wpLow })

/-- Blocks. A program goes into a block that is OPEN in its mode, or into one of the block row that then opens on every die of the group whose turn
it is; until every block that a reset left OPEN or CLOSED is verified, none completes. Its last program closes a block; a completed erase makes it
ERASED, a read-back without unreadable pages and with at most VERIFY_LIMIT corrected bits VERIFIED. What fails retires a block that nothing maps to.
The third command in a row to a die that gives no answer fails the die, whose rebuild starts; the last stripe ends it (R356, R358 to R367). -/
def Obligations.Flash_blocks_go_round : Prop :=
  ∀ (s : State) (die : Fin 1024) (blk : Fin 65536), Tbl.wf s.mem.flash.blocks →
    let key := 65536 * die.val + blk.val
    let ch := die.val / 32
    (∀ (pa : BitVec 40) (k : ProgramKind) (bytes : Nat) (last : Bool), paDie pa.toNat = die.val → paBlock pa.toNat = key → dieRuns s die.val = true →
      (s.mem.flash.recheck ≠ [] → ∀ ok, exec (.flashProgramComplete pa k bytes ok last) s = .next s) ∧
      (∀ o, s.mem.flash.recheck = [] → block? s key = some o → o.st = .open_ → o.slc = kindSlc k → o.bad = false →
        ∃ t, exec (.flashProgramComplete pa k bytes true last) s = .next t ∧ block? t key = some (programBlock o k (paPage pa.toNat) bytes last) ∧
          rd t (Reg.flashCh.PROGRAMS ch) = counted (Reg.flashCh.PROGRAMS ch) (rd s (Reg.flashCh.PROGRAMS ch)) ∧
          (k = .other → t.store = s.store ∧ t.sched = s.sched)) ∧
      (∀ g, s.mem.flash.recheck = [] → turnGroup s = some g → (∀ x ∈ s.mem.flash.blocks, x.2.st ≠ .suspect) → key ∈ groupBlocks s g →
        ∃ t, exec (.flashProgramComplete pa k bytes true last) s = .next t ∧
          block? t key = some (programBlock ⟨.open_, eraseCount s key, kindSlc k, 0, 0, 0, false, false, false⟩ k (paPage pa.toNat) bytes last) ∧
          (∀ j ∈ groupBlocks s g, j ≠ key → (block? t j).map (fun x => (x.st, x.slc)) = some (.open_, kindSlc k)) ∧
          t.mem.flash.nextGroup = (g + 1) % 64 ∧
          rd t (Reg.flashCh.PROGRAMS ch) = counted (Reg.flashCh.PROGRAMS ch) (rd s (Reg.flashCh.PROGRAMS ch)))) ∧
    (∀ (b : Block), block? s key = some b → b.st = .erasing → b.suspended = false → dieRuns s die.val = true → s.c0 = false →
      (∃ t, exec (.eraseComplete die blk true) s = .next t ∧
        block? t key = some { b with st := .erased, erases := b.erases + 1, pages := 0, spill := 0, suspends := 0, bad := false, sys := false } ∧
        rd t (Reg.flashCh.ERASES ch) = counted (Reg.flashCh.ERASES ch) (rd s (Reg.flashCh.ERASES ch)) ∧ t.store = s.store ∧ t.sched = s.sched) ∧
      (testBit (rd s (pageBase .flashCh ch + 0x34)) 2 = true → ∃ t, exec (.eraseComplete die blk false) s = .next t ∧
        (block? t key).map (·.st) = some .retired ∧
        rd t Reg.ft.RETIRE_COUNT = counted Reg.ft.RETIRE_COUNT (rd s Reg.ft.RETIRE_COUNT) ∧ t.store = s.store ∧ t.sched = s.sched)) ∧
    (∀ (b : Block) (r : VerifyResult), block? s key = some b → b.st = .closed → dieRuns s die.val = true → s.c0 = false →
      (b.sys = true → b.bad = false → r.unreadable = [] → r.corrected ≤ rdf s Reg.ft.VERIFY_LIMIT 15 0 →
        ∃ t, exec (.blockVerify die blk r) s = .next t ∧ block? t key = some { b with st := .verified } ∧ t.store = s.store ∧ t.sched = s.sched) ∧
      (blockMapped s key = false → r.unreadable ≠ [] ∨ rdf s Reg.ft.VERIFY_LIMIT 15 0 < r.corrected →
        ∃ t, exec (.blockVerify die blk r) s = .next t ∧ (block? t key).map (·.st) = some .retired ∧ t.store = s.store ∧ t.sched = s.sched)) ∧
    (∀ n, dieRuns s die.val = true → testBit (rd s (pageBase .flashCh ch + 0x34)) 3 = true → (Tbl.get s.mem.flash.timeouts die.val).getD 0 + 1 = n →
      (n < 3 → ∃ t, exec (.dieTimeout die) s = .next t ∧ Tbl.get t.mem.flash.timeouts die.val = some n ∧ t.mem.flash.failedDies = s.mem.flash.failedDies ∧
        OnlyRegs { s with mem := t.mem } t [pageBase .flashCh ch + 0x30, pageBase .flashCh ch + 0x3C]) ∧
      (3 ≤ n → s.mem.flash.rebuilding = none → ∃ t, exec (.dieTimeout die) s = .next t ∧ die.val ∈ t.mem.flash.failedDies ∧
        t.mem.flash.rebuilding = some die.val ∧ rd t Reg.ft.REBUILD_STRIPES = 0 ∧
        testBit (rd t (Reg.flashCh.DIE_FAILED_MASK ch)) (die.val % 32) = true ∧ dieRuns t die.val = false)) ∧
    (∀ d, s.mem.flash.rebuilding = some d →
      exec (.rebuildStripe .rebuilt false) s = .next (count s Reg.ft.REBUILD_STRIPES) ∧
      (∀ e r, s.mem.flash.rebuildQ = e :: r → ∃ t, exec (.rebuildStripe .rebuilt true) s = .next t ∧ t.mem.flash.rebuilding = some e ∧
        t.mem.flash.rebuildQ = r ∧ rd t Reg.ft.REBUILD_STRIPES = 0) ∧
      (s.mem.flash.rebuildQ = [] → ∃ t, exec (.rebuildStripe .rebuilt true) s = .next t ∧ t.mem.flash.rebuilding = none ∧
        t.mem.flash.lost = s.mem.flash.lost))

/-- MAP_CHECKPOINT writes the mapping's image once MAP_CKPT_STEPS steps are over, and MAP_REBUILD restores the mapping structures that failed
without losing data (R354, R355). REPAIR_RETRY asks the mirror's node again once REPAIR_STEPS steps are over (R369). DATA_LOSS_RESEND repeats the
reports that wait for 16 steps, and DATA_LOSS_ACK retires the one it names (R467). -/
def Obligations.Flash_maps_and_losses_are_kept : Prop :=
  ∀ s : State,
    (flashRunning s = true → s.mem.flash.mapCkpt + max 1 (rd s Reg.ft.MAP_CKPT_STEPS).toNat ≤ s.now →
      exec .mapCheckpoint s = .next (updFlash s fun f => { f with mapCkpt := s.now })) ∧
    (s.now < s.mem.flash.mapCkpt + (rd s Reg.ft.MAP_CKPT_STEPS).toNat → exec .mapCheckpoint s = .next s) ∧
    (∀ range page pages k q, (k, q) ∈ s.mem.flash.plots → q.ok = (false, false) → k / 2 ^ 32 = range → page / 64 ≤ k % 2 ^ 32 →
      k % 2 ^ 32 ≤ (page + pages - 1) / 64 → ∃ t, exec (.mapRebuild range page pages true) s = .next t ∧ (k, { q with ok := (true, true) }) ∈ t.mem.flash.plots ∧
        t.mem.flash.lost = s.mem.flash.lost ∧ t = updFlash s fun f => { f with plots := t.mem.flash.plots }) ∧
    (∀ (i node : Nat) (l : Lost), s.mem.flash.lost[i]? = some l → l.both = false →
      (s.now < l.asked + (rd s Reg.ft.REPAIR_STEPS).toNat → exec (.repairRetry i) s = .next s) ∧
      (l.asked + max 1 (rd s Reg.ft.REPAIR_STEPS).toNat ≤ s.now → s.hall = true → mirrorNode s l.range = some node →
        ∃ t x, exec (.repairRetry i) s = .next t ∧ t.mem.flash.lost[i]? = some x ∧ x.asked = s.now ∧ x.peer = node + 1 ∧ x.req = t.links.reqNo ∧
          x.got = l.got ∧ t.links.reqNo = (s.links.reqNo + 1) % 2 ^ 32 ∧ t.store = s.store ∧ t.sched = s.sched ∧ t.chip = s.chip)) ∧
    (∀ r : Report, s.mem.flash.reports = [r] → r.waiting = true →
      (s.now < r.sentAt + 16 → exec .dataLossResend s = .next s) ∧
      (r.sentAt + 16 ≤ s.now → ∃ t, exec .dataLossResend s = .next t ∧ t.mem.flash.reports = [{ r with sentAt := s.now }] ∧
        t.links = (sendReport s r).links ∧ t.store = s.store ∧ t.sched = s.sched) ∧
      (∀ f : Frame, f.typ = 0x06 → accepts s f → leAt f.body 0 4 = r.no → ∃ t, exec (.dataLossAck f) s = .next t ∧ t.mem.flash.reports = [] ∧
        t = updFlash (delivered s f) fun x => { x with reports := [] }))

/-! ## Fabric ports (R440 to R462, R473, R474) -/

/-- A port comes up and goes down. Training ends in NEGOTIATE at the width reached, or in DOWN; a HELLO with a common version makes the port UP and
one without NEG_FAIL; a lost link, or LANE_EN without a lane in use, takes an UP port down with what it queued; the timer retrains a port that is
down (R440, R450, R451, R474). -/
def Obligations.Ports_come_up_and_go_down : Prop :=
  ∀ (s : State) (p : Fin 4), s.links.ports.length = 4 →
    let x := port s p.val
    let ev := pageBase .port p.val + 0x28
    (∀ n m, x.st = 1 → lanesFor n (laneEn s p.val) x.badLane = some m → ∃ t, exec (.portTrained p n) s = .next t ∧
      port t p.val = { x with st := 2, used := m, ver := 0 } ∧ (∀ q, q ≠ p.val → port t q = port s q) ∧
      OnlyRegs { s with links := { s.links with ports := t.links.ports } } t [ev]) ∧
    (x.st = 1 → exec (.portTrained p 0) s = .next (updPort s p.val fun y => { y with st := 5 })) ∧
    (∀ lane, x.st = 3 → testBit (rd s (pageBase .port p.val + 0x34)) 0 = true → ∃ t, exec (.portLinkLoss p lane) s = .next t ∧
      port t p.val = { x with st := 1, used := 0, ver := 0, queues := [[], [], [], [], []], held := [], sending := none, badLane := lane } ∧
      (∀ q, q ≠ p.val → port t q = port s q) ∧ testBit (rd t (pageBase .port p.val + 0x30)) 0 = true ∧
      OnlyRegs { s with links := { s.links with ports := t.links.ports } } t
        [Reg.port.TX_DISCARD p.val, ev, pageBase .port p.val + 0x30, pageBase .port p.val + 0x3C]) ∧
    (x.st = 4 ∨ x.st = 5 → laneEn s p.val ≠ 0 →
      exec (.portRetrainTimer p) s = .next (updPort s p.val fun y => { y with st := 1, used := 0, badLane := none })) ∧
    (∀ v : BitVec 4,
      (s.hall = false → exec (.laneEn p v) s = .next (wr s (Reg.port.LANE_EN p.val) (v.setWidth 32))) ∧
      (s.hall = true → s.c0 = false → x.st = 3 → x.used &&& v ≠ x.used → ∃ t, exec (.laneEn p v) s = .next t ∧
        (port t p.val).st = (if v = 0 then 5 else 1) ∧ (port t p.val).used = 0 ∧ (port t p.val).queues = [[], [], [], [], []] ∧ laneEn t p.val = v) ∧
      (s.hall = true → s.c0 = false → laneEn s p.val = 0 → v ≠ 0 → x.st ≠ 3 → ∃ t, exec (.laneEn p v) s = .next t ∧ (port t p.val).st = 1 ∧
        laneEn t p.val = v)) ∧
    ((x.queues.getD 0 []).length < 256 → x.st = 2 →
      x.queues.length = 5 → exec (.helloTimer p) s = .next (updPort s p.val fun y => { y with
        queues := updAt y.queues 0 (· ++ [helloFrame s p.val]), sending := some (y.sending.getD 0) })) ∧
    (∀ f : Frame, f.typ = 0x01 → f.port = p → accepts s f → x.st = 2 →
      let u := delivered s f
      let lo := max (rdf s Reg.atrium.RILTIK_VER 15 8) (leAt f.body 0 1)
      let hi := min (rdf s Reg.atrium.RILTIK_VER 7 0) (leAt f.body 1 1)
      (lo ≤ hi → (x.queues.getD 0 []).length < 256 → x.queues.length = 5 → ∃ t, exec (.hello f) s = .next t ∧
        port t p.val =
          { x with st := 3, ver := hi, queues := updAt x.queues 0 (· ++ [helloFrame u p.val]), sending := some (x.sending.getD 0) } ∧
        OnlyRegs { u with links := { u.links with ports := t.links.ports } } t [ev]) ∧
      (hi < lo → ∃ t, exec (.hello f) s = .next t ∧ port t p.val = { x with st := 4 } ∧
        OnlyRegs { u with links := { u.links with ports := t.links.ports } } t [ev]))

/-- Table writes. An entry takes its new contents with the next generation unless a queued frame is bound to it; then the write waits, the old entry
stays, and TABLE_WRITE_COMPLETE completes it later (R459 to R462). -/
def Obligations.Table_writes_wait_for_bound_frames : Prop :=
  ∀ (s : State) (p : Fin 4), s.links.ports.length = 4 →
    let x := port s p.val
    let i := rdf s (Reg.port.ROUTE_SEL p.val) 15 0
    let e := rd64 s (Reg.port.ROUTE_ENTRY p.val)
    let old := (Tbl.get x.routes i).getD ⟨false, 0, 0⟩
    let j := rdf s (Reg.port.CLASS_SEL p.val) 7 0
    let a := rd s (Reg.port.CLASS_ATTR p.val)
    (x.waitWrite = none → i < 32784 → boundTo x i ((old.gen + 1) % 16) = false → ∃ t, exec (.routeWrite p) s = .next t ∧
      port t p.val = { x with routes := Tbl.set x.routes i ⟨bitsOf e 63 63 == 1, (old.gen + 1) % 16, BitVec.ofNat 48 (bitsOf e 47 0)⟩ } ∧
      t = updPort s p.val fun _ => port t p.val) ∧
    (x.waitWrite = none → i < 32784 → boundTo x i ((old.gen + 1) % 16) = true → ∃ t w, exec (.routeWrite p) s = .next t ∧
      port t p.val = { x with waitWrite := some w } ∧ t = updPort s p.val fun _ => port t p.val) ∧
    (x.waitWrite.isSome = true → exec (.routeWrite p) s = .next s ∧ exec (.classWrite p) s = .next s) ∧
    (x.waitWrite = none → ∃ t c, exec (.classWrite p) s = .next t ∧ port t p.val = { x with classes := Tbl.set x.classes j c } ∧
      c.key.toNat = rd64 s (Reg.port.CLASS_KEY p.val) ∧ c.mask.toNat = rd64 s (Reg.port.CLASS_MASK p.val) ∧ c.valid = testBit a 31 ∧
      c.prio = fld a 23 16 ∧ c.action = fld a 1 0 ∧ c.gen = ((match Tbl.get x.classes j with | some y => y.gen | none => 0) + 1) % 16 ∧
      t = updPort s p.val fun _ => port t p.val) ∧
    (∀ k v m, x.waitWrite = some (.route k v m) → s.links.readbacks = [] → s.links.fmHeld = [] →
      let g := (((Tbl.get x.routes k).getD ⟨false, 0, 0⟩).gen + 1) % 16
      (boundTo x k g = true → ∃ t, exec (.tableWriteComplete p) s = .next t ∧ port t p.val = x ∧ t = updPort s p.val fun _ => port t p.val) ∧
      (boundTo x k g = false → ∃ t, exec (.tableWriteComplete p) s = .next t ∧
        port t p.val = { x with waitWrite := none, routes := Tbl.set x.routes k ⟨v, g, m⟩ } ∧ t = updPort s p.val fun _ => port t p.val))

/-- FRAME_TRANSMITTED puts the head frame of the egress queue being served on the wire with the port's addresses and counts it; the control queue is
served next where it holds a frame, and a port whose queues are empty serves none. A frame that the ingress checks
refuse changes only their counters, and one for another node counts in MISDELIVER (R441, R446, R449, R461). NODE_ID stands once it is written;
HALL_LEVEL_STEP arms the next level in hall mode if it lies within FEATURE_LEVEL (R456, R473). -/
def Obligations.Frames_leave_and_are_refused : Prop :=
  ∀ (s : State) (p : Fin 4), s.links.ports.length = 4 →
    (∀ (q : Fin 5) (f : EgFrame) (r : List EgFrame), (port s p.val).sending = some q.val → (port s p.val).queues.getD q.val [] = f :: r →
      (port s p.val).held = [] → let left := updAt (port s p.val).queues q.val (fun _ => r)
      ∃ t, exec (.frameTransmitted p q) s = .next t ∧ t.links.wire = s.links.wire ++ [(p.val, wireBytes s p.val f)] ∧
        (port t p.val).queues = left ∧ (left.getD 0 [] ≠ [] → (port t p.val).sending = some 0) ∧
        ((∀ i, left.getD i [] = []) → (port t p.val).sending = none) ∧ (∀ k, k ≠ p.val → port t k = port s k) ∧
        rd64 t (Reg.port.TX_FRAMES p.val) = (rd64 s (Reg.port.TX_FRAMES p.val) + 1) % 2 ^ 64 ∧
        OnlyRegs { s with links := t.links } t [Reg.port.TX_FRAMES p.val, Reg.port.TX_FRAMES p.val + 4]) ∧
    (∀ q : Fin 5, (port s p.val).sending ≠ some q.val ∨ (port s p.val).queues.getD q.val [] = [] → exec (.frameTransmitted p q) s = .next s) ∧
    (∀ f : Frame,
      (accepts s f → exec (.receivedFrameDropped f) s = .next s) ∧ (¬accepts s f → exec (.receivedFrameDropped f) s = .next (delivered s f)) ∧
      (s.hall = false → exec (.receivedFrameDropped f) s = .next s) ∧
      (s.hall = true → f.port = p → f.tagged = true → exec (.receivedFrameDropped f) s = .next (count s (Reg.port.TYPE_DROP p.val))) ∧
      (s.hall = true → f.port = p → f.tagged = false → f.fcsOk = true → 64 ≤ f.size → f.size ≤ 9216 → f.etherType.toNat = rdf s Reg.atrium.RILTIK_ETHERTYPE 15 0 →
        f.crcGood = true → rdf s Reg.atrium.RILTIK_VER 15 8 ≤ f.u 0 1 → f.u 0 1 ≤ rdf s Reg.atrium.RILTIK_VER 7 0 → f.typ ≠ 0x01 →
        (port s p.val).isUp = true → f.u 6 2 ≠ selfNode s → f.u 6 2 ≠ 0xFFFF →
        exec (.receivedFrameDropped f) s = .next (count s (Reg.port.MISDELIVER p.val)))) ∧
    (∀ n : BitVec 15,
      (nodeIdValid s = false → ∃ t, exec (.nodeId n) s = .next t ∧ selfNode t = n.toNat ∧
        OnlyRegs s t [Reg.atrium.NODE_ID, pageBase .atrium 0 + 0x28]) ∧
      (nodeIdValid s = true → exec (.nodeId n) s = .next s)) ∧
    (∀ high : Word,
      let a := Reg.atrium.HALL_LEVEL_STEP
      let n := rdf s Reg.atrium.HALL_LEVEL_NEXT 7 0
      let ok := rdf s Reg.atrium.FEATURE_LEVEL 15 8 ≤ n ∧ n ≤ rdf s Reg.atrium.FEATURE_LEVEL 7 0
      ∃ t, exec (.hallLevelStep high) s = .next t ∧ rd t (a + 4) = high &&& 0xFFFF ∧ rd t a = (Tbl.get s.staged a).getD (rd s a) ∧
        Tbl.get t.staged a = none ∧ (s.hall = true ∧ ok → t.step = { s.step with levelArmed := some (BitVec.ofNat 8 n) }) ∧
        (¬(s.hall = true ∧ ok) → t.step = s.step) ∧ OnlyRegs { s with staged := t.staged, step := t.step } t [a, a + 4, pageBase .atrium 0 + 0x28])

/-! ## Frames for the node's agents (R250 to R268, R295 to R303, R333, R334, R452, R472, R485, R495 to R513) -/

/-- FM_REQ. A READ and a WRITE run their entries in order and are answered on the ingress port, entry by entry, each under its own ADDR; a READ of
READBACK is held while a table write waits. A read of one register of an HBM page is answered with its value; a write where the fabric manager may
write changes the register as a software write does, and elsewhere is answered DENIED and changes no register (R452, R453, R472). -/
def Obligations.The_fabric_manager_reads_and_writes : Prop :=
  ∀ (s : State) (f : Frame), f.typ = 0x08 → accepts s f → s.links.ports.length = 4 →
    let u := delivered s f
    let p := f.port.val
    let l := fmEntries f.body
    let readsBack := ∃ e ∈ l, Reg.atrium.STEP_LOW ∈ spanWords e.addr e.width
    (leAt f.body 4 1 = 1 → tableWaits s = false ∨ ¬readsBack →
      let r := fmRun fmReadOne u l
      exec (.fmReqRead f) s = .next (fmRespond r.2 f (f.body.take 8 ++ r.1)) ∧ r.1.length = 16 * l.length ∧
        ∀ (i : Nat) (e : FmEntry), l[i]? = some e → leAt r.1 (16 * i) 4 = e.addr) ∧
    (leAt f.body 4 1 = 1 → tableWaits s = true → readsBack →
      exec (.fmReqRead f) s = .next { u with links := { u.links with fmHeld := u.links.fmHeld ++ [f] } }) ∧
    (leAt f.body 4 1 = 2 →
      let r := fmRun fmWriteOne u l
      exec (.fmReqWrite f) s = .next (fmRespond r.2 f (f.body.take 8 ++ r.1)) ∧ r.1.length = 16 * l.length ∧
        ∀ (i : Nat) (e : FmEntry), l[i]? = some e → leAt r.1 (16 * i) 4 = e.addr) ∧
    (∀ (e : FmEntry) (n o : Nat) (r : RegDef), leAt f.body 4 1 = 1 → fmEntries f.body = [e] → fmAddrOk e = true → e.width = 4 →
      pageAt e.addr = some (.hbm, n, o) → 0x10 ≤ o → regDefAt e.addr = some r → r.wide = .one → r.rc = false → bootStage s ≠ 0x0F →
      ((port s p).queues.getD 0 []).length < 256 →
      ∃ t b, exec (.fmReqRead f) s = .next t ∧ b = f.body.take 8 ++ fmAnswer e 0 (rd s e.addr).toNat ∧
        (port t p).queues = updAt (port s p).queues 0 (· ++ [⟨f.src, f.srcMac, none, 0x09, 0,
          frameBytes (min (port s p).ver (levelVersion (rdf s Reg.atrium.HALL_LEVEL 7 0))) 0x09 0 0 (selfNode s) f.src 0 s.now b⟩]) ∧
        t = { u with links := { u.links with ports := t.links.ports } }) ∧
    (∀ (e : FmEntry) (q : Fin 4) (r : RegDef), leAt f.body 4 1 = 2 → fmEntries f.body = [e] → e.width = 4 →
      e.addr = pageBase .port q.val + 0x34 → regDefAt e.addr = some r → s.running = true →
      ∃ t, exec (.fmReqWrite f) s = .next t ∧ rd t e.addr = writtenWord r (rd s e.addr) (BitVec.ofNat 32 e.value) ∧
        t.store = s.store ∧ t.sched = s.sched ∧ t.mem = s.mem ∧ t.faults = s.faults) ∧
    (∀ (e : FmEntry), leAt f.body 4 1 = 2 → fmEntries f.body = [e] → fmMayWrite e = false → ((port s p).queues.getD 0 []).length < 256 →
      ∃ t, exec (.fmReqWrite f) s = .next t ∧ t.regs = u.regs ∧ t.store = s.store ∧ t.sched = s.sched ∧ t.mem = s.mem ∧ t.faults = s.faults ∧
        ((port t p).queues.getD 0 []).length = ((port s p).queues.getD 0 []).length + 1)

/-- A RAKE_QUERY that passes the checks of R253 becomes a part; one that does not is counted in PART_REFUSED (R250 to R253). A RAKE_CONTRIB joins
its flight's contributions, and one whose COORD_NODE, FLIGHT_NO and EPOCH match no running flight is discarded and counted in LATE_DISCARD (R265,
R267, R274). A control part with a bad CRC counts in RAKE_CRC_FAIL (R255). A ROW_REQ that this node serves waits as a part, and any other is none; a
ROW_REPLY gives its rows to the batch that asked that node, and without a running batch it counts in LATE_DISCARD (R295, R296, R301). -/
def Obligations.Rake_and_row_frames_are_taken : Prop :=
  (∀ (s : State) (f : Frame), accepts s f →
       let u := delivered s f
       let q : Query := ⟨f.body, false, false⟩
       let id := leAt f.body 4 4
       (∀ c p, f.typ = 0x20 → queryCtlOk f.body = true → Tbl.get s.store.colls q.coll = some c → planOf s (q.u 28 2) = some p → queryReason s q = 0 →
         ∃ t x, exec (.rakeQuery f) s = .next t ∧ t.sched = { s.sched with parts := s.sched.parts ++ [x], nextFlight := s.sched.nextFlight + 1 } ∧
           x.id = s.sched.nextFlight ∧ x.kind = .participant ∧ x.epoch = q.epoch ∧ x.obj = q.coll ∧ x.plan = p ∧ x.start = s.tickOf (q.epoch + q.start) ∧
           t.store.colls = s.store.colls ∧ t.mem = s.mem ∧ t.links = u.links) ∧
       (f.typ = 0x20 → queryCtlOk f.body = true → queryReason s q ≠ 0 → ∃ t, exec (.rakeQuery f) s = .next t ∧ t.sched = s.sched ∧
         rd t Reg.sched.PART_REFUSED = counted Reg.sched.PART_REFUSED (rd s Reg.sched.PART_REFUSED) ∧ t.store.colls = s.store.colls) ∧
       (f.typ = 0x20 → queryCtlOk f.body = false → ∃ t, exec (.rakeQuery f) s = .next t ∧
         rd t Reg.sched.RAKE_CRC_FAIL = counted Reg.sched.RAKE_CRC_FAIL (rd s Reg.sched.RAKE_CRC_FAIL) ∧ t.store.tables = s.store.tables) ∧
       (f.typ = 0x21 → ctlOk f.body = true →
         (flightOf s id = none → exec (.rakeContrib f) s = .next (count u Reg.sched.LATE_DISCARD)) ∧
         (¬(∃ x, flightOf s id = some x ∧ x.epoch = leAt f.body 8 6 ∧ leAt f.body 0 2 % 0x8000 = selfNode s) → ∃ t, exec (.rakeContrib f) s = .next t ∧
           rd t Reg.sched.LATE_DISCARD = counted Reg.sched.LATE_DISCARD (rd u Reg.sched.LATE_DISCARD) ∧ t.sched = s.sched ∧ t.mem = s.mem ∧
           t.store.colls = s.store.colls ∧ t.links = u.links) ∧
         (∀ x, flightOf s id = some x → x.map.isSome = true → x.epoch = leAt f.body 8 6 → leAt f.body 0 2 % 0x8000 = selfNode s →
           inMap x (leAt f.body 16 2) = true → (leAt f.body 2 1).testBit 0 = false → x.merged = false → landingOpen x 3 = true → x.contribs = [] →
           ∃ t, exec (.rakeContrib f) s = .next t ∧ flightOf t id = some { x with contribs := (addContrib [] f.body).1 } ∧
             t.regs = u.regs ∧ t.links = u.links ∧ t.mem = s.mem ∧ t.store.colls = s.store.colls))) ∧
  (∀ (s : State) (f : Frame), accepts s f → ctlOk f.body = true →
       let u := delivered s f
       let b := f.body
       (f.typ = 0x30 → reqServed s b = true → ∃ t x, exec (.rowReq f) s = .next t ∧
         t.sched = { s.sched with parts := s.sched.parts ++ [x], nextFlight := s.sched.nextFlight + 1 } ∧ x.kind = .rowServe ∧ x.obj = leAt b 20 2 ∧
         x.epoch = s.now ∧ x.start = s.ticks + 1 ∧ t.store.tables = s.store.tables ∧ t.mem = s.mem ∧ t.links = u.links ∧ t.regs = u.regs) ∧
       (f.typ = 0x30 → reqServed s b = false → ∃ t, exec (.rowReq f) s = .next t ∧ t.sched = s.sched ∧ t.store.tables = s.store.tables ∧ t.mem = s.mem) ∧
       (f.typ = 0x31 → flightOf s (leAt b 4 4) = none → exec (.rowReply f) s = .next (count u Reg.sched.LATE_DISCARD)) ∧
       (∀ x i st d r, f.typ = 0x31 → flightOf s (leAt b 4 4) = some x → x.kind = .scatter → x.epoch = leAt b 8 6 → x.desc.op = leAt b 2 1 →
         replyEntries b 0 = [(i, st, d)] → x.work.rows[i]? = some r → r.remote = f.src + 1 → r.done = false →
         ∃ t y, exec (.rowReply f) s = .next t ∧ flightOf t x.id = some y ∧ y.work.rows[i]? = some { r with status := st, data := [], done := true } ∧
           (∀ k, k ≠ i → y.work.rows[k]? = x.work.rows[k]?) ∧ y.stages = x.stages ∧ t.store.tables = s.store.tables ∧ t.regs = u.regs ∧ t.mem = s.mem))

/-- An OWNER_READ that passes waits for the next open instant, and one that does not is not kept. OWNER_DATA goes to what asked for it: the last
bytes of a LOST range repair it, the next bytes of a graft image are kept and counted in GRAFT_BYTES, and data that nothing asked for counts in
LATE_DISCARD (R333, R334, R369, R510). -/
def Obligations.Owner_frames_are_served_and_taken : Prop :=
  ∀ (s : State) (f : Frame), accepts s f → ctlOk f.body = true →
    let u := delivered s f
    let b := f.body
    let req := leAt b 4 4
    let g := s.faults.graft
    (f.typ = 0x40 → ownerStatus s b = some 0 → exec (.ownerRead f) s =
      .next { u with links := { u.links with ownerReads := u.links.ownerReads ++ [b.take 64] } }) ∧
    (∀ st, f.typ = 0x40 → ownerStatus s b = some st → st ≠ 0 → ∃ t, exec (.ownerRead f) s = .next t ∧ t.links.ownerReads = s.links.ownerReads ∧
      t.sched = s.sched ∧ t.mem = s.mem ∧ t.store.colls = s.store.colls ∧ t.store.tables = s.store.tables) ∧
    (f.typ = 0x41 → Tbl.get g.reqs req = none → Tbl.get g.reads req = none →
      ((∀ l ∈ s.mem.flash.lost, l.req ≠ req) → exec (.ownerData f) s = .next (count u Reg.sched.LATE_DISCARD)) ∧
      (∀ l, s.mem.flash.lost = [l] → l.req = req → l.peer = f.src + 1 → l.both = false → leAt b 21 1 = 0 → 4096 * l.pages ≤ l.got + leAt b 32 4 →
        ∃ t, exec (.ownerData f) s = .next t ∧ t.mem.flash.lost = [] ∧
          rd t Reg.ft.REPAIRED_RANGES = counted Reg.ft.REPAIRED_RANGES (rd s Reg.ft.REPAIRED_RANGES) ∧
          OnlyRegs { u with mem := t.mem } t [Reg.ft.REPAIRED_RANGES])) ∧
    (∀ i, f.typ = 0x41 → Tbl.get g.reqs req = some i → leAt b 21 1 = 0 → g.active = true → g.hbmDone = false → i ∈ followerPairs s →
      leAt b 24 8 = (imageOf s i).length → (imageOf s i).length + ((b.drop 64).take (leAt b 32 4)).length < 4096 →
      ∃ t, exec (.ownerData f) s = .next t ∧ imageOf t i = imageOf s i ++ (b.drop 64).take (leAt b 32 4) ∧ t.faults.graft.lastData = s.now ∧
        rd64 t Reg.fault.GRAFT_BYTES = (rd64 s Reg.fault.GRAFT_BYTES + ((b.drop 64).take (leAt b 32 4)).length) % 2 ^ 64 ∧
        OnlyRegs { u with faults := t.faults } t [Reg.fault.GRAFT_BYTES, Reg.fault.GRAFT_BYTES + 4])

/-- GONE puts its sender into the gone set and counts in GONE_RX (R485). A SHADOW_QUERY is a part of class 3 where the node compares and nothing
where it does not; a SHADOW_RESULT is kept for a comparison that waits for it, and otherwise ignored (R512). -/
def Obligations.Gone_and_shadow_frames_are_taken : Prop :=
  ∀ (s : State) (f : Frame), accepts s f →
    let u := delivered s f
    let b := f.body
    let q : Query := ⟨b, true, false⟩
    let mine := s.faults.pairs.any fun p => p.2.role == 2 && p.2.peer == f.src && p.2.obj == objColl (q.u 26 2)
    let key := shadowKey (leAt b 0 2 % 0x8000) (leAt b 4 4) (leAt b 16 2)
    let n := f.src % 0x8000
    let gone := s.faults.gone.filter (·.1 ≠ n) ++ [(n, s.ticks)]
    (f.typ = 0x04 → s.faults.pairs = [] → s.sched.flights = [] → ∃ t, exec (.gone f) s = .next t ∧
      t.faults = { s.faults with gone := gone.drop (gone.length - 1024) } ∧ (n, s.ticks) ∈ t.faults.gone ∧
      rd t Reg.fault.GONE_RX = counted Reg.fault.GONE_RX (rd s Reg.fault.GONE_RX) ∧
      OnlyRegs { u with faults := t.faults } t [Reg.fault.GONE_RX, pageBase .fault 0 + 0x28]) ∧
    (f.typ = 0x58 → queryCtlOk b = true →
      ((mine = false ∨ (s.faults.nodeState ≠ 2 ∧ (s.faults.nodeState ≠ 3 ∨ testBit (rd s Reg.fault.SHADOW_CTRL) 8 = false))) → exec (.shadowQuery f) s = .next u) ∧
      (∀ c p, mine = true → s.faults.nodeState = 2 → Tbl.get s.store.colls q.coll = some c → planOf s (q.u 28 2) = some p → queryReason s q = 0 →
        (∀ x ∈ s.sched.flights ++ s.sched.parts, x.id ≠ s.sched.nextFlight) →
        ∃ t x, exec (.shadowQuery f) s = .next t ∧ t.sched = { s.sched with parts := s.sched.parts ++ [x], nextFlight := s.sched.nextFlight + 1 } ∧
          x.cls = 3 ∧ x.kind = .participant ∧ x.epoch = q.epoch ∧ x.obj = q.coll ∧ t = { u with sched := t.sched })) ∧
    (f.typ = 0x59 → ctlOk b = true → Tbl.get s.faults.graft.own key = none →
      ((s.sched.parts.any fun x => match x.part with | some p => p.shadow && shadowKey p.coord p.flightNo p.shard == key | none => false) = false →
        exec (.shadowResult f) s = .next u) ∧
      ((s.sched.parts.any fun x => match x.part with | some p => p.shadow && shadowKey p.coord p.flightNo p.shard == key | none => false) = true →
        exec (.shadowResult f) s = .next (setGraft u fun g => { g with results := Tbl.set g.results (key * 32 + leAt b 18 1) b })))

/-! ## Mirror pairs (R496 to R507) -/

/-- PAIR_WRITE leaves its RESULT; an accepted entry waits for the next open instant, and a refused one changes no pair. A source repeats what is
unacknowledged for two steps and counts it in STREAM_RESENDS; an acknowledgement ends the unit it names (R496, R497, R504). -/
def Obligations.Pairs_are_written_and_streamed : Prop :=
  ∀ s : State,
    (let e := rd64 s Reg.fault.PAIR_ENTRY
     let i := rdf s Reg.fault.PAIR_SEL 7 0
     ∃ t, exec .pairWrite s = .next t ∧ rdf t Reg.fault.PAIR_STATUS 7 0 = pairResult s e ∧
      (pairResult s e = 0 → t.faults = { s.faults with pairs := Tbl.set s.faults.pairs i { pairAt s i with next := some (BitVec.ofNat 64 e) } }) ∧
      (pairResult s e ≠ 0 → t.faults = s.faults) ∧ OnlyRegs { s with faults := t.faults } t [Reg.fault.PAIR_STATUS]) ∧
    (∀ i : Fin 256, (pairAt s i.val).streams = false → exec (.mirrorResend i) s = .next s) ∧
    (∀ (i : Fin 256) (u : MUnit), (pairAt s i.val).streams = true → (pairAt s i.val).units = [u] → u.acked = false →
      (s.now < u.sentAt + 2 → exec (.mirrorResend i) s = .next s) ∧
      (u.sentAt + 2 ≤ s.now → ∃ t, exec (.mirrorResend i) s = .next t ∧ pairAt t i.val = { pairAt s i.val with units := [{ u with sentAt := s.now }] } ∧
        rd t Reg.fault.STREAM_RESENDS = counted Reg.fault.STREAM_RESENDS (rd s Reg.fault.STREAM_RESENDS) ∧
        t.links = (sendUnit s i.val u).links ∧ t.store = s.store ∧ t.sched = s.sched ∧ t.mem = s.mem)) ∧
    (∀ (f : Frame) (i : Nat) (p : Pair) (u : MUnit), f.typ = 0x54 → accepts s f → ctlOk f.body = true →
      let h := parseMHdr f.body
      (s.faults.pairs.find? fun x => x.2.streams && x.2.peer == f.src && x.2.obj == h.srcObj) = some (i, p) → Tbl.get s.faults.pairs i = some p →
      h.status ≠ 1 → (p.units.find? fun x => x.seq == h.seq) = some u → u.typ ≠ 0x50 → s.faults.held = [] →
      exec (.mirrorAck f) s = .next (updPair (delivered s f) i fun q => { q with units := q.units.filter (·.seq ≠ h.seq) }))

/-- A follower takes the next unit of its stream when it is whole: it acknowledges it, holds a PREP, commits the batch of a COMMIT as the source
did, drops that of an ABORT, closes the epoch of a CLOSE and applies the gradients of a ROWS; a unit applied before is only acknowledged again (R499
to R504). -/
def Obligations.Follower_applies_the_stream : Prop :=
  ∀ (s : State) (f : Frame) (i : Nat) (p : Pair), accepts s f → ctlOk f.body = true →
    let v := delivered s f
    let h := parseMHdr f.body
    let b := f.body.drop 64
    let unit : MUnit := ⟨h.seq, f.typ, h.op, h.epoch, f.cls, h.entries, 1, [(0, h.first, h.cnt, b)], 0, false, 0, 0⟩
    let w := sendAck (updPair v i fun q => { q with units := q.units ++ [unit] }) i h.seq 0 f.cls
    (s.faults.pairs.find? fun x => x.2.role == 2 && x.2.peer == f.src && x.2.obj == h.dstObj) = some (i, p) → Tbl.get s.faults.pairs i = some p →
    p.diverged = false →
    (f.typ = 0x50 → h.seq ≤ p.applied → exec (.mirrorPrep f) s = .next (sendAck v i h.seq 0 f.cls)) ∧
    (h.seq = p.applied + 1 → (∀ x ∈ p.units, x.seq ≤ p.applied) → h.fragNo = 0 → h.fragCount = 1 →
      heldBytes p + f.body.length ≤ 0x200000000 → copying s p.obj = false →
      (∀ c, p.obj < 4096 → Tbl.get s.store.colls p.obj = some c →
        (f.typ = 0x50 → ∃ t, exec (.mirrorPrep f) s = .next t ∧ pairAt t i = { p with units := p.units ++ [unit], applied := h.seq } ∧
          t.links = w.links ∧ t.store = s.store ∧ t.mem = s.mem ∧ t.sched = s.sched) ∧
        (∀ pr x d n e, f.typ = 0x51 → leAt f.body 22 1 = 0 → openPrep p h.entries h.seq = some pr →
          (pr.op = 0x20 → slotsFree c (prepItems c pr) ((b.drop 8).map (·.toNat)) = true) →
          commitTo (updPair w i fun q => { q with units := q.units.filter (·.seq ≠ pr.seq) }) none p.obj h.epoch (pr.op == 0x20) false (some (leAt b 0 8))
            (some ((b.drop 8).map (·.toNat))) (prepItems c pr) = (some (x, d, n), e) →
          ∃ t, exec (.mirrorCommit f) s = .next t ∧ t.store = x.store ∧ t.mem = x.mem ∧
            pairAt t i = { p with units := p.units.filter (·.seq ≠ pr.seq), applied := h.seq }) ∧
        (∀ pr, f.typ = 0x51 → leAt f.body 22 1 = 1 → openPrep p h.entries h.seq = some pr → ∃ t, exec (.mirrorAbort f) s = .next t ∧
          pairAt t i = { p with units := p.units.filter (·.seq ≠ pr.seq), applied := h.seq } ∧ t.store = s.store ∧ t.mem = s.mem) ∧
        (f.typ = 0x52 → leAt b 8 2 = 0 → ∃ t, exec (.mirrorClose f) s = .next t ∧ pairAt t i = { p with closed := h.epoch, applied := h.seq } ∧
          t.store = s.store ∧ t.mem = s.mem)) ∧
      (∀ x, 4096 ≤ p.obj → Tbl.get s.store.tables (p.obj - 4096) = some x → f.typ = 0x53 → ∃ t, exec (.mirrorRows f) s = .next t ∧
        t.store = (applyRows w (p.obj - 4096) x unit).store ∧ t.mem = (applyRows w (p.obj - 4096) x unit).mem ∧ pairAt t i = { p with applied := h.seq }))

/-! ## Service states and faults (R479 to R494, R508 to R513) -/

/-- NODE_CMD. In card mode every command ends NO_FABRIC; in hall mode GRAFT_START and FENCE take effect at the next open instant, SERVE and
GRAFT_ABORT at once, each leaving RESULT; a graft that stalls or outlives its window, and a fence that comes due, end as R510, R513 and R494 say.
QUIESCE sets the node's QUIESCE bit and QUIESCE_END clears it (R479, R492, R494, R508, R510, R513). -/
def Obligations.Node_commands_change_the_service_state : Prop :=
  ∀ s : State,
    let st := Reg.fault.NODE_CMD_STATUS
    let ev := pageBase .fault 0 + 0x28
    let g := s.faults
    (s.hall = false → ∀ c ∈ [Instr.graftStart, .graftAbort, .serve, .fence], ∃ t, exec c s = .next t ∧ rdf t st 7 0 = 3 ∧ OnlyRegs s t [st]) ∧
    (graftStartResult s = 0 → ∃ t, exec .graftStart s = .next t ∧ t.faults = { g with graftAsked := true, graft := Graft.reset } ∧ rdf t st 7 0 = 0 ∧
      rd t Reg.fault.SHADOW_RUN = 0 ∧ rd64 t Reg.fault.FIRST_MISMATCH = 0 ∧ rd64 t Reg.fault.GRAFT_BYTES = 0 ∧
      OnlyRegs { s with faults := t.faults } t [st, Reg.fault.SHADOW_RUN, Reg.fault.FIRST_MISMATCH, Reg.fault.FIRST_MISMATCH + 4, Reg.fault.GRAFT_BYTES,
        Reg.fault.GRAFT_BYTES + 4]) ∧
    (graftStartResult s ≠ 0 → ∃ t, exec .graftStart s = .next t ∧ rdf t st 7 0 = graftStartResult s ∧ OnlyRegs s t [st]) ∧
    (s.hall = true → grafting s = true → ∃ t, exec .graftAbort s = .next t ∧
      t.faults = { g with graftAsked := false, nodeState := 0, graft := Graft.reset } ∧ rdf t st 7 0 = 0 ∧ OnlyRegs { s with faults := t.faults } t [st, ev]) ∧
    (s.hall = true → g.nodeState = 0 → g.graftAsked = false → followerPairs s = [] → ∃ t, exec .serve s = .next t ∧
      t.faults = { g with nodeState := 3 } ∧ rdf t st 7 0 = 0 ∧ OnlyRegs { s with faults := t.faults } t [st]) ∧
    (s.hall = true → g.nodeState = 3 → (∃ t, exec .fence s = .next t ∧ t.faults = { g with fenceAsked := true } ∧ rdf t st 7 0 = 0 ∧
        OnlyRegs { s with faults := t.faults } t [st]) ∧
      (max 1 (rdf s Reg.fault.FENCE_STEPS 7 0) ≤ g.noRoute → exec .fenceTimeout s = .next { s with faults := { g with fenceAsked := true } }) ∧
      (g.noRoute < rdf s Reg.fault.FENCE_STEPS 7 0 → exec .fenceTimeout s = .next s)) ∧
    (g.graft.active = true → g.nodeState = 1 →
      (g.graft.lastData + max 1 (rd s Reg.fault.GRAFT_STALL).toNat ≤ s.now → ∃ t, exec .graftStall s = .next t ∧
        t.faults = { g with nodeState := 0, graft := Graft.reset } ∧ OnlyRegs { s with faults := t.faults } t [ev]) ∧
      (s.now < g.graft.lastData + (rd s Reg.fault.GRAFT_STALL).toNat → exec .graftStall s = .next s)) ∧
    (g.nodeState = 2 → (g.graft.started + (rd s Reg.fault.GRAFT_WINDOW).toNat ≤ s.now → ∃ t, exec .graftWindow s = .next t ∧
        t.faults = { g with nodeState := 0, graft := Graft.reset } ∧ OnlyRegs { s with faults := t.faults } t [ev]) ∧
      (s.now < g.graft.started + (rd s Reg.fault.GRAFT_WINDOW).toNat → exec .graftWindow s = .next s)) ∧
    (∃ t, exec .quiesce s = .next t ∧ t.quiesce = true ∧ OnlyRegs s t [Reg.fault.CTRL]) ∧
    (∃ t, exec .quiesceEnd s = .next t ∧ t.quiesce = false ∧ OnlyRegs s t [Reg.fault.CTRL])

/-- FAULT_CLEAR clears a bit of FAULT_STATUS whose group may be cleared, and counts a refusal otherwise; HIST_POP takes the oldest entry of the
history queue, or sets UNDERFLOW; a pop of the empty queue that meets a push does neither (R23); GONE_CLEAR takes one node out of the gone set; after a C0 fault the outstanding descriptors complete with
NODE_FAULT (R480, R485, R488, R489). -/
def Obligations.Faults_are_cleared_and_reported : Prop :=
  ∀ s : State,
    (∀ g : Fin 64, bitsOf (rd64 s Reg.fault.FAULT_STATUS) g.val g.val = 1 →
      (mayClear s g.val = false → exec (.faultClear (BitVec.ofNat 64 (2 ^ g.val))) s = .next (count s Reg.fault.CLEAR_REFUSED)) ∧
      (mayClear s g.val = true → ∃ t, exec (.faultClear (BitVec.ofNat 64 (2 ^ g.val))) s = .next t ∧
        rd64 t Reg.fault.FAULT_STATUS = rd64 s Reg.fault.FAULT_STATUS - 2 ^ g.val ∧
        t.faults = { s.faults with c1Set := Tbl.del s.faults.c1Set g.val } ∧ (g.val = 0 → rdf t Reg.atrium.STEP_STATUS 3 3 = 0) ∧
        (rd64 s Reg.fault.FAULT_STATUS = 2 ^ g.val → bitsOf (rd64 t Reg.fault.FAULT_FIRST) 7 7 = 0) ∧
        OnlyRegs { s with faults := t.faults } t
          [Reg.fault.FAULT_STATUS, Reg.fault.FAULT_STATUS + 4, Reg.fault.FAULT_FIRST, Reg.atrium.STEP_STATUS])) ∧
    (s.faults.hist = [] → ∃ t, exec .histPop s = .next t ∧ testBit (rd t Reg.fault.HIST_CTRL) 30 = true ∧ OnlyRegs s t [Reg.fault.HIST_CTRL]) ∧
    (s.faults.hist = [] → mgmtReaches s → exec (.registerWrite .mgmt .bar0 Reg.fault.HIST_POP ⟨toLe 4 1, 1⟩) s = .next s) ∧
    (∀ e r, s.faults.hist = e :: r → exec .histPop s = .next { s with faults := { s.faults with hist := r } }) ∧
    (∀ n : BitVec 15, ∃ t, exec (.goneClear n) s = .next t ∧ (∀ m, (m ∈ t.faults.gone ↔ m ∈ s.faults.gone ∧ m.1 ≠ n.toNat)) ∧
      t = { s with faults := { s.faults with gone := t.faults.gone } }) ∧
    (s.c0 = false → exec .nodeFaultCompletions s = .next s) ∧
    (∀ d : Desc, s.c0 = true → s.faults.ended = [d] → s.faults.endedFlights = [] → s.faults.held = [] → d.hdrOk = false → busOk s (vfOf d.chan) = true →
      let ch := chan s d.chan
      ch.waiting = [] → cqFull ch = false → ch.arm = false → ∃ t, exec .nodeFaultCompletions s = .next t ∧ t.faults = { s.faults with ended := [] } ∧
        t.links.out = s.links.out ++ [.write (vfOf d.chan) (BitVec.ofNat 64 (ch.accepted.cqAddr.toNat + 32 * ch.cqTail))
          (cqeBytes d.chan ch ⟨d.tag, ST_NODE_FAULT, BitVec.ofNat 8 d.op, false, d.sqSlot, 0, 0⟩)] ∧
        (chan t d.chan).outstanding = ch.outstanding - 1 ∧ t.regs = s.regs ∧ t.mem = s.mem ∧ t.sched = s.sched)

/-- The C0 errors of R482 latch: RAIL_UV outside reset, THERM_TRIP, D2D_FAIL, MC_UE and COLLECTOR_PARITY leave the node in its C0 state, with
FAULT_N asserted, and what the VDD_AUX domain records stands there. A sensor that trips while RESET_N is asserted does the same, and the node
remains in reset. MC_UE halts the management cores too (R475, R482, R484, R486, R559, R564, R578). -/
def Obligations.C0_errors_latch : Prop :=
  ∀ s : State,
    (∀ rail, s.chip.pins.resetN = true → ∃ t, exec (.railUv rail) s = .next t ∧ t.c0 = true ∧ faultN t = false ∧ t.chip.aux.uvSeen = true) ∧
    (∀ rail, s.chip.pins.resetN = false → exec (.railUv rail) s = .next s) ∧
    (∀ x, ∃ t, exec (.thermTrip x) s = .next t ∧ t.c0 = true ∧ faultN t = false ∧ t.chip.aux.thermTrip = true ∧
      testBit (rd t (pageBase .power 0 + 0x30)) 0 = true ∧ thermTripN t = false ∧ t.chip.pins = s.chip.pins) ∧
    (∃ t, exec .d2dFail s = .next t ∧ t.c0 = true ∧ faultN t = false) ∧
    (∃ t, exec .mcUe s = .next t ∧ t.c0 = true ∧ faultN t = false ∧ (∀ c ∈ t.chip.intc.cores, c.enabled = false) ∧
      t.chip.intc.cores.map (·.nest) = s.chip.intc.cores.map (·.nest)) ∧
    (∃ t, exec .collectorParity s = .next t ∧ t.c0 = true ∧ faultN t = false)

/-! ## Galleries (R321 to R323, R483, R540 to R545, R562) -/

/-- FLUSH commands: BUSY and the galleries to wait for where the range may be flushed, BAD_RANGE where it may not, nothing while BUSY; the last
FLUSH_COMPLETE ends the flush. DOZE stops the clock of a tile that runs nothing and counts it; DROOP_STRETCH and DROOP_RELEASE switch the gallery's
clock; LS_UE takes the gallery out of service and fails its stages (R321, R323, R483, R540, R562). -/
def Obligations.Galleries_flush_doze_and_fail : Prop :=
  ∀ (s : State) (g : Fin 50), s.chip.galleries.length = 50 →
    let st := Reg.gallery.GAL_FLUSH_STATUS g.val
    let ct := Reg.gallery.GAL_FLUSH_CTRL g.val
    let range := flushRangeOk (rd64 s (Reg.gallery.GAL_FLUSH_BASE g.val)) (rd s (Reg.gallery.GAL_FLUSH_BYTES g.val)).toNat
    (∀ b c op, (c, op) ∈ [(Instr.flushWriteback g b, 0), (.flushWbInval g b, 1), (.flushInval g b, 2)] →
      (testBit (rd s st) 31 = true → exec c s = .next s) ∧
      (testBit (rd s st) 31 = false → range = false → ∃ t, exec c s = .next t ∧ rd t st = 1 ∧ OnlyRegs s t [ct, st]) ∧
      (testBit (rd s st) 31 = false → range = true → ∃ t, exec c s = .next t ∧ testBit (rd t st) 31 = true ∧
        gallery t g.val = { gallery s g.val with
          flushRange := (rd64 s (Reg.gallery.GAL_FLUSH_BASE g.val), (rd s (Reg.gallery.GAL_FLUSH_BYTES g.val)).toNat)
          flushLeft := some (if b then inServiceList s else [g.val]), flushInv := op == 2 } ∧
        (∀ k, k ≠ g.val → gallery t k = gallery s k) ∧ OnlyRegs { s with chip := { s.chip with galleries := t.chip.galleries } } t [ct, st])) ∧
    ((gallery s g.val).flushLeft = some [g.val] → (∀ k, k ≠ g.val → (gallery s k).flushLeft = none) →
      let hit (d : Dirty) : Bool := meets d.addr d.bytes (gallery s g.val).flushRange
      ∃ t, exec (.flushComplete g) s = .next t ∧ rd t st = 0 ∧
        gallery t g.val = { gallery s g.val with flushLeft := none, lines := (gallery s g.val).lines.filter fun d => !hit d } ∧
        (∀ k, k ≠ g.val → gallery t k = gallery s k) ∧
        ((gallery s g.val).flushInv = false ∨ (gallery s g.val).lines.any hit = false → t.store = s.store) ∧
        ((gallery s g.val).lines.any hit = false → rd t (Reg.gallery.FLUSH_LINES g.val) = rd s (Reg.gallery.FLUSH_LINES g.val)) ∧
        OnlyRegs { s with chip := { s.chip with galleries := t.chip.galleries, free := t.chip.free }, store := t.store } t
          [st, Reg.gallery.FLUSH_LINES g.val]) ∧
    (∀ tile : Fin 800, tile.val / 16 = g.val → (gallery s g.val).dozing.getLsbD (tile.val % 16) = false → tileBusy s tile.val = false →
      (gallery s g.val).fstate = 0 → ∃ t, exec (.doze tile) s = .next t ∧ (gallery t g.val).dozing.getLsbD (tile.val % 16) = true ∧
        rd t (Reg.gallery.DOZE_ENTRIES g.val) = counted (Reg.gallery.DOZE_ENTRIES g.val) (rd s (Reg.gallery.DOZE_ENTRIES g.val)) ∧
        OnlyRegs { s with chip := { s.chip with galleries := t.chip.galleries, trace := t.chip.trace } } t [Reg.gallery.DOZE_ENTRIES g.val]) ∧
    ((gallery s g.val).stretched = false → ∃ t, exec (.droopStretch g) s = .next t ∧ gallery t g.val = { gallery s g.val with stretched := true } ∧
      rd t Reg.power.DROOP_EVENTS = counted Reg.power.DROOP_EVENTS (rd s Reg.power.DROOP_EVENTS) ∧
      OnlyRegs { s with chip := { s.chip with galleries := t.chip.galleries } } t [Reg.power.DROOP_EVENTS, pageBase .power 0 + 0x28]) ∧
    (∃ t, exec (.droopRelease g) s = .next t ∧ gallery t g.val = { gallery s g.val with stretched := false } ∧ (∀ k, k ≠ g.val → gallery t k = gallery s k) ∧
      t = { s with chip := { s.chip with galleries := t.chip.galleries } }) ∧
    (∀ tile : Fin 800, tile.val / 16 = g.val → testBit (rd s (pageBase .tile tile.val + 0x34)) 1 = true →
      ∃ t, exec (.lsUe (.lsUe tile)) s = .next t ∧ (gallery t g.val).inService = false ∧ (gallery t g.val).faulted = true ∧
        testBit (rd t (pageBase .tile tile.val + 0x30)) 1 = true ∧ t.sched.flights = s.sched.flights.map (failStages s.ticks g.val) ∧
        (∀ k, k ≠ g.val → gallery t k = gallery s k) ∧ t.mem = s.mem ∧ t.links = s.links)

/-- Fallow. A request is taken from ACTIVE alone; the gate is passed when the gallery is not booked and its trace unit is empty, and is then
counted; a wake checks the retained regions; the exit resets the tile pages and lets the gallery return; an abort before gating keeps every region
(R541 to R545, R602). -/
def Obligations.Fallow_is_entered_and_left : Prop :=
  ∀ (s : State) (g : Fin 50), s.chip.galleries.length = 50 → s.chip.trace.length = 51 →
    let x := gallery s g.val
    let rq := Reg.gallery.FALLOW_REQ g.val
    (∀ off, (x.fstate ≠ 0 → exec (.fallowRequest g off) s = .next s) ∧
      (x.fstate = 0 → ∃ t, exec (.fallowRequest g off) s = .next t ∧ rd t rq = (if off then 2 else 1) ∧
        gallery t g.val = { x with fstate := 1, leave := x.inService, ret := false, pushedEnter := false, postponed := false, forced := false } ∧
        OnlyRegs { s with chip := { s.chip with galleries := t.chip.galleries } } t [rq])) ∧
    (x.fstate = 1 → x.forced = false → x.pushedEnter = false → galleryBooked s g.val = true → exec (.fallowGate g) s = .next s) ∧
    (x.fstate = 1 → x.forced = false → x.pushedEnter = false → galleryBooked s g.val = false → (traceUnit s g.val).fifo = [] →
      testBit (rd s (Reg.trace.CTRL g.val)) 0 = false → ∃ t, exec (.fallowGate g) s = .next t ∧
        (gallery t g.val).fstate = (if fallowMode s g.val = 2 then 3 else 2) ∧ (gallery t g.val).dozing = 0 ∧ (gallery t g.val).lines = [] ∧
        rd t (Reg.gallery.FALLOW_ENTRIES g.val) = counted (Reg.gallery.FALLOW_ENTRIES g.val) (rd s (Reg.gallery.FALLOW_ENTRIES g.val)) ∧
        rdf t (Reg.gallery.FALLOW_STATUS g.val) 31 24 = 1 ∧ (x.lines = [] → rd t (Reg.gallery.FLUSH_LINES g.val) = rd s (Reg.gallery.FLUSH_LINES g.val)) ∧
        OnlyRegs { s with chip := { s.chip with galleries := t.chip.galleries, free := t.chip.free } } t
          [Reg.gallery.FALLOW_ENTRIES g.val, Reg.gallery.FALLOW_STATUS g.val, Reg.gallery.FLUSH_LINES g.val, pageBase .gallery g.val + 0x28]) ∧
    (x.fstate = 2 → x.mbist = false → ∃ t, exec (.fallowWake g) s = .next t ∧ (gallery t g.val).fstate = 4 ∧ rd t rq = 0 ∧
      (∀ i, i < 16 → ((rdf t (Reg.gallery.FALLOW_STATUS g.val) 15 0).testBit i = true ↔ keptRegion s x i = true) ∧
        (keptRegion s x i = false → (gallery t g.val).tags.getD i 0 = 0)) ∧
      OnlyRegs { s with chip := { s.chip with galleries := t.chip.galleries } } t [rq, Reg.gallery.FALLOW_STATUS g.val]) ∧
    (x.fstate = 4 → x.ret = false → ∃ t, exec (.fallowExit g) s = .next t ∧ gallery t g.val = { x with ret := true } ∧
      (∀ a, 0x1001000 + 0x20000 * g.val ≤ a → a < 0x1011000 + 0x20000 * g.val → rd t a = resetOf a) ∧ t.sched = s.sched ∧ t.store = s.store ∧ t.mem = s.mem) ∧
    (x.fstate = 1 → ∃ t, exec (.fallowAbort g) s = .next t ∧ (gallery t g.val).fstate = 4 ∧ (gallery t g.val).ret = true ∧ (gallery t g.val).leave = false ∧
      rd t rq = 0 ∧ rdf t (Reg.gallery.FALLOW_STATUS g.val) 15 0 = 0xFFFF ∧ t.sched = s.sched ∧ t.store = s.store ∧ t.mem = s.mem)

/-! ## Power and tray management (R557, R569) -/

/-- AVS_ACK of a wing that waits takes over its voltage and ends a freeze; AVS_TIMEOUT freezes the wing and sets AVS_FAIL. A tray-management read
answers the registers of the power page from 0x040 to 0x05C as they stand, FAULT_STATUS and the serial number, nothing of that page below 0x040 and
from 0x070 on, and changes nothing but the answer (R557, R569). -/
def Obligations.Regulators_and_tray_management_answer : Prop :=
  ∀ (s : State) (east : Bool),
    let p := pageBase .power 0
    ((getAvs s east).waiting = false → exec (.avsAck east) s = .next s ∧ exec (.avsTimeout east) s = .next s) ∧
    ((getAvs s east).waiting = true → (getAvs s (!east)).frozen = false → ∃ t, exec (.avsAck east) s = .next t ∧
      getAvs t east = { getAvs s east with waiting := false, level := (getAvs s east).target, frozen := false } ∧ getAvs t (!east) = getAvs s (!east) ∧
      testBit (rd t (p + 0x18)) 2 = true ∧ OnlyRegs { s with chip := { s.chip with power := t.chip.power } } t [p + 0x18]) ∧
    ((getAvs s east).waiting = true → testBit (rd s (p + 0x34)) 2 = true → ∃ t, exec (.avsTimeout east) s = .next t ∧
      getAvs t east = { getAvs s east with frozen := true } ∧ testBit (rd t (p + 0x18)) 2 = false ∧ testBit (rd t (p + 0x30)) 2 = true ∧
      OnlyRegs { s with chip := { s.chip with power := t.chip.power } } t [p + 0x18, p + 0x30, p + 0x3C]) ∧
    (∀ r, exec (.trayManagementRead r) s = .next { s with links := { s.links with answer := trayRead s r } }) ∧
    (∀ off, 0x40 ≤ off → off < 0x60 → off % 4 = 0 → trayRead s (.power off) = some ((rd s (p + off)).setWidth 64)) ∧
    (∀ off, off < 0x40 ∨ 0x70 ≤ off → trayRead s (.power off) = none) ∧
    trayRead s .faultStatus = some (BitVec.ofNat 64 (rd64 s Reg.fault.FAULT_STATUS)) ∧ trayRead s .serial = some Config.serial

/-! ## Interrupts and mailboxes (R525 to R533, R548) -/

/-- A source that fires is taken by the core that it is bound to, where it pre-empts; COMPLETE ends it, and of a source not active on the core it
sets BAD_COMPLETE; a handler's return restores what it interrupted; CORE_EN and the watchdog leave the core as told (R525 to R531, R548). -/
def Obligations.Interrupts_are_taken_and_completed : Prop :=
  ∀ (s : State) (n : Fin 4096) (c : Fin 4) (x : Src), s.chip.intc.cores.length = 4 →
    (s.chip.intc.srcs = [(n.val, x)] → isAssigned n.val = true → x.enable = true → x.activeOn = none → x.bound = none → bindTarget s x = some c.val →
      preempts s (getCore s c.val).nest x.urgency = true → (getCore s c.val).nest.length < 8 →
      (∃ t, exec (.swTrigger n) s = .next t ∧
        getSrc t n.val = { x with
          input := if x.sense = 0 then x.input && sourceInput s n.val else x.input, pending := false, activeOn := some c.val, last := c.val, full := false } ∧
        (getCore t c.val).nest = (n.val, tierOf s x.urgency) :: (getCore s c.val).nest ∧ (∀ k, k ≠ c.val → getCore t k = getCore s k) ∧
        t = { s with chip := { s.chip with intc := t.chip.intc } }) ∧
      (isSoftSource n.val = false → x.sense = 0 → sourceInput s n.val = true → ∃ t, exec (.interruptAssert n .steady) s = .next t ∧
        getSrc t n.val = { x with input := true, pending := false, activeOn := some c.val, last := c.val, full := false } ∧
        (getCore t c.val).nest = (n.val, tierOf s x.urgency) :: (getCore s c.val).nest ∧ (∀ k, k ≠ c.val → getCore t k = getCore s k) ∧
        t = { s with chip := { s.chip with intc := t.chip.intc } })) ∧
    (isAssigned n.val = false → ∀ ph, exec (.swTrigger n) s = .next s ∧ exec (.interruptAssert n ph) s = .next s) ∧
    (s.chip.intc.srcs = [(n.val, x)] → x.activeOn = some c.val → x.pending = false → (x.sense ≠ 0 ∨ x.input = false) →
      ∃ t, exec (.complete c n) s = .next t ∧ getSrc t n.val = { x with activeOn := none, bound := none } ∧ t.chip.intc.cores = s.chip.intc.cores ∧
        t = { s with chip := { s.chip with intc := t.chip.intc } }) ∧
    ((getSrc s n.val).activeOn ≠ some c.val → testBit (rd s (pageBase .intc 0 + 0x34)) 0 = true → ∃ t, exec (.complete c n) s = .next t ∧
      testBit (rd t (pageBase .intc 0 + 0x30)) 0 = true ∧ OnlyRegs s t [pageBase .intc 0 + 0x30, pageBase .intc 0 + 0x3C]) ∧
    (s.chip.intc.srcs = [] → ∀ e r, (getCore s c.val).nest = e :: r → ∃ t, exec (.handlerReturn c) s = .next t ∧
      getCore t c.val = { getCore s c.val with nest := r } ∧ (∀ k, k ≠ c.val → getCore t k = getCore s k) ∧
      t = { s with chip := { s.chip with intc := t.chip.intc } }) ∧
    (∀ e, ∃ t, exec (.coreEn c e) s = .next t ∧ (getCore t c.val).enabled = e ∧ (∀ k, k ≠ c.val → (getCore t k).enabled = (getCore s k).enabled) ∧
      t = { s with regs := t.regs, chip := { s.chip with intc := t.chip.intc } }) ∧
    (testBit (rd s (pageBase .atrium 0 + 0x34)) 5 = true → ∃ t, exec (.mcWdog c) s = .next t ∧ getCore t c.val = ⟨false, []⟩ ∧
      testBit (rd t (pageBase .atrium 0 + 0x30)) 5 = true ∧ (∀ p ∈ t.chip.intc.srcs, p.2.activeOn ≠ some c.val) ∧
      t = { s with regs := t.regs, chip := { s.chip with intc := t.chip.intc } })

/-- A mailbox takes up to 16 values in order and counts what it refuses in MBOX_DROPPED; a pop answers the oldest, or 0, with UNDERFLOW unless a push
falls in its cycle; the first
value into an outbound mailbox sends its MSI-X vector (R23 to R25, R533). -/
def Obligations.Mailboxes_queue_values : Prop :=
  ∀ (s : State) (n : Fin 4) (v : Quad), s.chip.intc.mboxIn.length = 4 → s.chip.intc.mboxOut.length = 4 →
    let i := s.chip.intc.mboxIn.getD n.val []
    let o := s.chip.intc.mboxOut.getD n.val []
    (i.length < 16 → exec (.mboxIn n v) s = .next (setMboxIn s n.val (i ++ [v]))) ∧
    (16 ≤ i.length → ∃ t, exec (.mboxIn n v) s = .next t ∧ testBit (rd t (Reg.intc.MBOX_STATUS n.val)) 29 = true ∧
      rd t Reg.intc.MBOX_DROPPED = counted Reg.intc.MBOX_DROPPED (rd s Reg.intc.MBOX_DROPPED) ∧
      OnlyRegs s t [Reg.intc.MBOX_DROPPED, Reg.intc.MBOX_STATUS n.val]) ∧
    (∀ w r b, i = w :: r → ∃ t, exec (.mboxInPop ⟨n, b⟩) s = .next t ∧ t.links.answer = some w ∧ t.chip.intc.mboxIn.getD n.val [] = r ∧
      t = { s with chip := { s.chip with intc := { s.chip.intc with mboxIn := t.chip.intc.mboxIn } },
                   links := { s.links with answer := some w, abort := false } }) ∧
    (i = [] → ∃ t, exec (.mboxInPop ⟨n, false⟩) s = .next t ∧ t.links.answer = some 0 ∧ testBit (rd t (Reg.intc.MBOX_STATUS n.val)) 28 = true ∧
      t.chip = s.chip) ∧
    (i = [] → exec (.mboxInPop ⟨n, true⟩) s = .next { s with links := { s.links with answer := some 0, abort := false } }) ∧
    (o.length < 16 → o ≠ [] → exec (.mboxOut n v) s = .next (setMboxOut s n.val (o ++ [v]))) ∧
    (o = [] → s.links.pf.unmasked.getLsbD n.val = true → s.links.pf.d3 = false → ∃ t, exec (.mboxOut n v) s = .next t ∧
      t.chip.intc.mboxOut.getD n.val [] = [v] ∧ t.links = { s.links with out := s.links.out ++ [.msix .pf n.val] }) ∧
    (16 ≤ o.length → ∃ t, exec (.mboxOut n v) s = .next t ∧ testBit (rd t (Reg.intc.MBOX_STATUS n.val)) 31 = true ∧
      OnlyRegs s t [Reg.intc.MBOX_DROPPED, Reg.intc.MBOX_STATUS n.val]) ∧
    (∀ w r b, o = w :: r → ∃ t, exec (.mboxOutPop ⟨n, b⟩) s = .next t ∧ t.links.answer = some w ∧ t.chip.intc.mboxOut.getD n.val [] = r ∧ t.regs = s.regs) ∧
    (o = [] → ∃ t, exec (.mboxOutPop ⟨n, false⟩) s = .next t ∧ t.links.answer = some 0 ∧ testBit (rd t (Reg.intc.MBOX_STATUS n.val)) 30 = true ∧
      t.chip = s.chip) ∧
    (o = [] → exec (.mboxOutPop ⟨n, true⟩) s = .next { s with links := { s.links with answer := some 0, abort := false } })

/-! ## Trace (R535 to R539, R550) -/

/-- An SW packet enters its unit's FIFO with the unit's sequence number, or is dropped and counted when the FIFO is full, and a unit with TRACE_EN 0
takes none; the merger pops the oldest entry to the host buffer, sets UNDERFLOW on an empty FIFO unless a push falls in the
same cycle, and does nothing while MERGE_EN is 0; a SUMMARY and a
TRACE_SYNC that are due restart their periods (R535 to R538, R550). -/
def Obligations.Trace_packets_flow_to_the_host : Prop :=
  ∀ (s : State) (u : Fin 51) (v : Quad), s.chip.trace.length = 51 →
    let x := traceUnit s u.val
    let ct := rd s (Reg.trace.CTRL u.val)
    (testBit ct 0 = false → exec (.swPacket u v) s = .next s) ∧
    (testBit ct 0 = true → x.fifo.length < 64 → ∃ t, exec (.swPacket u v) s = .next t ∧
      traceUnit t u.val = { x with fifo := x.fifo ++ [(true, packetHeader s 0x03 u.val x.seq false ++ toLe 8 v.toNat)], seq := x.seq + 1 } ∧
      (∀ k, k ≠ u.val → traceUnit t k = traceUnit s k) ∧ t = { s with chip := { s.chip with trace := t.chip.trace } }) ∧
    (testBit ct 0 = true → 64 ≤ x.fifo.length → ∃ t, exec (.swPacket u v) s = .next t ∧ (traceUnit t u.val).fifo = x.fifo ∧
      rd t (Reg.trace.TRACE_LOST u.val) = counted (Reg.trace.TRACE_LOST u.val) (rd s (Reg.trace.TRACE_LOST u.val)) ∧
      OnlyRegs { s with chip := { s.chip with trace := t.chip.trace } } t [Reg.trace.TRACE_LOST u.val, Reg.trace.FIFO_CTRL u.val]) ∧
    (testBit (rd s (Reg.trace.MERGE_CTRL 50)) 8 = false → ∀ b, exec (.traceMergerPop ⟨u, b⟩) s = .next s) ∧
    (testBit (rd s (Reg.trace.MERGE_CTRL 50)) 8 = true → mergerUnit s u.val = u.val →
      (x.fifo = [] → exec (.traceMergerPop ⟨u, true⟩) s = .next s) ∧
      (x.fifo = [] → ∃ t, exec (.traceMergerPop ⟨u, false⟩) s = .next t ∧ testBit (rd t (Reg.trace.FIFO_CTRL u.val)) 30 = true ∧
        OnlyRegs s t [Reg.trace.FIFO_CTRL u.val]) ∧
      (∀ bs r b, x.fifo = (true, bs) :: r → sinkMode s = 0 → ∃ t, exec (.traceMergerPop ⟨u, b⟩) s = .next t ∧ (traceUnit t u.val).fifo = r ∧
        s.links.out ++ [.write .pf (BitVec.ofNat 64 (rd64 s (Reg.trace.TRACE_BUF_ADDR 50) + rd64 s (Reg.trace.TRACE_WR_PTR 50))) bs] <+: t.links.out ∧
        t.mem = s.mem ∧ t.sched = s.sched ∧ t.store = s.store)) ∧
    (testBit ct 3 = true → Nat.max 1 (rdf s (Reg.trace.SUMMARY_STEPS u.val) 15 0) ≤ s.now - x.lastSummary → ∃ t, exec (.summary u) s = .next t ∧
      (traceUnit t u.val).lastSummary = s.now ∧ (traceUnit t u.val).dozeN = 0 ∧ (traceUnit t u.val).dozeTiles = 0 ∧
      t.chip.galleries = s.chip.galleries ∧ t.mem = s.mem ∧ t.sched = s.sched ∧ t.links = s.links) ∧
    (testBit ct 3 = false → exec (.summary u) s = .next s) ∧
    (rdf s (Reg.trace.SYNC_STEPS 50) 12 0 ≤ s.now - x.lastSync → inFallow s u.val = false → ∃ t, exec (.traceSync u) s = .next t ∧
      (traceUnit t u.val).lastSync = s.now ∧ t.chip.galleries = s.chip.galleries ∧ t.mem = s.mem ∧ t.sched = s.sched ∧ t.links = s.links) ∧
    (inFallow s u.val = true → exec (.traceSync u) s = .next s)

/-! ## Test (R581 to R590) -/

/-- PAT_START answers RESULT for a target, a state or a pattern that it does not accept, else the test runs with its counts at 0; STOP and the time
limit end it, a C0 fault too, and PERST_N a PCIe test, both with RESULT ABORTED; the checker's lock is noted and lost while it runs, its losses
counted (R581 to R584, R592, R594). SNAP starts a capture, whose end shows the eye of a trained link, and zero of another. MBIST runs where the
target accepts it and is refused elsewhere; a pass clears MBIST_STATUS and invalidates the tested gallery's retained regions (R585, R586, R593). -/
def Obligations.Tests_run_and_end : Prop :=
  (∀ s : State,
       let st := Reg.test.PAT_STATUS
       let ev := pageBase .test 0 + 0x28
       let good := patPatternOk (patKind s) (rdf s Reg.test.PAT_CTRL 11 8) (rdf s Reg.test.PAT_CTRL 3 2)
       (patRunning s = false →
         (∀ r, (patTargetOk s = false ∧ r = 2) ∨ (patTargetOk s = true ∧ patTargetIdle s = false ∧ r = 1) ∨
             (patTargetOk s = true ∧ patTargetIdle s = true ∧ good = false ∧ r = 3) →
           ∃ t, exec .patStart s = .next t ∧ rdf t st 7 0 = r ∧ patRunning t = false ∧ OnlyRegs s t [st]) ∧
         (patTargetOk s = true → patTargetIdle s = true → good = true → ∃ t, exec .patStart s = .next t ∧ patRunning t = true ∧ patLocked t = false ∧
           rd64 t Reg.test.PAT_BITS = 0 ∧ rd64 t Reg.test.PAT_ERRORS = 0 ∧ rd t Reg.test.PAT_LOCK_LOSS = 0 ∧
           OnlyRegs s t [st, Reg.test.PAT_BITS, Reg.test.PAT_BITS + 4, Reg.test.PAT_ERRORS, Reg.test.PAT_ERRORS + 4, Reg.test.PAT_LOCK_LOSS]) ∧
         exec .patStop s = .next s ∧ exec .checkerLock s = .next s ∧ exec .checkerLockLoss s = .next s) ∧
       (patRunning s = true →
         exec .patStart s = .next s ∧
         (patLocked s = false → (∃ t, exec .patStop s = .next t ∧ patRunning t = false ∧ OnlyRegs s t [st, ev]) ∧
           (rd s Reg.test.PAT_LIMIT_MS ≠ 0 → ∃ t, exec .patLimitExpired s = .next t ∧ patRunning t = false ∧ OnlyRegs s t [st, ev]) ∧
           (s.c0 = true → testBit (rd s (pageBase .test 0 + 0x34)) 0 = true → ∃ t, exec (.patAbort .c0) s = .next t ∧ patRunning t = false ∧
             rdf t st 7 0 = 4 ∧ testBit (rd t (pageBase .test 0 + 0x30)) 0 = true ∧
             OnlyRegs s t [st, ev, pageBase .test 0 + 0x30, pageBase .test 0 + 0x3C])) ∧
         (patKind s = 2 → s.chip.pins.perstN = false → ∃ t, exec (.patAbort .perstN) s = .next t ∧ patRunning t = false ∧ rdf t st 7 0 = 4) ∧
         (rd s Reg.test.PAT_LIMIT_MS = 0 → exec .patLimitExpired s = .next s) ∧
         (rdf s Reg.test.PAT_CTRL 3 2 ≠ 1 → ∃ t, exec .checkerLock s = .next t ∧ patLocked t = true ∧ patRunning t = true ∧ OnlyRegs s t [st]) ∧
         (patLocked s = true → ∃ t, exec .checkerLockLoss s = .next t ∧ patLocked t = false ∧ patRunning t = true ∧
           rd t Reg.test.PAT_LOCK_LOSS = counted Reg.test.PAT_LOCK_LOSS (rd s Reg.test.PAT_LOCK_LOSS) ∧ t.sched = s.sched ∧ t.store = s.store ∧ t.mem = s.mem))) ∧
  (∀ (s : State) (h w : BitVec 30) (arr : BitVec 5) (off : BitVec 27), s.chip.galleries.length = 50 →
       let st := Reg.test.MBIST_STATUS
       let g := rdf s Reg.test.MBIST_SEL 7 0
       (∃ t, exec .snap s = .next t ∧ t.chip = { s.chip with test := { s.chip.test with eyeRun := true } } ∧ rd t Reg.test.EYE_CTRL = 0 ∧
         OnlyRegs { s with chip := t.chip } t [Reg.test.EYE_CTRL]) ∧
       (s.chip.test.eyeRun = false → ∀ b, exec (.eyeCaptureDone b h w) s = .next s) ∧
       (s.chip.test.eyeRun = true → ∀ b, ∃ t, exec (.eyeCaptureDone b h w) s = .next t ∧ t.chip.test.eyeRun = false ∧
         testBit (rd t Reg.test.EYE_CTRL) 31 = b ∧ (b = false → rd t Reg.test.EYE_H = 0 ∧ rd t Reg.test.EYE_W = 0) ∧
         (b = true → testBit (rd s Reg.test.EYE_SEL) 4 = false → rd t Reg.test.EYE_H = h.setWidth 32 ∧ rd t Reg.test.EYE_W = w.setWidth 32) ∧
         OnlyRegs { s with chip := t.chip } t [Reg.test.EYE_CTRL, Reg.test.EYE_H, Reg.test.EYE_W]) ∧
       (testBit (rd s st) 31 = true → exec .mbistStart s = .next s) ∧
       (testBit (rd s st) 31 = false → mbistAccepts s g = false → exec .mbistStart s = .next (wr s st 2)) ∧
       (testBit (rd s st) 31 = false → mbistAccepts s g = true → ∃ t, exec .mbistStart s = .next t ∧ testBit (rd t st) 31 = true ∧
         t.chip.test.mbistAt = some g ∧ (g < 50 → (gallery t g).mbist = true) ∧ (∀ k, k ≠ g → gallery t k = gallery s k) ∧
         (g < 50 → (gallery t g).lines = []) ∧ ((gallery s g).lines = [] → t.store = s.store) ∧
         OnlyRegs { s with chip := t.chip, store := t.store } t [st]) ∧
       (∀ k, s.chip.test.mbistAt = some k → k < 50 → (gallery s k).wakeAsked = false →
         (∃ t, exec (.mbistDone true arr off) s = .next t ∧ rd t st = 0 ∧ t.chip.test.mbistAt = none ∧ (gallery t k).mbist = false ∧
           (gallery t k).invalid = true ∧ (gallery t k).failed = (gallery s k).failed ∧ (∀ i, keptRegion t (gallery t k) i = false) ∧
           OnlyRegs { s with chip := t.chip } t [st, pageBase .test 0 + 0x28]) ∧
         (testBit (rd s (pageBase .test 0 + 0x34)) 1 = true → ∃ t, exec (.mbistDone false arr off) s = .next t ∧ rd t st = 1 ∧
           rd t Reg.test.MBIST_FAIL_AT = BitVec.ofNat 32 (arr.toNat * 2 ^ 27 + off.toNat) ∧ (gallery t k).failed = true ∧
           testBit (rd t (pageBase .test 0 + 0x30)) 1 = true)))

/-- Instructions of the test access port. Each is in the instruction register once loaded; those that need the node in reset act outside it as
BYPASS and are counted in TAP_REFUSED. IDCODE answers 0x18400A5F; TRST_N selects the identification register (R587, R588; the last is log entry 9). -/
def Obligations.Tap_instructions_are_loaded : Prop :=
  ∀ s : State,
    (∀ c op, (c, op) ∈ [(Instr.trstN, (0x01 : Byte)), (.samplePreload, 0x02), (.bypass, 0xFF)] →
      exec c s = .next { s with chip := { s.chip with test := { s.chip.test with ir := op } } }) ∧
    (∃ t, exec .idcode s = .next t ∧ t.chip = { s.chip with test := { s.chip.test with ir := 0x01 } } ∧
      t.links = { s.links with answer := some 0x18400A5F } ∧ t = { s with chip := t.chip, links := t.links }) ∧
    (∀ c op, (c, op) ∈ [(Instr.extest, (0x03 : Byte)), (.clamp, 0x04), (.highz, 0x05), (.extestPulse, 0x06), (.extestTrain, 0x07), (.prodTest, 0x10)] →
      (s.chip.pins.resetN = false → exec c s = .next { s with chip := { s.chip with test := { s.chip.test with ir := op } } }) ∧
      (s.chip.pins.resetN = true → ∃ t, exec c s = .next t ∧ t.chip = { s.chip with test := { s.chip.test with ir := 0xFF } } ∧
        rd t Reg.test.TAP_REFUSED = counted Reg.test.TAP_REFUSED (rd s Reg.test.TAP_REFUSED) ∧
        OnlyRegs { s with chip := t.chip } t [Reg.test.TAP_REFUSED]))

/-! ## The node as a whole -/

/-- A step runs the command at the front of the queue on the node with the queue's rest. On an empty queue it idles for one period of the time base:
only TIMESTAMP moves (log entry 1, DESIGN CHOICE). -/
def Obligations.A_step_runs_the_front_command : Prop :=
  (∀ (s : State) (c : Instr) (rest : List Instr), step { s with pending := c :: rest } = exec c { s with pending := rest }) ∧
  (∀ s : State, s.pending = [] → ∃ t, step s = .next t ∧ OnlyRegs s t [Reg.atrium.TIMESTAMP, Reg.atrium.TIMESTAMP + 4] ∧
    (s.running = true → rd64 t Reg.atrium.TIMESTAMP = (rd64 s Reg.atrium.TIMESTAMP + 8) % 2 ^ 64))

/-- After reset every listed register reads as its table says, nothing waits, runs or is stored, no fault is latched, and the node's invariant
holds. That MODE_HALL reads 0 there is the model's choice of strap (DESIGN CHOICE). -/
def Obligations.Reset_leaves_the_node_empty : Prop :=
  (∀ a, rd State.reset a = resetOf a) ∧ State.reset.pending = [] ∧ State.reset.step.run = false ∧ State.reset.step.valid = false ∧
  State.reset.now = 0 ∧ State.reset.sched.flights = [] ∧ State.reset.sched.queued = [] ∧ State.reset.store.colls = [] ∧ State.reset.store.tables = [] ∧
  State.reset.store.tenants = [] ∧ State.reset.faults.hist = [] ∧ State.reset.faults.gone = [] ∧ State.reset.faults.pairs = [] ∧ State.reset.c0 = false ∧
  RegFile.wf State.reset.regs ∧ Memory.wf State.reset.mem.hbm ∧ State.reset.Shape

/-- Every step keeps the canonical form of the register file and of HBM, and the number of the node's parts, whatever the command. -/
def Obligations.Every_step_keeps_the_canonical_form : Prop :=
  ∀ s t : State, RegFile.wf s.regs → Memory.wf s.mem.hbm → s.Shape → step s = .next t → RegFile.wf t.regs ∧ Memory.wf t.mem.hbm ∧ t.Shape

/-- A latched C0 fault stays, and FAULT_N with it, through every step but that of POWER_CYCLE and of a rail whose removal leaves none up (R486).
MODE_HALL is what the node reset or the power cycle sampled: no other step changes it (R29). -/
def Obligations.Steps_keep_the_latch_and_the_mode : Prop :=
  (∀ s t : State, s.c0 = true → s.pending.head? ≠ some .powerCycle → 
       (∀ (rail : Fin 12) us, s.pending.head? = some (.railTransition rail .off us) →
         (updAt s.chip.aux.rails rail.val fun _ => Rail.off).any (·.above) = true) →
       step s = .next t → t.c0 = true ∧ faultN t = false) ∧
  (∀ s t : State, s.pending.head? ≠ some .powerCycle → (∀ m slot, s.pending.head? ≠ some (.nodeReset m slot)) → step s = .next t → t.hall = s.hall)

/-- No command touches the commands that wait, and what was issued to the host and on the wire stays issued. -/
def Obligations.Commands_leave_the_queue_and_what_was_sent : Prop :=
  ∀ (c : Instr) (s t : State), exec c s = .next t → t.pending = s.pending ∧ s.links.out <+: t.links.out ∧ s.links.wire <+: t.links.wire
end

