-- ==== Sys2Proof/Laws/Bits.lean ====
section
/-! SUPPORT. The laws of bit fields and of little-endian bytes. -/
namespace Sys2Proof.Machine

theorem testBit_bitsOf (w hi lo i : Nat) : (bitsOf w hi lo).testBit i = (decide (i < hi + 1 - lo) && w.testBit (lo + i)) := by
  unfold bitsOf
  rw [Nat.testBit_mod_two_pow, Nat.testBit_shiftRight]

theorem getLsbD_maskOf (hi lo i : Nat) : (maskOf hi lo).testBit i = (decide (lo ≤ i) && decide (i - lo < hi + 1 - lo)) := by
  unfold maskOf
  rw [Nat.testBit_shiftLeft, Nat.testBit_two_pow_sub_one]

/-- The bits of a word after field [hi:lo] is set. -/
theorem getLsbD_withFld (w : Word) (hi lo v i : Nat) : (withFld w hi lo v).getLsbD i =
    if lo ≤ i ∧ i ≤ hi ∧ i < 32 then v.testBit (i - lo) else w.getLsbD i := by
  unfold withFld
  simp only [BitVec.getLsbD_or, BitVec.getLsbD_and, BitVec.getLsbD_not, BitVec.getLsbD_ofNat, getLsbD_maskOf, Nat.testBit_shiftLeft,
    Nat.testBit_mod_two_pow]
  by_cases h32 : i < 32
  · by_cases h1 : lo ≤ i
    · by_cases h2 : i ≤ hi
      · have h3 : i - lo < hi + 1 - lo := by omega
        simp [h32, h1, h2, h3]
      · have h3 : ¬ (i - lo < hi + 1 - lo) := by omega
        simp [h32, h1, h2, h3]
    · simp [h32, h1]
  · simp [h32, BitVec.getLsbD_of_ge w i (by omega)]

/-- A field reads as it was set. -/
theorem fld_withFld (w : Word) (hi lo v : Nat) (h : hi < 32) : fld (withFld w hi lo v) hi lo = v % 2 ^ (hi + 1 - lo) := by
  apply Nat.eq_of_testBit_eq
  intro i
  unfold fld
  rw [testBit_bitsOf, Nat.testBit_mod_two_pow, BitVec.testBit_toNat, getLsbD_withFld]
  by_cases hi' : i < hi + 1 - lo
  · rw [if_pos ⟨by omega, by omega, by omega⟩]; simp [hi']
  · simp [hi']

/-- Setting a field leaves the fields beside it. -/
theorem fld_withFld_ne (w : Word) (hi lo v hi' lo' : Nat) (h : hi' < lo ∨ hi < lo') : fld (withFld w hi lo v) hi' lo' = fld w hi' lo' := by
  apply Nat.eq_of_testBit_eq
  intro i
  unfold fld
  rw [testBit_bitsOf, testBit_bitsOf, BitVec.testBit_toNat, BitVec.testBit_toNat, getLsbD_withFld]
  by_cases hi'' : i < hi' + 1 - lo'
  · rw [if_neg (by omega)]
  · simp [hi'']

theorem testBit_setBit (w : Word) (i j : Nat) : testBit (setBit w i) j = (decide (i = j ∧ j < 32) || testBit w j) := by
  unfold testBit setBit
  rw [BitVec.getLsbD_or]
  have one : ∀ k, BitVec.getLsbD (1 : Word) k = decide (k = 0) := fun k => by
    rw [show (1 : Word) = 1#32 from rfl, BitVec.getLsbD_one]; simp
  rw [BitVec.getLsbD_shiftLeft, one]
  by_cases h : i = j
  · subst h; by_cases h2 : i < 32 <;> simp [h2]
  · by_cases h3 : j < i
    · simp [h, h3]
    · have : j - i ≠ 0 := by omega
      simp [h, this]

theorem testBit_clrBit (w : Word) (i j : Nat) : testBit (clrBit w i) j = (decide (i ≠ j) && testBit w j) := by
  unfold testBit clrBit
  have one : ∀ k, BitVec.getLsbD (1 : Word) k = decide (k = 0) := fun k => by
    rw [show (1 : Word) = 1#32 from rfl, BitVec.getLsbD_one]; simp
  rw [BitVec.getLsbD_and, BitVec.getLsbD_not, BitVec.getLsbD_shiftLeft, one]
  by_cases h32 : j < 32
  · by_cases h : i = j
    · subst h; simp [h32]
    · by_cases h3 : j < i
      · simp [h, h3, h32]
      · have : j - i ≠ 0 := by omega
        simp [h, this, h32]
  · simp [BitVec.getLsbD_of_ge w j (by omega)]

theorem testBit_putBit (w : Word) (i j : Nat) (b : Bool) (h : i < 32) : testBit (putBit w i b) j = if i = j then b else testBit w j := by
  unfold putBit
  cases b
  · rw [if_neg (by simp), testBit_clrBit]; split <;> simp_all
  · rw [if_pos rfl, testBit_setBit]; split <;> simp_all

theorem toLe_length : ∀ (n v : Nat), (toLe n v).length = n
  | 0, _ => rfl
  | n + 1, v => by simp [toLe, toLe_length n]

/-- Little-endian bytes read back as the number they were made of. -/
theorem leNat_toLe : ∀ (n v : Nat), leNat (toLe n v) = v % 256 ^ n
  | 0, v => by simp [toLe, leNat, Nat.mod_one]
  | n + 1, v => by
    rw [toLe, leNat, leNat_toLe n, BitVec.toNat_ofNat, show 256 ^ (n + 1) = 256 * 256 ^ n from Nat.pow_succ', Nat.mod_mul]

end Sys2Proof.Machine
end

