-- ==== Sys2Proof/Laws/Tables.lean ====
section
/-! SUPPORT. The laws of finite tables and of the byte memory: read after write, and that every operation keeps the canonical form. -/
namespace Sys2Proof.Machine

/-! ## Read after write -/

@[simp] theorem Tbl.get_nil {α : Type} (k : Nat) : Tbl.get ([] : Tbl α) k = none := rfl

theorem Tbl.get_set {α : Type} (t : Tbl α) (k j : Nat) (v : α) : Tbl.get (Tbl.set t k v) j = if k = j then some v else Tbl.get t j := by
  induction t with
  | nil => simp [Tbl.set, Tbl.get]
  | cons x r ih =>
    obtain ⟨i, w⟩ := x
    simp only [Tbl.set]
    split
    · simp [Tbl.get]
    · split
      · subst_vars; simp only [Tbl.get]; split <;> rfl
      · simp only [Tbl.get, ih]
        split
        · subst_vars; simp [*]
        · rfl

theorem Tbl.get_del {α : Type} (t : Tbl α) (k j : Nat) : Tbl.get (Tbl.del t k) j = if k = j then none else Tbl.get t j := by
  induction t with
  | nil => simp [Tbl.del, Tbl.get]
  | cons x r ih =>
    obtain ⟨i, w⟩ := x
    simp only [Tbl.del]
    split
    · subst_vars; rw [ih]; simp only [Tbl.get]; split <;> rfl
    · simp only [Tbl.get, ih]
      split
      · subst_vars; simp [Ne.symm ‹_›]
      · rfl

@[simp] theorem Tbl.get_set_self {α : Type} (t : Tbl α) (k : Nat) (v : α) : Tbl.get (Tbl.set t k v) k = some v := by simp [Tbl.get_set]

@[simp] theorem Tbl.get_del_self {α : Type} (t : Tbl α) (k : Nat) : Tbl.get (Tbl.del t k) k = none := by simp [Tbl.get_del]

theorem Tbl.get_upd {α : Type} (t : Tbl α) (k j : Nat) (f : α → α) :
    Tbl.get (Tbl.upd t k f) j = if k = j then (Tbl.get t j).map f else Tbl.get t j := by
  unfold Tbl.upd
  split
  · rw [Tbl.get_set]; split <;> simp_all
  · split <;> simp_all

/-- A byte reads as written; every other byte reads as before. -/
theorem Memory.read_write (m : List Host.Cell) (a b : Nat) (v : Byte) :
    Memory.read (Memory.write m a v) b = if a = b then v else Memory.read m b := by
  unfold Memory.read Memory.write
  split
  · rw [Tbl.get_del]; split <;> simp_all
  · rw [Tbl.get_set]; split <;> simp

/-- A run of bytes: outside it every byte reads as before. -/
theorem Memory.read_writes_outside (l : List Byte) : ∀ (m : List Host.Cell) (a b : Nat), b < a ∨ a + l.length ≤ b →
    Memory.read (Memory.writes m a l) b = Memory.read m b := by
  induction l with
  | nil => intros; rfl
  | cons x r ih =>
    intro m a b h
    simp only [List.length_cons] at h
    rw [Memory.writes, ih _ _ _ (by omega), Memory.read_write, if_neg (by omega)]

/-- A run of bytes: byte `i` of it reads as written. -/
theorem Memory.read_writes_inside (l : List Byte) : ∀ (m : List Host.Cell) (a i : Nat), i < l.length →
    Memory.read (Memory.writes m a l) (a + i) = l.getD i 0 := by
  induction l with
  | nil => intro m a i h; simp at h
  | cons x r ih =>
    intro m a i h
    cases i with
    | zero => rw [Memory.writes, Memory.read_writes_outside _ _ _ _ (by omega), Memory.read_write]; simp
    | succ n =>
      have := ih (Memory.write m a x) (a + 1) n (by simpa using h)
      rw [Memory.writes, show a + (n + 1) = a + 1 + n by omega, this]; simp

/-! ## The canonical form -/

theorem Tbl.mem_set {α : Type} {t : Tbl α} {k : Nat} {v : α} {x : Nat × α} (h : x ∈ Tbl.set t k v) : x = (k, v) ∨ x ∈ t := by
  induction t with
  | nil => simpa [Tbl.set] using h
  | cons y r ih =>
    obtain ⟨j, w⟩ := y
    simp only [Tbl.set] at h
    split at h
    · simpa using h
    · split at h
      · rcases List.mem_cons.mp h with h | h
        · exact .inl h
        · exact .inr (List.mem_cons_of_mem _ h)
      · rcases List.mem_cons.mp h with h | h
        · exact .inr (h ▸ List.mem_cons_self)
        · exact (ih h).imp id (List.mem_cons_of_mem _)

theorem Tbl.mem_del {α : Type} {t : Tbl α} {k : Nat} {x : Nat × α} (h : x ∈ Tbl.del t k) : x ∈ t ∧ x.1 ≠ k := by
  induction t with
  | nil => simp [Tbl.del] at h
  | cons y r ih =>
    obtain ⟨j, w⟩ := y
    simp only [Tbl.del] at h
    split at h
    · exact ⟨List.mem_cons_of_mem _ (ih h).1, (ih h).2⟩
    · rcases List.mem_cons.mp h with h | h
      · subst h; exact ⟨List.mem_cons_self, ‹_›⟩
      · exact ⟨List.mem_cons_of_mem _ (ih h).1, (ih h).2⟩

theorem Tbl.set_wf {α : Type} {t : Tbl α} (k : Nat) (v : α) (h : Tbl.wf t) : Tbl.wf (Tbl.set t k v) := by
  induction t with
  | nil => simp [Tbl.set, Tbl.wf]
  | cons y r ih =>
    obtain ⟨j, w⟩ := y
    have h1 := List.pairwise_cons.mp h
    simp only [Tbl.set]
    split
    · exact List.pairwise_cons.mpr ⟨fun x hx => by
        rcases List.mem_cons.mp hx with hx | hx
        · subst hx; assumption
        · exact Nat.lt_trans ‹_› (h1.1 x hx), h⟩
    · split
      · subst_vars; exact List.pairwise_cons.mpr ⟨h1.1, h1.2⟩
      · exact List.pairwise_cons.mpr ⟨fun x hx => by
          rcases Tbl.mem_set hx with hx | hx
          · subst hx; show j < k; omega
          · exact h1.1 x hx, ih h1.2⟩

theorem Tbl.del_wf {α : Type} {t : Tbl α} (k : Nat) (h : Tbl.wf t) : Tbl.wf (Tbl.del t k) := by
  induction t with
  | nil => simp [Tbl.del, Tbl.wf]
  | cons y r ih =>
    obtain ⟨j, w⟩ := y
    have h1 := List.pairwise_cons.mp h
    simp only [Tbl.del]
    split
    · exact ih h1.2
    · exact List.pairwise_cons.mpr ⟨fun x hx => h1.1 x (Tbl.mem_del hx).1, ih h1.2⟩

theorem Memory.write_wf {m : List Host.Cell} (a : Nat) (b : Byte) (h : Memory.wf m) : Memory.wf (Memory.write m a b) := by
  unfold Memory.write
  split
  · exact ⟨Tbl.del_wf a h.1, fun c hc => h.2 c (Tbl.mem_del hc).1⟩
  · refine ⟨Tbl.set_wf a b h.1, fun c hc => ?_⟩
    rcases Tbl.mem_set hc with hc | hc
    · subst hc; assumption
    · exact h.2 c hc

theorem Memory.writes_wf (l : List Byte) : ∀ {m : List Host.Cell} (a : Nat), Memory.wf m → Memory.wf (Memory.writes m a l) := by
  induction l with
  | nil => intro m a h; exact h
  | cons x r ih => intro m a h; exact ih _ (Memory.write_wf a x h)

theorem Memory.nil_wf : Memory.wf [] := ⟨List.Pairwise.nil, by simp⟩

/-! ## Lists by position -/

@[simp] theorem updAt_length {α : Type} (l : List α) : ∀ (i : Nat) (f : α → α), (updAt l i f).length = l.length := by
  induction l with
  | nil => intro i f; rfl
  | cons x r ih => intro i f; cases i with
    | zero => rfl
    | succ n => simp [updAt, ih]

theorem updAt_getElem? {α : Type} (l : List α) : ∀ (i j : Nat) (f : α → α),
    (updAt l i f)[j]? = if i = j then l[j]?.map f else l[j]? := by
  induction l with
  | nil => intro i j f; simp [updAt]
  | cons x r ih => intro i j f; cases i with
    | zero => cases j with
      | zero => simp [updAt]
      | succ m => simp [updAt]
    | succ n => cases j with
      | zero => simp [updAt]
      | succ m => simp [updAt, ih]

end Sys2Proof.Machine
end

