-- ==== Sys2Proof/Laws/Ops.lean ====
section
/-! SUPPORT. The laws of the register operations: what each leaves unchanged, one lemma per component of State, and what a register reads as
afterwards. -/
namespace Sys2Proof.Machine

variable (s : State)

/-! ## Everything but the register file stays -/

@[simp] theorem wr_pending (a : Nat) (w : Word) : (wr s a w).pending = s.pending := rfl
@[simp] theorem wr_staged (a : Nat) (w : Word) : (wr s a w).staged = s.staged := rfl
@[simp] theorem wr_latched (a : Nat) (w : Word) : (wr s a w).latched = s.latched := rfl
@[simp] theorem wr_step (a : Nat) (w : Word) : (wr s a w).step = s.step := rfl
@[simp] theorem wr_sched (a : Nat) (w : Word) : (wr s a w).sched = s.sched := rfl
@[simp] theorem wr_store (a : Nat) (w : Word) : (wr s a w).store = s.store := rfl
@[simp] theorem wr_mem (a : Nat) (w : Word) : (wr s a w).mem = s.mem := rfl
@[simp] theorem wr_links (a : Nat) (w : Word) : (wr s a w).links = s.links := rfl
@[simp] theorem wr_faults (a : Nat) (w : Word) : (wr s a w).faults = s.faults := rfl
@[simp] theorem wr_chip (a : Nat) (w : Word) : (wr s a w).chip = s.chip := rfl

@[simp] theorem wrf_pending (a hi lo v : Nat) : (wrf s a hi lo v).pending = s.pending := rfl
@[simp] theorem wrf_staged (a hi lo v : Nat) : (wrf s a hi lo v).staged = s.staged := rfl
@[simp] theorem wrf_latched (a hi lo v : Nat) : (wrf s a hi lo v).latched = s.latched := rfl
@[simp] theorem wrf_step (a hi lo v : Nat) : (wrf s a hi lo v).step = s.step := rfl
@[simp] theorem wrf_sched (a hi lo v : Nat) : (wrf s a hi lo v).sched = s.sched := rfl
@[simp] theorem wrf_store (a hi lo v : Nat) : (wrf s a hi lo v).store = s.store := rfl
@[simp] theorem wrf_mem (a hi lo v : Nat) : (wrf s a hi lo v).mem = s.mem := rfl
@[simp] theorem wrf_links (a hi lo v : Nat) : (wrf s a hi lo v).links = s.links := rfl
@[simp] theorem wrf_faults (a hi lo v : Nat) : (wrf s a hi lo v).faults = s.faults := rfl
@[simp] theorem wrf_chip (a hi lo v : Nat) : (wrf s a hi lo v).chip = s.chip := rfl

@[simp] theorem wr64_pending (a v : Nat) : (wr64 s a v).pending = s.pending := rfl
@[simp] theorem wr64_staged (a v : Nat) : (wr64 s a v).staged = s.staged := rfl
@[simp] theorem wr64_latched (a v : Nat) : (wr64 s a v).latched = s.latched := rfl
@[simp] theorem wr64_step (a v : Nat) : (wr64 s a v).step = s.step := rfl
@[simp] theorem wr64_sched (a v : Nat) : (wr64 s a v).sched = s.sched := rfl
@[simp] theorem wr64_store (a v : Nat) : (wr64 s a v).store = s.store := rfl
@[simp] theorem wr64_mem (a v : Nat) : (wr64 s a v).mem = s.mem := rfl
@[simp] theorem wr64_links (a v : Nat) : (wr64 s a v).links = s.links := rfl
@[simp] theorem wr64_faults (a v : Nat) : (wr64 s a v).faults = s.faults := rfl
@[simp] theorem wr64_chip (a v : Nat) : (wr64 s a v).chip = s.chip := rfl

@[simp] theorem count_pending (a : Nat) : (count s a).pending = s.pending := rfl
@[simp] theorem count_staged (a : Nat) : (count s a).staged = s.staged := rfl
@[simp] theorem count_latched (a : Nat) : (count s a).latched = s.latched := rfl
@[simp] theorem count_step (a : Nat) : (count s a).step = s.step := rfl
@[simp] theorem count_sched (a : Nat) : (count s a).sched = s.sched := rfl
@[simp] theorem count_store (a : Nat) : (count s a).store = s.store := rfl
@[simp] theorem count_mem (a : Nat) : (count s a).mem = s.mem := rfl
@[simp] theorem count_links (a : Nat) : (count s a).links = s.links := rfl
@[simp] theorem count_faults (a : Nat) : (count s a).faults = s.faults := rfl
@[simp] theorem count_chip (a : Nat) : (count s a).chip = s.chip := rfl

@[simp] theorem countBy_pending (a n : Nat) : (countBy s a n).pending = s.pending := rfl
@[simp] theorem countBy_staged (a n : Nat) : (countBy s a n).staged = s.staged := rfl
@[simp] theorem countBy_latched (a n : Nat) : (countBy s a n).latched = s.latched := rfl
@[simp] theorem countBy_step (a n : Nat) : (countBy s a n).step = s.step := rfl
@[simp] theorem countBy_sched (a n : Nat) : (countBy s a n).sched = s.sched := rfl
@[simp] theorem countBy_store (a n : Nat) : (countBy s a n).store = s.store := rfl
@[simp] theorem countBy_mem (a n : Nat) : (countBy s a n).mem = s.mem := rfl
@[simp] theorem countBy_links (a n : Nat) : (countBy s a n).links = s.links := rfl
@[simp] theorem countBy_faults (a n : Nat) : (countBy s a n).faults = s.faults := rfl
@[simp] theorem countBy_chip (a n : Nat) : (countBy s a n).chip = s.chip := rfl

@[simp] theorem count64_pending (a : Nat) : (count64 s a).pending = s.pending := rfl
@[simp] theorem count64_staged (a : Nat) : (count64 s a).staged = s.staged := rfl
@[simp] theorem count64_latched (a : Nat) : (count64 s a).latched = s.latched := rfl
@[simp] theorem count64_step (a : Nat) : (count64 s a).step = s.step := rfl
@[simp] theorem count64_sched (a : Nat) : (count64 s a).sched = s.sched := rfl
@[simp] theorem count64_store (a : Nat) : (count64 s a).store = s.store := rfl
@[simp] theorem count64_mem (a : Nat) : (count64 s a).mem = s.mem := rfl
@[simp] theorem count64_links (a : Nat) : (count64 s a).links = s.links := rfl
@[simp] theorem count64_faults (a : Nat) : (count64 s a).faults = s.faults := rfl
@[simp] theorem count64_chip (a : Nat) : (count64 s a).chip = s.chip := rfl

theorem countN_regs (a : Nat) : ∀ (n : Nat) (s : State), countN s a n = { s with regs := (countN s a n).regs }
  | 0, _ => rfl
  | n + 1, s => by rw [countN]; exact countN_regs a n (count s a)

theorem raiseEvt_regs (b k : Nat) : raiseEvt s b k = { s with regs := (raiseEvt s b k).regs } := by unfold raiseEvt; split <;> rfl

theorem setCond_regs (b k : Nat) (v : Bool) : setCond s b k v = { s with regs := (setCond s b k v).regs } := by
  unfold setCond; dsimp only; split
  · rw [raiseEvt_regs]; rfl
  · rfl

@[simp] theorem countN_pending (a n : Nat) : (countN s a n).pending = s.pending := by rw [countN_regs]
@[simp] theorem countN_staged (a n : Nat) : (countN s a n).staged = s.staged := by rw [countN_regs]
@[simp] theorem countN_latched (a n : Nat) : (countN s a n).latched = s.latched := by rw [countN_regs]
@[simp] theorem countN_step (a n : Nat) : (countN s a n).step = s.step := by rw [countN_regs]
@[simp] theorem countN_sched (a n : Nat) : (countN s a n).sched = s.sched := by rw [countN_regs]
@[simp] theorem countN_store (a n : Nat) : (countN s a n).store = s.store := by rw [countN_regs]
@[simp] theorem countN_mem (a n : Nat) : (countN s a n).mem = s.mem := by rw [countN_regs]
@[simp] theorem countN_links (a n : Nat) : (countN s a n).links = s.links := by rw [countN_regs]
@[simp] theorem countN_faults (a n : Nat) : (countN s a n).faults = s.faults := by rw [countN_regs]
@[simp] theorem countN_chip (a n : Nat) : (countN s a n).chip = s.chip := by rw [countN_regs]

@[simp] theorem raiseEvt_pending (b k : Nat) : (raiseEvt s b k).pending = s.pending := by rw [raiseEvt_regs]
@[simp] theorem raiseEvt_staged (b k : Nat) : (raiseEvt s b k).staged = s.staged := by rw [raiseEvt_regs]
@[simp] theorem raiseEvt_latched (b k : Nat) : (raiseEvt s b k).latched = s.latched := by rw [raiseEvt_regs]
@[simp] theorem raiseEvt_step (b k : Nat) : (raiseEvt s b k).step = s.step := by rw [raiseEvt_regs]
@[simp] theorem raiseEvt_sched (b k : Nat) : (raiseEvt s b k).sched = s.sched := by rw [raiseEvt_regs]
@[simp] theorem raiseEvt_store (b k : Nat) : (raiseEvt s b k).store = s.store := by rw [raiseEvt_regs]
@[simp] theorem raiseEvt_mem (b k : Nat) : (raiseEvt s b k).mem = s.mem := by rw [raiseEvt_regs]
@[simp] theorem raiseEvt_links (b k : Nat) : (raiseEvt s b k).links = s.links := by rw [raiseEvt_regs]
@[simp] theorem raiseEvt_faults (b k : Nat) : (raiseEvt s b k).faults = s.faults := by rw [raiseEvt_regs]
@[simp] theorem raiseEvt_chip (b k : Nat) : (raiseEvt s b k).chip = s.chip := by rw [raiseEvt_regs]

@[simp] theorem setCond_pending (b k : Nat) (v : Bool) : (setCond s b k v).pending = s.pending := by rw [setCond_regs]
@[simp] theorem setCond_staged (b k : Nat) (v : Bool) : (setCond s b k v).staged = s.staged := by rw [setCond_regs]
@[simp] theorem setCond_latched (b k : Nat) (v : Bool) : (setCond s b k v).latched = s.latched := by rw [setCond_regs]
@[simp] theorem setCond_step (b k : Nat) (v : Bool) : (setCond s b k v).step = s.step := by rw [setCond_regs]
@[simp] theorem setCond_sched (b k : Nat) (v : Bool) : (setCond s b k v).sched = s.sched := by rw [setCond_regs]
@[simp] theorem setCond_store (b k : Nat) (v : Bool) : (setCond s b k v).store = s.store := by rw [setCond_regs]
@[simp] theorem setCond_mem (b k : Nat) (v : Bool) : (setCond s b k v).mem = s.mem := by rw [setCond_regs]
@[simp] theorem setCond_links (b k : Nat) (v : Bool) : (setCond s b k v).links = s.links := by rw [setCond_regs]
@[simp] theorem setCond_faults (b k : Nat) (v : Bool) : (setCond s b k v).faults = s.faults := by rw [setCond_regs]
@[simp] theorem setCond_chip (b k : Nat) (v : Bool) : (setCond s b k v).chip = s.chip := by rw [setCond_regs]

/-! ## What a register reads as -/

theorem rd_congr {s t : State} (h : t.regs = s.regs) (a : Nat) : rd t a = rd s a := by unfold rd; rw [h]

theorem rd_wr (a b : Nat) (w : Word) : rd (wr s a w) b = if a = b then w else rd s b := by
  unfold rd wr RegFile.put
  dsimp only
  split
  · rw [Tbl.get_del]; split <;> simp_all
  · rw [Tbl.get_set]; split <;> simp

@[simp] theorem rd_wr_self (a : Nat) (w : Word) : rd (wr s a w) a = w := by simp [rd_wr]

theorem rd_wr_ne {a b : Nat} (w : Word) (h : a ≠ b) : rd (wr s a w) b = rd s b := by simp [rd_wr, h]

theorem rd_wrf (a b hi lo v : Nat) : rd (wrf s a hi lo v) b = if a = b then withFld (rd s a) hi lo v else rd s b := rd_wr s a b _

theorem rd_count (a b : Nat) : rd (count s a) b = if a = b then counted a (rd s a) else rd s b := rd_wr s a b _

theorem rd_countBy_ne {a b : Nat} (n : Nat) (h : a ≠ b) : rd (countBy s a n) b = rd s b := rd_wr_ne s _ h

theorem rd_wr64 (a b v : Nat) : rd (wr64 s a v) b =
    if a + 4 = b then BitVec.ofNat 32 (v / 0x100000000) else if a = b then BitVec.ofNat 32 v else rd s b := by
  unfold wr64; rw [rd_wr, rd_wr]

theorem rd_countN_ne {a b : Nat} (h : a ≠ b) : ∀ (n : Nat) (s : State), rd (countN s a n) b = rd s b
  | 0, _ => rfl
  | n + 1, s => by rw [countN, rd_countN_ne h n, rd_count, if_neg h]

/-- An event touches EVT_PENDING of its page alone. -/
theorem rd_raiseEvt_ne {b a : Nat} (k : Nat) (h : b + 0x28 ≠ a) : rd (raiseEvt s b k) a = rd s a := by
  unfold raiseEvt; split
  · exact rd_wr_ne s _ h
  · rfl

/-- A 64-bit register reads as it was set. -/
theorem rd64_wr64 (a v : Nat) (h : v < 2 ^ 64) : rd64 (wr64 s a v) a = v := by
  unfold rd64
  rw [rd_wr64, rd_wr64]
  simp
  omega

end Sys2Proof.Machine
end

