-- ==== Sys2Proof/Laws/Collector.lean ====
section
/-! SUPPORT. What the fault collector and the egress queues leave unchanged, and what raising an error does (R18, R19, R477, R484). -/
namespace Sys2Proof.Machine

variable (s : State)

/-! ## Sending frames leaves the chip and the work as they are -/

@[simp] theorem updPort_chip (p : Nat) (f : Port → Port) : (updPort s p f).chip = s.chip := rfl
@[simp] theorem startFrame_chip (p : Nat) : (startFrame s p).chip = s.chip := by unfold startFrame; split <;> rfl
@[simp] theorem pushEgress_chip (p : Nat) (f : EgFrame) : (pushEgress s p f).chip = s.chip := by
  unfold pushEgress; dsimp only; split <;> simp
@[simp] theorem setUse_chip (t : Nat) : (setUse s t).chip = s.chip := by unfold setUse; generalize tenantUse s t = u; rw [wr_chip, wr_chip]
@[simp] theorem releaseRange_chip (r : Nat) : (releaseRange s r).chip = s.chip := rfl
@[simp] theorem transmit_chip (p : Nat) (f : EgFrame) : (transmit s p f).chip = s.chip := rfl
@[simp] theorem sendNow_chip (t d : Nat) (b : List Byte) : (sendNow s t d b).chip = s.chip := by unfold sendNow; dsimp only; split <;> simp
@[simp] theorem sendFrame_chip (t fl c d o w : Nat) (b : List Byte) : (sendFrame s t fl c d o w b).chip = s.chip := by
  unfold sendFrame; dsimp only; split <;> simp
@[simp] theorem leaveUp_chip (p st : Nat) : (leaveUp s p st).chip = s.chip := by unfold leaveUp; dsimp only; split <;> simp

theorem foldl_chip {α : Type} (f : State → α → State) (h : ∀ t x, (f t x).chip = t.chip) : ∀ (l : List α) (s : State), (l.foldl f s).chip = s.chip
  | [], _ => rfl
  | x :: r, s => (foldl_chip f h r _).trans (h s x)

@[simp] theorem capture_chip (k : PageKind) (n b : Nat) (c : FClass) : (capture s k n b c).chip = s.chip := by
  unfold capture pushHist
  dsimp only
  repeat' split
  all_goals simp

@[simp] theorem setFaultBit_chip (g : Nat) : (setFaultBit s g).chip = s.chip := by unfold setFaultBit; dsimp only; split <;> simp

/-- Another store beside a register and the released flash leaves the chip. -/
theorem dropLoad_chip (r a : Nat) (w : Word) (st : Store) : ({ wr (releaseRange s r) a w with store := st } : State).chip = s.chip := rfl

@[simp] theorem abortCollLoad_chip : (abortCollLoad s).chip = s.chip := by
  unfold abortCollLoad
  split
  · rfl
  · exact (setUse_chip _ _).trans (dropLoad_chip s _ _ _ _)

@[simp] theorem abortTableLoad_chip : (abortTableLoad s).chip = s.chip := by
  unfold abortTableLoad
  split
  · rfl
  · exact (setUse_chip _ _).trans ((raiseEvt_chip _ _ _).trans (dropLoad_chip s _ _ _ _))

@[simp] theorem abortLoads_chip : (abortLoads s).chip = s.chip := by rw [abortLoads, abortTableLoad_chip, abortCollLoad_chip]

@[simp] theorem safeState_chip : (safeState s).chip = s.chip := by
  unfold safeState
  dsimp only
  rw [foldl_chip _ (fun t p => leaveUp_chip t p 0)]
  split
  · exact foldl_chip _ (fun t d => sendNow_chip t _ d _) _ _
  · rfl

/-! ## What an error does -/

/-- Collecting an error changes nothing of the chip but the C0 latch and, when it falls, the in-band interrupts owed (R477, R569). -/
theorem collect_chip (k : PageKind) (n b : Nat) : (collect s k n b).chip =
    if errClass k b = .c0 then
      { s.chip with aux := { s.chip.aux with c0 := true, ibi := s.chip.aux.ibi + (!s.c0).toNat } } else s.chip := by
  unfold collect
  cases errClass k b <;> simp
  split <;> simp

/-- A masked error is counted in its page and goes no further (R18). -/
theorem raiseErr_masked (k : PageKind) (n b : Nat) (h : testBit (rd s (pageBase k n + 0x34)) b = true) (hc : errClass k b ≠ .c0) :
    raiseErr s k n b =
    count (wr s (pageBase k n + 0x30) (setBit (rd s (pageBase k n + 0x30)) b)) (pageBase k n + 0x3C) := by
  unfold raiseErr
  simp only [h, true_and, if_pos hc]

/-- An error changes nothing of the chip but, of class C0, the latch and the in-band interrupts owed. -/
theorem raiseErr_chip (k : PageKind) (n b : Nat) : (raiseErr s k n b).chip =
    if errClass k b = .c0 then
      { s.chip with aux := { s.chip.aux with c0 := true, ibi := s.chip.aux.ibi + (!s.c0).toNat } } else s.chip := by
  unfold raiseErr
  dsimp only
  split
  · rename_i h; simp [h.2]
  · rw [collect_chip]
    have e (a : Nat) (w : Word) (c : Nat) : (count (wr s a w) c).c0 = s.c0 := rfl
    have e2 (a : Nat) (w : Word) : (wr (count (wr s (pageBase k n + 0x30) (setBit (rd s (pageBase k n + 0x30)) b)) (pageBase k n + 0x3C)) a w).c0 = s.c0 := rfl
    split <;> (split <;> simp [e, e2])

end Sys2Proof.Machine
end

