-- ==== Sys2Proof/Laws/Kept.lean ====
section
/-! SUPPORT. What a change of state keeps whatever the command: the queue of waiting commands, MODE_HALL, a C0 fault once latched, the canonical
form of the register file and of HBM, what has been issued to the host and on the wire, and how many parts the node has. -/
set_option linter.unusedTactic false
set_option linter.unreachableTactic false
namespace Sys2Proof.Machine

theorem RegFile.put_wf {t : Tbl Word} (a : Nat) (w : Word) (h : RegFile.wf t) : RegFile.wf (RegFile.put t a w) := by
  unfold RegFile.put
  split
  · exact ⟨Tbl.del_wf a h.1, fun c hc => h.2 c (Tbl.mem_del hc).1⟩
  · refine ⟨Tbl.set_wf a w h.1, fun c hc => ?_⟩
    rcases Tbl.mem_set hc with hc | hc
    · subst hc; assumption
    · exact h.2 c hc

theorem RegFile.filter_wf {t : Tbl Word} (p : Nat × Word → Bool) (h : RegFile.wf t) : RegFile.wf (t.filter p) :=
  ⟨List.Pairwise.filter p h.1, fun c hc => h.2 c (List.mem_filter.mp hc).1⟩

/-- `t` may follow `s`: the queue and MODE_HALL are the same, a latched C0 fault stays, the canonical forms stay, what was issued to the host
and on the wire stays, and the node keeps its parts. -/
structure Kept (s t : State) : Prop where
  pending : t.pending = s.pending
  hall : t.chip.pins.modeHall = s.chip.pins.modeHall
  c0 : s.chip.aux.c0 = true → t.chip.aux.c0 = true
  regs : RegFile.wf s.regs → RegFile.wf t.regs
  hbm : Memory.wf s.mem.hbm → Memory.wf t.mem.hbm
  out : s.links.out <+: t.links.out
  wire : s.links.wire <+: t.links.wire
  shape : s.Shape → t.Shape

theorem Kept.refl (s : State) : Kept s s := ⟨rfl, rfl, id, id, id, List.prefix_rfl, List.prefix_rfl, id⟩

theorem Kept.trans {s t u : State} (h : Kept s t) (k : Kept t u) : Kept s u :=
  ⟨k.pending.trans h.pending, k.hall.trans h.hall, fun x => k.c0 (h.c0 x), fun x => k.regs (h.regs x), fun x => k.hbm (h.hbm x),
   h.out.trans k.out, h.wire.trans k.wire, fun x => k.shape (h.shape x)⟩

/-- A change of other components. -/
theorem Kept.record {s t : State} {p : List Instr} {r st la : Tbl Word} {x : Step} {y : Sched} {z : Store} {m : Mem} {l : Links} {f : Faults}
    {c : Chip} (h : Kept s t) (hp : p = t.pending) (hm : c.pins.modeHall = t.chip.pins.modeHall) (hc : c.aux.c0 = t.chip.aux.c0)
    (hr : r = t.regs) (hh : m.hbm = t.mem.hbm) (ho : l.out = t.links.out) (hw : l.wire = t.links.wire)
    (hs : shapeOf m l c = shapeOf t.mem t.links t.chip) : Kept s ⟨p, r, st, la, x, y, z, m, l, f, c⟩ :=
  ⟨hp.trans h.pending, hm.trans h.hall, fun x => hc.trans (h.c0 x), fun x => hr ▸ h.regs x, fun x => hh ▸ h.hbm x, ho ▸ h.out, hw ▸ h.wire,
   fun x => hs.trans (h.shape x)⟩

/-- Other contents of the register file. -/
theorem Kept.withRegs {s t : State} {r : Tbl Word} (h : Kept s t) (hr : RegFile.wf t.regs → RegFile.wf r) : Kept s { t with regs := r } :=
  ⟨h.pending, h.hall, h.c0, fun x => hr (h.regs x), h.hbm, h.out, h.wire, h.shape⟩

/-- Other contents of a list of parts. -/
theorem Kept.withMem {s t : State} {m : Mem} (h : Kept s t) (hh : m.hbm = t.mem.hbm)
    (hs : shapeOf m t.links t.chip = shapeOf t.mem t.links t.chip) : Kept s { t with mem := m } :=
  Kept.record h rfl rfl rfl rfl hh rfl rfl hs

theorem Kept.withChip {s t : State} {c : Chip} (h : Kept s t) (hm : c.pins.modeHall = t.chip.pins.modeHall) (hc : c.aux.c0 = t.chip.aux.c0)
    (hs : shapeOf t.mem t.links c = shapeOf t.mem t.links t.chip) : Kept s { t with chip := c } :=
  Kept.record h rfl hm hc rfl rfl rfl rfl hs

theorem Kept.ite {s t u : State} {c : Prop} [Decidable c] (ht : Kept s t) (hu : Kept s u) : Kept s (if c then t else u) := by
  split <;> assumption

theorem Kept.ite1 {α : Type} {s : State} {t u : State × α} {c : Prop} [Decidable c] (ht : Kept s t.1) (hu : Kept s u.1) :
    Kept s (if c then t else u).1 := by
  split <;> assumption

theorem Kept.ite2 {α : Type} {s : State} {t u : α × State} {c : Prop} [Decidable c] (ht : Kept s t.2) (hu : Kept s u.2) :
    Kept s (if c then t else u).2 := by
  split <;> assumption

theorem foldl_kept {α : Type} {s : State} (f : State → α → State) (hf : ∀ t x, Kept s t → Kept s (f t x)) :
    ∀ (l : List α) (t : State), Kept s t → Kept s (l.foldl f t)
  | [], _, h => h
  | x :: r, t, h => foldl_kept f hf r _ (hf t x h)

theorem foldl_kept1 {α β : Type} {s : State} (f : State × β → α → State × β) (hf : ∀ t x, Kept s t.1 → Kept s (f t x).1) :
    ∀ (l : List α) (t : State × β), Kept s t.1 → Kept s (l.foldl f t).1
  | [], _, h => h
  | x :: r, t, h => foldl_kept1 f hf r _ (hf t x h)

theorem wr_kept {s₀ s : State} (a : Nat) (w : Word) (h : Kept s₀ s) : Kept s₀ (wr s a w) := h.withRegs (RegFile.put_wf a w)

end Sys2Proof.Machine
end

