-- ==== Sys2Proof/Laws/KeptOps.lean ====
section
/-! SUPPORT. The definitions of Machine/Ops.lean keep what Kept says. -/
set_option linter.unusedTactic false
set_option linter.unreachableTactic false
namespace Sys2Proof.Machine

theorem wrf_kept {s₀ s : State} (a : Nat) (hi : Nat) (lo : Nat) (v : Nat) (h : Kept s₀ s) :
    Kept s₀ (wrf s a hi lo v) := by
  unfold wrf
  with_reducible repeat' first | assumption | apply wr_kept | intro _ | split

theorem wr64_kept {s₀ s : State} (a : Nat) (v : Nat) (h : Kept s₀ s) :
    Kept s₀ (wr64 s a v) := by
  unfold wr64
  with_reducible repeat' first | assumption | apply wr_kept | intro _ | split

theorem count_kept {s₀ s : State} (a : Nat) (h : Kept s₀ s) :
    Kept s₀ (count s a) := by
  unfold count
  with_reducible repeat' first | assumption | apply wr_kept | intro _ | split

theorem countN_kept {s₀ : State} (a : Nat) : ∀ (n : Nat) {s : State}, Kept s₀ s → Kept s₀ (countN s a n)
  | 0, _, h => h
  | n + 1, _, h => countN_kept a n (count_kept a h)

theorem countBy_kept {s₀ s : State} (a : Nat) (n : Nat) (h : Kept s₀ s) :
    Kept s₀ (countBy s a n) := by
  unfold countBy
  try dsimp only
  with_reducible repeat' first | assumption | apply wr_kept | intro _ | apply Kept.ite | split

theorem count64_kept {s₀ s : State} (a : Nat) (h : Kept s₀ s) :
    Kept s₀ (count64 s a) := by
  unfold count64
  with_reducible repeat' first | assumption | apply wr64_kept | intro _ | split

theorem raiseEvt_kept {s₀ s : State} (base : Nat) (bit : Nat) (h : Kept s₀ s) :
    Kept s₀ (raiseEvt s base bit) := by
  unfold raiseEvt
  with_reducible repeat' first | assumption | apply wr_kept | intro _ | apply Kept.ite | split

theorem setCond_kept {s₀ s : State} (base : Nat) (bit : Nat) (v : Bool) (h : Kept s₀ s) :
    Kept s₀ (setCond s base bit v) := by
  unfold setCond
  try dsimp only
  with_reducible repeat' first | assumption | apply wr_kept | apply raiseEvt_kept | intro _ | apply Kept.ite | split

theorem freshWord_kept1 {s₀ s : State} (h : Kept s₀ s) :
    Kept s₀ (freshWord s).2 := by
  unfold freshWord
  with_reducible repeat' first | assumption | (refine Kept.record ?_ rfl rfl rfl rfl rfl rfl rfl rfl; first | assumption) | intro _ | split

theorem freshWord_kept {s₀ s r : State} {x : Word} (e₁ : freshWord s = (x, r)) (h : Kept s₀ s) :
    Kept s₀ r := by
  have k := freshWord_kept1 h
  rwa [e₁] at k

theorem freshEpoch_kept1 {s₀ s : State} (h : Kept s₀ s) :
    Kept s₀ (freshEpoch s).2 := by
  unfold freshEpoch
  try dsimp only
  with_reducible repeat' first | assumption | refine freshWord_kept ‹_› ?_ | apply freshWord_kept1 | intro _ | split

theorem freshEpoch_kept {s₀ s r : State} {x : Nat} (e₁ : freshEpoch s = (x, r)) (h : Kept s₀ s) :
    Kept s₀ r := by
  have k := freshEpoch_kept1 h
  rwa [e₁] at k

theorem releaseFirst_kept {s₀ s : State} (base : Nat) (h : Kept s₀ s) :
    Kept s₀ (releaseFirst s base) := by
  unfold releaseFirst
  with_reducible repeat' first | assumption | apply wr_kept | intro _ | apply Kept.ite | split

theorem softWrite_kept {s₀ s : State} (a : Nat) (v : Word) (h : Kept s₀ s) :
    Kept s₀ (softWrite s a v) := by
  unfold softWrite
  try dsimp only
  with_reducible repeat' first | assumption | apply wr_kept | apply releaseFirst_kept | (refine Kept.record ?_ rfl rfl rfl rfl rfl rfl rfl rfl; first | assumption | apply wr_kept | apply releaseFirst_kept) | intro _ | apply Kept.ite | split

theorem softWrite64_kept {s₀ s : State} (a : Nat) (v : Nat) (h : Kept s₀ s) :
    Kept s₀ (softWrite64 s a v) := by
  unfold softWrite64
  try dsimp only
  with_reducible repeat' first | assumption | apply softWrite_kept | (refine Kept.record ?_ rfl rfl rfl rfl rfl rfl rfl rfl; first | assumption | apply softWrite_kept) | intro _ | split

end Sys2Proof.Machine
end

