-- ==== Sys2Proof/Laws/KeptEgress.lean ====
section
/-! SUPPORT. The definitions of Machine/Egress.lean keep what Kept says. -/
set_option linter.unusedTactic false
set_option linter.unreachableTactic false
namespace Sys2Proof.Machine

theorem updPort_kept {s₀ s : State} (p : Nat) (f : Port → Port) (h : Kept s₀ s) : Kept s₀ (updPort s p f) :=
  Kept.record h rfl rfl rfl rfl rfl rfl rfl (by simp [shapeOf])

theorem startFrame_kept {s₀ s : State} (p : Nat) (h : Kept s₀ s) :
    Kept s₀ (startFrame s p) := by
  unfold startFrame
  try dsimp only
  with_reducible repeat' first | assumption | apply updPort_kept | (refine Kept.record ?_ rfl rfl rfl rfl rfl rfl rfl rfl; first | assumption | apply updPort_kept) | intro _ | split

theorem pushEgress_kept {s₀ s : State} (p : Nat) (f : EgFrame) (h : Kept s₀ s) :
    Kept s₀ (pushEgress s p f) := by
  unfold pushEgress
  try dsimp only
  with_reducible repeat' first | assumption | apply count_kept | apply updPort_kept | apply startFrame_kept | (refine Kept.record ?_ rfl rfl rfl rfl rfl rfl rfl rfl; first | assumption | apply count_kept | apply updPort_kept | apply startFrame_kept) | intro _ | apply Kept.ite | split

theorem sendFrame_kept {s₀ s : State} (typ : Nat) (flags : Nat) (cls : Nat) (dst : Nat) (object : Nat) (flow : Nat) (payload : List Byte) (h : Kept s₀ s) :
    Kept s₀ (sendFrame s typ flags cls dst object flow payload) := by
  unfold sendFrame
  try dsimp only
  with_reducible repeat' first | assumption | apply count_kept | apply pushEgress_kept | (refine Kept.record ?_ rfl rfl rfl rfl rfl rfl rfl rfl; first | assumption | apply count_kept | apply pushEgress_kept) | intro _ | split

theorem transmit_kept {s₀ s : State} (p : Nat) (f : EgFrame) (h : Kept s₀ s) : Kept s₀ (transmit s p f) :=
  ⟨h.pending, h.hall, h.c0, (count64_kept _ h).regs, h.hbm, h.out, h.wire.trans (List.prefix_append _ _), h.shape⟩

theorem leaveUp_kept {s₀ s : State} (p : Nat) (st : Nat) (h : Kept s₀ s) :
    Kept s₀ (leaveUp s p st) := by
  unfold leaveUp
  try dsimp only
  with_reducible repeat' first | assumption | apply countBy_kept | apply raiseEvt_kept | apply updPort_kept | apply foldl_kept | apply foldl_kept1 | (refine Kept.record ?_ rfl rfl rfl rfl rfl rfl rfl rfl; first | assumption | apply countBy_kept | apply raiseEvt_kept | apply updPort_kept | apply foldl_kept | apply foldl_kept1) | intro _ | apply Kept.ite | split

theorem hostWrite_kept {s₀ s : State} (fn : PciFn) (addr : Nat) (data : List Byte) (h : Kept s₀ s) : Kept s₀ (hostWrite s fn addr data) :=
  ⟨h.pending, h.hall, h.c0, h.regs, h.hbm, h.out.trans (List.prefix_append _ _), h.wire, h.shape⟩

theorem hostMsix_kept {s₀ s : State} (fn : PciFn) (v : Nat) (h : Kept s₀ s) : Kept s₀ (hostMsix s fn v) :=
  ⟨h.pending, h.hall, h.c0, h.regs, h.hbm, h.out.trans (List.prefix_append _ _), h.wire, h.shape⟩

theorem setPciState_kept {s₀ s : State} (fn : PciFn) (x : PciState) (h : Kept s₀ s) :
    Kept s₀ (setPciState s fn x) := by
  unfold setPciState
  with_reducible repeat' first | assumption | (refine Kept.record ?_ rfl rfl rfl rfl rfl rfl rfl rfl; first | assumption) | intro _ | split

theorem sendMsix_kept {s₀ s : State} (fn : PciFn) (v : Nat) (h : Kept s₀ s) :
    Kept s₀ (sendMsix s fn v) := by
  unfold sendMsix
  try dsimp only
  with_reducible repeat' first | assumption | apply hostMsix_kept | apply setPciState_kept | (refine Kept.record ?_ rfl rfl rfl rfl rfl rfl rfl rfl; first | assumption | apply hostMsix_kept | apply setPciState_kept) | intro _ | apply Kept.ite | split

end Sys2Proof.Machine
end

