-- ==== Sys2Proof/Laws/KeptSizes.lean ====
section
/-! SUPPORT. The definitions of Machine/Sizes.lean keep what Kept says. -/
set_option linter.unusedTactic false
set_option linter.unreachableTactic false
namespace Sys2Proof.Machine

theorem setUse_kept {s₀ s : State} (t : Nat) (h : Kept s₀ s) :
    Kept s₀ (setUse s t) := by
  unfold setUse
  try dsimp only
  with_reducible repeat' first | assumption | apply wr_kept | intro _ | split

end Sys2Proof.Machine
end

