-- ==== Sys2Proof/Laws/KeptCollector.lean ====
section
/-! SUPPORT. The definitions of Machine/Collector.lean keep what Kept says. -/
set_option linter.unusedTactic false
set_option linter.unreachableTactic false
namespace Sys2Proof.Machine

theorem pushHist_kept {s₀ s : State} (e : HistEntry) (h : Kept s₀ s) :
    Kept s₀ (pushHist s e) := by
  unfold pushHist
  with_reducible repeat' first | assumption | apply wr_kept | apply count_kept | (refine Kept.record ?_ rfl rfl rfl rfl rfl rfl rfl rfl; first | assumption | apply wr_kept | apply count_kept) | intro _ | apply Kept.ite | split

theorem capture_kept {s₀ s : State} (k : PageKind) (n : Nat) (bit : Nat) (c : FClass) (h : Kept s₀ s) :
    Kept s₀ (capture s k n bit c) := by
  unfold capture
  try dsimp only
  with_reducible repeat' first | assumption | apply wr_kept | apply wr64_kept | apply pushHist_kept | intro _ | apply Kept.ite | split

theorem setFaultBit_kept {s₀ s : State} (g : Nat) (h : Kept s₀ s) :
    Kept s₀ (setFaultBit s g) := by
  unfold setFaultBit
  try dsimp only
  with_reducible repeat' first | assumption | apply wr64_kept | (refine Kept.record ?_ rfl rfl rfl rfl rfl rfl rfl rfl; first | assumption | apply wr64_kept) | intro _ | apply Kept.ite | split

theorem sendNow_kept {s₀ s : State} (typ : Nat) (dst : Nat) (payload : List Byte) (h : Kept s₀ s) :
    Kept s₀ (sendNow s typ dst payload) := by
  unfold sendNow
  try dsimp only
  with_reducible repeat' first | assumption | apply count_kept | apply transmit_kept | (refine Kept.record ?_ rfl rfl rfl rfl rfl rfl rfl rfl; first | assumption | apply count_kept | apply transmit_kept) | intro _ | split

theorem safeState_kept {s₀ s : State} (h : Kept s₀ s) : Kept s₀ (safeState s) := by
  unfold safeState
  extract_lets pay s1 s2 fl
  have h1 : Kept s₀ s1 := Kept.ite (foldl_kept _ (fun _ _ k => sendNow_kept _ _ _ k) _ _ h) h
  have h2 : Kept s₀ s2 := foldl_kept _ (fun _ _ k => leaveUp_kept _ _ k) _ _ h1
  clear_value s2
  exact Kept.record h2 rfl rfl rfl rfl rfl rfl rfl (by simp [shapeOf]; exact ⟨rfl, rfl⟩)

theorem updFlash_kept {s₀ s : State} (f : Flash → Flash) (h : Kept s₀ s) :
    Kept s₀ (updFlash s f) := by
  unfold updFlash
  with_reducible repeat' first | assumption | (refine Kept.record ?_ rfl rfl rfl rfl rfl rfl rfl rfl; first | assumption) | intro _ | split

theorem releaseRange_kept {s₀ s : State} (range : Nat) (h : Kept s₀ s) :
    Kept s₀ (releaseRange s range) := by
  unfold releaseRange
  with_reducible repeat' first | assumption | (refine Kept.record ?_ rfl rfl rfl rfl rfl rfl rfl rfl; first | assumption) | intro _ | split

theorem abortCollLoad_kept {s₀ s : State} (h : Kept s₀ s) :
    Kept s₀ (abortCollLoad s) := by
  unfold abortCollLoad
  with_reducible repeat' first | assumption | apply wr_kept | apply setUse_kept | apply releaseRange_kept | (refine Kept.record ?_ rfl rfl rfl rfl rfl rfl rfl rfl; first | assumption | apply wr_kept | apply setUse_kept | apply releaseRange_kept) | intro _ | split

theorem abortTableLoad_kept {s₀ s : State} (h : Kept s₀ s) :
    Kept s₀ (abortTableLoad s) := by
  unfold abortTableLoad
  with_reducible repeat' first | assumption | apply wr_kept | apply raiseEvt_kept | apply setUse_kept | apply releaseRange_kept | (refine Kept.record ?_ rfl rfl rfl rfl rfl rfl rfl rfl; first | assumption | apply wr_kept | apply raiseEvt_kept | apply setUse_kept | apply releaseRange_kept) | intro _ | split

theorem abortLoads_kept {s₀ s : State} (h : Kept s₀ s) :
    Kept s₀ (abortLoads s) := by
  unfold abortLoads
  with_reducible repeat' first | assumption | apply abortCollLoad_kept | apply abortTableLoad_kept | intro _ | split

/-- Latching the C0 fault keeps all of it. -/
theorem latchC0_kept {s₀ s : State} (n : Nat) (h : Kept s₀ s) :
    Kept s₀ { s with chip := { s.chip with aux := { s.chip.aux with c0 := true, ibi := n } } } :=
  ⟨h.pending, h.hall, fun _ => rfl, h.regs, h.hbm, h.out, h.wire, h.shape⟩

theorem collect_kept {s₀ s : State} (k : PageKind) (n : Nat) (bit : Nat) (h : Kept s₀ s) : Kept s₀ (collect s k n bit) := by
  unfold collect
  cases errClass k bit with
  | c2 => exact capture_kept _ _ _ _ (raiseEvt_kept _ _ (count_kept _ h))
  | c1 => exact raiseEvt_kept _ _ (setFaultBit_kept _ (capture_kept _ _ _ _ (abortLoads_kept h)))
  | c0 =>
    have k1 := latchC0_kept ((wr64 (raiseEvt (setFaultBit (capture (abortLoads s) k n bit .c0) (faultGroup k n)) (pageBase .fault 0) 0)
        Reg.fault.FAULT_C0_GROUPS (rd64 (raiseEvt (setFaultBit (capture (abortLoads s) k n bit .c0) (faultGroup k n)) (pageBase .fault 0) 0)
        Reg.fault.FAULT_C0_GROUPS ||| 1 <<< faultGroup k n)).chip.aux.ibi + (!s.c0).toNat)
      (wr64_kept Reg.fault.FAULT_C0_GROUPS (rd64 (raiseEvt (setFaultBit (capture (abortLoads s) k n bit .c0) (faultGroup k n)) (pageBase .fault 0) 0)
        Reg.fault.FAULT_C0_GROUPS ||| 1 <<< faultGroup k n)
      (raiseEvt_kept (pageBase .fault 0) 0 (setFaultBit_kept (faultGroup k n) (capture_kept k n bit .c0 (abortLoads_kept h)))))
    exact Kept.ite k1 (safeState_kept k1)

theorem raiseErr_kept {s₀ s : State} (k : PageKind) (n : Nat) (bit : Nat) (h : Kept s₀ s) :
    Kept s₀ (raiseErr s k n bit) := by
  unfold raiseErr
  try dsimp only
  with_reducible repeat' first | assumption | apply wr_kept | apply count_kept | apply collect_kept | intro _ | apply Kept.ite | split

theorem raiseErrs_kept {s₀ s : State} (k : PageKind) (n : Nat) (bits : List Nat) (h : Kept s₀ s) :
    Kept s₀ (raiseErrs s k n bits) := by
  unfold raiseErrs
  try dsimp only
  with_reducible repeat' first | assumption | apply raiseErr_kept | apply foldl_kept | apply foldl_kept1 | intro _ | split

end Sys2Proof.Machine
end

