-- ==== Sys2Proof/Laws/KeptComplete.lean ====
section
/-! SUPPORT. The definitions of Machine/Complete.lean keep what Kept says. -/
set_option linter.unusedTactic false
set_option linter.unreachableTactic false
namespace Sys2Proof.Machine

theorem updChan_kept {s₀ s : State} (c : Nat) (f : Chan → Chan) (h : Kept s₀ s) :
    Kept s₀ (updChan s c f) := by
  unfold updChan
  with_reducible repeat' first | assumption | (refine Kept.record ?_ rfl rfl rfl rfl rfl rfl rfl rfl; first | assumption) | intro _ | split

theorem putCqe_kept {s₀ s : State} (c : Nat) (q : Cqe) (h : Kept s₀ s) :
    Kept s₀ (putCqe s c q) := by
  unfold putCqe
  try dsimp only
  with_reducible repeat' first | assumption | apply hostWrite_kept | apply sendMsix_kept | apply updChan_kept | (refine Kept.record ?_ rfl rfl rfl rfl rfl rfl rfl rfl; first | assumption | apply hostWrite_kept | apply sendMsix_kept | apply updChan_kept) | intro _ | apply Kept.ite | split

theorem drainCq_kept {s₀ : State} (c : Nat) : ∀ (l : List Cqe) {s : State}, Kept s₀ s → Kept s₀ (drainCq s c l)
  | [], _, h => updChan_kept _ _ h
  | q :: r, s, h => by
    unfold drainCq
    split
    · exact updChan_kept _ _ h
    · exact drainCq_kept c r (putCqe_kept _ _ h)

theorem discardCompletion_kept {s₀ s : State} (c : Nat) (hdr : Bool) (h : Kept s₀ s) :
    Kept s₀ (discardCompletion s c hdr) := by
  unfold discardCompletion
  try dsimp only
  with_reducible repeat' first | assumption | apply countBy_kept | apply updChan_kept | (refine Kept.record ?_ rfl rfl rfl rfl rfl rfl rfl rfl; first | assumption | apply countBy_kept | apply updChan_kept) | intro _ | split

theorem postCqe_kept {s₀ s : State} (c : Nat) (q : Cqe) (h : Kept s₀ s) :
    Kept s₀ (postCqe s c q) := by
  unfold postCqe
  try dsimp only
  with_reducible repeat' first | assumption | apply count_kept | apply updChan_kept | apply putCqe_kept | (refine Kept.record ?_ rfl rfl rfl rfl rfl rfl rfl rfl; first | assumption | apply count_kept | apply updChan_kept | apply putCqe_kept) | intro _ | apply Kept.ite | split

theorem complete_kept {s₀ s : State} (d : Desc) (status : Nat) (epoch : Nat) (cnt : Nat) (writes : List (Nat × List Byte)) (silent : Bool) (h : Kept s₀ s) :
    Kept s₀ (complete s d status epoch cnt writes silent) := by
  unfold complete
  try dsimp only
  with_reducible repeat' first | assumption | apply hostWrite_kept | apply discardCompletion_kept | apply postCqe_kept | apply foldl_kept | apply foldl_kept1 | intro _ | apply Kept.ite | split

theorem refuse_kept {s₀ s : State} (d : Desc) (status : Nat) (detail : Nat) (h : Kept s₀ s) :
    Kept s₀ (refuse s d status detail) := by
  unfold refuse
  try dsimp only
  with_reducible repeat' first | assumption | refine freshEpoch_kept ‹_› ?_ | apply freshEpoch_kept1 | apply complete_kept | intro _ | apply Kept.ite | split

end Sys2Proof.Machine
end

