-- ==== Sys2Proof/Laws/KeptRings.lean ====
section
/-! SUPPORT. The definitions of Machine/Rings.lean keep what Kept says. -/
set_option linter.unusedTactic false
set_option linter.unreachableTactic false
namespace Sys2Proof.Machine

theorem chanInval_kept {s₀ s : State} (c : Nat) (h : Kept s₀ s) :
    Kept s₀ (chanInval s c) := by
  unfold chanInval
  with_reducible repeat' first | assumption | apply wrf_kept | (refine Kept.record ?_ rfl rfl rfl rfl rfl rfl rfl rfl; first | assumption | apply wrf_kept) | intro _ | split

theorem execChanInval_kept {s₀ s t : State} (c : Fin 4096) (e : execChanInval c s = .next t) (h : Kept s₀ s) :
    Kept s₀ t := by
  unfold execChanInval at e
  injection e with e; subst e
  with_reducible repeat' first | assumption | apply chanInval_kept | intro _ | split

theorem chanInvalDone_kept {s₀ s : State} (c : Nat) (h : Kept s₀ s) :
    Kept s₀ (chanInvalDone s c) := by
  unfold chanInvalDone
  try dsimp only
  with_reducible repeat' first | assumption | apply wr_kept | apply raiseEvt_kept | apply updChan_kept | (refine Kept.record ?_ rfl rfl rfl rfl rfl rfl rfl rfl; first | assumption | apply wr_kept | apply raiseEvt_kept | apply updChan_kept) | intro _ | apply Kept.ite | split

theorem cacheLookup_kept {s₀ s : State} (c : Nat) (h : Kept s₀ s) :
    Kept s₀ (cacheLookup s c) := by
  unfold cacheLookup
  try dsimp only
  with_reducible repeat' first | assumption | apply count_kept | (refine Kept.record ?_ rfl rfl rfl rfl rfl rfl rfl rfl; first | assumption | apply count_kept) | intro _ | apply Kept.ite | split

theorem takeSlot_kept {s₀ s : State} (c : Nat) (h : Kept s₀ s) :
    Kept s₀ (takeSlot s c) := by
  unfold takeSlot
  try dsimp only
  with_reducible repeat' first | assumption | apply updChan_kept | (refine Kept.record ?_ rfl rfl rfl rfl rfl rfl rfl rfl; first | assumption | apply updChan_kept) | intro _ | split

theorem arrive_kept {s₀ s : State} (c : Nat) (desc : List Byte) (buf : List Byte) (keys : List Byte) (h : Kept s₀ s) :
    Kept s₀ (arrive s c desc buf keys) := by
  unfold arrive
  try dsimp only
  with_reducible repeat' first | assumption | apply refuse_kept | apply cacheLookup_kept | apply takeSlot_kept | (refine Kept.record ?_ rfl rfl rfl rfl rfl rfl rfl rfl; first | assumption | apply refuse_kept | apply cacheLookup_kept | apply takeSlot_kept) | intro _ | apply Kept.ite | split

theorem fetchError_kept {s₀ s : State} (c : Nat) (desc : Option (List Byte)) (h : Kept s₀ s) :
    Kept s₀ (fetchError s c desc) := by
  unfold fetchError
  try dsimp only
  with_reducible repeat' first | assumption | apply count_kept | apply raiseErr_kept | apply complete_kept | apply refuse_kept | apply takeSlot_kept | apply arrive_kept | (refine Kept.record ?_ rfl rfl rfl rfl rfl rfl rfl rfl; first | assumption | apply count_kept | apply raiseErr_kept | apply complete_kept | apply refuse_kept | apply takeSlot_kept | apply arrive_kept) | intro _ | apply Kept.ite | split

theorem execFetchError_kept {s₀ s t : State} (c : Fin 4096) (desc : Option (List Byte)) (e : execFetchError c desc s = .next t) (h : Kept s₀ s) :
    Kept s₀ t := by
  unfold execFetchError at e
  injection e with e; subst e
  with_reducible repeat' first | assumption | apply fetchError_kept | intro _ | apply Kept.ite | split

theorem doorbellError_kept {s₀ s : State} (c : Nat) (h : Kept s₀ s) :
    Kept s₀ (doorbellError s c) := by
  unfold doorbellError
  try dsimp only
  with_reducible repeat' first | assumption | apply wr_kept | apply count_kept | intro _ | split

theorem sqTail_kept {s₀ s : State} (c : Nat) (w : Word) (h : Kept s₀ s) :
    Kept s₀ (sqTail s c w) := by
  unfold sqTail
  with_reducible repeat' first | assumption | apply updChan_kept | apply doorbellError_kept | (refine Kept.record ?_ rfl rfl rfl rfl rfl rfl rfl rfl; first | assumption | apply updChan_kept | apply doorbellError_kept) | intro _ | apply Kept.ite | split

theorem execSqTail_kept {s₀ s t : State} (c : Fin 4096) (value : Word) (e : execSqTail c value s = .next t) (h : Kept s₀ s) :
    Kept s₀ t := by
  unfold execSqTail at e
  injection e with e; subst e
  with_reducible repeat' first | assumption | apply sqTail_kept | intro _ | split

theorem acceptHead_kept {s₀ s : State} (c : Nat) (v : Nat) (arm : Bool) (h : Kept s₀ s) :
    Kept s₀ (acceptHead s c v arm) := by
  unfold acceptHead
  try dsimp only
  with_reducible repeat' first | assumption | apply sendMsix_kept | apply updChan_kept | apply drainCq_kept | (refine Kept.record ?_ rfl rfl rfl rfl rfl rfl rfl rfl; first | assumption | apply sendMsix_kept | apply updChan_kept | apply drainCq_kept) | intro _ | apply Kept.ite | split

theorem cqHead_kept {s₀ s : State} (c : Nat) (w : Word) (h : Kept s₀ s) :
    Kept s₀ (cqHead s c w) := by
  unfold cqHead
  with_reducible repeat' first | assumption | apply doorbellError_kept | apply acceptHead_kept | intro _ | apply Kept.ite | split

theorem execCqHead_kept {s₀ s t : State} (c : Fin 4096) (value : Word) (e : execCqHead c value s = .next t) (h : Kept s₀ s) :
    Kept s₀ t := by
  unfold execCqHead at e
  injection e with e; subst e
  with_reducible repeat' first | assumption | apply cqHead_kept | intro _ | split

theorem flushVector_kept {s₀ s : State} (fn : PciFn) (v : Nat) (h : Kept s₀ s) :
    Kept s₀ (flushVector fn s v) := by
  unfold flushVector
  try dsimp only
  with_reducible repeat' first | assumption | apply hostMsix_kept | apply setPciState_kept | (refine Kept.record ?_ rfl rfl rfl rfl rfl rfl rfl rfl; first | assumption | apply hostMsix_kept | apply setPciState_kept) | intro _ | apply Kept.ite | split

theorem flushMsix_kept {s₀ s : State} (fn : PciFn) (h : Kept s₀ s) :
    Kept s₀ (flushMsix s fn) := by
  unfold flushMsix
  with_reducible repeat' first | assumption | apply flushVector_kept | apply foldl_kept | apply foldl_kept1 | intro _ | split

theorem setVectorMask_kept {s₀ s : State} (fn : PciFn) (v : Nat) (masked : Bool) (h : Kept s₀ s) :
    Kept s₀ (setVectorMask s fn v masked) := by
  unfold setVectorMask
  try dsimp only
  with_reducible repeat' first | assumption | apply setPciState_kept | apply flushVector_kept | (refine Kept.record ?_ rfl rfl rfl rfl rfl rfl rfl rfl; first | assumption | apply setPciState_kept | apply flushVector_kept) | intro _ | apply Kept.ite | split

theorem execMsixUnmask_kept {s₀ s t : State} (fn : PciFn) (vector : Fin 64) (e : execMsixUnmask fn vector s = .next t) (h : Kept s₀ s) :
    Kept s₀ t := by
  unfold execMsixUnmask at e
  injection e with e; subst e
  with_reducible repeat' first | assumption | apply setVectorMask_kept | intro _ | split

theorem d3hot_kept {s₀ s : State} (fn : PciFn) (enter : Bool) (h : Kept s₀ s) :
    Kept s₀ (d3hot s fn enter) := by
  unfold d3hot
  try dsimp only
  with_reducible repeat' first | assumption | apply setPciState_kept | apply flushMsix_kept | (refine Kept.record ?_ rfl rfl rfl rfl rfl rfl rfl rfl; first | assumption | apply setPciState_kept | apply flushMsix_kept) | intro _ | apply Kept.ite | split

theorem execD3hot_kept {s₀ s t : State} (fn : PciFn) (enter : Bool) (e : execD3hot fn enter s = .next t) (h : Kept s₀ s) :
    Kept s₀ t := by
  unfold execD3hot at e
  injection e with e; subst e
  with_reducible repeat' first | assumption | apply d3hot_kept | intro _ | split

theorem execBusMasterDisable_kept {s₀ s t : State} (vf : Fin 256) (e : execBusMasterDisable vf s = .next t) (h : Kept s₀ s) :
    Kept s₀ t := by
  unfold execBusMasterDisable at e
  injection e with e; subst e
  with_reducible repeat' first | assumption | apply setPciState_kept | (refine Kept.record ?_ rfl rfl rfl rfl rfl rfl rfl rfl; first | assumption | apply setPciState_kept) | intro _ | split

theorem execBusMasterEnable_kept {s₀ s t : State} (vf : Fin 256) (e : execBusMasterEnable vf s = .next t) (h : Kept s₀ s) :
    Kept s₀ t := by
  unfold execBusMasterEnable at e
  injection e with e; subst e
  with_reducible repeat' first | assumption | apply setPciState_kept | apply flushMsix_kept | (refine Kept.record ?_ rfl rfl rfl rfl rfl rfl rfl rfl; first | assumption | apply setPciState_kept | apply flushMsix_kept) | intro _ | split

theorem flrChan_kept {s₀ s : State} (c : Nat) (h : Kept s₀ s) :
    Kept s₀ (flrChan s c) := by
  unfold flrChan
  try dsimp only
  with_reducible repeat' first | assumption | apply countBy_kept | apply updChan_kept | (refine Kept.record ?_ rfl rfl rfl rfl rfl rfl rfl rfl; first | assumption | apply countBy_kept | apply updChan_kept) | intro _ | split

theorem vfFlr_kept {s₀ s : State} (i : Fin 256) (h : Kept s₀ s) :
    Kept s₀ (vfFlr s i) := by
  unfold vfFlr
  try dsimp only
  with_reducible repeat' first | assumption | apply wr_kept | apply setPciState_kept | apply flrChan_kept | apply foldl_kept | apply foldl_kept1 | (refine Kept.record ?_ rfl rfl rfl rfl rfl rfl rfl rfl; first | assumption | apply wr_kept | apply setPciState_kept | apply flrChan_kept | apply foldl_kept | apply foldl_kept1) | intro _ | split

theorem execVfFlr_kept {s₀ s t : State} (vf : Fin 256) (e : execVfFlr vf s = .next t) (h : Kept s₀ s) :
    Kept s₀ t := by
  unfold execVfFlr at e
  injection e with e; subst e
  with_reducible repeat' first | assumption | apply vfFlr_kept | intro _ | split

theorem flrComplete_kept {s₀ s : State} (i : Fin 256) (h : Kept s₀ s) :
    Kept s₀ (flrComplete s i) := by
  unfold flrComplete
  try dsimp only
  with_reducible repeat' first | assumption | apply count_kept | apply raiseEvt_kept | apply setPciState_kept | (refine Kept.record ?_ rfl rfl rfl rfl rfl rfl rfl rfl; first | assumption | apply count_kept | apply raiseEvt_kept | apply setPciState_kept) | intro _ | apply Kept.ite | split

theorem execFlrComplete_kept {s₀ s t : State} (vf : Fin 256) (e : execFlrComplete vf s = .next t) (h : Kept s₀ s) :
    Kept s₀ t := by
  unfold execFlrComplete at e
  injection e with e; subst e
  with_reducible repeat' first | assumption | apply flrComplete_kept | intro _ | split

theorem linkChange_kept {s₀ s : State} (rate : Nat) (width : Nat) (flit : Bool) (h : Kept s₀ s) :
    Kept s₀ (linkChange s rate width flit) := by
  unfold linkChange
  try dsimp only
  with_reducible repeat' first | assumption | apply wr_kept | apply raiseEvt_kept | intro _ | apply Kept.ite | split

theorem execPcieLinkChange_kept {s₀ s t : State} (rate : Fin 7) (width : Nat) (flit : Bool) (e : execPcieLinkChange rate width flit s = .next t) (h : Kept s₀ s) :
    Kept s₀ t := by
  unfold execPcieLinkChange at e
  injection e with e; subst e
  with_reducible repeat' first | assumption | apply linkChange_kept | intro _ | split

theorem flrAll_kept {s₀ s : State} (h : Kept s₀ s) :
    Kept s₀ (flrAll s) := by
  unfold flrAll
  with_reducible repeat' first | assumption | apply vfFlr_kept | apply foldl_kept | apply foldl_kept1 | intro _ | split

theorem clearVfs_kept {s₀ s : State} (h : Kept s₀ s) :
    Kept s₀ (clearVfs s) := by
  unfold clearVfs
  try dsimp only
  with_reducible repeat' first | assumption | (refine Kept.record ?_ rfl rfl rfl rfl rfl rfl rfl rfl; first | assumption) | intro _ | split

theorem clearPf_kept {s₀ s : State} (h : Kept s₀ s) :
    Kept s₀ (clearPf s) := by
  unfold clearPf
  with_reducible repeat' first | assumption | (refine Kept.record ?_ rfl rfl rfl rfl rfl rfl rfl rfl; first | assumption) | intro _ | split

theorem perstLow_kept {s₀ s : State} (h : Kept s₀ s) :
    Kept s₀ (perstLow s) := by
  unfold perstLow
  with_reducible repeat' first | assumption | (refine Kept.record ?_ rfl rfl rfl rfl rfl rfl rfl rfl; first | assumption) | intro _ | split

theorem pcieReset_kept {s₀ s : State} (k : PcieReset) (h : Kept s₀ s) :
    Kept s₀ (pcieReset s k) := by
  unfold pcieReset
  try dsimp only
  with_reducible repeat' first | assumption | apply raiseErr_kept | apply linkChange_kept | apply flrAll_kept | apply clearVfs_kept | apply clearPf_kept | apply perstLow_kept | (refine Kept.record ?_ rfl rfl rfl rfl rfl rfl rfl rfl; first | assumption | apply raiseErr_kept | apply linkChange_kept | apply flrAll_kept | apply clearVfs_kept | apply clearPf_kept | apply perstLow_kept) | intro _ | split

theorem execPcieReset_kept {s₀ s t : State} (kind : PcieReset) (e : execPcieReset kind s = .next t) (h : Kept s₀ s) :
    Kept s₀ t := by
  unfold execPcieReset at e
  injection e with e; subst e
  with_reducible repeat' first | assumption | apply pcieReset_kept | intro _ | split

end Sys2Proof.Machine
end

