-- ==== Sys2Proof/Laws/KeptCapacity.lean ====
section
/-! SUPPORT. The definitions of Machine/Capacity.lean keep what Kept says. -/
set_option linter.unusedTactic false
set_option linter.unreachableTactic false
namespace Sys2Proof.Machine

theorem setStepRates_kept {s₀ s : State} (h : Kept s₀ s) :
    Kept s₀ (setStepRates s) := by
  unfold setStepRates
  try dsimp only
  with_reducible repeat' first | assumption | apply wr_kept | apply foldl_kept | apply foldl_kept1 | intro _ | apply Kept.ite | split

theorem setHbmCapacity_kept {s₀ s : State} (h : Kept s₀ s) :
    Kept s₀ (setHbmCapacity s) := by
  unfold setHbmCapacity
  try dsimp only
  with_reducible repeat' first | assumption | apply wr_kept | intro _ | split

end Sys2Proof.Machine
end

