-- ==== Sys2Proof/Laws/KeptTenants.lean ====
section
/-! SUPPORT. The definitions of Machine/Tenants.lean keep what Kept says. -/
set_option linter.unusedTactic false
set_option linter.unreachableTactic false
namespace Sys2Proof.Machine

theorem updTenant_kept {s₀ s : State} (t : Nat) (f : Tenant → Tenant) (h : Kept s₀ s) :
    Kept s₀ (updTenant s t f) := by
  unfold updTenant
  with_reducible repeat' first | assumption | (refine Kept.record ?_ rfl rfl rfl rfl rfl rfl rfl rfl; first | assumption) | intro _ | split

theorem tenantDone_kept {s₀ s : State} (t : Nat) (r : Nat) (h : Kept s₀ s) :
    Kept s₀ (tenantDone s t r) := by
  unfold tenantDone
  with_reducible repeat' first | assumption | apply wrf_kept | apply raiseEvt_kept | intro _ | split

theorem tenantAdmit_kept {s₀ s : State} (t : Nat) (h : Kept s₀ s) :
    Kept s₀ (tenantAdmit s t) := by
  unfold tenantAdmit
  try dsimp only
  with_reducible repeat' first | assumption | apply wr_kept | apply updTenant_kept | apply tenantDone_kept | (refine Kept.record ?_ rfl rfl rfl rfl rfl rfl rfl rfl; first | assumption | apply wr_kept | apply updTenant_kept | apply tenantDone_kept) | intro _ | apply Kept.ite | split

theorem execTenantAdmit_kept {s₀ s t : State} (e : execTenantAdmit s = .next t) (h : Kept s₀ s) :
    Kept s₀ t := by
  unfold execTenantAdmit at e
  injection e with e; subst e
  with_reducible repeat' first | assumption | apply tenantAdmit_kept | intro _ | split

theorem tenantRelease_kept {s₀ s : State} (t : Nat) (h : Kept s₀ s) :
    Kept s₀ (tenantRelease s t) := by
  unfold tenantRelease
  try dsimp only
  with_reducible repeat' first | assumption | apply updTenant_kept | apply tenantDone_kept | (refine Kept.record ?_ rfl rfl rfl rfl rfl rfl rfl rfl; first | assumption | apply updTenant_kept | apply tenantDone_kept) | intro _ | apply Kept.ite | split

theorem execTenantRelease_kept {s₀ s t : State} (e : execTenantRelease s = .next t) (h : Kept s₀ s) :
    Kept s₀ t := by
  unfold execTenantRelease at e
  injection e with e; subst e
  with_reducible repeat' first | assumption | apply tenantRelease_kept | intro _ | split

theorem guaranteeRankWrite_kept {s₀ s : State} (t : Nat) (r : Nat) (h : Kept s₀ s) :
    Kept s₀ (guaranteeRankWrite s t r) := by
  unfold guaranteeRankWrite
  with_reducible repeat' first | assumption | apply wr_kept | intro _ | apply Kept.ite | split

theorem execGuaranteeRankWrite_kept {s₀ s t : State} (rank : Byte) (e : execGuaranteeRankWrite rank s = .next t) (h : Kept s₀ s) :
    Kept s₀ t := by
  unfold execGuaranteeRankWrite at e
  injection e with e; subst e
  with_reducible repeat' first | assumption | apply guaranteeRankWrite_kept | intro _ | split

theorem c0ReservationWrite_kept {s₀ s : State} (t : Nat) (k : C0Kind) (w : Word) (h : Kept s₀ s) :
    Kept s₀ (c0ReservationWrite s t k w) := by
  unfold c0ReservationWrite
  try dsimp only
  with_reducible repeat' first | assumption | apply wr_kept | (refine Kept.record ?_ rfl rfl rfl rfl rfl rfl rfl rfl; first | assumption | apply wr_kept) | intro _ | apply Kept.ite | split

theorem execC0ReservationWrite_kept {s₀ s t : State} (kind : C0Kind) (value : Word) (e : execC0ReservationWrite kind value s = .next t) (h : Kept s₀ s) :
    Kept s₀ t := by
  unfold execC0ReservationWrite at e
  injection e with e; subst e
  with_reducible repeat' first | assumption | apply c0ReservationWrite_kept | intro _ | split

theorem capacityReservationWrite_kept {s₀ s : State} (k : CapKind) (w : Word) (h : Kept s₀ s) :
    Kept s₀ (capacityReservationWrite s k w) := by
  unfold capacityReservationWrite
  try dsimp only
  with_reducible repeat' first | assumption | apply wr_kept | apply setHbmCapacity_kept | (refine Kept.record ?_ rfl rfl rfl rfl rfl rfl rfl rfl; first | assumption | apply wr_kept | apply setHbmCapacity_kept) | intro _ | apply Kept.ite | split

theorem execCapacityReservationWrite_kept {s₀ s t : State} (kind : CapKind) (value : Word) (e : execCapacityReservationWrite kind value s = .next t) (h : Kept s₀ s) :
    Kept s₀ t := by
  unfold execCapacityReservationWrite at e
  injection e with e; subst e
  with_reducible repeat' first | assumption | apply capacityReservationWrite_kept | intro _ | split

theorem meter_kept {s₀ s : State} (t : Nat) (i : Nat) (n : Nat) (h : Kept s₀ s) :
    Kept s₀ (meter s t i n) := by
  unfold meter
  try dsimp only
  with_reducible repeat' first | assumption | apply updTenant_kept | (refine Kept.record ?_ rfl rfl rfl rfl rfl rfl rfl rfl; first | assumption | apply updTenant_kept) | intro _ | split

theorem execMeterLatch_kept {s₀ s t : State} (e : execMeterLatch s = .next t) (h : Kept s₀ s) :
    Kept s₀ t := by
  unfold execMeterLatch at e
  injection e with e; subst e
  try dsimp only
  with_reducible repeat' first | assumption | apply updTenant_kept | (refine Kept.record ?_ rfl rfl rfl rfl rfl rfl rfl rfl; first | assumption | apply updTenant_kept) | intro _ | split

theorem latchTenant_kept {s₀ s : State} (t : Nat) (h : Kept s₀ s) :
    Kept s₀ (latchTenant s t) := by
  unfold latchTenant
  try dsimp only
  with_reducible repeat' first | assumption | apply raiseEvt_kept | apply updTenant_kept | (refine Kept.record ?_ rfl rfl rfl rfl rfl rfl rfl rfl; first | assumption | apply raiseEvt_kept | apply updTenant_kept) | intro _ | apply Kept.ite | split

theorem forceTenant_kept {s₀ s : State} (t : Nat) (h : Kept s₀ s) :
    Kept s₀ (forceTenant s t) := by
  unfold forceTenant
  try dsimp only
  with_reducible repeat' first | assumption | apply updTenant_kept | (refine Kept.record ?_ rfl rfl rfl rfl rfl rfl rfl rfl; first | assumption | apply updTenant_kept) | intro _ | split

theorem capLoop_kept {s₀ : State} : ∀ (l : List Nat) (o : Option (Nat × Nat)) {s : State}, Kept s₀ s → Kept s₀ (capLoop s o l)
  | [], _, _, h => h
  | t :: r, o, s, h => by
    unfold capLoop
    dsimp only
    split
    · split <;> exact capLoop_kept r _ (updTenant_kept _ _ h)
    · exact capLoop_kept r _ (updTenant_kept _ _ h)

theorem c0Loop_kept {s₀ : State} : ∀ (l : List Nat) (o : Option (List Nat)) {s : State}, Kept s₀ s → Kept s₀ (c0Loop s o l)
  | [], _, _, h => h
  | t :: r, o, s, h => by
    unfold c0Loop
    dsimp only
    split
    · exact c0Loop_kept r _ (updTenant_kept _ _ h)
    · split
      · split <;> exact c0Loop_kept r _ (updTenant_kept _ _ h)
      · exact c0Loop_kept r _ (updTenant_kept _ _ h)

theorem publishTenant_kept {s₀ s : State} (old : Tbl Tenant) (t : Nat) (h : Kept s₀ s) :
    Kept s₀ (publishTenant old s t) := by
  unfold publishTenant
  try dsimp only
  with_reducible repeat' first | assumption | apply wr_kept | apply count_kept | apply raiseEvt_kept | intro _ | apply Kept.ite | split

theorem evaluateGuarantees_kept {s₀ s : State} (h : Kept s₀ s) :
    Kept s₀ (evaluateGuarantees s) := by
  unfold evaluateGuarantees
  try dsimp only
  with_reducible repeat' first | assumption | apply wr_kept | apply raiseEvt_kept | apply forceTenant_kept | apply capLoop_kept | apply c0Loop_kept | apply publishTenant_kept | apply foldl_kept | apply foldl_kept1 | intro _ | apply Kept.ite | split

theorem freeTenant_kept {s₀ s : State} (t : Nat) (h : Kept s₀ s) :
    Kept s₀ (freeTenant s t) := by
  unfold freeTenant
  try dsimp only
  with_reducible repeat' first | assumption | apply wr_kept | apply raiseEvt_kept | apply updTenant_kept | apply foldl_kept | apply foldl_kept1 | (refine Kept.record ?_ rfl rfl rfl rfl rfl rfl rfl rfl; first | assumption | apply wr_kept | apply raiseEvt_kept | apply updTenant_kept | apply foldl_kept | apply foldl_kept1) | intro _ | apply Kept.ite | split

theorem refillAll_kept {s₀ s : State} (h : Kept s₀ s) :
    Kept s₀ (refillAll s) := by
  unfold refillAll
  try dsimp only
  with_reducible repeat' first | assumption | (refine Kept.record ?_ rfl rfl rfl rfl rfl rfl rfl rfl; first | assumption) | intro _ | split

end Sys2Proof.Machine
end

