-- ==== Sys2Proof/Laws/KeptFabric.lean ====
section
/-! SUPPORT. The definitions of Machine/Fabric.lean keep what Kept says. -/
set_option linter.unusedTactic false
set_option linter.unreachableTactic false
namespace Sys2Proof.Machine

theorem ingress_kept1 {s₀ s : State} (f : Frame) (h : Kept s₀ s) :
    Kept s₀ (ingress s f).1 := by
  unfold ingress
  try dsimp only
  with_reducible repeat' first | assumption | apply count_kept | apply count64_kept | apply raiseErr_kept | (refine Kept.record ?_ rfl rfl rfl rfl rfl rfl rfl rfl; first | assumption | apply count_kept | apply count64_kept | apply raiseErr_kept) | intro _ | apply Kept.ite1 | split

theorem ingress_kept {s₀ s r : State} {x : Bool} {f : Frame} (e₁ : ingress s f = (r, x)) (h : Kept s₀ s) :
    Kept s₀ r := by
  have k := ingress_kept1 f h
  rwa [e₁] at k

theorem receive_kept {s₀ s : State} (f : Frame) (typ : Nat) (agent : State → State) (h_agent : ∀ y0, Kept s₀ y0 → Kept s₀ (agent y0)) (h : Kept s₀ s) :
    Kept s₀ (receive s f typ agent) := by
  unfold receive
  try dsimp only
  with_reducible repeat' first | assumption | refine ingress_kept ‹_› ?_ | apply ingress_kept1 | apply h_agent | intro _ | apply Kept.ite | split

theorem execReceivedFrameDropped_kept {s₀ s t : State} (f : Frame) (e : execReceivedFrameDropped f s = .next t) (h : Kept s₀ s) :
    Kept s₀ t := by
  unfold execReceivedFrameDropped at e
  injection e with e; subst e
  try dsimp only
  with_reducible repeat' first | assumption | refine ingress_kept ‹_› ?_ | apply ingress_kept1 | intro _ | apply Kept.ite | split

theorem portTrained_kept {s₀ s : State} (p : Nat) (n : Nat) (h : Kept s₀ s) :
    Kept s₀ (portTrained s p n) := by
  unfold portTrained
  try dsimp only
  with_reducible repeat' first | assumption | apply raiseEvt_kept | apply updPort_kept | (refine Kept.record ?_ rfl rfl rfl rfl rfl rfl rfl rfl; first | assumption | apply raiseEvt_kept | apply updPort_kept) | intro _ | apply Kept.ite | split

theorem execPortTrained_kept {s₀ s t : State} (p : Fin 4) (lanes : Nat) (e : execPortTrained p lanes s = .next t) (h : Kept s₀ s) :
    Kept s₀ t := by
  unfold execPortTrained at e
  injection e with e; subst e
  with_reducible repeat' first | assumption | apply portTrained_kept | intro _ | split

theorem portLinkLoss_kept {s₀ s : State} (p : Nat) (lane : Option (Fin 4)) (h : Kept s₀ s) :
    Kept s₀ (portLinkLoss s p lane) := by
  unfold portLinkLoss
  try dsimp only
  with_reducible repeat' first | assumption | apply updPort_kept | apply leaveUp_kept | apply raiseErr_kept | (refine Kept.record ?_ rfl rfl rfl rfl rfl rfl rfl rfl; first | assumption | apply updPort_kept | apply leaveUp_kept | apply raiseErr_kept) | intro _ | apply Kept.ite | split

theorem execPortLinkLoss_kept {s₀ s t : State} (p : Fin 4) (lane : Option (Fin 4)) (e : execPortLinkLoss p lane s = .next t) (h : Kept s₀ s) :
    Kept s₀ t := by
  unfold execPortLinkLoss at e
  injection e with e; subst e
  with_reducible repeat' first | assumption | apply portLinkLoss_kept | intro _ | split

theorem portRetrain_kept {s₀ s : State} (p : Nat) (h : Kept s₀ s) :
    Kept s₀ (portRetrain s p) := by
  unfold portRetrain
  try dsimp only
  with_reducible repeat' first | assumption | apply updPort_kept | (refine Kept.record ?_ rfl rfl rfl rfl rfl rfl rfl rfl; first | assumption | apply updPort_kept) | intro _ | apply Kept.ite | split

theorem execPortRetrainTimer_kept {s₀ s t : State} (p : Fin 4) (e : execPortRetrainTimer p s = .next t) (h : Kept s₀ s) :
    Kept s₀ t := by
  unfold execPortRetrainTimer at e
  injection e with e; subst e
  with_reducible repeat' first | assumption | apply portRetrain_kept | intro _ | split

theorem writeLaneEn_kept {s₀ s : State} (p : Nat) (v : BitVec 4) (h : Kept s₀ s) :
    Kept s₀ (writeLaneEn s p v) := by
  unfold writeLaneEn
  try dsimp only
  with_reducible repeat' first | assumption | apply wr_kept | apply updPort_kept | apply leaveUp_kept | (refine Kept.record ?_ rfl rfl rfl rfl rfl rfl rfl rfl; first | assumption | apply wr_kept | apply updPort_kept | apply leaveUp_kept) | intro _ | apply Kept.ite | split

theorem execLaneEn_kept {s₀ s t : State} (p : Fin 4) (value : BitVec 4) (e : execLaneEn p value s = .next t) (h : Kept s₀ s) :
    Kept s₀ t := by
  unfold execLaneEn at e
  injection e with e; subst e
  with_reducible repeat' first | assumption | apply writeLaneEn_kept | intro _ | split

theorem execHelloTimer_kept {s₀ s t : State} (p : Fin 4) (e : execHelloTimer p s = .next t) (h : Kept s₀ s) :
    Kept s₀ t := by
  unfold execHelloTimer at e
  injection e with e; subst e
  with_reducible repeat' first | assumption | apply pushEgress_kept | intro _ | apply Kept.ite | split

theorem hello_kept {s₀ s : State} (f : Frame) (h : Kept s₀ s) :
    Kept s₀ (hello s f) := by
  unfold hello
  try dsimp only
  with_reducible repeat' first | assumption | apply raiseEvt_kept | apply updPort_kept | apply pushEgress_kept | (refine Kept.record ?_ rfl rfl rfl rfl rfl rfl rfl rfl; first | assumption | apply raiseEvt_kept | apply updPort_kept | apply pushEgress_kept) | intro _ | apply Kept.ite | split

theorem execHello_kept {s₀ s t : State} (f : Frame) (e : execHello f s = .next t) (h : Kept s₀ s) :
    Kept s₀ t := by
  unfold execHello at e
  injection e with e; subst e
  try dsimp only
  with_reducible repeat' first | assumption | apply receive_kept | apply hello_kept | intro _ | split

theorem releaseHeld_kept {s₀ s : State} (p : Nat) (q : Nat) (h : Kept s₀ s) :
    Kept s₀ (releaseHeld s p q) := by
  unfold releaseHeld
  try dsimp only
  with_reducible repeat' first | assumption | apply updPort_kept | (refine Kept.record ?_ rfl rfl rfl rfl rfl rfl rfl rfl; first | assumption | apply updPort_kept) | intro _ | split

theorem frameTransmitted_kept {s₀ s : State} (p : Nat) (q : Nat) (h : Kept s₀ s) :
    Kept s₀ (frameTransmitted s p q) := by
  unfold frameTransmitted
  try dsimp only
  with_reducible repeat' first | assumption | apply updPort_kept | apply startFrame_kept | apply transmit_kept | apply releaseHeld_kept | (refine Kept.record ?_ rfl rfl rfl rfl rfl rfl rfl rfl; first | assumption | apply updPort_kept | apply startFrame_kept | apply transmit_kept | apply releaseHeld_kept) | intro _ | split

theorem execFrameTransmitted_kept {s₀ s t : State} (p : Fin 4) (queue : Fin 5) (e : execFrameTransmitted p queue s = .next t) (h : Kept s₀ s) :
    Kept s₀ t := by
  unfold execFrameTransmitted at e
  injection e with e; subst e
  with_reducible repeat' first | assumption | apply frameTransmitted_kept | intro _ | split

theorem startWrite_kept {s₀ s : State} (p : Nat) (w : TableWrite) (h : Kept s₀ s) :
    Kept s₀ (startWrite s p w) := by
  unfold startWrite
  try dsimp only
  with_reducible repeat' first | assumption | apply updPort_kept | (refine Kept.record ?_ rfl rfl rfl rfl rfl rfl rfl rfl; first | assumption | apply updPort_kept) | intro _ | apply Kept.ite | split

theorem routeWrite_kept {s₀ s : State} (p : Nat) (h : Kept s₀ s) :
    Kept s₀ (routeWrite s p) := by
  unfold routeWrite
  try dsimp only
  with_reducible repeat' first | assumption | apply startWrite_kept | intro _ | apply Kept.ite | split

theorem execRouteWrite_kept {s₀ s t : State} (p : Fin 4) (e : execRouteWrite p s = .next t) (h : Kept s₀ s) :
    Kept s₀ t := by
  unfold execRouteWrite at e
  injection e with e; subst e
  with_reducible repeat' first | assumption | apply routeWrite_kept | intro _ | split

theorem classWrite_kept {s₀ s : State} (p : Nat) (h : Kept s₀ s) :
    Kept s₀ (classWrite s p) := by
  unfold classWrite
  try dsimp only
  with_reducible repeat' first | assumption | apply startWrite_kept | intro _ | split

theorem execClassWrite_kept {s₀ s t : State} (p : Fin 4) (e : execClassWrite p s = .next t) (h : Kept s₀ s) :
    Kept s₀ t := by
  unfold execClassWrite at e
  injection e with e; subst e
  with_reducible repeat' first | assumption | apply classWrite_kept | intro _ | split

theorem tableWriteComplete_kept {s₀ s : State} (p : Nat) (h : Kept s₀ s) :
    Kept s₀ (tableWriteComplete s p) := by
  unfold tableWriteComplete
  try dsimp only
  with_reducible repeat' first | assumption | apply updPort_kept | apply startWrite_kept | (refine Kept.record ?_ rfl rfl rfl rfl rfl rfl rfl rfl; first | assumption | apply updPort_kept | apply startWrite_kept) | intro _ | split

theorem stepMark_kept {s₀ s : State} (f : Frame) (h : Kept s₀ s) :
    Kept s₀ (stepMark s f) := by
  unfold stepMark
  try dsimp only
  with_reducible repeat' first | assumption | apply wr64_kept | apply count_kept | (refine Kept.record ?_ rfl rfl rfl rfl rfl rfl rfl rfl; first | assumption | apply wr64_kept | apply count_kept) | intro _ | apply Kept.ite | split

theorem execStepMark_kept {s₀ s t : State} (f : Frame) (e : execStepMark f s = .next t) (h : Kept s₀ s) :
    Kept s₀ t := by
  unfold execStepMark at e
  injection e with e; subst e
  try dsimp only
  with_reducible repeat' first | assumption | apply receive_kept | apply stepMark_kept | intro _ | apply Kept.ite | split

theorem writeNodeId_kept {s₀ s : State} (n : BitVec 15) (h : Kept s₀ s) :
    Kept s₀ (writeNodeId s n) := by
  unfold writeNodeId
  with_reducible repeat' first | assumption | apply wr_kept | apply raiseEvt_kept | intro _ | apply Kept.ite | split

theorem execNodeId_kept {s₀ s t : State} (node : BitVec 15) (e : execNodeId node s = .next t) (h : Kept s₀ s) :
    Kept s₀ t := by
  unfold execNodeId at e
  injection e with e; subst e
  with_reducible repeat' first | assumption | apply writeNodeId_kept | intro _ | split

theorem hallLevelStep_kept {s₀ s : State} (high : Word) (h : Kept s₀ s) :
    Kept s₀ (hallLevelStep s high) := by
  unfold hallLevelStep
  try dsimp only
  with_reducible repeat' first | assumption | apply wr_kept | apply raiseEvt_kept | (refine Kept.record ?_ rfl rfl rfl rfl rfl rfl rfl rfl; first | assumption | apply wr_kept | apply raiseEvt_kept) | intro _ | apply Kept.ite | split

theorem execHallLevelStep_kept {s₀ s t : State} (high : Word) (e : execHallLevelStep high s = .next t) (h : Kept s₀ s) :
    Kept s₀ t := by
  unfold execHallLevelStep at e
  injection e with e; subst e
  with_reducible repeat' first | assumption | apply hallLevelStep_kept | intro _ | split

theorem openLevel_kept {s₀ s : State} (h : Kept s₀ s) :
    Kept s₀ (openLevel s) := by
  unfold openLevel
  with_reducible repeat' first | assumption | apply wr_kept | apply raiseEvt_kept | (refine Kept.record ?_ rfl rfl rfl rfl rfl rfl rfl rfl; first | assumption | apply wr_kept | apply raiseEvt_kept) | intro _ | apply Kept.ite | split

theorem heartbeat_kept {s₀ s : State} (h : Kept s₀ s) :
    Kept s₀ (heartbeat s) := by
  unfold heartbeat
  try dsimp only
  with_reducible repeat' first | assumption | apply pushEgress_kept | apply foldl_kept | apply foldl_kept1 | intro _ | apply Kept.ite | split

theorem sendReport_kept {s₀ s : State} (r : Report) (h : Kept s₀ s) :
    Kept s₀ (sendReport s r) := by
  unfold sendReport
  with_reducible repeat' first | assumption | apply sendFrame_kept | intro _ | split

theorem advanceReports_kept {s₀ : State} : ∀ (l : List Report) (n : Nat) (d : List Report) {s : State}, Kept s₀ s → Kept s₀ (advanceReports s l n d)
  | [], _, _, _, h => Kept.record h rfl rfl rfl rfl rfl rfl rfl rfl
  | r :: l, n, d, s, h => by
    unfold advanceReports
    split
    · exact advanceReports_kept l _ _ h
    · split
      · exact advanceReports_kept l _ _ (sendReport_kept _ h)
      · exact advanceReports_kept l _ _ h

theorem reportLoss_kept {s₀ s : State} (l : Lost) (h : Kept s₀ s) :
    Kept s₀ (reportLoss s l) := by
  unfold reportLoss
  try dsimp only
  with_reducible repeat' first | assumption | apply updFlash_kept | apply advanceReports_kept | (refine Kept.record ?_ rfl rfl rfl rfl rfl rfl rfl rfl; first | assumption | apply updFlash_kept | apply advanceReports_kept) | (refine Kept.record ?_ rfl rfl rfl rfl rfl rfl rfl (by simp [shapeOf]); first | assumption | apply updFlash_kept | apply advanceReports_kept) | intro _ | split

theorem dataLossAck_kept {s₀ s : State} (f : Frame) (h : Kept s₀ s) :
    Kept s₀ (dataLossAck s f) := by
  unfold dataLossAck
  try dsimp only
  with_reducible repeat' first | assumption | apply updFlash_kept | apply advanceReports_kept | (refine Kept.record ?_ rfl rfl rfl rfl rfl rfl rfl rfl; first | assumption | apply updFlash_kept | apply advanceReports_kept) | (refine Kept.record ?_ rfl rfl rfl rfl rfl rfl rfl (by simp [shapeOf]); first | assumption | apply updFlash_kept | apply advanceReports_kept) | intro _ | apply Kept.ite | split

theorem execDataLossAck_kept {s₀ s t : State} (f : Frame) (e : execDataLossAck f s = .next t) (h : Kept s₀ s) :
    Kept s₀ t := by
  unfold execDataLossAck at e
  injection e with e; subst e
  try dsimp only
  with_reducible repeat' first | assumption | apply receive_kept | apply dataLossAck_kept | intro _ | split

theorem resendReport_kept {s₀ s : State} (r : Report) (h : Kept s₀ s) :
    Kept s₀ (resendReport s r) := by
  unfold resendReport
  try dsimp only
  with_reducible repeat' first | assumption | apply updFlash_kept | apply sendReport_kept | (refine Kept.record ?_ rfl rfl rfl rfl rfl rfl rfl rfl; first | assumption | apply updFlash_kept | apply sendReport_kept) | (refine Kept.record ?_ rfl rfl rfl rfl rfl rfl rfl (by simp [shapeOf]); first | assumption | apply updFlash_kept | apply sendReport_kept) | intro _ | apply Kept.ite | split

theorem execDataLossResend_kept {s₀ s t : State} (e : execDataLossResend s = .next t) (h : Kept s₀ s) :
    Kept s₀ t := by
  unfold execDataLossResend at e
  injection e with e; subst e
  with_reducible repeat' first | assumption | apply resendReport_kept | apply foldl_kept | apply foldl_kept1 | intro _ | split

end Sys2Proof.Machine
end

