-- ==== Sys2Proof/Laws/KeptInterrupts.lean ====
section
/-! SUPPORT. The definitions of Machine/Interrupts.lean keep what Kept says. -/
set_option linter.unusedTactic false
set_option linter.unreachableTactic false
namespace Sys2Proof.Machine

theorem setIntc_kept {s₀ s : State} (x : Intc) (hc : x.cores.length = s.chip.intc.cores.length) (hi : x.mboxIn.length = s.chip.intc.mboxIn.length)
    (ho : x.mboxOut.length = s.chip.intc.mboxOut.length) (h : Kept s₀ s) : Kept s₀ (setIntc s x) :=
  h.withChip rfl rfl (by simp [shapeOf, hc, hi, ho])

theorem putSrc_kept {s₀ s : State} (n : Nat) (x : Src) (h : Kept s₀ s) : Kept s₀ (putSrc s n x) := setIntc_kept _ rfl rfl rfl h

theorem updCore_kept {s₀ s : State} (c : Nat) (f : CoreSt → CoreSt) (h : Kept s₀ s) : Kept s₀ (updCore s c f) :=
  setIntc_kept _ (updAt_length _ _ _) rfl rfl h

theorem rebindAll_kept {s₀ s : State} (h : Kept s₀ s) : Kept s₀ (rebindAll s) := setIntc_kept _ rfl rfl rfl h

theorem takeSource_kept {s₀ s : State} (c : Nat) (n : Nat) (h : Kept s₀ s) :
    Kept s₀ (takeSource s c n) := by
  unfold takeSource
  try dsimp only
  with_reducible repeat' first | assumption | apply putSrc_kept | apply updCore_kept | (refine Kept.record ?_ rfl rfl rfl rfl rfl rfl rfl rfl; first | assumption | apply putSrc_kept | apply updCore_kept) | intro _ | split

theorem enterCore_kept {s₀ s : State} (c : Nat) (h : Kept s₀ s) :
    Kept s₀ (enterCore s c) := by
  unfold enterCore
  with_reducible repeat' first | assumption | apply count_kept | apply raiseEvt_kept | apply putSrc_kept | apply takeSource_kept | (refine Kept.record ?_ rfl rfl rfl rfl rfl rfl rfl rfl; first | assumption | apply count_kept | apply raiseEvt_kept | apply putSrc_kept | apply takeSource_kept) | intro _ | apply Kept.ite | split

theorem settle_kept {s₀ s : State} (h : Kept s₀ s) :
    Kept s₀ (settle s) := by
  unfold settle
  with_reducible repeat' first | assumption | apply rebindAll_kept | apply enterCore_kept | apply foldl_kept | apply foldl_kept1 | intro _ | split

theorem retarget_kept {s₀ s : State} (c : Nat) (h : Kept s₀ s) :
    Kept s₀ (retarget s c) := by
  unfold retarget
  try dsimp only
  with_reducible repeat' first | assumption | apply count_kept | apply putSrc_kept | apply updCore_kept | apply takeSource_kept | (refine Kept.record ?_ rfl rfl rfl rfl rfl rfl rfl rfl; first | assumption | apply count_kept | apply putSrc_kept | apply updCore_kept | apply takeSource_kept) | intro _ | apply Kept.ite | split

theorem handoff_kept {s₀ s : State} (c : Nat) (h : Kept s₀ s) :
    Kept s₀ (handoff s c) := by
  unfold handoff
  with_reducible repeat' first | assumption | apply count_kept | apply takeSource_kept | (refine Kept.record ?_ rfl rfl rfl rfl rfl rfl rfl rfl; first | assumption | apply count_kept | apply takeSource_kept) | intro _ | apply Kept.ite | split

theorem assertSource_kept {s₀ s : State} (n : Nat) (phase : CorePhase) (h : Kept s₀ s) :
    Kept s₀ (assertSource s n phase) := by
  unfold assertSource
  try dsimp only
  with_reducible repeat' first | assumption | apply putSrc_kept | apply rebindAll_kept | apply settle_kept | apply retarget_kept | apply handoff_kept | (refine Kept.record ?_ rfl rfl rfl rfl rfl rfl rfl rfl; first | assumption | apply putSrc_kept | apply rebindAll_kept | apply settle_kept | apply retarget_kept | apply handoff_kept) | intro _ | apply Kept.ite | split

theorem execInterruptAssert_kept {s₀ s t : State} (src : Fin 4096) (phase : CorePhase) (e : execInterruptAssert src phase s = .next t) (h : Kept s₀ s) :
    Kept s₀ t := by
  unfold execInterruptAssert at e
  injection e with e; subst e
  with_reducible repeat' first | assumption | apply assertSource_kept | intro _ | split

theorem handlerReturn_kept {s₀ s : State} (c : Nat) (h : Kept s₀ s) :
    Kept s₀ (handlerReturn s c) := by
  unfold handlerReturn
  try dsimp only
  with_reducible repeat' first | assumption | apply updCore_kept | apply rebindAll_kept | apply settle_kept | apply handoff_kept | (refine Kept.record ?_ rfl rfl rfl rfl rfl rfl rfl rfl; first | assumption | apply updCore_kept | apply rebindAll_kept | apply settle_kept | apply handoff_kept) | intro _ | split

theorem execHandlerReturn_kept {s₀ s t : State} (core : Fin 4) (e : execHandlerReturn core s = .next t) (h : Kept s₀ s) :
    Kept s₀ t := by
  unfold execHandlerReturn at e
  injection e with e; subst e
  with_reducible repeat' first | assumption | apply handlerReturn_kept | intro _ | split

theorem swTrigger_kept {s₀ s : State} (n : Nat) (h : Kept s₀ s) :
    Kept s₀ (swTrigger s n) := by
  unfold swTrigger
  with_reducible repeat' first | assumption | apply putSrc_kept | apply settle_kept | (refine Kept.record ?_ rfl rfl rfl rfl rfl rfl rfl rfl; first | assumption | apply putSrc_kept | apply settle_kept) | intro _ | apply Kept.ite | split

theorem execSwTrigger_kept {s₀ s t : State} (src : Fin 4096) (e : execSwTrigger src s = .next t) (h : Kept s₀ s) :
    Kept s₀ t := by
  unfold execSwTrigger at e
  injection e with e; subst e
  with_reducible repeat' first | assumption | apply swTrigger_kept | intro _ | split

theorem completeSource_kept {s₀ s : State} (c : Nat) (n : Nat) (h : Kept s₀ s) :
    Kept s₀ (completeSource s c n) := by
  unfold completeSource
  try dsimp only
  with_reducible repeat' first | assumption | apply raiseErr_kept | apply putSrc_kept | apply settle_kept | (refine Kept.record ?_ rfl rfl rfl rfl rfl rfl rfl rfl; first | assumption | apply raiseErr_kept | apply putSrc_kept | apply settle_kept) | intro _ | apply Kept.ite | split

theorem execComplete_kept {s₀ s t : State} (core : Fin 4) (src : Fin 4096) (e : execComplete core src s = .next t) (h : Kept s₀ s) :
    Kept s₀ t := by
  unfold execComplete at e
  injection e with e; subst e
  with_reducible repeat' first | assumption | apply completeSource_kept | intro _ | split

theorem setCoreEn_kept {s₀ s : State} (c : Nat) (e : Bool) (h : Kept s₀ s) :
    Kept s₀ (setCoreEn s c e) := by
  unfold setCoreEn
  try dsimp only
  with_reducible repeat' first | assumption | apply updCore_kept | apply settle_kept | (refine Kept.record ?_ rfl rfl rfl rfl rfl rfl rfl rfl; first | assumption | apply updCore_kept | apply settle_kept) | intro _ | split

theorem execCoreEn_kept {s₀ s t : State} (core : Fin 4) (enable : Bool) (e : execCoreEn core enable s = .next t) (h : Kept s₀ s) :
    Kept s₀ t := by
  unfold execCoreEn at e
  injection e with e; subst e
  with_reducible repeat' first | assumption | apply setCoreEn_kept | intro _ | split

theorem mcWdog_kept {s₀ s : State} (c : Nat) (h : Kept s₀ s) :
    Kept s₀ (mcWdog s c) := by
  unfold mcWdog
  try dsimp only
  with_reducible repeat' first | assumption | apply raiseErr_kept | apply setIntc_kept | apply updCore_kept | apply settle_kept | (refine Kept.record ?_ rfl rfl rfl rfl rfl rfl rfl rfl; first | assumption | apply raiseErr_kept | apply setIntc_kept | apply updCore_kept | apply settle_kept) | exact rfl | intro _ | split

theorem execMcWdog_kept {s₀ s t : State} (core : Fin 4) (e : execMcWdog core s = .next t) (h : Kept s₀ s) :
    Kept s₀ t := by
  unfold execMcWdog at e
  injection e with e; subst e
  with_reducible repeat' first | assumption | apply mcWdog_kept | intro _ | split

theorem writeSrcCfg_kept {s₀ s : State} (v : Word) (h : Kept s₀ s) :
    Kept s₀ (writeSrcCfg s v) := by
  unfold writeSrcCfg
  try dsimp only
  with_reducible repeat' first | assumption | apply putSrc_kept | apply settle_kept | (refine Kept.record ?_ rfl rfl rfl rfl rfl rfl rfl rfl; first | assumption | apply putSrc_kept | apply settle_kept) | intro _ | split

theorem setMboxIn_kept {s₀ s : State} (n : Nat) (q : List Quad) (h : Kept s₀ s) : Kept s₀ (setMboxIn s n q) :=
  setIntc_kept _ rfl (updAt_length _ _ _) rfl h

theorem setMboxOut_kept {s₀ s : State} (n : Nat) (q : List Quad) (h : Kept s₀ s) : Kept s₀ (setMboxOut s n q) :=
  setIntc_kept _ rfl rfl (updAt_length _ _ _) h

theorem setMboxBit_kept {s₀ s : State} (n : Nat) (bit : Nat) (h : Kept s₀ s) :
    Kept s₀ (setMboxBit s n bit) := by
  unfold setMboxBit
  with_reducible repeat' first | assumption | apply wr_kept | intro _ | split

theorem answerQ_kept {s₀ s : State} (v : Quad) (h : Kept s₀ s) :
    Kept s₀ (answerQ s v) := by
  unfold answerQ
  with_reducible repeat' first | assumption | (refine Kept.record ?_ rfl rfl rfl rfl rfl rfl rfl rfl; first | assumption) | intro _ | split

theorem mboxIn_kept {s₀ s : State} (n : Nat) (v : Quad) (h : Kept s₀ s) :
    Kept s₀ (mboxIn s n v) := by
  unfold mboxIn
  try dsimp only
  with_reducible repeat' first | assumption | apply count_kept | apply setMboxIn_kept | apply setMboxBit_kept | intro _ | apply Kept.ite | split

theorem execMboxIn_kept {s₀ s t : State} (n : Fin 4) (value : Quad) (e : execMboxIn n value s = .next t) (h : Kept s₀ s) :
    Kept s₀ t := by
  unfold execMboxIn at e
  injection e with e; subst e
  with_reducible repeat' first | assumption | apply mboxIn_kept | intro _ | split

theorem mboxInPop_kept {s₀ s : State} (n : Nat) (push : Bool) (h : Kept s₀ s) :
    Kept s₀ (mboxInPop s n push) := by
  unfold mboxInPop
  with_reducible repeat' first | assumption | apply setMboxIn_kept | apply setMboxBit_kept | apply answerQ_kept | (refine Kept.record ?_ rfl rfl rfl rfl rfl rfl rfl rfl; first | assumption | apply setMboxIn_kept | apply setMboxBit_kept | apply answerQ_kept) | intro _ | apply Kept.ite | split

theorem execMboxInPop_kept {s₀ s t : State} (n : PopAt 4) (e : execMboxInPop n s = .next t) (h : Kept s₀ s) :
    Kept s₀ t := by
  unfold execMboxInPop at e
  injection e with e; subst e
  with_reducible repeat' first | assumption | apply mboxInPop_kept | intro _ | split

theorem mboxOut_kept {s₀ s : State} (n : Nat) (v : Quad) (h : Kept s₀ s) :
    Kept s₀ (mboxOut s n v) := by
  unfold mboxOut
  try dsimp only
  with_reducible repeat' first | assumption | apply count_kept | apply sendMsix_kept | apply setMboxOut_kept | apply setMboxBit_kept | intro _ | apply Kept.ite | split

theorem execMboxOut_kept {s₀ s t : State} (n : Fin 4) (value : Quad) (e : execMboxOut n value s = .next t) (h : Kept s₀ s) :
    Kept s₀ t := by
  unfold execMboxOut at e
  injection e with e; subst e
  with_reducible repeat' first | assumption | apply mboxOut_kept | intro _ | split

theorem mboxOutPop_kept {s₀ s : State} (n : Nat) (push : Bool) (h : Kept s₀ s) :
    Kept s₀ (mboxOutPop s n push) := by
  unfold mboxOutPop
  with_reducible repeat' first | assumption | apply setMboxOut_kept | apply setMboxBit_kept | apply answerQ_kept | (refine Kept.record ?_ rfl rfl rfl rfl rfl rfl rfl rfl; first | assumption | apply setMboxOut_kept | apply setMboxBit_kept | apply answerQ_kept) | intro _ | apply Kept.ite | split

theorem execMboxOutPop_kept {s₀ s t : State} (n : PopAt 4) (e : execMboxOutPop n s = .next t) (h : Kept s₀ s) :
    Kept s₀ t := by
  unfold execMboxOutPop at e
  injection e with e; subst e
  with_reducible repeat' first | assumption | apply mboxOutPop_kept | intro _ | split

end Sys2Proof.Machine
end

