-- ==== Sys2Proof/Laws/KeptTrace.lean ====
section
/-! SUPPORT. The definitions of Machine/Trace.lean keep what Kept says. -/
set_option linter.unusedTactic false
set_option linter.unreachableTactic false
namespace Sys2Proof.Machine

theorem updTrace_kept {s₀ s : State} (u : Nat) (f : TraceUnit → TraceUnit) (h : Kept s₀ s) : Kept s₀ (updTrace s u f) :=
  h.withChip rfl rfl (by simp [shapeOf])

theorem addLoss_kept {s₀ s : State} (u : Nat) (reason : Nat) (n : Nat) (h : Kept s₀ s) :
    Kept s₀ (addLoss s u reason n) := by
  unfold addLoss
  try dsimp only
  with_reducible repeat' first | assumption | apply updTrace_kept | (refine Kept.record ?_ rfl rfl rfl rfl rfl rfl rfl rfl; first | assumption | apply updTrace_kept) | intro _ | apply Kept.ite | split

theorem emit_kept {s₀ s : State} (u : Nat) (typ : Nat) (payload : List Byte) (h : Kept s₀ s) :
    Kept s₀ (emit s u typ payload) := by
  unfold emit
  try dsimp only
  with_reducible repeat' first | assumption | apply wr_kept | apply count_kept | apply updTrace_kept | apply addLoss_kept | (refine Kept.record ?_ rfl rfl rfl rfl rfl rfl rfl rfl; first | assumption | apply wr_kept | apply count_kept | apply updTrace_kept | apply addLoss_kept) | intro _ | apply Kept.ite | split

theorem emitSync_kept {s₀ s : State} (u : Nat) (h : Kept s₀ s) :
    Kept s₀ (emitSync s u) := by
  unfold emitSync
  try dsimp only
  with_reducible repeat' first | assumption | apply updTrace_kept | apply emit_kept | (refine Kept.record ?_ rfl rfl rfl rfl rfl rfl rfl rfl; first | assumption | apply updTrace_kept | apply emit_kept) | intro _ | split

theorem emitStage_kept {s₀ s : State} (u : Nat) (chan : Nat) (admitStep : Nat) (stage : Nat) (tile : Nat) (sflags : Nat) (kind : Nat) (h : Kept s₀ s) :
    Kept s₀ (emitStage s u chan admitStep stage tile sflags kind) := by
  unfold emitStage
  with_reducible repeat' first | assumption | apply emit_kept | intro _ | apply Kept.ite | split

theorem emitLanding_kept {s₀ s : State} (u : Nat) (chan : Nat) (admitStep : Nat) (landing : Nat) (outcome : Nat) (h : Kept s₀ s) :
    Kept s₀ (emitLanding s u chan admitStep landing outcome) := by
  unfold emitLanding
  with_reducible repeat' first | assumption | apply emit_kept | intro _ | apply Kept.ite | split

theorem execSwPacket_kept {s₀ s t : State} (unit : Fin 51) (value : Quad) (e : execSwPacket unit value s = .next t) (h : Kept s₀ s) :
    Kept s₀ t := by
  unfold execSwPacket at e
  injection e with e; subst e
  with_reducible repeat' first | assumption | apply emit_kept | intro _ | split

theorem summaryPacket_kept {s₀ s : State} (u : Nat) (h : Kept s₀ s) :
    Kept s₀ (summaryPacket s u) := by
  unfold summaryPacket
  try dsimp only
  with_reducible repeat' first | assumption | refine freshWord_kept ‹_› ?_ | apply freshWord_kept1 | apply updTrace_kept | apply emit_kept | (refine Kept.record ?_ rfl rfl rfl rfl rfl rfl rfl rfl; first | assumption | refine freshWord_kept ‹_› ?_ | apply freshWord_kept1 | apply updTrace_kept | apply emit_kept) | intro _ | apply Kept.ite | split

theorem execSummary_kept {s₀ s t : State} (unit : Fin 51) (e : execSummary unit s = .next t) (h : Kept s₀ s) :
    Kept s₀ t := by
  unfold execSummary at e
  injection e with e; subst e
  with_reducible repeat' first | assumption | apply summaryPacket_kept | intro _ | split

theorem execTraceSync_kept {s₀ s t : State} (unit : Fin 51) (e : execTraceSync unit s = .next t) (h : Kept s₀ s) :
    Kept s₀ t := by
  unfold execTraceSync at e
  injection e with e; subst e
  with_reducible repeat' first | assumption | apply emitSync_kept | intro _ | apply Kept.ite | split

theorem bufWrite_kept {s₀ s : State} (bs : List Byte) (h : Kept s₀ s) :
    Kept s₀ (bufWrite s bs) := by
  unfold bufWrite
  try dsimp only
  with_reducible repeat' first | assumption | apply wr64_kept | apply hostWrite_kept | intro _ | split

theorem writeLoss_kept {s₀ s : State} (u : Nat) (reason : Nat) (h : Kept s₀ s) :
    Kept s₀ (writeLoss s u reason) := by
  unfold writeLoss
  try dsimp only
  with_reducible repeat' first | assumption | apply count_kept | apply updTrace_kept | apply bufWrite_kept | (refine Kept.record ?_ rfl rfl rfl rfl rfl rfl rfl rfl; first | assumption | apply count_kept | apply updTrace_kept | apply bufWrite_kept) | intro _ | apply Kept.ite | split

theorem writeLosses_kept {s₀ s : State} (h : Kept s₀ s) :
    Kept s₀ (writeLosses s) := by
  unfold writeLosses
  try dsimp only
  with_reducible repeat' first | assumption | apply writeLoss_kept | apply foldl_kept | apply foldl_kept1 | intro _ | split

theorem popEntry_kept {s₀ s : State} (u : Nat) (head : Bool) (bs : List Byte) (h : Kept s₀ s) :
    Kept s₀ (popEntry s u head bs) := by
  unfold popEntry
  try dsimp only
  with_reducible repeat' first | assumption | apply count_kept | apply updTrace_kept | apply addLoss_kept | apply bufWrite_kept | (refine Kept.record ?_ rfl rfl rfl rfl rfl rfl rfl rfl; first | assumption | apply count_kept | apply updTrace_kept | apply addLoss_kept | apply bufWrite_kept) | intro _ | apply Kept.ite | split

theorem mergerPop_kept {s₀ s : State} (u : Nat) (push : Bool) (h : Kept s₀ s) :
    Kept s₀ (mergerPop s u push) := by
  unfold mergerPop
  with_reducible repeat' first | assumption | apply wr_kept | apply writeLosses_kept | apply popEntry_kept | (refine Kept.record ?_ rfl rfl rfl rfl rfl rfl rfl rfl; first | assumption | apply wr_kept | apply writeLosses_kept | apply popEntry_kept) | intro _ | apply Kept.ite | split

theorem execTraceMergerPop_kept {s₀ s t : State} (unit : PopAt 51) (e : execTraceMergerPop unit s = .next t) (h : Kept s₀ s) :
    Kept s₀ t := by
  unfold execTraceMergerPop at e
  injection e with e; subst e
  with_reducible repeat' first | assumption | apply mergerPop_kept | intro _ | split

theorem drainUnit_kept {s₀ : State} (u : Nat) : ∀ (n : Nat) {s : State}, Kept s₀ s → Kept s₀ (drainUnit s u n)
  | 0, _, h => h
  | n + 1, s, h => by
    unfold drainUnit
    split
    · exact h
    · exact drainUnit_kept u n (mergerPop_kept _ _ h)

end Sys2Proof.Machine
end

