-- ==== Sys2Proof/Laws/KeptFallow.lean ====
section
/-! SUPPORT. The definitions of Machine/Fallow.lean keep what Kept says. -/
set_option linter.unusedTactic false
set_option linter.unreachableTactic false
namespace Sys2Proof.Machine

theorem updGallery_kept {s₀ s : State} (g : Nat) (f : Gallery → Gallery) (h : Kept s₀ s) : Kept s₀ (updGallery s g f) :=
  h.withChip rfl rfl (by simp [shapeOf])

theorem startRelays_kept {s₀ s : State} (h : Kept s₀ s) :
    Kept s₀ (startRelays s) := by
  unfold startRelays
  try dsimp only
  with_reducible repeat' first | assumption | apply countBy_kept | (refine Kept.record ?_ rfl rfl rfl rfl rfl rfl rfl rfl; first | assumption | apply countBy_kept) | intro _ | split

theorem removeGallery_kept {s₀ s : State} (g : Nat) (h : Kept s₀ s) :
    Kept s₀ (removeGallery s g) := by
  unfold removeGallery
  try dsimp only
  with_reducible repeat' first | assumption | apply updGallery_kept | apply startRelays_kept | (refine Kept.record ?_ rfl rfl rfl rfl rfl rfl rfl rfl; first | assumption | apply updGallery_kept | apply startRelays_kept) | intro _ | apply Kept.ite | split

theorem takeGallery_kept {s₀ s : State} (g : Nat) (h : Kept s₀ s) :
    Kept s₀ (takeGallery s g) := by
  unfold takeGallery
  try dsimp only
  with_reducible repeat' first | assumption | apply removeGallery_kept | (refine Kept.record ?_ rfl rfl rfl rfl rfl rfl rfl rfl; first | assumption | apply removeGallery_kept) | intro _ | split

theorem dropLine_kept {s₀ s : State} (d : Dirty) (h : Kept s₀ s) :
    Kept s₀ (dropLine s d) := by
  unfold dropLine
  try dsimp only
  with_reducible repeat' first | assumption | (refine Kept.record ?_ rfl rfl rfl rfl rfl rfl rfl rfl; first | assumption) | intro _ | split

theorem writeLines_kept {s₀ s : State} (g : Nat) (which : Dirty → Bool) (h : Kept s₀ s) :
    Kept s₀ (writeLines s g which) := by
  unfold writeLines
  try dsimp only
  with_reducible repeat' first | assumption | apply countBy_kept | refine freshWord_kept ‹_› ?_ | apply freshWord_kept1 | apply updGallery_kept | (refine Kept.record ?_ rfl rfl rfl rfl rfl rfl rfl rfl; first | assumption | apply countBy_kept | refine freshWord_kept ‹_› ?_ | apply freshWord_kept1 | apply updGallery_kept) | intro _ | apply Kept.ite | split

theorem dropLines_kept {s₀ s : State} (g : Nat) (which : Dirty → Bool) (h : Kept s₀ s) :
    Kept s₀ (dropLines s g which) := by
  unfold dropLines
  try dsimp only
  with_reducible repeat' first | assumption | apply updGallery_kept | apply dropLine_kept | apply foldl_kept | apply foldl_kept1 | (refine Kept.record ?_ rfl rfl rfl rfl rfl rfl rfl rfl; first | assumption | apply updGallery_kept | apply dropLine_kept | apply foldl_kept | apply foldl_kept1) | intro _ | split

theorem invalRange_kept {s₀ s : State} (r : Nat × Nat) (h : Kept s₀ s) :
    Kept s₀ (invalRange s r) := by
  unfold invalRange
  try dsimp only
  with_reducible repeat' first | assumption | apply dropLines_kept | apply foldl_kept | apply foldl_kept1 | intro _ | split

theorem startFlush_kept {s₀ s : State} (g : Nat) (op : Nat) (bcast : Bool) (h : Kept s₀ s) :
    Kept s₀ (startFlush s g op bcast) := by
  unfold startFlush
  try dsimp only
  with_reducible repeat' first | assumption | apply wr_kept | apply updGallery_kept | (refine Kept.record ?_ rfl rfl rfl rfl rfl rfl rfl rfl; first | assumption | apply wr_kept | apply updGallery_kept) | intro _ | apply Kept.ite | split

theorem execFlushWriteback_kept {s₀ s t : State} (g : Fin 50) (bcast : Bool) (e : execFlushWriteback g bcast s = .next t) (h : Kept s₀ s) :
    Kept s₀ t := by
  unfold execFlushWriteback at e
  injection e with e; subst e
  with_reducible repeat' first | assumption | apply startFlush_kept | intro _ | split

theorem execFlushWbInval_kept {s₀ s t : State} (g : Fin 50) (bcast : Bool) (e : execFlushWbInval g bcast s = .next t) (h : Kept s₀ s) :
    Kept s₀ t := by
  unfold execFlushWbInval at e
  injection e with e; subst e
  with_reducible repeat' first | assumption | apply startFlush_kept | intro _ | split

theorem execFlushInval_kept {s₀ s t : State} (g : Fin 50) (bcast : Bool) (e : execFlushInval g bcast s = .next t) (h : Kept s₀ s) :
    Kept s₀ t := by
  unfold execFlushInval at e
  injection e with e; subst e
  with_reducible repeat' first | assumption | apply startFlush_kept | intro _ | split

theorem flushShareDone_kept {s₀ s : State} (g : Nat) (p : Nat) (h : Kept s₀ s) :
    Kept s₀ (flushShareDone g s p) := by
  unfold flushShareDone
  try dsimp only
  with_reducible repeat' first | assumption | apply wr_kept | apply updGallery_kept | apply writeLines_kept | apply dropLines_kept | (refine Kept.record ?_ rfl rfl rfl rfl rfl rfl rfl rfl; first | assumption | apply wr_kept | apply updGallery_kept | apply writeLines_kept | apply dropLines_kept) | intro _ | apply Kept.ite | split

theorem execFlushComplete_kept {s₀ s t : State} (g : Fin 50) (e : execFlushComplete g s = .next t) (h : Kept s₀ s) :
    Kept s₀ t := by
  unfold execFlushComplete at e
  injection e with e; subst e
  with_reducible repeat' first | assumption | apply flushShareDone_kept | apply foldl_kept | apply foldl_kept1 | intro _ | split

theorem dozeTile_kept {s₀ s : State} (t : Nat) (h : Kept s₀ s) :
    Kept s₀ (dozeTile s t) := by
  unfold dozeTile
  try dsimp only
  with_reducible repeat' first | assumption | apply count_kept | apply updTrace_kept | apply updGallery_kept | (refine Kept.record ?_ rfl rfl rfl rfl rfl rfl rfl rfl; first | assumption | apply count_kept | apply updTrace_kept | apply updGallery_kept) | intro _ | apply Kept.ite | split

theorem execDoze_kept {s₀ s t : State} (tile : Fin 800) (e : execDoze tile s = .next t) (h : Kept s₀ s) :
    Kept s₀ t := by
  unfold execDoze at e
  injection e with e; subst e
  with_reducible repeat' first | assumption | apply dozeTile_kept | intro _ | split

theorem pushEnter_kept {s₀ s : State} (g : Nat) (h : Kept s₀ s) :
    Kept s₀ (pushEnter s g) := by
  unfold pushEnter
  try dsimp only
  with_reducible repeat' first | assumption | apply emit_kept | apply updGallery_kept | apply writeLines_kept | (refine Kept.record ?_ rfl rfl rfl rfl rfl rfl rfl rfl; first | assumption | apply emit_kept | apply updGallery_kept | apply writeLines_kept) | intro _ | apply Kept.ite | split

theorem fallowRequest_kept {s₀ s : State} (g : Nat) (off : Bool) (h : Kept s₀ s) :
    Kept s₀ (fallowRequest s g off) := by
  unfold fallowRequest
  try dsimp only
  with_reducible repeat' first | assumption | apply wr_kept | apply updGallery_kept | (refine Kept.record ?_ rfl rfl rfl rfl rfl rfl rfl rfl; first | assumption | apply wr_kept | apply updGallery_kept) | intro _ | apply Kept.ite | split

theorem execFallowRequest_kept {s₀ s t : State} (g : Fin 50) (off : Bool) (e : execFallowRequest g off s = .next t) (h : Kept s₀ s) :
    Kept s₀ t := by
  unfold execFallowRequest at e
  injection e with e; subst e
  with_reducible repeat' first | assumption | apply fallowRequest_kept | intro _ | split

theorem gate_kept {s₀ s : State} (g : Nat) (h : Kept s₀ s) :
    Kept s₀ (gate s g) := by
  unfold gate
  try dsimp only
  with_reducible repeat' first | assumption | apply wrf_kept | apply count_kept | apply raiseEvt_kept | apply updGallery_kept | (refine Kept.record ?_ rfl rfl rfl rfl rfl rfl rfl rfl; first | assumption | apply wrf_kept | apply count_kept | apply raiseEvt_kept | apply updGallery_kept) | intro _ | apply Kept.ite | split

theorem dropFifo_kept {s₀ s : State} (g : Nat) (h : Kept s₀ s) :
    Kept s₀ (dropFifo s g) := by
  unfold dropFifo
  try dsimp only
  with_reducible repeat' first | assumption | apply countBy_kept | apply updTrace_kept | apply addLoss_kept | (refine Kept.record ?_ rfl rfl rfl rfl rfl rfl rfl rfl; first | assumption | apply countBy_kept | apply updTrace_kept | apply addLoss_kept) | intro _ | split

theorem fallowGate_kept {s₀ s : State} (g : Nat) (h : Kept s₀ s) :
    Kept s₀ (fallowGate s g) := by
  unfold fallowGate
  try dsimp only
  with_reducible repeat' first | assumption | apply count_kept | apply raiseEvt_kept | apply drainUnit_kept | apply updGallery_kept | apply pushEnter_kept | apply gate_kept | apply dropFifo_kept | (refine Kept.record ?_ rfl rfl rfl rfl rfl rfl rfl rfl; first | assumption | apply count_kept | apply raiseEvt_kept | apply drainUnit_kept | apply updGallery_kept | apply pushEnter_kept | apply gate_kept | apply dropFifo_kept) | intro _ | apply Kept.ite | split

theorem execFallowGate_kept {s₀ s t : State} (g : Fin 50) (e : execFallowGate g s = .next t) (h : Kept s₀ s) :
    Kept s₀ t := by
  unfold execFallowGate at e
  injection e with e; subst e
  with_reducible repeat' first | assumption | apply fallowGate_kept | intro _ | split

theorem forceFallow_kept {s₀ s : State} (g : Nat) (h : Kept s₀ s) :
    Kept s₀ (forceFallow s g) := by
  unfold forceFallow
  try dsimp only
  with_reducible repeat' first | assumption | apply count_kept | apply raiseEvt_kept | apply updGallery_kept | apply takeGallery_kept | apply fallowGate_kept | (refine Kept.record ?_ rfl rfl rfl rfl rfl rfl rfl rfl; first | assumption | apply count_kept | apply raiseEvt_kept | apply updGallery_kept | apply takeGallery_kept | apply fallowGate_kept) | intro _ | apply Kept.ite | split

theorem wakeGallery_kept {s₀ s : State} (g : Nat) (h : Kept s₀ s) :
    Kept s₀ (wakeGallery s g) := by
  unfold wakeGallery
  try dsimp only
  with_reducible repeat' first | assumption | apply wrf_kept | apply updGallery_kept | (refine Kept.record ?_ rfl rfl rfl rfl rfl rfl rfl rfl; first | assumption | apply wrf_kept | apply updGallery_kept) | intro _ | apply Kept.ite | split

theorem fallowWake_kept {s₀ s : State} (g : Nat) (h : Kept s₀ s) :
    Kept s₀ (fallowWake s g) := by
  unfold fallowWake
  try dsimp only
  with_reducible repeat' first | assumption | apply wr_kept | apply updGallery_kept | apply wakeGallery_kept | (refine Kept.record ?_ rfl rfl rfl rfl rfl rfl rfl rfl; first | assumption | apply wr_kept | apply updGallery_kept | apply wakeGallery_kept) | intro _ | apply Kept.ite | split

theorem execFallowWake_kept {s₀ s t : State} (g : Fin 50) (e : execFallowWake g s = .next t) (h : Kept s₀ s) :
    Kept s₀ t := by
  unfold execFallowWake at e
  injection e with e; subst e
  with_reducible repeat' first | assumption | apply fallowWake_kept | intro _ | split

theorem thermalRelease_kept {s₀ s : State} (g : Nat) (h : Kept s₀ s) :
    Kept s₀ (thermalRelease s g) := by
  unfold thermalRelease
  try dsimp only
  with_reducible repeat' first | assumption | apply updGallery_kept | apply wakeGallery_kept | (refine Kept.record ?_ rfl rfl rfl rfl rfl rfl rfl rfl; first | assumption | apply updGallery_kept | apply wakeGallery_kept) | intro _ | apply Kept.ite | split

theorem exitPackets_kept {s₀ s : State} (g : Nat) (kept : Nat) (mode : Nat) (h : Kept s₀ s) :
    Kept s₀ (exitPackets s g kept mode) := by
  unfold exitPackets
  try dsimp only
  with_reducible repeat' first | assumption | apply raiseEvt_kept | apply emit_kept | apply emitSync_kept | apply updGallery_kept | (refine Kept.record ?_ rfl rfl rfl rfl rfl rfl rfl rfl; first | assumption | apply raiseEvt_kept | apply emit_kept | apply emitSync_kept | apply updGallery_kept) | intro _ | split

theorem resetTilePages_kept {s₀ s : State} (g : Nat) (h : Kept s₀ s) : Kept s₀ (resetTilePages s g) := h.withRegs (RegFile.filter_wf _)

theorem fallowExit_kept {s₀ s : State} (g : Nat) (h : Kept s₀ s) :
    Kept s₀ (fallowExit s g) := by
  unfold fallowExit
  with_reducible repeat' first | assumption | apply exitPackets_kept | apply resetTilePages_kept | intro _ | apply Kept.ite | split

theorem execFallowExit_kept {s₀ s t : State} (g : Fin 50) (e : execFallowExit g s = .next t) (h : Kept s₀ s) :
    Kept s₀ t := by
  unfold execFallowExit at e
  injection e with e; subst e
  with_reducible repeat' first | assumption | apply fallowExit_kept | intro _ | split

theorem fallowAbort_kept {s₀ s : State} (g : Nat) (h : Kept s₀ s) :
    Kept s₀ (fallowAbort s g) := by
  unfold fallowAbort
  try dsimp only
  with_reducible repeat' first | assumption | apply wr_kept | apply wrf_kept | apply updGallery_kept | apply exitPackets_kept | (refine Kept.record ?_ rfl rfl rfl rfl rfl rfl rfl rfl; first | assumption | apply wr_kept | apply wrf_kept | apply updGallery_kept | apply exitPackets_kept) | intro _ | apply Kept.ite | split

theorem execFallowAbort_kept {s₀ s t : State} (g : Fin 50) (e : execFallowAbort g s = .next t) (h : Kept s₀ s) :
    Kept s₀ t := by
  unfold execFallowAbort at e
  injection e with e; subst e
  with_reducible repeat' first | assumption | apply fallowAbort_kept | intro _ | split

theorem writeFallowReq_kept {s₀ s : State} (g : Nat) (mode : Nat) (h : Kept s₀ s) :
    Kept s₀ (writeFallowReq s g mode) := by
  unfold writeFallowReq
  with_reducible repeat' first | assumption | apply fallowRequest_kept | apply fallowWake_kept | apply fallowAbort_kept | intro _ | apply Kept.ite | split

theorem openGallery_kept {s₀ s : State} (g : Nat) (h : Kept s₀ s) :
    Kept s₀ (openGallery s g) := by
  unfold openGallery
  try dsimp only
  with_reducible repeat' first | assumption | apply updGallery_kept | apply startRelays_kept | apply removeGallery_kept | apply pushEnter_kept | (refine Kept.record ?_ rfl rfl rfl rfl rfl rfl rfl rfl; first | assumption | apply updGallery_kept | apply startRelays_kept | apply removeGallery_kept | apply pushEnter_kept) | intro _ | apply Kept.ite | split

theorem faultGallery_kept {s₀ s : State} (g : Nat) (h : Kept s₀ s) :
    Kept s₀ (faultGallery s g) := by
  unfold faultGallery
  try dsimp only
  with_reducible repeat' first | assumption | apply updGallery_kept | apply takeGallery_kept | (refine Kept.record ?_ rfl rfl rfl rfl rfl rfl rfl rfl; first | assumption | apply updGallery_kept | apply takeGallery_kept) | intro _ | split

theorem unitError_kept {s₀ s : State} (e : UnitError) (h : Kept s₀ s) :
    Kept s₀ (unitError s e) := by
  unfold unitError
  with_reducible repeat' first | assumption | apply count_kept | apply raiseErr_kept | apply faultGallery_kept | (refine Kept.record ?_ rfl rfl rfl rfl rfl rfl rfl rfl; first | assumption | apply count_kept | apply raiseErr_kept | apply faultGallery_kept) | intro _ | split

theorem execLsUe_kept {s₀ s t : State} (e : UnitError) (e : execLsUe e s = .next t) (h : Kept s₀ s) :
    Kept s₀ t := by
  unfold execLsUe at e
  injection e with e; subst e
  with_reducible repeat' first | assumption | apply unitError_kept | intro _ | split

theorem droopStretch_kept {s₀ s : State} (g : Nat) (h : Kept s₀ s) :
    Kept s₀ (droopStretch s g) := by
  unfold droopStretch
  try dsimp only
  with_reducible repeat' first | assumption | apply count_kept | apply raiseEvt_kept | apply updGallery_kept | (refine Kept.record ?_ rfl rfl rfl rfl rfl rfl rfl rfl; first | assumption | apply count_kept | apply raiseEvt_kept | apply updGallery_kept) | intro _ | apply Kept.ite | split

theorem execDroopStretch_kept {s₀ s t : State} (g : Fin 50) (e : execDroopStretch g s = .next t) (h : Kept s₀ s) :
    Kept s₀ t := by
  unfold execDroopStretch at e
  injection e with e; subst e
  with_reducible repeat' first | assumption | apply droopStretch_kept | intro _ | split

theorem execDroopRelease_kept {s₀ s t : State} (g : Fin 50) (e : execDroopRelease g s = .next t) (h : Kept s₀ s) :
    Kept s₀ t := by
  unfold execDroopRelease at e
  injection e with e; subst e
  try dsimp only
  with_reducible repeat' first | assumption | apply updGallery_kept | (refine Kept.record ?_ rfl rfl rfl rfl rfl rfl rfl rfl; first | assumption | apply updGallery_kept) | intro _ | split

end Sys2Proof.Machine
end

