-- ==== Sys2Proof/Laws/KeptPlans.lean ====
section
/-! SUPPORT. The definitions of Machine/Plans.lean keep what Kept says. -/
set_option linter.unusedTactic false
set_option linter.unreachableTactic false
namespace Sys2Proof.Machine

theorem planLoad_kept {s₀ s : State}  (h : Kept s₀ s) :
    Kept s₀ (planLoad s) := by
  unfold planLoad
  with_reducible repeat' first | assumption | apply wrf_kept | (refine Kept.record ?_ rfl rfl rfl rfl rfl rfl rfl rfl; first | assumption | apply wrf_kept) | intro _ | apply Kept.ite | split

theorem execPlanLoad_kept {s₀ s t : State} (e : execPlanLoad s = .next t) (h : Kept s₀ s) :
    Kept s₀ t := by
  unfold execPlanLoad at e
  injection e with e; subst e
  with_reducible repeat' first | assumption | apply planLoad_kept | intro _ | split

theorem planLoadDone_kept {s₀ s : State} (slot : Nat) (b : List Byte) (h : Kept s₀ s) :
    Kept s₀ (planLoadDone s slot b) := by
  unfold planLoadDone
  try dsimp only
  with_reducible repeat' first | assumption | apply wr_kept | apply planLoad_kept | (refine Kept.record ?_ rfl rfl rfl rfl rfl rfl rfl rfl; first | assumption | apply wr_kept | apply planLoad_kept) | intro _ | apply Kept.ite | split

theorem execPlanLoadDone_kept {s₀ s t : State}  (e : execPlanLoadDone s = .next t) (h : Kept s₀ s) :
    Kept s₀ t := by
  unfold execPlanLoadDone at e
  try dsimp only at e
  (repeat' split at e) <;> first
    | contradiction
    | (injection e with e; subst e)
  all_goals
    with_reducible repeat' first | assumption | apply planLoadDone_kept | (refine Kept.record ?_ rfl rfl rfl rfl rfl rfl rfl rfl; first | assumption | apply planLoadDone_kept) | intro _ | apply Kept.ite | split

theorem planRetire_kept {s₀ s : State}  (h : Kept s₀ s) :
    Kept s₀ (planRetire s) := by
  unfold planRetire
  try dsimp only
  with_reducible repeat' first | assumption | apply wrf_kept | (refine Kept.record ?_ rfl rfl rfl rfl rfl rfl rfl rfl; first | assumption | apply wrf_kept) | intro _ | apply Kept.ite | split

theorem execPlanRetire_kept {s₀ s t : State} (e : execPlanRetire s = .next t) (h : Kept s₀ s) :
    Kept s₀ t := by
  unfold execPlanRetire at e
  injection e with e; subst e
  with_reducible repeat' first | assumption | apply planRetire_kept | intro _ | split

theorem planSlotEmptied_kept {s₀ s : State} (h : Kept s₀ s) :
    Kept s₀ (planSlotEmptied s) := by
  unfold planSlotEmptied
  with_reducible repeat' first | assumption | apply wrf_kept | apply planRetire_kept | (refine Kept.record ?_ rfl rfl rfl rfl rfl rfl rfl rfl; first | assumption | apply wrf_kept | apply planRetire_kept) | intro _ | apply Kept.ite | split

theorem execPlanSlotEmptied_kept {s₀ s t : State} (e : execPlanSlotEmptied s = .next t) (h : Kept s₀ s) :
    Kept s₀ t := by
  unfold execPlanSlotEmptied at e
  injection e with e; subst e
  with_reducible repeat' first | assumption | apply planSlotEmptied_kept | intro _ | split

theorem profileLoad_kept {s₀ s : State}  (h : Kept s₀ s) :
    Kept s₀ (profileLoad s) := by
  unfold profileLoad
  with_reducible repeat' first | assumption | apply wrf_kept | (refine Kept.record ?_ rfl rfl rfl rfl rfl rfl rfl rfl; first | assumption | apply wrf_kept) | intro _ | apply Kept.ite | split

theorem execProfileLoad_kept {s₀ s t : State} (e : execProfileLoad s = .next t) (h : Kept s₀ s) :
    Kept s₀ t := by
  unfold execProfileLoad at e
  injection e with e; subst e
  with_reducible repeat' first | assumption | apply profileLoad_kept | intro _ | split

theorem profileLoadDone_kept {s₀ s : State} (b : List Byte) (h : Kept s₀ s) :
    Kept s₀ (profileLoadDone s b) := by
  unfold profileLoadDone
  try dsimp only
  with_reducible repeat' first | assumption | apply wr_kept | apply profileLoad_kept | (refine Kept.record ?_ rfl rfl rfl rfl rfl rfl rfl rfl; first | assumption | apply wr_kept | apply profileLoad_kept) | intro _ | apply Kept.ite | split

theorem execProfileLoadDone_kept {s₀ s t : State}  (e : execProfileLoadDone s = .next t) (h : Kept s₀ s) :
    Kept s₀ t := by
  unfold execProfileLoadDone at e
  try dsimp only at e
  (repeat' split at e) <;> first
    | contradiction
    | (injection e with e; subst e)
  all_goals
    with_reducible repeat' first | assumption | apply profileLoadDone_kept | (refine Kept.record ?_ rfl rfl rfl rfl rfl rfl rfl rfl; first | assumption | apply profileLoadDone_kept) | intro _ | apply Kept.ite | split

end Sys2Proof.Machine
end

