-- ==== Sys2Proof/Laws/KeptIndex.lean ====
section
/-! SUPPORT. The definitions of Machine/Index.lean keep what Kept says. -/
set_option linter.unusedTactic false
set_option linter.unreachableTactic false
namespace Sys2Proof.Machine

theorem loadStatus_kept {s₀ s : State} (r : LoadRegs) (busy : Bool) (need : Bool) (done : Bool) (result : Nat) (h : Kept s₀ s) :
    Kept s₀ (loadStatus s r busy need done result) := by
  unfold loadStatus
  with_reducible repeat' first | assumption | apply wrf_kept | intro _ | split

theorem installPage_kept {s₀ s : State} (range : Nat) (page : Nat) (h : Kept s₀ s) :
    Kept s₀ (installPage s range page) := by
  unfold installPage
  try dsimp only
  with_reducible repeat' first | assumption | apply updFlash_kept | (refine Kept.record ?_ rfl rfl rfl rfl rfl rfl rfl rfl; first | assumption | apply updFlash_kept) | intro _ | apply Kept.ite | split

theorem cacheHit_kept {s₀ s : State} (range : Nat) (off : Nat) (n : Nat) (h : Kept s₀ s) :
    Kept s₀ (cacheHit s range off n) := by
  unfold cacheHit
  try dsimp only
  with_reducible repeat' first | assumption | apply count_kept | apply installPage_kept | apply foldl_kept | apply foldl_kept1 | intro _ | apply Kept.ite | split

theorem heatUnit_kept {s₀ s : State} (range : Nat) (off : Nat) (h : Kept s₀ s) :
    Kept s₀ (heatUnit s range off) := by
  unfold heatUnit
  try dsimp only
  with_reducible repeat' first | assumption | apply updFlash_kept | apply installPage_kept | apply foldl_kept | apply foldl_kept1 | (refine Kept.record ?_ rfl rfl rfl rfl rfl rfl rfl rfl; first | assumption | apply updFlash_kept | apply installPage_kept | apply foldl_kept | apply foldl_kept1) | intro _ | apply Kept.ite | split

theorem dirtyBuckets_kept {s₀ s : State} (range : Nat) (first : Nat) (old : Tbl (List KeyEntry)) (new : Tbl (List KeyEntry)) (h : Kept s₀ s) :
    Kept s₀ (dirtyBuckets s range first old new) := by
  unfold dirtyBuckets
  try dsimp only
  with_reducible repeat' first | assumption | apply updFlash_kept | apply foldl_kept | apply foldl_kept1 | (refine Kept.record ?_ rfl rfl rfl rfl rfl rfl rfl rfl; first | assumption | apply updFlash_kept | apply foldl_kept | apply foldl_kept1) | intro _ | apply Kept.ite | split

theorem dirtyMap_kept {s₀ s : State} (n : Nat) (old : Tbl (List KeyEntry)) (h : Kept s₀ s) :
    Kept s₀ (dirtyMap s n old) := by
  unfold dirtyMap
  with_reducible repeat' first | assumption | apply dirtyBuckets_kept | (refine Kept.record ?_ rfl rfl rfl rfl rfl rfl rfl rfl; first | assumption | apply dirtyBuckets_kept) | intro _ | split

theorem failLoad_kept {s₀ s : State} (code : Nat) (off : Nat) (h : Kept s₀ s) :
    Kept s₀ (failLoad s code off) := by
  unfold failLoad
  try dsimp only
  with_reducible repeat' first | assumption | apply wr64_kept | apply setUse_kept | apply releaseRange_kept | apply loadStatus_kept | (refine Kept.record ?_ rfl rfl rfl rfl rfl rfl rfl rfl; first | assumption | apply wr64_kept | apply setUse_kept | apply releaseRange_kept | apply loadStatus_kept) | intro _ | split

theorem collLoadStart_kept {s₀ s : State} (h : Kept s₀ s) :
    Kept s₀ (collLoadStart s) := by
  unfold collLoadStart
  try dsimp only
  with_reducible repeat' first | assumption | apply wr_kept | apply wrf_kept | apply wr64_kept | (refine Kept.record ?_ rfl rfl rfl rfl rfl rfl rfl rfl; first | assumption | apply wr_kept | apply wrf_kept | apply wr64_kept) | intro _ | apply Kept.ite | split

theorem execCollLoadStart_kept {s₀ s t : State} (e : execCollLoadStart s = .next t) (h : Kept s₀ s) :
    Kept s₀ t := by
  unfold execCollLoadStart at e
  injection e with e; subst e
  with_reducible repeat' first | assumption | apply collLoadStart_kept | intro _ | split

theorem collLoadContinue_kept {s₀ s : State} (h : Kept s₀ s) :
    Kept s₀ (collLoadContinue s) := by
  unfold collLoadContinue
  with_reducible repeat' first | assumption | apply wrf_kept | apply loadStatus_kept | (refine Kept.record ?_ rfl rfl rfl rfl rfl rfl rfl rfl; first | assumption | apply wrf_kept | apply loadStatus_kept) | intro _ | apply Kept.ite | split

theorem execCollLoadContinue_kept {s₀ s t : State} (e : execCollLoadContinue s = .next t) (h : Kept s₀ s) :
    Kept s₀ t := by
  unfold execCollLoadContinue at e
  injection e with e; subst e
  with_reducible repeat' first | assumption | apply collLoadContinue_kept | intro _ | split

theorem execCollLoadAbort_kept {s₀ s t : State} (e : execCollLoadAbort s = .next t) (h : Kept s₀ s) :
    Kept s₀ t := by
  unfold execCollLoadAbort at e
  injection e with e; subst e
  with_reducible repeat' first | assumption | apply failLoad_kept | intro _ | split

theorem collChunkDone_kept {s₀ s : State} (data : Option (List Byte)) (choices : List (Fin 8)) (h : Kept s₀ s) :
    Kept s₀ (collChunkDone s data choices) := by
  unfold collChunkDone
  try dsimp only
  with_reducible repeat' first | assumption | apply wrf_kept | apply wr64_kept | apply setUse_kept | apply loadStatus_kept | apply failLoad_kept | (refine Kept.record ?_ rfl rfl rfl rfl rfl rfl rfl rfl; first | assumption | apply wrf_kept | apply wr64_kept | apply setUse_kept | apply loadStatus_kept | apply failLoad_kept) | intro _ | apply Kept.ite | split

theorem execCollChunkDone_kept {s₀ s t : State} (data : Option (List Byte)) (leafStacks : List (Fin 8)) (e : execCollChunkDone data leafStacks s = .next t) (h : Kept s₀ s) :
    Kept s₀ t := by
  unfold execCollChunkDone at e
  injection e with e; subst e
  with_reducible repeat' first | assumption | apply collChunkDone_kept | intro _ | split

theorem setTrellisEpoch_kept {s₀ s : State} (h : Kept s₀ s) : Kept s₀ (setTrellisEpoch s) :=
  (wr64_kept _ _ h).withChip rfl rfl (by simp [shapeOf])

theorem collLoadCommit_kept {s₀ s : State} (h : Kept s₀ s) :
    Kept s₀ (collLoadCommit s) := by
  unfold collLoadCommit
  try dsimp only
  with_reducible repeat' first | assumption | apply wr64_kept | apply setUse_kept | apply loadStatus_kept | apply dirtyMap_kept | apply failLoad_kept | apply setTrellisEpoch_kept | (refine Kept.record ?_ rfl rfl rfl rfl rfl rfl rfl rfl; first | assumption | apply wr64_kept | apply setUse_kept | apply loadStatus_kept | apply dirtyMap_kept | apply failLoad_kept | apply setTrellisEpoch_kept) | intro _ | apply Kept.ite | split

theorem execCollLoadCommit_kept {s₀ s t : State} (e : execCollLoadCommit s = .next t) (h : Kept s₀ s) :
    Kept s₀ t := by
  unfold execCollLoadCommit at e
  injection e with e; subst e
  with_reducible repeat' first | assumption | apply collLoadCommit_kept | intro _ | split

theorem collDrop_kept {s₀ s : State} (h : Kept s₀ s) :
    Kept s₀ (collDrop s) := by
  unfold collDrop
  try dsimp only
  with_reducible repeat' first | assumption | apply wrf_kept | apply failLoad_kept | apply setTrellisEpoch_kept | (refine Kept.record ?_ rfl rfl rfl rfl rfl rfl rfl rfl; first | assumption | apply wrf_kept | apply failLoad_kept | apply setTrellisEpoch_kept) | intro _ | split

theorem execCollDrop_kept {s₀ s t : State} (e : execCollDrop s = .next t) (h : Kept s₀ s) :
    Kept s₀ t := by
  unfold execCollDrop at e
  injection e with e; subst e
  with_reducible repeat' first | assumption | apply collDrop_kept | intro _ | split

theorem collDrained_kept {s₀ s : State} (n : Nat) (h : Kept s₀ s) :
    Kept s₀ (collDrained s n) := by
  unfold collDrained
  with_reducible repeat' first | assumption | apply setUse_kept | apply releaseRange_kept | (refine Kept.record ?_ rfl rfl rfl rfl rfl rfl rfl rfl; first | assumption | apply setUse_kept | apply releaseRange_kept) | intro _ | apply Kept.ite | split

theorem execCollDrained_kept {s₀ s t : State} (c : Fin 4096) (e : execCollDrained c s = .next t) (h : Kept s₀ s) :
    Kept s₀ t := by
  unfold execCollDrained at e
  injection e with e; subst e
  with_reducible repeat' first | assumption | apply collDrained_kept | intro _ | split

end Sys2Proof.Machine
end

