-- ==== Sys2Proof/Laws/KeptRowTables.lean ====
section
/-! SUPPORT. The definitions of Machine/RowTables.lean keep what Kept says. -/
set_option linter.unusedTactic false
set_option linter.unreachableTactic false
namespace Sys2Proof.Machine

theorem tableDone_kept {s₀ s : State} (h : Kept s₀ s) :
    Kept s₀ (tableDone s) := by
  unfold tableDone
  with_reducible repeat' first | assumption | apply raiseEvt_kept | intro _ | split

theorem failTable_kept {s₀ s : State} (code : Nat) (off : Nat) (h : Kept s₀ s) :
    Kept s₀ (failTable s code off) := by
  unfold failTable
  try dsimp only
  with_reducible repeat' first | assumption | apply wr64_kept | apply setUse_kept | apply releaseRange_kept | apply loadStatus_kept | apply tableDone_kept | (refine Kept.record ?_ rfl rfl rfl rfl rfl rfl rfl rfl; first | assumption | apply wr64_kept | apply setUse_kept | apply releaseRange_kept | apply loadStatus_kept | apply tableDone_kept) | intro _ | split

theorem tableLoadStart_kept {s₀ s : State} (h : Kept s₀ s) :
    Kept s₀ (tableLoadStart s) := by
  unfold tableLoadStart
  try dsimp only
  with_reducible repeat' first | assumption | apply wr_kept | apply wrf_kept | apply wr64_kept | (refine Kept.record ?_ rfl rfl rfl rfl rfl rfl rfl rfl; first | assumption | apply wr_kept | apply wrf_kept | apply wr64_kept) | intro _ | apply Kept.ite | split

theorem execTableLoadStart_kept {s₀ s t : State} (e : execTableLoadStart s = .next t) (h : Kept s₀ s) :
    Kept s₀ t := by
  unfold execTableLoadStart at e
  injection e with e; subst e
  with_reducible repeat' first | assumption | apply tableLoadStart_kept | intro _ | split

theorem tableLoadContinue_kept {s₀ s : State} (h : Kept s₀ s) :
    Kept s₀ (tableLoadContinue s) := by
  unfold tableLoadContinue
  with_reducible repeat' first | assumption | apply wrf_kept | apply loadStatus_kept | (refine Kept.record ?_ rfl rfl rfl rfl rfl rfl rfl rfl; first | assumption | apply wrf_kept | apply loadStatus_kept) | intro _ | apply Kept.ite | split

theorem execTableLoadContinue_kept {s₀ s t : State} (e : execTableLoadContinue s = .next t) (h : Kept s₀ s) :
    Kept s₀ t := by
  unfold execTableLoadContinue at e
  injection e with e; subst e
  with_reducible repeat' first | assumption | apply tableLoadContinue_kept | intro _ | split

theorem execTableLoadAbort_kept {s₀ s t : State} (e : execTableLoadAbort s = .next t) (h : Kept s₀ s) :
    Kept s₀ t := by
  unfold execTableLoadAbort at e
  injection e with e; subst e
  with_reducible repeat' first | assumption | apply failTable_kept | intro _ | split

theorem tableChunkDone_kept {s₀ s : State} (data : Option (List Byte)) (h : Kept s₀ s) :
    Kept s₀ (tableChunkDone s data) := by
  unfold tableChunkDone
  try dsimp only
  with_reducible repeat' first | assumption | apply wr64_kept | apply setUse_kept | apply loadStatus_kept | apply failTable_kept | (refine Kept.record ?_ rfl rfl rfl rfl rfl rfl rfl rfl; first | assumption | apply wr64_kept | apply setUse_kept | apply loadStatus_kept | apply failTable_kept) | intro _ | apply Kept.ite | split

theorem execTableChunkDone_kept {s₀ s t : State} (data : Option (List Byte)) (e : execTableChunkDone data s = .next t) (h : Kept s₀ s) :
    Kept s₀ t := by
  unfold execTableChunkDone at e
  injection e with e; subst e
  with_reducible repeat' first | assumption | apply tableChunkDone_kept | intro _ | split

theorem tableLoadCommit_kept {s₀ s : State} (h : Kept s₀ s) :
    Kept s₀ (tableLoadCommit s) := by
  unfold tableLoadCommit
  try dsimp only
  with_reducible repeat' first | assumption | apply setUse_kept | apply loadStatus_kept | apply tableDone_kept | (refine Kept.record ?_ rfl rfl rfl rfl rfl rfl rfl rfl; first | assumption | apply setUse_kept | apply loadStatus_kept | apply tableDone_kept) | intro _ | apply Kept.ite | split

theorem execTableLoadCommit_kept {s₀ s t : State} (e : execTableLoadCommit s = .next t) (h : Kept s₀ s) :
    Kept s₀ t := by
  unfold execTableLoadCommit at e
  injection e with e; subst e
  with_reducible repeat' first | assumption | apply tableLoadCommit_kept | intro _ | split

theorem settleTable_kept {s₀ s : State} (n : Nat) (h : Kept s₀ s) :
    Kept s₀ (settleTable s n) := by
  unfold settleTable
  with_reducible repeat' first | assumption | apply setUse_kept | apply releaseRange_kept | apply tableDone_kept | (refine Kept.record ?_ rfl rfl rfl rfl rfl rfl rfl rfl; first | assumption | apply setUse_kept | apply releaseRange_kept | apply tableDone_kept) | intro _ | apply Kept.ite | split

theorem tableDrop_kept {s₀ s : State} (h : Kept s₀ s) :
    Kept s₀ (tableDrop s) := by
  unfold tableDrop
  try dsimp only
  with_reducible repeat' first | assumption | apply wrf_kept | apply failTable_kept | apply settleTable_kept | (refine Kept.record ?_ rfl rfl rfl rfl rfl rfl rfl rfl; first | assumption | apply wrf_kept | apply failTable_kept | apply settleTable_kept) | intro _ | split

theorem execTableDrop_kept {s₀ s t : State} (e : execTableDrop s = .next t) (h : Kept s₀ s) :
    Kept s₀ t := by
  unfold execTableDrop at e
  injection e with e; subst e
  with_reducible repeat' first | assumption | apply tableDrop_kept | intro _ | split

theorem setTable_kept {s₀ s : State} (n : Nat) (t : Table) (h : Kept s₀ s) :
    Kept s₀ (setTable s n t) := by
  unfold setTable
  with_reducible repeat' first | assumption | (refine Kept.record ?_ rfl rfl rfl rfl rfl rfl rfl rfl; first | assumption) | intro _ | split

theorem dirtyRow_kept {s₀ s : State} (n : Nat) (t : Table) (idx : Nat) (h : Kept s₀ s) :
    Kept s₀ (dirtyRow s n t idx) := by
  unfold dirtyRow
  try dsimp only
  with_reducible repeat' first | assumption | apply updFlash_kept | apply foldl_kept | apply foldl_kept1 | (refine Kept.record ?_ rfl rfl rfl rfl rfl rfl rfl rfl; first | assumption | apply updFlash_kept | apply foldl_kept | apply foldl_kept1) | intro _ | split

theorem countRowLost_kept {s₀ s : State} (n : Nat) (t : Table) (idx : Nat) (h : Kept s₀ s) :
    Kept s₀ (countRowLost s n t idx) := by
  unfold countRowLost
  try dsimp only
  with_reducible repeat' first | assumption | apply count_kept | apply raiseEvt_kept | apply setTable_kept | (refine Kept.record ?_ rfl rfl rfl rfl rfl rfl rfl rfl; first | assumption | apply count_kept | apply raiseEvt_kept | apply setTable_kept) | intro _ | apply Kept.ite | split

theorem scatterRow_kept1 {s₀ s : State} (n : Nat) (p : OptParams) (gradFmt : Nat) (key : Quad) (grad : List Byte) (h : Kept s₀ s) :
    Kept s₀ (scatterRow s n p gradFmt key grad).1 := by
  unfold scatterRow
  try dsimp only
  with_reducible repeat' first | assumption | apply count_kept | apply setUse_kept | apply dirtyBuckets_kept | apply setTable_kept | apply dirtyRow_kept | apply countRowLost_kept | (refine Kept.record ?_ rfl rfl rfl rfl rfl rfl rfl rfl; first | assumption | apply count_kept | apply setUse_kept | apply dirtyBuckets_kept | apply setTable_kept | apply dirtyRow_kept | apply countRowLost_kept) | intro _ | apply Kept.ite1 | split

theorem scatterRow_kept {s₀ s r : State} {x : Nat} {n : Nat} {p : OptParams} {gradFmt : Nat} {key : Quad} {grad : List Byte} (e₁ : scatterRow s n p gradFmt key grad = (r, x)) (h : Kept s₀ s) :
    Kept s₀ r := by
  have k := scatterRow_kept1 n p gradFmt key grad h
  rwa [e₁] at k

theorem lookupRow_kept1 {s₀ s : State} (n : Nat) (withState : Bool) (key : Quad) (h : Kept s₀ s) :
    Kept s₀ (lookupRow s n withState key).1 := by
  unfold lookupRow
  try dsimp only
  with_reducible repeat' first | assumption | apply countRowLost_kept | (refine Kept.record ?_ rfl rfl rfl rfl rfl rfl rfl rfl; first | assumption | apply countRowLost_kept) | intro _ | apply Kept.ite1 | split

theorem lookupRow_kept {s₀ s r : State} {x : Nat × List Byte} {n : Nat} {withState : Bool} {key : Quad} (e₁ : lookupRow s n withState key = (r, x)) (h : Kept s₀ s) :
    Kept s₀ r := by
  have k := lookupRow_kept1 n withState key h
  rwa [e₁] at k

end Sys2Proof.Machine
end

