-- ==== Sys2Proof/Laws/KeptModels.lean ====
section
/-! SUPPORT. The definitions of Machine/Models.lean keep what Kept says. -/
set_option linter.unusedTactic false
set_option linter.unreachableTactic false
namespace Sys2Proof.Machine

theorem modelLoad_kept {s₀ s : State}  (h : Kept s₀ s) :
    Kept s₀ (modelLoad s) := by
  unfold modelLoad
  with_reducible repeat' first | assumption | apply wrf_kept | (refine Kept.record ?_ rfl rfl rfl rfl rfl rfl rfl rfl; first | assumption | apply wrf_kept) | intro _ | apply Kept.ite | split

theorem execModelLoad_kept {s₀ s t : State} (e : execModelLoad s = .next t) (h : Kept s₀ s) :
    Kept s₀ t := by
  unfold execModelLoad at e
  injection e with e; subst e
  with_reducible repeat' first | assumption | apply modelLoad_kept | intro _ | split

theorem modelDone_kept {s₀ s : State} (h : Kept s₀ s) :
    Kept s₀ (modelDone s) := by
  unfold modelDone
  with_reducible repeat' first | assumption | apply raiseEvt_kept | intro _ | split

theorem setPinEpoch_kept {s₀ s : State} (h : Kept s₀ s) : Kept s₀ (setPinEpoch s) :=
  Kept.ite ((wr64_kept _ _ h).withChip rfl rfl (by simp [shapeOf])) (wr64_kept _ _ h)

theorem modelLoadEnd_kept {s₀ s : State} (r : Nat) (l : Nat) (h : Kept s₀ s) :
    Kept s₀ (modelLoadEnd s r l) := by
  unfold modelLoadEnd
  with_reducible repeat' first | assumption | apply wr_kept | apply modelLoad_kept | (refine Kept.record ?_ rfl rfl rfl rfl rfl rfl rfl rfl; first | assumption | apply wr_kept | apply modelLoad_kept) | intro _ | split

theorem modelLoadDone_kept {s₀ s : State} (slot : Nat) (tenant : Nat) (b : List Byte) (h : Kept s₀ s) :
    Kept s₀ (modelLoadDone s slot tenant b) := by
  unfold modelLoadDone
  try dsimp only
  with_reducible repeat' first | assumption | apply setUse_kept | apply modelDone_kept | apply setPinEpoch_kept | apply modelLoadEnd_kept | (refine Kept.record ?_ rfl rfl rfl rfl rfl rfl rfl rfl; first | assumption | apply setUse_kept | apply modelDone_kept | apply setPinEpoch_kept | apply modelLoadEnd_kept) | intro _ | apply Kept.ite | split

theorem execModelLoadDone_kept {s₀ s t : State}  (e : execModelLoadDone s = .next t) (h : Kept s₀ s) :
    Kept s₀ t := by
  unfold execModelLoadDone at e
  try dsimp only at e
  (repeat' split at e) <;> first
    | contradiction
    | (injection e with e; subst e)
  all_goals
    with_reducible repeat' first | assumption | apply modelLoadDone_kept | (refine Kept.record ?_ rfl rfl rfl rfl rfl rfl rfl rfl; first | assumption | apply modelLoadDone_kept) | intro _ | apply Kept.ite | split

theorem modelRetire_kept {s₀ s : State}  (h : Kept s₀ s) :
    Kept s₀ (modelRetire s) := by
  unfold modelRetire
  try dsimp only
  with_reducible repeat' first | assumption | apply wrf_kept | (refine Kept.record ?_ rfl rfl rfl rfl rfl rfl rfl rfl; first | assumption | apply wrf_kept) | intro _ | apply Kept.ite | split

theorem execModelRetire_kept {s₀ s t : State} (e : execModelRetire s = .next t) (h : Kept s₀ s) :
    Kept s₀ t := by
  unfold execModelRetire at e
  injection e with e; subst e
  with_reducible repeat' first | assumption | apply modelRetire_kept | intro _ | split

theorem modelSlotEmptied_kept {s₀ s : State} (h : Kept s₀ s) :
    Kept s₀ (modelSlotEmptied s) := by
  unfold modelSlotEmptied
  try dsimp only
  with_reducible repeat' first | assumption | apply wrf_kept | apply setUse_kept | apply releaseRange_kept | apply modelDone_kept | apply setPinEpoch_kept | apply modelRetire_kept | (refine Kept.record ?_ rfl rfl rfl rfl rfl rfl rfl rfl; first | assumption | apply wrf_kept | apply setUse_kept | apply releaseRange_kept | apply modelDone_kept | apply setPinEpoch_kept | apply modelRetire_kept) | intro _ | apply Kept.ite | split

theorem execModelSlotEmptied_kept {s₀ s t : State} (e : execModelSlotEmptied s = .next t) (h : Kept s₀ s) :
    Kept s₀ t := by
  unfold execModelSlotEmptied at e
  injection e with e; subst e
  with_reducible repeat' first | assumption | apply modelSlotEmptied_kept | intro _ | split

theorem pinRelayDone_kept {s₀ s : State} (slot : Nat) (h : Kept s₀ s) :
    Kept s₀ (pinRelayDone s slot) := by
  unfold pinRelayDone
  try dsimp only
  with_reducible repeat' first | assumption | apply raiseEvt_kept | apply setPinEpoch_kept | (refine Kept.record ?_ rfl rfl rfl rfl rfl rfl rfl rfl; first | assumption | apply raiseEvt_kept | apply setPinEpoch_kept) | intro _ | apply Kept.ite | split

theorem execPinRelayDone_kept {s₀ s t : State} (slot : Fin 64) (e : execPinRelayDone slot s = .next t) (h : Kept s₀ s) :
    Kept s₀ t := by
  unfold execPinRelayDone at e
  injection e with e; subst e
  with_reducible repeat' first | assumption | apply pinRelayDone_kept | intro _ | split

theorem weightStageIn_kept {s₀ s : State} (slot : Nat) (layer : Nat) (h : Kept s₀ s) :
    Kept s₀ (weightStageIn s slot layer) := by
  unfold weightStageIn
  try dsimp only
  with_reducible repeat' first | assumption | apply foldl_kept | apply foldl_kept1 | (refine Kept.record ?_ rfl rfl rfl rfl rfl rfl rfl rfl; first | assumption | apply foldl_kept | apply foldl_kept1) | intro _ | apply Kept.ite | split

theorem execWeightStageInDone_kept {s₀ s t : State} (slot : Fin 64) (layer : Nat) (e : execWeightStageInDone slot layer s = .next t) (h : Kept s₀ s) :
    Kept s₀ t := by
  unfold execWeightStageInDone at e
  injection e with e; subst e
  with_reducible repeat' first | assumption | apply weightStageIn_kept | intro _ | split

end Sys2Proof.Machine
end

