-- ==== Sys2Proof/Laws/KeptSearch.lean ====
section
/-! SUPPORT. The definitions of Machine/Search.lean keep what Kept says. -/
namespace Sys2Proof.Machine

theorem trellisFails_kept {s₀ : State} : ∀ (n : Nat) {s : State}, Kept s₀ s → Kept s₀ (trellisFails s n)
  | 0, _, h => h
  | n + 1, _, h => trellisFails_kept n (count_kept _ (raiseErr_kept _ _ _ h))

end Sys2Proof.Machine
end

