-- ==== Sys2Proof/Laws/KeptUpdates.lean ====
section
/-! SUPPORT. The definitions of Machine/Updates.lean keep what Kept says. -/
set_option linter.unusedTactic false
set_option linter.unreachableTactic false
namespace Sys2Proof.Machine

theorem setDurable_kept {s₀ s : State} (h : Kept s₀ s) :
    Kept s₀ (setDurable s) := by
  unfold setDurable
  try dsimp only
  with_reducible repeat' first | assumption | apply wr64_kept | apply foldl_kept | apply foldl_kept1 | intro _ | apply Kept.ite | split

theorem putColl_kept {s₀ s : State} (n : Nat) (c : Coll) (h : Kept s₀ s) :
    Kept s₀ (putColl s n c) := by
  unfold putColl
  with_reducible repeat' first | assumption | (refine Kept.record ?_ rfl rfl rfl rfl rfl rfl rfl rfl; first | assumption) | intro _ | split

theorem commitTo_kept {s₀ s t : State} {id : Option Nat} {n ep : Nat} {ins ifAbs : Bool} {seq : Option Nat} {given : Option (List Nat)} {items l : List UpdItem}
    {k : Nat} {b : Bool} (e : commitTo s id n ep ins ifAbs seq given items = (some (t, l, k), b)) (h : Kept s₀ s) : Kept s₀ t := by
  unfold commitTo at e
  split at e
  · cases (Prod.mk.inj e).1
  · extract_lets at e
    split at e
    · cases (Prod.mk.inj e).1
    · rw [← (Prod.mk.inj (Option.some.inj (Prod.mk.inj e).1)).1]
      exact setDurable_kept (setUse_kept _ (updFlash_kept _ (dirtyMap_kept _ _ (putColl_kept _ _ (Kept.record h rfl rfl rfl rfl rfl rfl rfl rfl)))))

theorem setSeedHigh_kept {s₀ s : State} (h : Kept s₀ s) :
    Kept s₀ (setSeedHigh s) := by
  unfold setSeedHigh
  with_reducible repeat' first | assumption | apply setCond_kept | intro _ | split

theorem countRefused_kept {s₀ s : State} (st : Nat) (h : Kept s₀ s) :
    Kept s₀ (countRefused s st) := by
  unfold countRefused
  with_reducible repeat' first | assumption | apply count_kept | apply raiseEvt_kept | intro _ | apply Kept.ite | split

theorem freeOld_kept {s₀ s : State} (h : Kept s₀ s) :
    Kept s₀ (freeOld s) := by
  unfold freeOld
  try dsimp only
  with_reducible repeat' first | assumption | apply setUse_kept | apply invalRange_kept | apply dirtyMap_kept | apply setSeedHigh_kept | apply foldl_kept | apply foldl_kept1 | (refine Kept.record ?_ rfl rfl rfl rfl rfl rfl rfl rfl; first | assumption | apply setUse_kept | apply invalRange_kept | apply dirtyMap_kept | apply setSeedHigh_kept | apply foldl_kept | apply foldl_kept1) | intro _ | split

theorem tpStats_kept {s₀ s : State} (n : Nat) (t : Transplant) (sat : Nat) (nan : Nat) (h : Kept s₀ s) :
    Kept s₀ (tpStats s n t sat nan) := by
  unfold tpStats
  try dsimp only
  with_reducible repeat' first | assumption | apply countBy_kept | apply foldl_kept | apply foldl_kept1 | intro _ | apply Kept.ite | split

theorem updColl_kept {s₀ s : State} (n : Nat) (f : Coll → Coll) (h : Kept s₀ s) :
    Kept s₀ (updColl s n f) := by
  unfold updColl
  with_reducible repeat' first | assumption | (refine Kept.record ?_ rfl rfl rfl rfl rfl rfl rfl rfl; first | assumption) | intro _ | split

theorem startTp_kept {s₀ s : State} (n : Nat) (p : Nat) (cut : Nat) (pub : Nat) (gal : Nat) (h : Kept s₀ s) :
    Kept s₀ (startTp s n p cut pub gal) := by
  unfold startTp
  try dsimp only
  with_reducible repeat' first | assumption | apply updColl_kept | (refine Kept.record ?_ rfl rfl rfl rfl rfl rfl rfl rfl; first | assumption | apply updColl_kept) | intro _ | split

theorem startTps_kept {s₀ : State} : ∀ (l : List (Nat × Nat)) (free : Nat) (cs : List (Fin 50)) {s : State}, Kept s₀ s → Kept s₀ (startTps s free cs l)
  | [], _, _, _, h => h
  | (n, p) :: r, free, cs, s, h => by
    unfold startTps
    split
    · exact startTps_kept r _ _ h
    · exact h
    · split
      · exact startTps_kept r _ _ (startTp_kept _ _ _ _ _ h)
      · exact startTps_kept r _ _ (count_kept _ h)

theorem transplantGrid_kept {s₀ s : State} (cs : List (Fin 50)) (h : Kept s₀ s) :
    Kept s₀ (transplantGrid s cs) := by
  unfold transplantGrid
  try dsimp only
  with_reducible repeat' first | assumption | apply startTps_kept | intro _ | apply Kept.ite | split

theorem sealTp_kept {s₀ s : State} (n : Nat) (t : Transplant) (p : Piece) (carried : List Nat) (ns : List NodeBlk) (ls : List LeafBlk) (nan : Nat) (sat : Nat) (h : Kept s₀ s) :
    Kept s₀ (sealTp s n t p carried ns ls nan sat) := by
  unfold sealTp
  try dsimp only
  with_reducible repeat' first | assumption | apply countBy_kept | refine freshWord_kept ‹_› ?_ | apply freshWord_kept1 | apply tpStats_kept | apply updColl_kept | (refine Kept.record ?_ rfl rfl rfl rfl rfl rfl rfl rfl; first | assumption | apply countBy_kept | refine freshWord_kept ‹_› ?_ | apply freshWord_kept1 | apply tpStats_kept | apply updColl_kept) | intro _ | split

theorem transplantSeal_kept {s₀ s : State} (n : Nat) (p : Nat) (choices : List (Fin 8)) (h : Kept s₀ s) :
    Kept s₀ (transplantSeal s n p choices) := by
  unfold transplantSeal
  try dsimp only
  with_reducible repeat' first | assumption | apply count_kept | apply raiseEvt_kept | apply trellisFails_kept | apply updColl_kept | apply sealTp_kept | (refine Kept.record ?_ rfl rfl rfl rfl rfl rfl rfl rfl; first | assumption | apply count_kept | apply raiseEvt_kept | apply trellisFails_kept | apply updColl_kept | apply sealTp_kept) | intro _ | apply Kept.ite | split

theorem execTransplantSeal_kept {s₀ s t : State} (coll : Fin 4096) (part : Fin 256) (leafStacks : List (Fin 8)) (e : execTransplantSeal coll part leafStacks s = .next t) (h : Kept s₀ s) :
    Kept s₀ t := by
  unfold execTransplantSeal at e
  injection e with e; subst e
  with_reducible repeat' first | assumption | apply transplantSeal_kept | intro _ | split

theorem transplantPublish_kept {s₀ s : State} (n : Nat) (h : Kept s₀ s) :
    Kept s₀ (transplantPublish s n) := by
  unfold transplantPublish
  try dsimp only
  with_reducible repeat' first | assumption | apply countN_kept | apply setUse_kept | apply setTrellisEpoch_kept | apply putColl_kept | apply updColl_kept | apply foldl_kept | apply foldl_kept1 | (refine Kept.record ?_ rfl rfl rfl rfl rfl rfl rfl rfl; first | assumption | apply countN_kept | apply setUse_kept | apply setTrellisEpoch_kept | apply putColl_kept | apply updColl_kept | apply foldl_kept | apply foldl_kept1) | intro _ | apply Kept.ite | split

theorem execTransplantPublish_kept {s₀ s t : State} (coll : Fin 4096) (e : execTransplantPublish coll s = .next t) (h : Kept s₀ s) :
    Kept s₀ t := by
  unfold execTransplantPublish at e
  injection e with e; subst e
  with_reducible repeat' first | assumption | apply transplantPublish_kept | intro _ | split

theorem lateTps_kept {s₀ s : State} (h : Kept s₀ s) :
    Kept s₀ (lateTps s) := by
  unfold lateTps
  try dsimp only
  with_reducible repeat' first | assumption | apply count_kept | apply raiseEvt_kept | apply updColl_kept | apply foldl_kept | apply foldl_kept1 | (refine Kept.record ?_ rfl rfl rfl rfl rfl rfl rfl rfl; first | assumption | apply count_kept | apply raiseEvt_kept | apply updColl_kept | apply foldl_kept | apply foldl_kept1) | intro _ | apply Kept.ite | split

end Sys2Proof.Machine
end

