-- ==== Sys2Proof/Laws/KeptMirror.lean ====
section
/-! SUPPORT. The definitions of Machine/Mirror.lean keep what Kept says. -/
set_option linter.unusedTactic false
set_option linter.unreachableTactic false
namespace Sys2Proof.Machine

theorem updPair_kept {s₀ s : State} (i : Nat) (f : Pair → Pair) (h : Kept s₀ s) :
    Kept s₀ (updPair s i f) := by
  unfold updPair
  with_reducible repeat' first | assumption | (refine Kept.record ?_ rfl rfl rfl rfl rfl rfl rfl rfl; first | assumption) | intro _ | split

theorem pairWrite_kept {s₀ s : State} (h : Kept s₀ s) :
    Kept s₀ (pairWrite s) := by
  unfold pairWrite
  try dsimp only
  with_reducible repeat' first | assumption | apply wrf_kept | apply updPair_kept | (refine Kept.record ?_ rfl rfl rfl rfl rfl rfl rfl rfl; first | assumption | apply wrf_kept | apply updPair_kept) | intro _ | apply Kept.ite | split

theorem execPairWrite_kept {s₀ s t : State} (e : execPairWrite s = .next t) (h : Kept s₀ s) :
    Kept s₀ t := by
  unfold execPairWrite at e
  injection e with e; subst e
  with_reducible repeat' first | assumption | apply pairWrite_kept | intro _ | split

theorem sendUnit_kept {s₀ s : State} (i : Nat) (u : MUnit) (h : Kept s₀ s) :
    Kept s₀ (sendUnit s i u) := by
  unfold sendUnit
  try dsimp only
  with_reducible repeat' first | assumption | apply sendFrame_kept | apply foldl_kept | apply foldl_kept1 | intro _ | split

theorem stream_kept {s₀ s : State} (i : Nat) (typ : Nat) (op : Nat) (epoch : Nat) (cls : Nat) (flight : Nat) (entries : Nat) (frags : Tbl (Nat × Nat × List Byte)) (h : Kept s₀ s) :
    Kept s₀ (stream s i typ op epoch cls flight entries frags) := by
  unfold stream
  try dsimp only
  with_reducible repeat' first | assumption | apply updPair_kept | apply sendUnit_kept | (refine Kept.record ?_ rfl rfl rfl rfl rfl rfl rfl rfl; first | assumption | apply updPair_kept | apply sendUnit_kept) | intro _ | split

theorem sendPrep_kept {s₀ s : State} (f : Flight) (h : Kept s₀ s) :
    Kept s₀ (sendPrep s f) := by
  unfold sendPrep
  with_reducible repeat' first | assumption | apply stream_kept | (refine Kept.record ?_ rfl rfl rfl rfl rfl rfl rfl rfl; first | assumption | apply stream_kept) | intro _ | split

theorem dropPrep_kept {s₀ s : State} (i : Nat) (flight : Nat) (h : Kept s₀ s) :
    Kept s₀ (dropPrep s i flight) := by
  unfold dropPrep
  try dsimp only
  with_reducible repeat' first | assumption | apply updPair_kept | (refine Kept.record ?_ rfl rfl rfl rfl rfl rfl rfl rfl; first | assumption | apply updPair_kept) | intro _ | split

theorem sendCommit_kept {s₀ s : State} (f : Flight) (ep : Nat) (first : Nat) (items : List UpdItem) (h : Kept s₀ s) :
    Kept s₀ (sendCommit s f ep first items) := by
  unfold sendCommit
  try dsimp only
  with_reducible repeat' first | assumption | apply stream_kept | apply dropPrep_kept | (refine Kept.record ?_ rfl rfl rfl rfl rfl rfl rfl rfl; first | assumption | apply stream_kept | apply dropPrep_kept) | intro _ | split

theorem runDeferred_kept {s₀ s : State} (a : Deferred) (h : Kept s₀ s) :
    Kept s₀ (runDeferred s a) := by
  unfold runDeferred
  with_reducible repeat' first | assumption | apply sendFrame_kept | apply complete_kept | (refine Kept.record ?_ rfl rfl rfl rfl rfl rfl rfl rfl; first | assumption | apply sendFrame_kept | apply complete_kept) | intro _ | split

theorem releaseHeldActs_kept {s₀ s : State} (i : Nat) (ready : Held → Bool) (h : Kept s₀ s) :
    Kept s₀ (releaseHeldActs s i ready) := by
  unfold releaseHeldActs
  try dsimp only
  with_reducible repeat' first | assumption | apply runDeferred_kept | apply foldl_kept | apply foldl_kept1 | (refine Kept.record ?_ rfl rfl rfl rfl rfl rfl rfl rfl; first | assumption | apply runDeferred_kept | apply foldl_kept | apply foldl_kept1) | intro _ | split

theorem endStream_kept {s₀ s : State} (i : Nat) (h : Kept s₀ s) :
    Kept s₀ (endStream s i) := by
  unfold endStream
  try dsimp only
  with_reducible repeat' first | assumption | apply updPair_kept | apply releaseHeldActs_kept | (refine Kept.record ?_ rfl rfl rfl rfl rfl rfl rfl rfl; first | assumption | apply updPair_kept | apply releaseHeldActs_kept) | intro _ | split

theorem goSolo_kept {s₀ s : State} (i : Nat) (h : Kept s₀ s) :
    Kept s₀ (goSolo s i) := by
  unfold goSolo
  try dsimp only
  with_reducible repeat' first | assumption | apply updPair_kept | apply endStream_kept | (refine Kept.record ?_ rfl rfl rfl rfl rfl rfl rfl rfl; first | assumption | apply updPair_kept | apply endStream_kept) | intro _ | split

theorem abortPrep_kept {s₀ s : State} (f : Flight) (act : Deferred) (h : Kept s₀ s) :
    Kept s₀ (abortPrep s f act) := by
  unfold abortPrep
  try dsimp only
  with_reducible repeat' first | assumption | apply stream_kept | apply dropPrep_kept | apply runDeferred_kept | (refine Kept.record ?_ rfl rfl rfl rfl rfl rfl rfl rfl; first | assumption | apply stream_kept | apply dropPrep_kept | apply runDeferred_kept) | intro _ | apply Kept.ite | split

theorem ctlFail_kept {s₀ s : State} (h : Kept s₀ s) :
    Kept s₀ (ctlFail s) := by
  unfold ctlFail
  with_reducible repeat' first | assumption | apply count_kept | apply raiseErr_kept | intro _ | split

theorem ackUnit_kept {s₀ s : State} (i : Nat) (seq : Nat) (h : Kept s₀ s) :
    Kept s₀ (ackUnit s i seq) := by
  unfold ackUnit
  try dsimp only
  with_reducible repeat' first | assumption | apply updPair_kept | apply stream_kept | apply dropPrep_kept | apply releaseHeldActs_kept | (refine Kept.record ?_ rfl rfl rfl rfl rfl rfl rfl rfl; first | assumption | apply updPair_kept | apply stream_kept | apply dropPrep_kept | apply releaseHeldActs_kept) | intro _ | apply Kept.ite | split

theorem mirrorAck_kept {s₀ s : State} (f : Frame) (h : Kept s₀ s) :
    Kept s₀ (mirrorAck s f) := by
  unfold mirrorAck
  try dsimp only
  with_reducible repeat' first | assumption | apply raiseEvt_kept | apply goSolo_kept | apply ctlFail_kept | apply ackUnit_kept | (refine Kept.record ?_ rfl rfl rfl rfl rfl rfl rfl rfl; first | assumption | apply raiseEvt_kept | apply goSolo_kept | apply ctlFail_kept | apply ackUnit_kept) | intro _ | apply Kept.ite | split

theorem execMirrorAck_kept {s₀ s t : State} (f : Frame) (e : execMirrorAck f s = .next t) (h : Kept s₀ s) :
    Kept s₀ t := by
  unfold execMirrorAck at e
  injection e with e; subst e
  try dsimp only
  with_reducible repeat' first | assumption | apply receive_kept | apply mirrorAck_kept | intro _ | split

theorem resendUnit_kept {s₀ s : State} (i : Nat) (u : MUnit) (h : Kept s₀ s) :
    Kept s₀ (resendUnit i s u) := by
  unfold resendUnit
  try dsimp only
  with_reducible repeat' first | assumption | apply count_kept | apply updPair_kept | apply sendUnit_kept | (refine Kept.record ?_ rfl rfl rfl rfl rfl rfl rfl rfl; first | assumption | apply count_kept | apply updPair_kept | apply sendUnit_kept) | intro _ | apply Kept.ite | split

theorem mirrorResend_kept {s₀ s : State} (i : Nat) (h : Kept s₀ s) :
    Kept s₀ (mirrorResend s i) := by
  unfold mirrorResend
  with_reducible repeat' first | assumption | apply resendUnit_kept | apply foldl_kept | apply foldl_kept1 | intro _ | apply Kept.ite | split

theorem execMirrorResend_kept {s₀ s t : State} (pair : Fin 256) (e : execMirrorResend pair s = .next t) (h : Kept s₀ s) :
    Kept s₀ t := by
  unfold execMirrorResend at e
  injection e with e; subst e
  with_reducible repeat' first | assumption | apply mirrorResend_kept | intro _ | split

theorem sendClose_kept {s₀ s : State} (i : Nat) (ep : Nat) (last : Nat) (h : Kept s₀ s) :
    Kept s₀ (sendClose s i ep last) := by
  unfold sendClose
  try dsimp only
  with_reducible repeat' first | assumption | apply stream_kept | (refine Kept.record ?_ rfl rfl rfl rfl rfl rfl rfl rfl; first | assumption | apply stream_kept) | intro _ | split

theorem flushClose_kept {s₀ s : State} (i : Nat) (h : Kept s₀ s) :
    Kept s₀ (flushClose s i) := by
  unfold flushClose
  try dsimp only
  with_reducible repeat' first | assumption | apply updPair_kept | apply sendClose_kept | (refine Kept.record ?_ rfl rfl rfl rfl rfl rfl rfl rfl; first | assumption | apply updPair_kept | apply sendClose_kept) | intro _ | split

theorem openClose_kept {s₀ s : State} (i : Nat) (h : Kept s₀ s) :
    Kept s₀ (openClose s i) := by
  unfold openClose
  try dsimp only
  with_reducible repeat' first | assumption | apply updPair_kept | apply sendClose_kept | (refine Kept.record ?_ rfl rfl rfl rfl rfl rfl rfl rfl; first | assumption | apply updPair_kept | apply sendClose_kept) | intro _ | apply Kept.ite | split

theorem sendAck_kept {s₀ s : State} (i : Nat) (seq : Nat) (status : Nat) (cls : Nat) (h : Kept s₀ s) :
    Kept s₀ (sendAck s i seq status cls) := by
  unfold sendAck
  try dsimp only
  with_reducible repeat' first | assumption | apply sendFrame_kept | intro _ | split

theorem diverge_kept {s₀ s : State} (i : Nat) (u : MUnit) (h : Kept s₀ s) :
    Kept s₀ (diverge s i u) := by
  unfold diverge
  try dsimp only
  with_reducible repeat' first | assumption | apply raiseEvt_kept | apply updPair_kept | apply sendAck_kept | (refine Kept.record ?_ rfl rfl rfl rfl rfl rfl rfl rfl; first | assumption | apply raiseEvt_kept | apply updPair_kept | apply sendAck_kept) | intro _ | apply Kept.ite | split

theorem applyCommit_kept {s₀ s t : State} {i : Nat} {p : Pair} {c : Coll} {u : MUnit} (e : applyCommit s i p c u = .yes t) (h : Kept s₀ s) :
    Kept s₀ t := by
  unfold applyCommit at e
  dsimp only at e
  split at e
  · injection e with e; subst e; exact h
  · split at e
    · injection e with e; subst e; exact updPair_kept _ _ h
    · split at e
      · contradiction
      · split at e
        · injection e with e; subst e; exact commitTo_kept ‹_› (updPair_kept _ _ h)
        · contradiction

theorem applyClose_kept {s₀ s t : State} {i : Nat} {p : Pair} {c : Coll} {u : MUnit} (e : applyClose s i p c u = .yes t) (h : Kept s₀ s) :
    Kept s₀ t := by
  unfold applyClose at e
  dsimp only at e
  split at e
  · injection e with e; subst e
    exact foldl_kept _ (fun _ _ k => startTp_kept _ _ _ _ _ k) _ _ (updPair_kept _ _ h)
  · contradiction

theorem applyRows_kept {s₀ s : State} (n : Nat) (t : Table) (u : MUnit) (h : Kept s₀ s) :
    Kept s₀ (applyRows s n t u) := by
  unfold applyRows
  try dsimp only
  with_reducible repeat' first | assumption | refine scatterRow_kept ‹_› ?_ | apply scatterRow_kept1 | apply foldl_kept | apply foldl_kept1 | intro _ | split

theorem applyUnit_kept {s₀ s t : State} {i : Nat} {u : MUnit} (e : applyUnit s i u = .yes t) (h : Kept s₀ s) : Kept s₀ t := by
  unfold applyUnit at e
  dsimp only at e
  split at e
  · split at e
    · contradiction
    · split at e
      · exact applyCommit_kept e h
      · split at e
        · exact applyClose_kept e h
        · injection e with e; subst e; exact h
  · split at e
    · contradiction
    · split at e
      · injection e with e; subst e; exact applyRows_kept _ _ _ h
      · split at e <;> (injection e with e; subst e)
        · exact updPair_kept _ _ h
        · exact h

theorem drainUnits_kept {s₀ : State} (i : Nat) : ∀ (n : Nat) {s : State}, Kept s₀ s → Kept s₀ (drainUnits s i n)
  | 0, _, h => h
  | n + 1, s, h => by
    unfold drainUnits
    dsimp only
    split
    · exact h
    · split
      · exact h
      · exact diverge_kept _ _ h
      · exact drainUnits_kept i n (updPair_kept _ _ (applyUnit_kept ‹_› h))

theorem drainPair_kept {s₀ s : State} (i : Nat) (h : Kept s₀ s) :
    Kept s₀ (drainPair s i) := by
  unfold drainPair
  with_reducible repeat' first | assumption | apply drainUnits_kept | intro _ | apply Kept.ite | split

theorem mirrorUnit_kept {s₀ s : State} (f : Frame) (h : Kept s₀ s) :
    Kept s₀ (mirrorUnit s f) := by
  unfold mirrorUnit
  try dsimp only
  with_reducible repeat' first | assumption | apply updPair_kept | apply ctlFail_kept | apply sendAck_kept | apply diverge_kept | apply drainPair_kept | (refine Kept.record ?_ rfl rfl rfl rfl rfl rfl rfl rfl; first | assumption | apply updPair_kept | apply ctlFail_kept | apply sendAck_kept | apply diverge_kept | apply drainPair_kept) | intro _ | apply Kept.ite | split

theorem execMirrorPrep_kept {s₀ s t : State} (f : Frame) (e : execMirrorPrep f s = .next t) (h : Kept s₀ s) :
    Kept s₀ t := by
  unfold execMirrorPrep at e
  injection e with e; subst e
  try dsimp only
  with_reducible repeat' first | assumption | apply receive_kept | apply mirrorUnit_kept | intro _ | split

theorem execMirrorCommit_kept {s₀ s t : State} (f : Frame) (e : execMirrorCommit f s = .next t) (h : Kept s₀ s) :
    Kept s₀ t := by
  unfold execMirrorCommit at e
  injection e with e; subst e
  try dsimp only
  with_reducible repeat' first | assumption | apply receive_kept | apply mirrorUnit_kept | intro _ | apply Kept.ite | split

theorem execMirrorAbort_kept {s₀ s t : State} (f : Frame) (e : execMirrorAbort f s = .next t) (h : Kept s₀ s) :
    Kept s₀ t := by
  unfold execMirrorAbort at e
  injection e with e; subst e
  try dsimp only
  with_reducible repeat' first | assumption | apply receive_kept | apply mirrorUnit_kept | intro _ | apply Kept.ite | split

theorem execMirrorClose_kept {s₀ s t : State} (f : Frame) (e : execMirrorClose f s = .next t) (h : Kept s₀ s) :
    Kept s₀ t := by
  unfold execMirrorClose at e
  injection e with e; subst e
  try dsimp only
  with_reducible repeat' first | assumption | apply receive_kept | apply mirrorUnit_kept | intro _ | split

theorem execMirrorRows_kept {s₀ s t : State} (f : Frame) (e : execMirrorRows f s = .next t) (h : Kept s₀ s) :
    Kept s₀ t := by
  unfold execMirrorRows at e
  injection e with e; subst e
  try dsimp only
  with_reducible repeat' first | assumption | apply receive_kept | apply mirrorUnit_kept | intro _ | split

theorem commitOrphan_kept {s₀ s : State} (i : Nat) (t : Nat) (u : MUnit) (h : Kept s₀ s) :
    Kept s₀ (commitOrphan i t s u) := by
  unfold commitOrphan
  try dsimp only
  with_reducible repeat' first | assumption | refine commitTo_kept ‹_› ?_ | (refine Kept.record ?_ rfl rfl rfl rfl rfl rfl rfl rfl; first | assumption | refine commitTo_kept ‹_› ?_) | intro _ | split

theorem takeover_kept {s₀ s : State} (i : Nat) (h : Kept s₀ s) :
    Kept s₀ (takeover s i) := by
  unfold takeover
  try dsimp only
  with_reducible repeat' first | assumption | apply updPair_kept | refine applyUnit_kept ‹_› ?_ | apply commitOrphan_kept | apply foldl_kept | apply foldl_kept1 | (refine Kept.record ?_ rfl rfl rfl rfl rfl rfl rfl rfl; first | assumption | apply updPair_kept | refine applyUnit_kept ‹_› ?_ | apply commitOrphan_kept | apply foldl_kept | apply foldl_kept1) | intro _ | split

theorem openPair_kept {s₀ s : State} (i : Nat) (h : Kept s₀ s) :
    Kept s₀ (openPair s i) := by
  unfold openPair
  try dsimp only
  with_reducible repeat' first | assumption | apply wr64_kept | apply updPair_kept | apply endStream_kept | apply takeover_kept | (refine Kept.record ?_ rfl rfl rfl rfl rfl rfl rfl rfl; first | assumption | apply wr64_kept | apply updPair_kept | apply endStream_kept | apply takeover_kept) | intro _ | apply Kept.ite | split

theorem openPairs_kept {s₀ s : State} (h : Kept s₀ s) :
    Kept s₀ (openPairs s) := by
  unfold openPairs
  with_reducible repeat' first | assumption | apply openPair_kept | apply foldl_kept | apply foldl_kept1 | intro _ | split

theorem sendOwnerRead_kept {s₀ s : State} (dst : Nat) (cls : Nat) (object : Nat) (objKind : Nat) (off : Nat) (n : Nat) (h : Kept s₀ s) :
    Kept s₀ (sendOwnerRead s dst cls object objKind off n) := by
  unfold sendOwnerRead
  try dsimp only
  with_reducible repeat' first | assumption | apply sendFrame_kept | (refine Kept.record ?_ rfl rfl rfl rfl rfl rfl rfl rfl; first | assumption | apply sendFrame_kept) | intro _ | split

theorem askRemote_kept {s₀ s : State} (cls : Nat) (r : RemoteRead) (h : Kept s₀ s) :
    Kept s₀ (askRemote s cls r) := by
  unfold askRemote
  try dsimp only
  with_reducible repeat' first | assumption | apply sendOwnerRead_kept | (refine Kept.record ?_ rfl rfl rfl rfl rfl rfl rfl rfl; first | assumption | apply sendOwnerRead_kept) | intro _ | split

theorem remoteRead_kept {s₀ s : State} (obj : Nat) (cls : Nat) (r : RemoteRead) (h : Kept s₀ s) :
    Kept s₀ (remoteRead s obj cls r) := by
  unfold remoteRead
  try dsimp only
  with_reducible repeat' first | assumption | apply count_kept | apply askRemote_kept | (refine Kept.record ?_ rfl rfl rfl rfl rfl rfl rfl rfl; first | assumption | apply count_kept | apply askRemote_kept) | intro _ | apply Kept.ite | split

theorem mirrorRead_kept {s₀ s : State} (range : Nat) (cls : Nat) (r : RemoteRead) (h : Kept s₀ s) :
    Kept s₀ (mirrorRead s range cls r) := by
  unfold mirrorRead
  with_reducible repeat' first | assumption | apply askRemote_kept | (refine Kept.record ?_ rfl rfl rfl rfl rfl rfl rfl rfl; first | assumption | apply askRemote_kept) | intro _ | split

end Sys2Proof.Machine
end

