-- ==== Sys2Proof/Laws/KeptRake.lean ====
section
/-! SUPPORT. The definitions of Machine/Rake.lean keep what Kept says. -/
set_option linter.unusedTactic false
set_option linter.unreachableTactic false
namespace Sys2Proof.Machine

theorem mapDone_kept {s₀ s : State} (h : Kept s₀ s) :
    Kept s₀ (mapDone s) := by
  unfold mapDone
  with_reducible repeat' first | assumption | apply raiseEvt_kept | intro _ | split

theorem shardmapLoad_kept {s₀ s : State} (b : List Byte) (h : Kept s₀ s) :
    Kept s₀ (shardmapLoad s b) := by
  unfold shardmapLoad
  try dsimp only
  with_reducible repeat' first | assumption | apply wr_kept | apply updColl_kept | apply mapDone_kept | (refine Kept.record ?_ rfl rfl rfl rfl rfl rfl rfl rfl; first | assumption | apply wr_kept | apply updColl_kept | apply mapDone_kept) | intro _ | apply Kept.ite | split

theorem execShardmapLoad_kept {s₀ s t : State}  (e : execShardmapLoad s = .next t) (h : Kept s₀ s) :
    Kept s₀ t := by
  unfold execShardmapLoad at e
  try dsimp only at e
  (repeat' split at e) <;> first
    | contradiction
    | (injection e with e; subst e)
  all_goals
    with_reducible repeat' first | assumption | apply shardmapLoad_kept | intro _ | apply Kept.ite | split

theorem shardmapRetire_kept {s₀ s : State} (h : Kept s₀ s) :
    Kept s₀ (shardmapRetire s) := by
  unfold shardmapRetire
  try dsimp only
  with_reducible repeat' first | assumption | apply updColl_kept | apply mapDone_kept | (refine Kept.record ?_ rfl rfl rfl rfl rfl rfl rfl rfl; first | assumption | apply updColl_kept | apply mapDone_kept) | intro _ | split

theorem execShardmapRetire_kept {s₀ s t : State} (e : execShardmapRetire s = .next t) (h : Kept s₀ s) :
    Kept s₀ t := by
  unfold execShardmapRetire at e
  injection e with e; subst e
  with_reducible repeat' first | assumption | apply shardmapRetire_kept | intro _ | split

theorem openMaps_kept {s₀ s : State} (h : Kept s₀ s) :
    Kept s₀ (openMaps s) := by
  unfold openMaps
  try dsimp only
  with_reducible repeat' first | assumption | (refine Kept.record ?_ rfl rfl rfl rfl rfl rfl rfl rfl; first | assumption) | intro _ | split

theorem updFlight_kept {s₀ s : State} (id : Nat) (g : Flight → Flight) (h : Kept s₀ s) :
    Kept s₀ (updFlight s id g) := by
  unfold updFlight
  try dsimp only
  with_reducible repeat' first | assumption | (refine Kept.record ?_ rfl rfl rfl rfl rfl rfl rfl rfl; first | assumption) | intro _ | apply Kept.ite | split

theorem updPart_kept {s₀ s : State} (id : Nat) (g : Flight → Flight) (h : Kept s₀ s) :
    Kept s₀ (updPart s id g) := by
  unfold updPart
  try dsimp only
  with_reducible repeat' first | assumption | (refine Kept.record ?_ rfl rfl rfl rfl rfl rfl rfl rfl; first | assumption) | intro _ | apply Kept.ite | split

theorem meterFabric_kept {s₀ s : State} (t : Nat) (n : Nat) (h : Kept s₀ s) :
    Kept s₀ (meterFabric s t n) := by
  unfold meterFabric
  with_reducible repeat' first | assumption | apply meter_kept | intro _ | split

theorem sendRake_kept {s₀ s : State} (typ : Nat) (t : Nat) (cls : Nat) (dst : Nat) (object : Nat) (flow : Nat) (pay : List Byte) (h : Kept s₀ s) :
    Kept s₀ (sendRake s typ t cls dst object flow pay) := by
  unfold sendRake
  with_reducible repeat' first | assumption | apply sendFrame_kept | apply meterFabric_kept | intro _ | split

theorem addPart_kept {s₀ s : State} (f : Flight) (h : Kept s₀ s) :
    Kept s₀ (addPart s f) := by
  unfold addPart
  with_reducible repeat' first | assumption | (refine Kept.record ?_ rfl rfl rfl rfl rfl rfl rfl rfl; first | assumption) | intro _ | split

theorem takeQuery_kept {s₀ s r : State} {q : Query} (e : takeQuery s q = .ok r) (h : Kept s₀ s) : Kept s₀ r := by
  unfold takeQuery at e
  dsimp only at e
  split at e
  · split at e
    · injection e with e; subst e; exact addPart_kept _ h
    · contradiction
  · contradiction

theorem sendShard_kept1 {s₀ s : State} (f : Flight) (shard : Nat) (node : Nat) (coll : Nat) (j : Nat) (replay : Bool) (h : Kept s₀ s) :
    Kept s₀ (sendShard s f shard node coll j replay).1 := by
  unfold sendShard
  try dsimp only
  with_reducible repeat' first | assumption | apply count_kept | apply updFlight_kept | apply sendRake_kept | refine takeQuery_kept ‹_› ?_ | (refine Kept.record ?_ rfl rfl rfl rfl rfl rfl rfl rfl; first | assumption | apply count_kept | apply updFlight_kept | apply sendRake_kept | refine takeQuery_kept ‹_› ?_) | intro _ | apply Kept.ite1 | split

theorem sendShard_kept {s₀ s r : State} {x : Option Nat} {f : Flight} {shard : Nat} {node : Nat} {coll : Nat} {j : Nat} {replay : Bool} (e₁ : sendShard s f shard node coll j replay = (r, x)) (h : Kept s₀ s) :
    Kept s₀ r := by
  have k := sendShard_kept1 f shard node coll j replay h
  rwa [e₁] at k

theorem tryReplay_kept {s₀ s : State} (id : Nat) (shard : Nat) (node : Nat) (h : Kept s₀ s) :
    Kept s₀ (tryReplay s id shard node) := by
  unfold tryReplay
  try dsimp only
  with_reducible repeat' first | assumption | apply count_kept | apply raiseEvt_kept | refine sendShard_kept ‹_› ?_ | apply sendShard_kept1 | (refine Kept.record ?_ rfl rfl rfl rfl rfl rfl rfl rfl; first | assumption | apply count_kept | apply raiseEvt_kept | refine sendShard_kept ‹_› ?_ | apply sendShard_kept1) | intro _ | apply Kept.ite | split

theorem takeContrib_kept {s₀ s : State} (b : List Byte) (h : Kept s₀ s) :
    Kept s₀ (takeContrib s b) := by
  unfold takeContrib
  try dsimp only
  with_reducible repeat' first | assumption | apply count_kept | apply updFlight_kept | apply tryReplay_kept | (refine Kept.record ?_ rfl rfl rfl rfl rfl rfl rfl rfl; first | assumption | apply count_kept | apply updFlight_kept | apply tryReplay_kept) | intro _ | apply Kept.ite | split

theorem toCoord_kept {s₀ s : State} (f : Flight) (p : PartInfo) (pay : List Byte) (h : Kept s₀ s) :
    Kept s₀ (toCoord s f p pay) := by
  unfold toCoord
  try dsimp only
  with_reducible repeat' first | assumption | apply sendRake_kept | apply takeContrib_kept | (refine Kept.record ?_ rfl rfl rfl rfl rfl rfl rfl rfl; first | assumption | apply sendRake_kept | apply takeContrib_kept) | intro _ | apply Kept.ite | split

theorem sendNone_kept {s₀ s : State} (f : Flight) (p : PartInfo) (reason : Nat) (h : Kept s₀ s) :
    Kept s₀ (sendNone s f p reason) := by
  unfold sendNone
  with_reducible repeat' first | assumption | apply count_kept | apply toCoord_kept | intro _ | split

theorem rakeQuery_kept {s₀ s : State} (f : Frame) (h : Kept s₀ s) :
    Kept s₀ (rakeQuery s f) := by
  unfold rakeQuery
  try dsimp only
  with_reducible repeat' first | assumption | apply count_kept | apply sendFrame_kept | apply ctlFail_kept | apply meterFabric_kept | refine takeQuery_kept ‹_› ?_ | (refine Kept.record ?_ rfl rfl rfl rfl rfl rfl rfl rfl; first | assumption | apply count_kept | apply sendFrame_kept | apply ctlFail_kept | apply meterFabric_kept | refine takeQuery_kept ‹_› ?_) | intro _ | apply Kept.ite | split

theorem execRakeQuery_kept {s₀ s t : State} (f : Frame) (e : execRakeQuery f s = .next t) (h : Kept s₀ s) :
    Kept s₀ t := by
  unfold execRakeQuery at e
  injection e with e; subst e
  try dsimp only
  with_reducible repeat' first | assumption | apply receive_kept | apply rakeQuery_kept | intro _ | split

theorem rakeContrib_kept {s₀ s : State} (f : Frame) (h : Kept s₀ s) :
    Kept s₀ (rakeContrib s f) := by
  unfold rakeContrib
  try dsimp only
  with_reducible repeat' first | assumption | apply ctlFail_kept | apply meterFabric_kept | apply takeContrib_kept | (refine Kept.record ?_ rfl rfl rfl rfl rfl rfl rfl rfl; first | assumption | apply ctlFail_kept | apply meterFabric_kept | apply takeContrib_kept) | intro _ | apply Kept.ite | split

theorem execRakeContrib_kept {s₀ s t : State} (f : Frame) (e : execRakeContrib f s = .next t) (h : Kept s₀ s) :
    Kept s₀ t := by
  unfold execRakeContrib at e
  injection e with e; subst e
  try dsimp only
  with_reducible repeat' first | assumption | apply receive_kept | apply rakeContrib_kept | intro _ | split

theorem sendShards_kept {s₀ s : State} (id : Nat) (h : Kept s₀ s) :
    Kept s₀ (sendShards s id) := by
  unfold sendShards
  try dsimp only
  with_reducible repeat' first | assumption | refine sendShard_kept ‹_› ?_ | apply sendShard_kept1 | apply takeContrib_kept | apply foldl_kept | apply foldl_kept1 | (refine Kept.record ?_ rfl rfl rfl rfl rfl rfl rfl rfl; first | assumption | refine sendShard_kept ‹_› ?_ | apply sendShard_kept1 | apply takeContrib_kept | apply foldl_kept | apply foldl_kept1) | intro _ | apply Kept.ite | split

theorem countMerged_kept {s₀ s : State} (f : Flight) (h : Kept s₀ s) :
    Kept s₀ (countMerged s f) := by
  unfold countMerged
  try dsimp only
  with_reducible repeat' first | assumption | apply countN_kept | intro _ | split

end Sys2Proof.Machine
end

