-- ==== Sys2Proof/Laws/KeptResults.lean ====
section
/-! SUPPORT. The definitions of Machine/Results.lean keep what Kept says. -/
set_option linter.unusedTactic false
set_option linter.unreachableTactic false
namespace Sys2Proof.Machine

theorem updWork_kept {s₀ s : State} (id : Nat) (g : Flight → Flight) (h : Kept s₀ s) :
    Kept s₀ (updWork s id g) := by
  unfold updWork
  with_reducible repeat' first | assumption | apply updFlight_kept | apply updPart_kept | intro _ | split

theorem skipShadow_kept {s₀ s : State} (h : Kept s₀ s) :
    Kept s₀ (skipShadow s) := by
  unfold skipShadow
  with_reducible repeat' first | assumption | apply count_kept | intro _ | split

theorem setGraft_kept {s₀ s : State} (g : Graft → Graft) (h : Kept s₀ s) :
    Kept s₀ (setGraft s g) := by
  unfold setGraft
  with_reducible repeat' first | assumption | (refine Kept.record ?_ rfl rfl rfl rfl rfl rfl rfl rfl; first | assumption) | intro _ | split

theorem compareShadow_kept {s₀ s : State} (k : Nat) (h : Kept s₀ s) :
    Kept s₀ (compareShadow s k) := by
  unfold compareShadow
  try dsimp only
  with_reducible repeat' first | assumption | apply wr_kept | apply wr64_kept | apply count_kept | apply countBy_kept | apply raiseEvt_kept | apply skipShadow_kept | apply setGraft_kept | (refine Kept.record ?_ rfl rfl rfl rfl rfl rfl rfl rfl; first | assumption | apply wr_kept | apply wr64_kept | apply count_kept | apply countBy_kept | apply raiseEvt_kept | apply skipShadow_kept | apply setGraft_kept) | intro _ | apply Kept.ite | split

theorem shadowOwn_kept {s₀ s : State} (f : Flight) (p : PartInfo) (ok : Bool) (h : Kept s₀ s) :
    Kept s₀ (shadowOwn s f p ok) := by
  unfold shadowOwn
  try dsimp only
  with_reducible repeat' first | assumption | apply skipShadow_kept | apply setGraft_kept | apply compareShadow_kept | (refine Kept.record ?_ rfl rfl rfl rfl rfl rfl rfl rfl; first | assumption | apply skipShadow_kept | apply setGraft_kept | apply compareShadow_kept) | intro _ | apply Kept.ite | split

theorem sendShadowResult_kept {s₀ s : State} (f : Flight) (h : Kept s₀ s) :
    Kept s₀ (sendShadowResult s f) := by
  unfold sendShadowResult
  try dsimp only
  with_reducible repeat' first | assumption | apply sendFrame_kept | apply updWork_kept | apply foldl_kept | apply foldl_kept1 | (refine Kept.record ?_ rfl rfl rfl rfl rfl rfl rfl rfl; first | assumption | apply sendFrame_kept | apply updWork_kept | apply foldl_kept | apply foldl_kept1) | intro _ | split

theorem dropFlight_kept {s₀ s : State} (id : Nat) (h : Kept s₀ s) : Kept s₀ (dropFlight s id) :=
  Kept.record h rfl rfl rfl rfl rfl rfl rfl (by simp [shapeOf])

theorem holdRows_kept {s₀ s : State} (f : Flight) (act : Deferred) (h : Kept s₀ s) :
    Kept s₀ (holdRows s f act) := by
  unfold holdRows
  try dsimp only
  with_reducible repeat' first | assumption | apply runDeferred_kept | (refine Kept.record ?_ rfl rfl rfl rfl rfl rfl rfl rfl; first | assumption | apply runDeferred_kept) | intro _ | apply Kept.ite | split

theorem updateEnded_kept1 {s₀ s : State} (f : Flight) (status : Nat) (h : Kept s₀ s) :
    Kept s₀ (updateEnded s f status).2 := by
  unfold updateEnded
  try dsimp only
  with_reducible repeat' first | assumption | refine freshEpoch_kept ‹_› ?_ | apply freshEpoch_kept1 | (refine Kept.record ?_ rfl rfl rfl rfl rfl rfl rfl rfl; first | assumption | refine freshEpoch_kept ‹_› ?_ | apply freshEpoch_kept1) | intro _ | split

theorem updateEnded_kept {s₀ s r : State} {x : List Byte} {f : Flight} {status : Nat} (e₁ : updateEnded s f status = (x, r)) (h : Kept s₀ s) :
    Kept s₀ r := by
  have k := updateEnded_kept1 f status h
  rwa [e₁] at k

theorem releaseCopy_kept {s₀ s : State} (f : Flight) (h : Kept s₀ s) :
    Kept s₀ (releaseCopy s f) := by
  unfold releaseCopy
  try dsimp only
  with_reducible repeat' first | assumption | apply putColl_kept | apply setSeedHigh_kept | (refine Kept.record ?_ rfl rfl rfl rfl rfl rfl rfl rfl; first | assumption | apply putColl_kept | apply setSeedHigh_kept) | (refine Kept.record ?_ rfl rfl rfl rfl rfl rfl rfl (by simp [shapeOf]); first | assumption | apply putColl_kept | apply setSeedHigh_kept) | intro _ | split

theorem endFlight_kept {s₀ s : State} (f : Flight) (status : Nat) (h : Kept s₀ s) :
    Kept s₀ (endFlight s f status) := by
  unfold endFlight
  try dsimp only
  with_reducible repeat' first | assumption | apply complete_kept | apply settleTable_kept | apply countRefused_kept | apply abortPrep_kept | apply sendNone_kept | apply shadowOwn_kept | apply dropFlight_kept | apply holdRows_kept | refine updateEnded_kept ‹_› ?_ | apply updateEnded_kept1 | apply releaseCopy_kept | (refine Kept.record ?_ rfl rfl rfl rfl rfl rfl rfl rfl; first | assumption | apply complete_kept | apply settleTable_kept | apply countRefused_kept | apply abortPrep_kept | apply sendNone_kept | apply shadowOwn_kept | apply dropFlight_kept | apply holdRows_kept | refine updateEnded_kept ‹_› ?_ | apply updateEnded_kept1 | apply releaseCopy_kept) | intro _ | apply Kept.ite | split

theorem failFlight_kept {s₀ s : State} (f : Flight) (h : Kept s₀ s) :
    Kept s₀ (failFlight s f) := by
  unfold failFlight
  with_reducible repeat' first | assumption | apply endFlight_kept | intro _ | split

end Sys2Proof.Machine
end

