-- ==== Sys2Proof/Laws/KeptRows.lean ====
section
/-! SUPPORT. The definitions of Machine/Rows.lean keep what Kept says. -/
set_option linter.unusedTactic false
set_option linter.unreachableTactic false
namespace Sys2Proof.Machine

theorem sendRows_kept {s₀ s : State} (f : Flight) (t : Table) (l : List (RowItem × Nat)) (h : Kept s₀ s) :
    Kept s₀ (sendRows s f t l) := by
  unfold sendRows
  try dsimp only
  with_reducible repeat' first | assumption | apply updFlight_kept | apply sendRake_kept | apply foldl_kept | apply foldl_kept1 | (refine Kept.record ?_ rfl rfl rfl rfl rfl rfl rfl rfl; first | assumption | apply updFlight_kept | apply sendRake_kept | apply foldl_kept | apply foldl_kept1) | intro _ | apply Kept.ite | split

theorem rowRead_kept {s₀ s : State} (n : Nat) (key : Quad) (h : Kept s₀ s) :
    Kept s₀ (rowRead s n key) := by
  unfold rowRead
  try dsimp only
  with_reducible repeat' first | assumption | apply cacheHit_kept | (refine Kept.record ?_ rfl rfl rfl rfl rfl rfl rfl rfl; first | assumption | apply cacheHit_kept) | intro _ | apply Kept.ite | split

theorem fetchRow_kept {s₀ s : State} (f : Flight) (r : RowItem) (i : Nat) (h : Kept s₀ s) :
    Kept s₀ (fetchRow s f r i) := by
  unfold fetchRow
  try dsimp only
  with_reducible repeat' first | assumption | apply mirrorRead_kept | (refine Kept.record ?_ rfl rfl rfl rfl rfl rfl rfl rfl; first | assumption | apply mirrorRead_kept) | intro _ | apply Kept.ite | split

theorem fetchRows_kept {s₀ s : State} (f : Flight) (h : Kept s₀ s) :
    Kept s₀ (fetchRows s f) := by
  unfold fetchRows
  try dsimp only
  with_reducible repeat' first | assumption | apply fetchRow_kept | apply foldl_kept | apply foldl_kept1 | intro _ | split

theorem gatherRows_kept {s₀ s : State} (f : Flight) (h : Kept s₀ s) :
    Kept s₀ (gatherRows s f) := by
  unfold gatherRows
  try dsimp only
  with_reducible repeat' first | assumption | refine lookupRow_kept ‹_› ?_ | apply lookupRow_kept1 | apply remoteRead_kept | apply updWork_kept | apply rowRead_kept | apply fetchRow_kept | apply foldl_kept | apply foldl_kept1 | (refine Kept.record ?_ rfl rfl rfl rfl rfl rfl rfl rfl; first | assumption | refine lookupRow_kept ‹_› ?_ | apply lookupRow_kept1 | apply remoteRead_kept | apply updWork_kept | apply rowRead_kept | apply fetchRow_kept | apply foldl_kept | apply foldl_kept1) | intro _ | apply Kept.ite | split

theorem exchangeRows_kept {s₀ s : State} (f : Flight) (h : Kept s₀ s) :
    Kept s₀ (exchangeRows s f) := by
  unfold exchangeRows
  try dsimp only
  with_reducible repeat' first | assumption | apply sendRows_kept | intro _ | apply Kept.ite | split

theorem streamRows_kept {s₀ s : State} (n : Nat) (cls : Nat) (flight : Nat) (epoch : Nat) (params : List Byte) (es : List (List Byte)) (h : Kept s₀ s) :
    Kept s₀ (streamRows s n cls flight epoch params es) := by
  unfold streamRows
  with_reducible repeat' first | assumption | apply stream_kept | (refine Kept.record ?_ rfl rfl rfl rfl rfl rfl rfl rfl; first | assumption | apply stream_kept) | intro _ | apply Kept.ite | split

theorem putFetched_kept {s₀ s : State} (n : Nat) (key : Quad) (b : List Byte) (h : Kept s₀ s) :
    Kept s₀ (putFetched s n key b) := by
  unfold putFetched
  try dsimp only
  with_reducible repeat' first | assumption | apply setTable_kept | (refine Kept.record ?_ rfl rfl rfl rfl rfl rfl rfl rfl; first | assumption | apply setTable_kept) | intro _ | split

theorem applyRow_kept1 {s₀ s : State} (n : Nat) (tenant : Nat) (p : OptParams) (fmt : Nat) (key : Quad) (grad : List Byte) (fetched : List Byte) (h : Kept s₀ s) :
    Kept s₀ (applyRow s n tenant p fmt key grad fetched).1 := by
  unfold applyRow
  try dsimp only
  with_reducible repeat' first | assumption | apply meter_kept | refine scatterRow_kept ‹_› ?_ | apply scatterRow_kept1 | apply putFetched_kept | intro _ | apply Kept.ite1 | split

theorem applyRow_kept {s₀ s r : State} {x : Nat × List (List Byte)} {n : Nat} {tenant : Nat} {p : OptParams} {fmt : Nat} {key : Quad} {grad : List Byte} {fetched : List Byte} (e₁ : applyRow s n tenant p fmt key grad fetched = (r, x)) (h : Kept s₀ s) :
    Kept s₀ r := by
  have k := applyRow_kept1 n tenant p fmt key grad fetched h
  rwa [e₁] at k

theorem showBatch_kept {s₀ s : State} (f : Flight) (h : Kept s₀ s) :
    Kept s₀ (showBatch s f) := by
  unfold showBatch
  with_reducible repeat' first | assumption | apply setTable_kept | (refine Kept.record ?_ rfl rfl rfl rfl rfl rfl rfl rfl; first | assumption | apply setTable_kept) | intro _ | apply Kept.ite | split

theorem scatterTo_kept {s₀ s : State} (f : Flight) (upto : Nat) (h : Kept s₀ s) :
    Kept s₀ (scatterTo s f upto) := by
  unfold scatterTo
  try dsimp only
  with_reducible repeat' first | assumption | apply setTable_kept | apply updFlight_kept | apply sendRows_kept | apply streamRows_kept | refine applyRow_kept ‹_› ?_ | apply applyRow_kept1 | apply foldl_kept | apply foldl_kept1 | (refine Kept.record ?_ rfl rfl rfl rfl rfl rfl rfl rfl; first | assumption | apply setTable_kept | apply updFlight_kept | apply sendRows_kept | apply streamRows_kept | refine applyRow_kept ‹_› ?_ | apply applyRow_kept1 | apply foldl_kept | apply foldl_kept1) | intro _ | apply Kept.ite | split

theorem showNext_kept {s₀ s : State} (n : Nat) (h : Kept s₀ s) :
    Kept s₀ (showNext s n) := by
  unfold showNext
  try dsimp only
  with_reducible repeat' first | assumption | apply showBatch_kept | (refine Kept.record ?_ rfl rfl rfl rfl rfl rfl rfl rfl; first | assumption | apply showBatch_kept) | intro _ | split

theorem sendReply_kept {s₀ s : State} (b : List Byte) (cls : Nat) (wait : List Nat) (pair : Nat) (es : List (List Byte)) (h : Kept s₀ s) :
    Kept s₀ (sendReply s b cls wait pair es) := by
  unfold sendReply
  try dsimp only
  with_reducible repeat' first | assumption | apply sendFrame_kept | apply foldl_kept | apply foldl_kept1 | (refine Kept.record ?_ rfl rfl rfl rfl rfl rfl rfl rfl; first | assumption | apply sendFrame_kept | apply foldl_kept | apply foldl_kept1) | intro _ | apply Kept.ite | split

theorem rowReq_kept {s₀ s : State} (f : Frame) (h : Kept s₀ s) :
    Kept s₀ (rowReq s f) := by
  unfold rowReq
  try dsimp only
  with_reducible repeat' first | assumption | apply ctlFail_kept | apply meterFabric_kept | apply addPart_kept | apply sendReply_kept | (refine Kept.record ?_ rfl rfl rfl rfl rfl rfl rfl rfl; first | assumption | apply ctlFail_kept | apply meterFabric_kept | apply addPart_kept | apply sendReply_kept) | intro _ | apply Kept.ite | split

theorem execRowReq_kept {s₀ s t : State} (f : Frame) (e : execRowReq f s = .next t) (h : Kept s₀ s) :
    Kept s₀ t := by
  unfold execRowReq at e
  injection e with e; subst e
  try dsimp only
  with_reducible repeat' first | assumption | apply receive_kept | apply rowReq_kept | intro _ | split

theorem freshParams_kept1 {s₀ s : State} (h : Kept s₀ s) :
    Kept s₀ (freshParams s).2 := by
  unfold freshParams
  try dsimp only
  with_reducible repeat' first | assumption | refine freshWord_kept ‹_› ?_ | apply freshWord_kept1 | intro _ | split

theorem freshParams_kept {s₀ s r : State} {x : OptParams} (e₁ : freshParams s = (x, r)) (h : Kept s₀ s) :
    Kept s₀ r := by
  have k := freshParams_kept1 h
  rwa [e₁] at k

theorem serveLookup_kept {s₀ s : State} (f : Flight) (h : Kept s₀ s) :
    Kept s₀ (serveLookup s f) := by
  unfold serveLookup
  try dsimp only
  with_reducible repeat' first | assumption | apply settleTable_kept | apply meterFabric_kept | apply dropFlight_kept | apply gatherRows_kept | apply sendReply_kept | apply foldl_kept | apply foldl_kept1 | (refine Kept.record ?_ rfl rfl rfl rfl rfl rfl rfl rfl; first | assumption | apply settleTable_kept | apply meterFabric_kept | apply dropFlight_kept | apply gatherRows_kept | apply sendReply_kept | apply foldl_kept | apply foldl_kept1) | intro _ | apply Kept.ite | split

theorem serveScatter_kept {s₀ s : State} (f : Flight) (h : Kept s₀ s) :
    Kept s₀ (serveScatter s f) := by
  unfold serveScatter
  try dsimp only
  with_reducible repeat' first | assumption | apply settleTable_kept | apply meterFabric_kept | apply dropFlight_kept | apply fetchRows_kept | apply streamRows_kept | refine applyRow_kept ‹_› ?_ | apply applyRow_kept1 | apply sendReply_kept | refine freshParams_kept ‹_› ?_ | apply freshParams_kept1 | apply foldl_kept | apply foldl_kept1 | (refine Kept.record ?_ rfl rfl rfl rfl rfl rfl rfl rfl; first | assumption | apply settleTable_kept | apply meterFabric_kept | apply dropFlight_kept | apply fetchRows_kept | apply streamRows_kept | refine applyRow_kept ‹_› ?_ | apply applyRow_kept1 | apply sendReply_kept | refine freshParams_kept ‹_› ?_ | apply freshParams_kept1 | apply foldl_kept | apply foldl_kept1) | intro _ | apply Kept.ite | split

theorem serveRows_kept {s₀ s : State} (f : Flight) (h : Kept s₀ s) :
    Kept s₀ (serveRows s f) := by
  unfold serveRows
  try dsimp only
  with_reducible repeat' first | assumption | apply updPart_kept | apply serveLookup_kept | apply serveScatter_kept | (refine Kept.record ?_ rfl rfl rfl rfl rfl rfl rfl rfl; first | assumption | apply updPart_kept | apply serveLookup_kept | apply serveScatter_kept) | intro _ | apply Kept.ite | split

theorem rowReply_kept {s₀ s : State} (f : Frame) (h : Kept s₀ s) :
    Kept s₀ (rowReply s f) := by
  unfold rowReply
  try dsimp only
  with_reducible repeat' first | assumption | apply count_kept | apply ctlFail_kept | apply updFlight_kept | apply meterFabric_kept | apply foldl_kept | apply foldl_kept1 | (refine Kept.record ?_ rfl rfl rfl rfl rfl rfl rfl rfl; first | assumption | apply count_kept | apply ctlFail_kept | apply updFlight_kept | apply meterFabric_kept | apply foldl_kept | apply foldl_kept1) | intro _ | apply Kept.ite | split

theorem execRowReply_kept {s₀ s t : State} (f : Frame) (e : execRowReply f s = .next t) (h : Kept s₀ s) :
    Kept s₀ t := by
  unfold execRowReply at e
  injection e with e; subst e
  try dsimp only
  with_reducible repeat' first | assumption | apply receive_kept | apply rowReply_kept | intro _ | split

theorem ownerGone_kept {s₀ s : State} (node : Nat) (h : Kept s₀ s) :
    Kept s₀ (ownerGone s node) := by
  unfold ownerGone
  try dsimp only
  with_reducible repeat' first | assumption | (refine Kept.record ?_ rfl rfl rfl rfl rfl rfl rfl rfl; first | assumption) | intro _ | apply Kept.ite | split

end Sys2Proof.Machine
end

