-- ==== Sys2Proof/Laws/KeptStages.lean ====
section
/-! SUPPORT. The definitions of Machine/Stages.lean keep what Kept says. -/
set_option linter.unusedTactic false
set_option linter.unreachableTactic false
namespace Sys2Proof.Machine

theorem tileStats_kept {s₀ s : State} (f : Flight) (d : StageDef) (sat : Nat) (nan : Nat) (h : Kept s₀ s) :
    Kept s₀ (tileStats s f d sat nan) := by
  unfold tileStats
  try dsimp only
  with_reducible repeat' first | assumption | apply countBy_kept | apply foldl_kept | apply foldl_kept1 | (refine Kept.record ?_ rfl rfl rfl rfl rfl rfl rfl rfl; first | assumption | apply countBy_kept | apply foldl_kept | apply foldl_kept1) | intro _ | apply Kept.ite | split

theorem traceChan_kept1 {s₀ s : State} (f : Flight) (h : Kept s₀ s) :
    Kept s₀ (traceChan s f).2 := by
  unfold traceChan
  try dsimp only
  with_reducible repeat' first | assumption | refine freshWord_kept ‹_› ?_ | apply freshWord_kept1 | intro _ | apply Kept.ite2 | split

theorem traceChan_kept {s₀ s r : State} {x : Nat} {f : Flight} (e₁ : traceChan s f = (x, r)) (h : Kept s₀ s) :
    Kept s₀ r := by
  have k := traceChan_kept1 f h
  rwa [e₁] at k

theorem traceStage_kept {s₀ s : State} (f : Flight) (d : StageDef) (gs : List Nat) (sflags : Nat) (h : Kept s₀ s) :
    Kept s₀ (traceStage s f d gs sflags) := by
  unfold traceStage
  try dsimp only
  with_reducible repeat' first | assumption | apply emitStage_kept | refine traceChan_kept ‹_› ?_ | apply traceChan_kept1 | apply foldl_kept | apply foldl_kept1 | intro _ | split

theorem traceLanding_kept {s₀ s : State} (f : Flight) (no : Nat) (outcome : Nat) (h : Kept s₀ s) :
    Kept s₀ (traceLanding s f no outcome) := by
  unfold traceLanding
  try dsimp only
  with_reducible repeat' first | assumption | apply emitLanding_kept | refine traceChan_kept ‹_› ?_ | apply traceChan_kept1 | (refine Kept.record ?_ rfl rfl rfl rfl rfl rfl rfl rfl; first | assumption | apply emitLanding_kept | refine traceChan_kept ‹_› ?_ | apply traceChan_kept1) | intro _ | split

theorem takeBack_kept {s₀ s : State} (f : Flight) (b : BackDef) (o : Nat) (h : Kept s₀ s) :
    Kept s₀ (takeBack s f b o) := by
  unfold takeBack
  try dsimp only
  with_reducible repeat' first | assumption | apply count_kept | apply meter_kept | apply updWork_kept | (refine Kept.record ?_ rfl rfl rfl rfl rfl rfl rfl rfl; first | assumption | apply count_kept | apply meter_kept | apply updWork_kept) | intro _ | split

theorem projectStage_kept {s₀ s : State} (f : Flight) (d : StageDef) (h : Kept s₀ s) :
    Kept s₀ (projectStage s f d) := by
  unfold projectStage
  try dsimp only
  with_reducible repeat' first | assumption | apply updWork_kept | apply tileStats_kept | (refine Kept.record ?_ rfl rfl rfl rfl rfl rfl rfl rfl; first | assumption | apply updWork_kept | apply tileStats_kept) | intro _ | apply Kept.ite | split

theorem descendStage_kept {s₀ s : State} (f : Flight) (d : StageDef) (h : Kept s₀ s) :
    Kept s₀ (descendStage s f d) := by
  unfold descendStage
  try dsimp only
  with_reducible repeat' first | assumption | apply trellisFails_kept | apply updWork_kept | apply endFlight_kept | apply tileStats_kept | (refine Kept.record ?_ rfl rfl rfl rfl rfl rfl rfl rfl; first | assumption | apply trellisFails_kept | apply updWork_kept | apply endFlight_kept | apply tileStats_kept) | intro _ | apply Kept.ite | split

theorem addPass_kept {s₀ s : State} (f : Flight) (i : CollInfo) (l : LeafBlk) (h : Kept s₀ s) : Kept s₀ (addPass s f i l) :=
  Kept.ite (h.withMem rfl (by simp [shapeOf])) h

theorem movePasses_kept {s₀ s : State} (f : Flight) (h : Kept s₀ s) :
    Kept s₀ (movePasses s f) := by
  unfold movePasses
  try dsimp only
  with_reducible repeat' first | assumption | apply foldl_kept | apply foldl_kept1 | (refine Kept.record ?_ rfl rfl rfl rfl rfl rfl rfl rfl; first | assumption | apply foldl_kept | apply foldl_kept1) | (refine Kept.record ?_ rfl rfl rfl rfl rfl rfl rfl (by simp [shapeOf]); first | assumption | apply foldl_kept | apply foldl_kept1) | intro _ | apply Kept.ite | split

theorem leafSelect_kept {s₀ s : State} (f : Flight) (h : Kept s₀ s) :
    Kept s₀ (leafSelect s f) := by
  unfold leafSelect
  try dsimp only
  with_reducible repeat' first | assumption | apply trellisFails_kept | apply updWork_kept | apply addPass_kept | apply foldl_kept | apply foldl_kept1 | (refine Kept.record ?_ rfl rfl rfl rfl rfl rfl rfl rfl; first | assumption | apply trellisFails_kept | apply updWork_kept | apply addPass_kept | apply foldl_kept | apply foldl_kept1) | intro _ | apply Kept.ite | split

theorem leafScan_kept {s₀ s : State} (f : Flight) (d : StageDef) (h : Kept s₀ s) :
    Kept s₀ (leafScan s f d) := by
  unfold leafScan
  try dsimp only
  with_reducible repeat' first | assumption | apply meter_kept | apply trellisFails_kept | apply updWork_kept | (refine Kept.record ?_ rfl rfl rfl rfl rfl rfl rfl rfl; first | assumption | apply meter_kept | apply trellisFails_kept | apply updWork_kept) | intro _ | apply Kept.ite | split

theorem seedScan_kept {s₀ s : State} (f : Flight) (d : StageDef) (h : Kept s₀ s) :
    Kept s₀ (seedScan s f d) := by
  unfold seedScan
  try dsimp only
  with_reducible repeat' first | assumption | apply trellisFails_kept | apply updWork_kept | intro _ | apply Kept.ite | split

theorem rakeMerge_kept {s₀ s : State} (f : Flight) (h : Kept s₀ s) :
    Kept s₀ (rakeMerge s f) := by
  unfold rakeMerge
  try dsimp only
  with_reducible repeat' first | assumption | apply updWork_kept | (refine Kept.record ?_ rfl rfl rfl rfl rfl rfl rfl rfl; first | assumption | apply updWork_kept) | intro _ | apply Kept.ite | split

theorem refineIssue_kept {s₀ s : State} (f : Flight) (h : Kept s₀ s) :
    Kept s₀ (refineIssue s f) := by
  unfold refineIssue
  try dsimp only
  with_reducible repeat' first | assumption | apply cacheHit_kept | apply remoteRead_kept | apply updWork_kept | apply foldl_kept | apply foldl_kept1 | (refine Kept.record ?_ rfl rfl rfl rfl rfl rfl rfl rfl; first | assumption | apply cacheHit_kept | apply remoteRead_kept | apply updWork_kept | apply foldl_kept | apply foldl_kept1) | intro _ | apply Kept.ite | split

theorem toSurvivors_kept {s₀ s : State} (f : Flight) (g : Flight) (h : Kept s₀ s) :
    Kept s₀ (toSurvivors s f g) := by
  unfold toSurvivors
  try dsimp only
  with_reducible repeat' first | assumption | apply updWork_kept | apply sendShadowResult_kept | intro _ | apply Kept.ite | split

theorem hbm_kept {s₀ s : State} (a b : Nat) (l k : List Byte) (h : Kept s₀ s) :
    Kept s₀ { s with mem := { s.mem with hbm := Memory.writes (Memory.writes s.mem.hbm a l) b k } } :=
  ⟨h.pending, h.hall, h.c0, h.regs, fun x => Memory.writes_wf k b (Memory.writes_wf l a (h.hbm x)),
   h.out, h.wire, h.shape⟩

theorem writeStats_kept {s₀ s : State} (f : Flight) (l : Layer) (lead : Nat) (recs : List (Nat × Nat × Word)) (h : Kept s₀ s) :
    Kept s₀ (writeStats s f l lead recs) := by
  unfold writeStats
  refine foldl_kept _ (fun u x k => ?_) _ _ h
  dsimp only
  split
  · exact hbm_kept _ _ _ _ k
  · exact raiseEvt_kept _ _ (count_kept _ k)

theorem satEvent_kept {s₀ s : State} (lead : Nat) (h : Kept s₀ s) :
    Kept s₀ (satEvent s lead) := by
  unfold satEvent
  with_reducible repeat' first | assumption | apply count_kept | apply raiseEvt_kept | intro _ | split

theorem layerStep_kept {s₀ : State} (m : Model) (d : StageDef) (n : Nat) (p : Pass2) (layer : Nat) (h : Kept s₀ p.state) :
    Kept s₀ (layerStep m d n p layer).state := by
  unfold layerStep
  split
  · extract_lets f k lead
    split
    rename_i out sat nan recs _
    extract_lets s1 s2 w f1
    have h1 : Kept s₀ s1 := tileStats_kept _ _ _ _ h
    have h2 : Kept s₀ s2 := Kept.ite (writeStats_kept _ _ _ _ h1) h1
    split
    · exact h2
    · split
      · exact satEvent_kept _ h2
      · split
        · exact tileStats_kept _ _ _ _ (count_kept _ h2)
        · split
          · exact takeBack_kept _ _ _ (updWork_kept _ _ h2)
          · exact raiseEvt_kept _ _ (satEvent_kept _ h2)
  · exact h

theorem modelInput_kept1 {s₀ s : State} (m : Model) (f : Flight) (h : Kept s₀ s) :
    Kept s₀ (modelInput s m f).1 := by
  unfold modelInput
  try dsimp only
  with_reducible repeat' first | assumption | apply countN_kept | (refine Kept.record ?_ rfl rfl rfl rfl rfl rfl rfl rfl; first | assumption | apply countN_kept) | intro _ | apply Kept.ite1 | split

theorem modelInput_kept {s₀ s r : State} {x : Flight} {m : Model} {f : Flight} (e₁ : modelInput s m f = (r, x)) (h : Kept s₀ s) :
    Kept s₀ r := by
  have k := modelInput_kept1 m f h
  rwa [e₁] at k

theorem layers_kept {s₀ : State} (m : Model) (d : StageDef) (n : Nat) : ∀ (l : List Nat) (p : Pass2), Kept s₀ p.state →
    Kept s₀ (l.foldl (layerStep m d n) p).state
  | [], _, h => h
  | x :: r, p, h => layers_kept m d n r _ (layerStep_kept m d n p x h)

theorem modelStage_kept {s₀ s : State} (f : Flight) (d : StageDef) (h : Kept s₀ s) : Kept s₀ (modelStage s f d) := by
  unfold modelStage
  split
  · exact h
  · split
    · exact h
    · extract_lets f0
      split
      rename_i m _ _ s1 f1 e
      have h1 : Kept s₀ s1 := by
        split at e
        · exact modelInput_kept e h
        · rw [← (Prod.mk.inj e).1]; exact h
      extract_lets n r
      have h2 : Kept s₀ r.state := layers_kept _ _ _ _ _ h1
      split
      · exact h2
      · split
        · split <;> exact updWork_kept _ _ h2
        · exact updWork_kept _ _ h2

theorem copyWrite_kept {s₀ s : State} (f : Flight) (d : StageDef) (g : Flight) (h : Kept s₀ s) :
    Kept s₀ (copyWrite s f d g) := by
  unfold copyWrite
  try dsimp only
  with_reducible repeat' first | assumption | apply updGallery_kept | apply putColl_kept | apply updWork_kept | (refine Kept.record ?_ rfl rfl rfl rfl rfl rfl rfl rfl; first | assumption | apply updGallery_kept | apply putColl_kept | apply updWork_kept) | intro _ | split

theorem copyStage_kept {s₀ s : State} (f : Flight) (d : StageDef) (h : Kept s₀ s) :
    Kept s₀ (copyStage s f d) := by
  unfold copyStage
  try dsimp only
  with_reducible repeat' first | assumption | apply sendPrep_kept | apply endFlight_kept | apply copyWrite_kept | (refine Kept.record ?_ rfl rfl rfl rfl rfl rfl rfl rfl; first | assumption | apply sendPrep_kept | apply endFlight_kept | apply copyWrite_kept) | intro _ | apply Kept.ite | split

theorem flushCopy_kept {s₀ s : State} (f : Flight) (h : Kept s₀ s) :
    Kept s₀ (flushCopy s f) := by
  unfold flushCopy
  try dsimp only
  with_reducible repeat' first | assumption | apply writeLines_kept | apply foldl_kept | apply foldl_kept1 | intro _ | split

theorem commitFlight_kept {s₀ s0 : State} (f : Flight) (h : Kept s₀ s0) :
    Kept s₀ (commitFlight s0 f) := by
  unfold commitFlight
  try dsimp only
  with_reducible repeat' first | assumption | apply count_kept | apply complete_kept | refine commitTo_kept ‹_› ?_ | apply setSeedHigh_kept | apply sendCommit_kept | apply dropFlight_kept | apply endFlight_kept | apply flushCopy_kept | (refine Kept.record ?_ rfl rfl rfl rfl rfl rfl rfl rfl; first | assumption | apply count_kept | apply complete_kept | refine commitTo_kept ‹_› ?_ | apply setSeedHigh_kept | apply sendCommit_kept | apply dropFlight_kept | apply endFlight_kept | apply flushCopy_kept) | intro _ | apply Kept.ite | split

theorem updateCommit_kept {s₀ s : State} (id : Nat) (h : Kept s₀ s) :
    Kept s₀ (updateCommit s id) := by
  unfold updateCommit
  with_reducible repeat' first | assumption | apply commitFlight_kept | (refine Kept.record ?_ rfl rfl rfl rfl rfl rfl rfl rfl; first | assumption | apply commitFlight_kept) | intro _ | apply Kept.ite | split

theorem execUpdateCommit_kept {s₀ s t : State} (flight : Nat) (e : execUpdateCommit flight s = .next t) (h : Kept s₀ s) :
    Kept s₀ t := by
  unfold execUpdateCommit at e
  injection e with e; subst e
  with_reducible repeat' first | assumption | apply updateCommit_kept | intro _ | split

theorem commitReady_kept {s₀ s : State} (h : Kept s₀ s) :
    Kept s₀ (commitReady s) := by
  unfold commitReady
  try dsimp only
  with_reducible repeat' first | assumption | apply commitFlight_kept | apply foldl_kept | apply foldl_kept1 | (refine Kept.record ?_ rfl rfl rfl rfl rfl rfl rfl rfl; first | assumption | apply commitFlight_kept | apply foldl_kept | apply foldl_kept1) | intro _ | apply Kept.ite | split

theorem contribute_kept {s₀ s : State} (f : Flight) (p : PartInfo) (h : Kept s₀ s) :
    Kept s₀ (contribute s f p) := by
  unfold contribute
  try dsimp only
  with_reducible repeat' first | assumption | apply toCoord_kept | apply shadowOwn_kept | apply dropFlight_kept | apply toSurvivors_kept | apply foldl_kept | apply foldl_kept1 | intro _ | apply Kept.ite | split

theorem xnodeSend_kept {s₀ s : State} (f : Flight) (d : StageDef) (h : Kept s₀ s) :
    Kept s₀ (xnodeSend s f d) := by
  unfold xnodeSend
  with_reducible repeat' first | assumption | apply sendShards_kept | apply contribute_kept | (refine Kept.record ?_ rfl rfl rfl rfl rfl rfl rfl rfl; first | assumption | apply sendShards_kept | apply contribute_kept) | intro _ | apply Kept.ite | split

theorem xnodeMerge_kept {s₀ s : State} (f : Flight) (h : Kept s₀ s) :
    Kept s₀ (xnodeMerge s f) := by
  unfold xnodeMerge
  try dsimp only
  with_reducible repeat' first | assumption | apply countMerged_kept | apply updWork_kept | intro _ | apply Kept.ite | split

theorem resultWrite_kept {s₀ s : State} (f : Flight) (h : Kept s₀ s) :
    Kept s₀ (resultWrite s f) := by
  unfold resultWrite
  try dsimp only
  with_reducible repeat' first | assumption | apply endFlight_kept | apply toSurvivors_kept | intro _ | apply Kept.ite | split

theorem stageEffect_kept {s₀ s : State} (f : Flight) (d : StageDef) (h : Kept s₀ s) :
    Kept s₀ (stageEffect s f d) := by
  unfold stageEffect
  with_reducible repeat' first | assumption | apply updWork_kept | apply gatherRows_kept | apply exchangeRows_kept | apply scatterTo_kept | apply showNext_kept | apply projectStage_kept | apply descendStage_kept | apply leafSelect_kept | apply leafScan_kept | apply seedScan_kept | apply rakeMerge_kept | apply refineIssue_kept | apply toSurvivors_kept | apply modelStage_kept | apply copyStage_kept | apply xnodeSend_kept | apply xnodeMerge_kept | apply resultWrite_kept | (refine Kept.record ?_ rfl rfl rfl rfl rfl rfl rfl rfl; first | assumption | apply updWork_kept | apply gatherRows_kept | apply exchangeRows_kept | apply scatterTo_kept | apply showNext_kept | apply projectStage_kept | apply descendStage_kept | apply leafSelect_kept | apply leafScan_kept | apply seedScan_kept | apply rakeMerge_kept | apply refineIssue_kept | apply toSurvivors_kept | apply modelStage_kept | apply copyStage_kept | apply xnodeSend_kept | apply xnodeMerge_kept | apply resultWrite_kept) | intro _ | apply Kept.ite | split

theorem meterHbm_kept {s₀ s : State} (f : Flight) (h : Kept s₀ s) :
    Kept s₀ (meterHbm s f) := by
  unfold meterHbm
  try dsimp only
  with_reducible repeat' first | assumption | refine freshWord_kept ‹_› ?_ | apply freshWord_kept1 | apply meter_kept | intro _ | split

theorem forwardShadow_kept {s₀ s : State} (f : Flight) (d : StageDef) (h : Kept s₀ s) :
    Kept s₀ (forwardShadow s f d) := by
  unfold forwardShadow
  try dsimp only
  with_reducible repeat' first | assumption | apply sendFrame_kept | (refine Kept.record ?_ rfl rfl rfl rfl rfl rfl rfl rfl; first | assumption | apply sendFrame_kept) | intro _ | apply Kept.ite | split

theorem partFinished_kept {s₀ s : State} (f : Flight) (h : Kept s₀ s) :
    Kept s₀ (partFinished s f) := by
  unfold partFinished
  try dsimp only
  with_reducible repeat' first | assumption | apply contribute_kept | (refine Kept.record ?_ rfl rfl rfl rfl rfl rfl rfl rfl; first | assumption | apply contribute_kept) | intro _ | apply Kept.ite | split

theorem finishStage_kept {s₀ s : State} (f : Flight) (d : StageDef) (h : Kept s₀ s) :
    Kept s₀ (finishStage s f d) := by
  unfold finishStage
  try dsimp only
  with_reducible repeat' first | assumption | apply stageEffect_kept | apply meterHbm_kept | apply forwardShadow_kept | apply partFinished_kept | (refine Kept.record ?_ rfl rfl rfl rfl rfl rfl rfl rfl; first | assumption | apply stageEffect_kept | apply meterHbm_kept | apply forwardShadow_kept | apply partFinished_kept) | intro _ | split

theorem wakeTile_kept {s₀ s : State} (t : Nat) (h : Kept s₀ s) :
    Kept s₀ (wakeTile s t) := by
  unfold wakeTile
  try dsimp only
  with_reducible repeat' first | assumption | apply updGallery_kept | (refine Kept.record ?_ rfl rfl rfl rfl rfl rfl rfl rfl; first | assumption | apply updGallery_kept) | intro _ | split

theorem startScatter_kept {s₀ s : State} (f : Flight) (d : StageDef) (h : Kept s₀ s) :
    Kept s₀ (startScatter s f d) := by
  unfold startScatter
  with_reducible repeat' first | assumption | apply fetchRows_kept | apply showBatch_kept | intro _ | apply Kept.ite | split

theorem startStage_kept {s₀ s : State} (f : Flight) (d : StageDef) (h : Kept s₀ s) :
    Kept s₀ (startStage s f d) := by
  unfold startStage
  try dsimp only
  with_reducible repeat' first | assumption | apply meter_kept | apply updWork_kept | apply traceStage_kept | apply wakeTile_kept | apply startScatter_kept | apply foldl_kept | apply foldl_kept1 | (refine Kept.record ?_ rfl rfl rfl rfl rfl rfl rfl rfl; first | assumption | apply meter_kept | apply updWork_kept | apply traceStage_kept | apply wakeTile_kept | apply startScatter_kept | apply foldl_kept | apply foldl_kept1) | intro _ | apply Kept.ite | split

theorem resumeStage_kept {s₀ s : State} (f : Flight) (d : StageDef) (h : Kept s₀ s) :
    Kept s₀ (resumeStage s f d) := by
  unfold resumeStage
  try dsimp only
  with_reducible repeat' first | assumption | apply updWork_kept | apply wakeTile_kept | apply startScatter_kept | apply foldl_kept | apply foldl_kept1 | (refine Kept.record ?_ rfl rfl rfl rfl rfl rfl rfl rfl; first | assumption | apply updWork_kept | apply wakeTile_kept | apply startScatter_kept | apply foldl_kept | apply foldl_kept1) | intro _ | apply Kept.ite | split

theorem startDelayed_kept {s₀ s : State} (h : Kept s₀ s) :
    Kept s₀ (startDelayed s) := by
  unfold startDelayed
  try dsimp only
  with_reducible repeat' first | assumption | apply startStage_kept | apply resumeStage_kept | apply foldl_kept | apply foldl_kept1 | (refine Kept.record ?_ rfl rfl rfl rfl rfl rfl rfl rfl; first | assumption | apply startStage_kept | apply resumeStage_kept | apply foldl_kept | apply foldl_kept1) | intro _ | apply Kept.ite | split

theorem stageComplete_kept {s₀ s : State} (id : Nat) (no : Nat) (g : Nat) (h : Kept s₀ s) :
    Kept s₀ (stageComplete s id no g) := by
  unfold stageComplete
  try dsimp only
  with_reducible repeat' first | assumption | apply complete_kept | apply updWork_kept | apply traceStage_kept | apply finishStage_kept | apply startDelayed_kept | (refine Kept.record ?_ rfl rfl rfl rfl rfl rfl rfl rfl; first | assumption | apply complete_kept | apply updWork_kept | apply traceStage_kept | apply finishStage_kept | apply startDelayed_kept) | intro _ | apply Kept.ite | split

theorem execStageComplete_kept {s₀ s t : State} (flight : Nat) (stage : Nat) (gallery : Fin 50) (e : execStageComplete flight stage gallery s = .next t) (h : Kept s₀ s) :
    Kept s₀ t := by
  unfold execStageComplete at e
  injection e with e; subst e
  with_reducible repeat' first | assumption | apply stageComplete_kept | intro _ | split

theorem bgFence_kept {s₀ s : State} (h : Kept s₀ s) :
    Kept s₀ (bgFence s) := by
  unfold bgFence
  try dsimp only
  with_reducible repeat' first | assumption | (refine Kept.record ?_ rfl rfl rfl rfl rfl rfl rfl rfl; first | assumption) | intro _ | apply Kept.ite | split

theorem execBgFence_kept {s₀ s t : State} (e : execBgFence s = .next t) (h : Kept s₀ s) :
    Kept s₀ t := by
  unfold execBgFence at e
  injection e with e; subst e
  with_reducible repeat' first | assumption | apply bgFence_kept | intro _ | split

theorem endCancelled_kept {s₀ s : State} (f : Flight) (h : Kept s₀ s) :
    Kept s₀ (endCancelled s f) := by
  unfold endCancelled
  with_reducible repeat' first | assumption | apply endFlight_kept | intro _ | apply Kept.ite | split

theorem suspendStage_kept {s₀ s : State} (f : Flight) (d : StageDef) (h : Kept s₀ s) :
    Kept s₀ (suspendStage s f d) := by
  unfold suspendStage
  try dsimp only
  with_reducible repeat' first | assumption | apply updWork_kept | apply traceStage_kept | (refine Kept.record ?_ rfl rfl rfl rfl rfl rfl rfl rfl; first | assumption | apply updWork_kept | apply traceStage_kept) | intro _ | apply Kept.ite | split

theorem preemptionPoint_kept {s₀ s : State} (id : Nat) (no : Nat) (progress : Nat) (h : Kept s₀ s) :
    Kept s₀ (preemptionPoint s id no progress) := by
  unfold preemptionPoint
  try dsimp only
  with_reducible repeat' first | assumption | apply scatterTo_kept | apply startDelayed_kept | apply endCancelled_kept | apply suspendStage_kept | (refine Kept.record ?_ rfl rfl rfl rfl rfl rfl rfl rfl; first | assumption | apply scatterTo_kept | apply startDelayed_kept | apply endCancelled_kept | apply suspendStage_kept) | intro _ | apply Kept.ite | split

theorem execPreemptionPoint_kept {s₀ s t : State} (flight : Nat) (stage : Nat) (progress : Nat) (e : execPreemptionPoint flight stage progress s = .next t) (h : Kept s₀ s) :
    Kept s₀ t := by
  unfold execPreemptionPoint at e
  injection e with e; subst e
  with_reducible repeat' first | assumption | apply preemptionPoint_kept | intro _ | split

theorem execFlightCancel_kept {s₀ s t : State} (flight : Nat) (e : execFlightCancel flight s = .next t) (h : Kept s₀ s) :
    Kept s₀ t := by
  unfold execFlightCancel at e
  injection e with e; subst e
  try dsimp only
  with_reducible repeat' first | assumption | apply updFlight_kept | (refine Kept.record ?_ rfl rfl rfl rfl rfl rfl rfl rfl; first | assumption | apply updFlight_kept) | intro _ | split

theorem corrUe_kept {s₀ s : State} (id : Nat) (no : Nat) (g : Nat) (h : Kept s₀ s) :
    Kept s₀ (corrUe s id no g) := by
  unfold corrUe
  try dsimp only
  with_reducible repeat' first | assumption | apply raiseErr_kept | apply updWork_kept | (refine Kept.record ?_ rfl rfl rfl rfl rfl rfl rfl rfl; first | assumption | apply raiseErr_kept | apply updWork_kept) | intro _ | apply Kept.ite | split

theorem execCorrUe_kept {s₀ s t : State} (flight : Nat) (stage : Nat) (gallery : Fin 50) (e : execCorrUe flight stage gallery s = .next t) (h : Kept s₀ s) :
    Kept s₀ t := by
  unfold execCorrUe at e
  injection e with e; subst e
  with_reducible repeat' first | assumption | apply corrUe_kept | intro _ | split

end Sys2Proof.Machine
end

