-- ==== Sys2Proof/Laws/KeptAdmission.lean ====
section
/-! SUPPORT. The definitions of Machine/Admission.lean keep what Kept says. -/
set_option linter.unusedTactic false
set_option linter.unreachableTactic false
namespace Sys2Proof.Machine

theorem unqueue_kept {s₀ s : State} (d : Desc) (h : Kept s₀ s) :
    Kept s₀ (unqueue s d) := by
  unfold unqueue
  with_reducible repeat' first | assumption | (refine Kept.record ?_ rfl rfl rfl rfl rfl rfl rfl rfl; first | assumption) | intro _ | split

theorem refuseQueued_kept {s₀ s : State} (d : Desc) (st : Nat) (detail : Nat) (h : Kept s₀ s) :
    Kept s₀ (refuseQueued s d st detail) := by
  unfold refuseQueued
  try dsimp only
  with_reducible repeat' first | assumption | apply count_kept | apply refuse_kept | apply countRefused_kept | apply unqueue_kept | intro _ | apply Kept.ite | split

theorem arrival_kept {s₀ s : State} (c : Nat) (desc : List Byte) (buf : List Byte) (keys : List Byte) (h : Kept s₀ s) :
    Kept s₀ (arrival s c desc buf keys) := by
  unfold arrival
  try dsimp only
  with_reducible repeat' first | assumption | apply arrive_kept | apply refuseQueued_kept | (refine Kept.record ?_ rfl rfl rfl rfl rfl rfl rfl rfl; first | assumption | apply arrive_kept | apply refuseQueued_kept) | intro _ | apply Kept.ite | split

theorem execDescriptorArrival_kept {s₀ s t : State} (c : Fin 4096) (desc : List Byte) (buf : List Byte) (keys : List Byte) (e : execDescriptorArrival c desc buf keys s = .next t) (h : Kept s₀ s) :
    Kept s₀ t := by
  unfold execDescriptorArrival at e
  injection e with e; subst e
  with_reducible repeat' first | assumption | apply arrival_kept | intro _ | apply Kept.ite | split

theorem expireDesc_kept {s₀ s : State} (d : Desc) (h : Kept s₀ s) :
    Kept s₀ (expireDesc s d) := by
  unfold expireDesc
  try dsimp only
  with_reducible repeat' first | assumption | apply refuseQueued_kept | (refine Kept.record ?_ rfl rfl rfl rfl rfl rfl rfl rfl; first | assumption | apply refuseQueued_kept) | intro _ | apply Kept.ite | split

theorem takeTokens_kept {s₀ s : State} (c : Nat) (h : Kept s₀ s) :
    Kept s₀ (takeTokens s c) := by
  unfold takeTokens
  try dsimp only
  with_reducible repeat' first | assumption | apply updChan_kept | (refine Kept.record ?_ rfl rfl rfl rfl rfl rfl rfl rfl; first | assumption | apply updChan_kept) | intro _ | apply Kept.ite | split

theorem admitFlight_kept {s₀ s : State} (f : Flight) (h : Kept s₀ s) :
    Kept s₀ (admitFlight s f) := by
  unfold admitFlight
  try dsimp only
  with_reducible repeat' first | assumption | apply meter_kept | apply setSeedHigh_kept | apply unqueue_kept | apply takeTokens_kept | (refine Kept.record ?_ rfl rfl rfl rfl rfl rfl rfl rfl; first | assumption | apply meter_kept | apply setSeedHigh_kept | apply unqueue_kept | apply takeTokens_kept) | intro _ | split

/-- An attempt's state, if it has one, is a kept one. -/
theorem tryAdmit_admitted {s₀ s t : State} {d : Desc} {cls id : Nat} {dem : Bool} (e : tryAdmit s d cls dem = .admitted t id) (h : Kept s₀ s) :
    Kept s₀ t := by
  unfold tryAdmit at e
  split at e
  · contradiction
  · dsimp only at e
    split at e
    · contradiction
    · split at e
      · contradiction
      · injection e with e _; subst e; exact admitFlight_kept _ h

theorem tryAdmit_completed {s₀ s t : State} {d : Desc} {cls : Nat} {dem : Bool} (e : tryAdmit s d cls dem = .completed t) (h : Kept s₀ s) :
    Kept s₀ t := by
  unfold tryAdmit at e
  split at e
  · contradiction
  · dsimp only at e
    split at e
    · contradiction
    · split at e
      · injection e with e; subst e; exact refuseQueued_kept _ _ _ h
      · contradiction

theorem fillC0_kept {s₀ : State} (t : Nat) (x : Filling) (d : Desc) (h : Kept s₀ x.state) : Kept s₀ (fillC0 t x d).state := by
  unfold fillC0
  extract_lets s offer
  split
  rename_i st detail _
  split
  · exact refuseQueued_kept _ _ _ h
  · split
    · exact h
    · have ho : Kept s₀ offer.state := count_kept _ h
      split
      · split
        · rename_i e
          exact updTenant_kept t (fun y => { y with seatsUsed := y.seatsUsed + 1 }) (tryAdmit_admitted e h)
        · exact tryAdmit_completed ‹_› h
        · exact ho
      · exact ho

theorem filling_kept {α : Type} {s₀ : State} (f : Filling → α → Filling) (hf : ∀ x a, Kept s₀ x.state → Kept s₀ (f x a).state) :
    ∀ (l : List α) (x : Filling), Kept s₀ x.state → Kept s₀ (l.foldl f x).state
  | [], _, h => h
  | a :: r, x, h => filling_kept f hf r _ (hf x a h)

theorem fillClass0_kept {s₀ s : State} (h : Kept s₀ s) : Kept s₀ (fillClass0 s).state :=
  filling_kept _ (fun x t k => filling_kept _ (fun y d => fillC0_kept t y d) _ x k) _ _ h

theorem settleHead_kept {s₀ : State} (dem : List Nat) (q : Nat) : ∀ (n : Nat) {s : State}, Kept s₀ s → Kept s₀ (settleHead dem q s n)
  | 0, _, h => h
  | n + 1, s, h => by
    unfold settleHead
    split
    · exact h
    · dsimp only
      split
      · exact h
      · exact settleHead_kept dem q n (refuseQueued_kept _ _ _ h)

theorem setFair_kept {s₀ s : State} (q : Nat) (x : FairQ) (h : Kept s₀ s) :
    Kept s₀ (setFair s q x) := by
  unfold setFair
  with_reducible repeat' first | assumption | (refine Kept.record ?_ rfl rfl rfl rfl rfl rfl rfl rfl; first | assumption) | intro _ | split

theorem openFair_kept {s₀ s : State} (qs : List Nat) (h : Kept s₀ s) :
    Kept s₀ (openFair s qs) := by
  unfold openFair
  try dsimp only
  with_reducible repeat' first | assumption | (refine Kept.record ?_ rfl rfl rfl rfl rfl rfl rfl rfl; first | assumption) | intro _ | split

theorem advanceQueue_kept {s₀ s : State} (dem : List Nat) (q : Nat) (tag : Nat) (h : Kept s₀ s) :
    Kept s₀ (advanceQueue s dem q tag) := by
  unfold advanceQueue
  try dsimp only
  with_reducible repeat' first | assumption | apply wr64_kept | apply settleHead_kept | apply setFair_kept | (refine Kept.record ?_ rfl rfl rfl rfl rfl rfl rfl rfl; first | assumption | apply wr64_kept | apply settleHead_kept | apply setFair_kept) | intro _ | apply Kept.ite | split

theorem fairLoop_kept {s₀ : State} : ∀ (n seats : Nat) (x : Filling), Kept s₀ x.state → Kept s₀ (fairLoop x seats n).state
  | 0, _, _, h => h
  | n + 1, seats, x, h => by
    unfold fairLoop
    dsimp only
    split
    · exact h
    · exact h
    · split
      · exact fairLoop_kept n _ _ (advanceQueue_kept _ _ _ (tryAdmit_admitted ‹_› h))
      · exact fairLoop_kept n _ _ (settleHead_kept _ _ _ (tryAdmit_completed ‹_› h))
      · exact fairLoop_kept n _ _ (setFair_kept _ _ h)

theorem expireAll_kept {s₀ s : State} (h : Kept s₀ s) :
    Kept s₀ (expireAll s) := by
  unfold expireAll
  with_reducible repeat' first | assumption | apply expireDesc_kept | apply foldl_kept | apply foldl_kept1 | intro _ | split

theorem admitLocal_kept {s₀ s : State} (h : Kept s₀ s) : Kept s₀ (admitLocal s).state := by
  unfold admitLocal
  extract_lets x qs s1 s2
  have h2 : Kept s₀ s2 := openFair_kept _ (foldl_kept _ (fun _ _ k => settleHead_kept _ _ _ k) _ _ (fillClass0_kept h))
  split
  · exact fairLoop_kept _ _ _ h2
  · exact h2

end Sys2Proof.Machine
end

