-- ==== Sys2Proof/Laws/KeptPower.lean ====
section
/-! SUPPORT. The definitions of Machine/Power.lean keep what Kept says. -/
set_option linter.unusedTactic false
set_option linter.unreachableTactic false
namespace Sys2Proof.Machine

theorem updAux_kept {s₀ s : State} (f : Aux → Aux) (h : Kept s₀ s) (hf : ∀ x : Aux, x.c0 = true → (f x).c0 = true) : Kept s₀ (updAux s f) :=
  ⟨h.pending, h.hall, fun x => hf _ (h.c0 x), h.regs, h.hbm, h.out, h.wire, h.shape⟩

theorem updPower_kept {s₀ s : State} (f : Power → Power) (h : Kept s₀ s) :
    Kept s₀ (updPower s f) := by
  unfold updPower
  with_reducible repeat' first | assumption | (refine Kept.record ?_ rfl rfl rfl rfl rfl rfl rfl rfl; first | assumption) | intro _ | split

theorem execRailTransition_kept {s₀ s t : State} (rail : Fin 12) (cross : RailCross) (us : Nat) (e : execRailTransition rail cross us s = .next t)
    (h : Kept s₀ s) (hc : s.chip.aux.c0 = true → (railMove s.chip.aux rail.val cross us).c0 = true) : Kept s₀ t := by
  injection e with e; subst e
  exact ⟨h.pending, h.hall, fun x => hc (h.c0 x), h.regs, h.hbm, h.out, h.wire, h.shape⟩

theorem railUv_kept {s₀ s : State} (r : Nat) (h : Kept s₀ s) : Kept s₀ (railUv s r) := by
  unfold railUv
  refine Kept.ite (raiseErr_kept _ _ _ (updAux_kept _ h fun x hx => ?_)) h
  show (logRail x r).c0 = true
  unfold logRail
  split <;> exact hx

theorem execRailUv_kept {s₀ s t : State} (rail : Fin 12) (e : execRailUv rail s = .next t) (h : Kept s₀ s) :
    Kept s₀ t := by
  unfold execRailUv at e
  injection e with e; subst e
  with_reducible repeat' first | assumption | apply railUv_kept | intro _ | split

theorem execReferenceClockStable_kept {s₀ s t : State} (e : execReferenceClockStable s = .next t) (h : Kept s₀ s) :
    Kept s₀ t := by
  unfold execReferenceClockStable at e
  injection e with e; subst e
  try dsimp only
  with_reducible repeat' first | assumption | apply updAux_kept | (refine Kept.record ?_ rfl rfl rfl rfl rfl rfl rfl rfl; first | assumption | apply updAux_kept) | intro _ | split

theorem updAvs_kept {s₀ s : State} (east : Bool) (f : Avs → Avs) (h : Kept s₀ s) :
    Kept s₀ (updAvs s east f) := by
  unfold updAvs
  try dsimp only
  with_reducible repeat' first | assumption | apply updPower_kept | (refine Kept.record ?_ rfl rfl rfl rfl rfl rfl rfl rfl; first | assumption | apply updPower_kept) | intro _ | apply Kept.ite | split

theorem setCeiling_kept {s₀ s : State} (east : Bool) (c : Nat) (h : Kept s₀ s) :
    Kept s₀ (setCeiling s east c) := by
  unfold setCeiling
  try dsimp only
  with_reducible repeat' first | assumption | apply updPower_kept | (refine Kept.record ?_ rfl rfl rfl rfl rfl rfl rfl rfl; first | assumption | apply updPower_kept) | intro _ | apply Kept.ite | split

theorem setWingFreq_kept {s₀ s : State} (east : Bool) (f : Nat) (h : Kept s₀ s) :
    Kept s₀ (setWingFreq s east f) := by
  unfold setWingFreq
  with_reducible repeat' first | assumption | apply wrf_kept | intro _ | apply Kept.ite | split

theorem avsWrite_kept {s₀ s : State} (east : Bool) (f : Nat) (h : Kept s₀ s) :
    Kept s₀ (avsWrite s east f) := by
  unfold avsWrite
  try dsimp only
  with_reducible repeat' first | assumption | apply wrf_kept | apply updAvs_kept | (refine Kept.record ?_ rfl rfl rfl rfl rfl rfl rfl rfl; first | assumption | apply wrf_kept | apply updAvs_kept) | intro _ | apply Kept.ite | split

theorem avsAck_kept {s₀ s : State} (east : Bool) (h : Kept s₀ s) :
    Kept s₀ (avsAck s east) := by
  unfold avsAck
  try dsimp only
  with_reducible repeat' first | assumption | apply wr_kept | apply updAvs_kept | (refine Kept.record ?_ rfl rfl rfl rfl rfl rfl rfl rfl; first | assumption | apply wr_kept | apply updAvs_kept) | intro _ | apply Kept.ite | split

theorem execAvsAck_kept {s₀ s t : State} (east : Bool) (e : execAvsAck east s = .next t) (h : Kept s₀ s) :
    Kept s₀ t := by
  unfold execAvsAck at e
  injection e with e; subst e
  with_reducible repeat' first | assumption | apply avsAck_kept | intro _ | apply Kept.ite | split

theorem avsTimeout_kept {s₀ s : State} (east : Bool) (h : Kept s₀ s) :
    Kept s₀ (avsTimeout s east) := by
  unfold avsTimeout
  try dsimp only
  with_reducible repeat' first | assumption | apply wr_kept | apply raiseErr_kept | apply updAvs_kept | (refine Kept.record ?_ rfl rfl rfl rfl rfl rfl rfl rfl; first | assumption | apply wr_kept | apply raiseErr_kept | apply updAvs_kept) | intro _ | apply Kept.ite | split

theorem execAvsTimeout_kept {s₀ s t : State} (east : Bool) (e : execAvsTimeout east s = .next t) (h : Kept s₀ s) :
    Kept s₀ t := by
  unfold execAvsTimeout at e
  injection e with e; subst e
  with_reducible repeat' first | assumption | apply avsTimeout_kept | intro _ | split

theorem clockSet_kept {s₀ s : State} (east : Bool) (h : Kept s₀ s) :
    Kept s₀ (clockSet s east) := by
  unfold clockSet
  try dsimp only
  with_reducible repeat' first | assumption | apply count_kept | apply setWingFreq_kept | apply avsWrite_kept | intro _ | apply Kept.ite | split

theorem takeReading_kept {s₀ s r : State} {x : Nat} {t : Option Nat} (e : takeReading s t = (x, r)) (h : Kept s₀ s) : Kept s₀ r := by
  unfold takeReading at e
  split at e
  · rw [← (Prod.mk.inj e).2]; exact h
  · rw [← (Prod.mk.inj e).2]; exact raiseErr_kept _ _ _ h

theorem readSensors_kept {s₀ r : State} : ∀ {l : List (Option Nat)} {s : State} {x : List Nat}, readSensors s l = (x, r) → Kept s₀ s → Kept s₀ r
  | [], _, _, e, h => by rw [← (Prod.mk.inj e).2]; exact h
  | q :: l, s, x, e, h => by
    unfold readSensors at e
    split at e
    rename_i e1
    split at e
    rename_i e2
    rw [← (Prod.mk.inj e).2]
    exact readSensors_kept e2 (takeReading_kept e1 h)

theorem readSensors_kept1 {s₀ s : State} (l : List (Option Nat)) (h : Kept s₀ s) : Kept s₀ (readSensors s l).2 := readSensors_kept rfl h

theorem evalWing_kept {s₀ s : State} (ts : List Nat) (st : List Nat) (east : Bool) (h : Kept s₀ s) :
    Kept s₀ (evalWing s ts st east) := by
  unfold evalWing
  try dsimp only
  with_reducible repeat' first | assumption | apply raiseEvt_kept | apply setCeiling_kept | apply avsWrite_kept | intro _ | apply Kept.ite | split

theorem galleryHeat_kept {s₀ s : State} (gt : Nat × Nat) (h : Kept s₀ s) :
    Kept s₀ (galleryHeat s gt) := by
  unfold galleryHeat
  try dsimp only
  with_reducible repeat' first | assumption | apply forceFallow_kept | apply thermalRelease_kept | intro _ | apply Kept.ite | split

theorem thermalEvaluate_kept {s₀ s : State} (e : OpenEnv) (h : Kept s₀ s) :
    Kept s₀ (thermalEvaluate s e) := by
  unfold thermalEvaluate
  try dsimp only
  with_reducible repeat' first | assumption | apply wr_kept | apply updPower_kept | refine readSensors_kept ‹_› ?_ | apply readSensors_kept1 | apply evalWing_kept | apply galleryHeat_kept | apply foldl_kept | apply foldl_kept1 | (refine Kept.record ?_ rfl rfl rfl rfl rfl rfl rfl rfl; first | assumption | apply wr_kept | apply updPower_kept | refine readSensors_kept ‹_› ?_ | apply readSensors_kept1 | apply evalWing_kept | apply galleryHeat_kept | apply foldl_kept | apply foldl_kept1) | intro _ | split

theorem execThermTrip_kept {s₀ s t : State} (_sensor : Sensor) (e : execThermTrip _sensor s = .next t) (h : Kept s₀ s) :
    Kept s₀ t := by
  unfold execThermTrip at e
  injection e with e; subst e
  try dsimp only
  with_reducible repeat' first | assumption | apply raiseErr_kept | apply updAux_kept | (refine Kept.record ?_ rfl rfl rfl rfl rfl rfl rfl rfl; first | assumption | apply raiseErr_kept | apply updAux_kept) | intro _ | split

theorem execI3cDynamicAddress_kept {s₀ s t : State} (addr : BitVec 7) (e : execI3cDynamicAddress addr s = .next t) (h : Kept s₀ s) :
    Kept s₀ t := by
  unfold execI3cDynamicAddress at e
  injection e with e; subst e
  try dsimp only
  with_reducible repeat' first | assumption | apply updAux_kept | (refine Kept.record ?_ rfl rfl rfl rfl rfl rfl rfl rfl; first | assumption | apply updAux_kept) | intro _ | split

theorem execTrayManagementRead_kept {s₀ s t : State} (r : TrayReg) (e : execTrayManagementRead r s = .next t) (h : Kept s₀ s) :
    Kept s₀ t := by
  unfold execTrayManagementRead at e
  injection e with e; subst e
  with_reducible repeat' first | assumption | (refine Kept.record ?_ rfl rfl rfl rfl rfl rfl rfl rfl; first | assumption) | intro _ | split

end Sys2Proof.Machine
end

