-- ==== Sys2Proof/Laws/KeptTestAccess.lean ====
section
/-! SUPPORT. The definitions of Machine/TestAccess.lean keep what Kept says. -/
set_option linter.unusedTactic false
set_option linter.unreachableTactic false
namespace Sys2Proof.Machine

theorem updTest_kept {s₀ s : State} (f : Test → Test) (h : Kept s₀ s) :
    Kept s₀ (updTest s f) := by
  unfold updTest
  with_reducible repeat' first | assumption | (refine Kept.record ?_ rfl rfl rfl rfl rfl rfl rfl rfl; first | assumption) | intro _ | split

theorem patStart_kept {s₀ s : State} (h : Kept s₀ s) :
    Kept s₀ (patStart s) := by
  unfold patStart
  with_reducible repeat' first | assumption | apply wr_kept | apply wrf_kept | apply wr64_kept | intro _ | apply Kept.ite | split

theorem execPatStart_kept {s₀ s t : State} (e : execPatStart s = .next t) (h : Kept s₀ s) :
    Kept s₀ t := by
  unfold execPatStart at e
  injection e with e; subst e
  with_reducible repeat' first | assumption | apply patStart_kept | intro _ | split

theorem patCounted_kept {s₀ s : State} (h : Kept s₀ s) :
    Kept s₀ (patCounted s) := by
  unfold patCounted
  try dsimp only
  with_reducible repeat' first | assumption | apply wr_kept | refine freshWord_kept ‹_› ?_ | apply freshWord_kept1 | intro _ | apply Kept.ite | split

theorem patEnd_kept {s₀ s : State} (h : Kept s₀ s) :
    Kept s₀ (patEnd s) := by
  unfold patEnd
  with_reducible repeat' first | assumption | apply wrf_kept | apply raiseEvt_kept | apply patCounted_kept | intro _ | split

theorem execPatStop_kept {s₀ s t : State} (e : execPatStop s = .next t) (h : Kept s₀ s) :
    Kept s₀ t := by
  unfold execPatStop at e
  injection e with e; subst e
  with_reducible repeat' first | assumption | apply patEnd_kept | intro _ | apply Kept.ite | split

theorem execPatLimitExpired_kept {s₀ s t : State} (e : execPatLimitExpired s = .next t) (h : Kept s₀ s) :
    Kept s₀ t := by
  unfold execPatLimitExpired at e
  injection e with e; subst e
  with_reducible repeat' first | assumption | apply patEnd_kept | intro _ | apply Kept.ite | split

theorem patAborted_kept {s₀ s : State} (h : Kept s₀ s) :
    Kept s₀ (patAborted s) := by
  unfold patAborted
  with_reducible repeat' first | assumption | apply wrf_kept | apply raiseErr_kept | apply patEnd_kept | intro _ | split

theorem execPatAbort_kept {s₀ s t : State} (c : PatAbort) (e : execPatAbort c s = .next t) (h : Kept s₀ s) :
    Kept s₀ t := by
  unfold execPatAbort at e
  injection e with e; subst e
  with_reducible repeat' first | assumption | apply patAborted_kept | intro _ | apply Kept.ite | split

theorem execCheckerLock_kept {s₀ s t : State} (e : execCheckerLock s = .next t) (h : Kept s₀ s) :
    Kept s₀ t := by
  unfold execCheckerLock at e
  injection e with e; subst e
  with_reducible repeat' first | assumption | apply wrf_kept | intro _ | apply Kept.ite | split

theorem execCheckerLockLoss_kept {s₀ s t : State} (e : execCheckerLockLoss s = .next t) (h : Kept s₀ s) :
    Kept s₀ t := by
  unfold execCheckerLockLoss at e
  injection e with e; subst e
  with_reducible repeat' first | assumption | apply wrf_kept | apply count_kept | apply patCounted_kept | intro _ | apply Kept.ite | split

theorem execSnap_kept {s₀ s t : State} (e : execSnap s = .next t) (h : Kept s₀ s) :
    Kept s₀ t := by
  unfold execSnap at e
  injection e with e; subst e
  try dsimp only
  with_reducible repeat' first | assumption | apply wr_kept | apply updTest_kept | (refine Kept.record ?_ rfl rfl rfl rfl rfl rfl rfl rfl; first | assumption | apply wr_kept | apply updTest_kept) | intro _ | split

theorem eyeDone_kept {s₀ s : State} (trained : Bool) (x : BitVec 30) (w : BitVec 30) (h : Kept s₀ s) :
    Kept s₀ (eyeDone s trained x w) := by
  unfold eyeDone
  try dsimp only
  with_reducible repeat' first | assumption | apply wr_kept | apply updTest_kept | (refine Kept.record ?_ rfl rfl rfl rfl rfl rfl rfl rfl; first | assumption | apply wr_kept | apply updTest_kept) | intro _ | apply Kept.ite | split

theorem execEyeCaptureDone_kept {s₀ s t : State} (trained : Bool) (heights : BitVec 30) (widths : BitVec 30) (e : execEyeCaptureDone trained heights widths s = .next t) (h : Kept s₀ s) :
    Kept s₀ t := by
  unfold execEyeCaptureDone at e
  injection e with e; subst e
  with_reducible repeat' first | assumption | apply eyeDone_kept | intro _ | split

theorem mbistStart_kept {s₀ s : State} (h : Kept s₀ s) :
    Kept s₀ (mbistStart s) := by
  unfold mbistStart
  try dsimp only
  with_reducible repeat' first | assumption | apply wr_kept | apply updGallery_kept | apply dropLines_kept | apply updTest_kept | (refine Kept.record ?_ rfl rfl rfl rfl rfl rfl rfl rfl; first | assumption | apply wr_kept | apply updGallery_kept | apply dropLines_kept | apply updTest_kept) | intro _ | apply Kept.ite | split

theorem execMbistStart_kept {s₀ s t : State} (e : execMbistStart s = .next t) (h : Kept s₀ s) :
    Kept s₀ t := by
  unfold execMbistStart at e
  injection e with e; subst e
  with_reducible repeat' first | assumption | apply mbistStart_kept | intro _ | split

theorem mbistGallery_kept {s₀ s : State} (g : Nat) (pass : Bool) (h : Kept s₀ s) :
    Kept s₀ (mbistGallery s g pass) := by
  unfold mbistGallery
  try dsimp only
  with_reducible repeat' first | assumption | apply updGallery_kept | apply wakeGallery_kept | (refine Kept.record ?_ rfl rfl rfl rfl rfl rfl rfl rfl; first | assumption | apply updGallery_kept | apply wakeGallery_kept) | intro _ | apply Kept.ite | split

theorem mbistDone_kept {s₀ s : State} (pass : Bool) (array : BitVec 5) (offset : BitVec 27) (h : Kept s₀ s) :
    Kept s₀ (mbistDone s pass array offset) := by
  unfold mbistDone
  try dsimp only
  with_reducible repeat' first | assumption | apply wr_kept | apply raiseEvt_kept | apply raiseErr_kept | apply updTest_kept | apply mbistGallery_kept | (refine Kept.record ?_ rfl rfl rfl rfl rfl rfl rfl rfl; first | assumption | apply wr_kept | apply raiseEvt_kept | apply raiseErr_kept | apply updTest_kept | apply mbistGallery_kept) | intro _ | apply Kept.ite | split

theorem execMbistDone_kept {s₀ s t : State} (pass : Bool) (array : BitVec 5) (offset : BitVec 27) (e : execMbistDone pass array offset s = .next t) (h : Kept s₀ s) :
    Kept s₀ t := by
  unfold execMbistDone at e
  injection e with e; subst e
  with_reducible repeat' first | assumption | apply mbistDone_kept | intro _ | split

theorem tapLoad_kept {s₀ s : State} (op : Byte) (ok : Bool) (h : Kept s₀ s) :
    Kept s₀ (tapLoad s op ok) := by
  unfold tapLoad
  try dsimp only
  with_reducible repeat' first | assumption | apply count_kept | apply updTest_kept | (refine Kept.record ?_ rfl rfl rfl rfl rfl rfl rfl rfl; first | assumption | apply count_kept | apply updTest_kept) | intro _ | apply Kept.ite | split

theorem execTrstN_kept {s₀ s t : State} (e : execTrstN s = .next t) (h : Kept s₀ s) :
    Kept s₀ t := by
  unfold execTrstN at e
  injection e with e; subst e
  try dsimp only
  with_reducible repeat' first | assumption | apply updTest_kept | (refine Kept.record ?_ rfl rfl rfl rfl rfl rfl rfl rfl; first | assumption | apply updTest_kept) | intro _ | split

theorem execIdcode_kept {s₀ s t : State} (e : execIdcode s = .next t) (h : Kept s₀ s) :
    Kept s₀ t := by
  unfold execIdcode at e
  injection e with e; subst e
  with_reducible repeat' first | assumption | apply tapLoad_kept | (refine Kept.record ?_ rfl rfl rfl rfl rfl rfl rfl rfl; first | assumption | apply tapLoad_kept) | intro _ | split

theorem execSamplePreload_kept {s₀ s t : State} (e : execSamplePreload s = .next t) (h : Kept s₀ s) :
    Kept s₀ t := by
  unfold execSamplePreload at e
  injection e with e; subst e
  with_reducible repeat' first | assumption | apply tapLoad_kept | intro _ | split

theorem execExtest_kept {s₀ s t : State} (e : execExtest s = .next t) (h : Kept s₀ s) :
    Kept s₀ t := by
  unfold execExtest at e
  injection e with e; subst e
  with_reducible repeat' first | assumption | apply tapLoad_kept | intro _ | split

theorem execClamp_kept {s₀ s t : State} (e : execClamp s = .next t) (h : Kept s₀ s) :
    Kept s₀ t := by
  unfold execClamp at e
  injection e with e; subst e
  with_reducible repeat' first | assumption | apply tapLoad_kept | intro _ | split

theorem execHighz_kept {s₀ s t : State} (e : execHighz s = .next t) (h : Kept s₀ s) :
    Kept s₀ t := by
  unfold execHighz at e
  injection e with e; subst e
  with_reducible repeat' first | assumption | apply tapLoad_kept | intro _ | split

theorem execExtestPulse_kept {s₀ s t : State} (e : execExtestPulse s = .next t) (h : Kept s₀ s) :
    Kept s₀ t := by
  unfold execExtestPulse at e
  injection e with e; subst e
  with_reducible repeat' first | assumption | apply tapLoad_kept | intro _ | split

theorem execExtestTrain_kept {s₀ s t : State} (e : execExtestTrain s = .next t) (h : Kept s₀ s) :
    Kept s₀ t := by
  unfold execExtestTrain at e
  injection e with e; subst e
  with_reducible repeat' first | assumption | apply tapLoad_kept | intro _ | split

theorem execProdTest_kept {s₀ s t : State} (e : execProdTest s = .next t) (h : Kept s₀ s) :
    Kept s₀ t := by
  unfold execProdTest at e
  injection e with e; subst e
  with_reducible repeat' first | assumption | apply tapLoad_kept | intro _ | split

theorem execBypass_kept {s₀ s t : State} (e : execBypass s = .next t) (h : Kept s₀ s) :
    Kept s₀ t := by
  unfold execBypass at e
  injection e with e; subst e
  with_reducible repeat' first | assumption | apply tapLoad_kept | intro _ | split

end Sys2Proof.Machine
end

