-- ==== Sys2Proof/Laws/KeptBoot.lean ====
section
/-! SUPPORT. The definitions of Machine/Boot.lean keep what Kept says. -/
set_option linter.unusedTactic false
set_option linter.unreachableTactic false
namespace Sys2Proof.Machine

theorem afterReset_kept {s₀ s : State} (aux : Aux) (pins : Pins) (ir : Byte) (hm : pins.modeHall = s.chip.pins.modeHall)
    (hc : s.chip.aux.c0 = true → aux.c0 = true) (h : Kept s₀ s) : Kept s₀ (afterReset s aux pins ir) :=
  ⟨h.pending, hm.trans h.hall, fun x => hc (h.c0 x), fun _ => ⟨List.Pairwise.nil, by simp [afterReset, State.reset]⟩, fun _ => Memory.nil_wf,
   h.out, h.wire, fun _ => rfl⟩

theorem nodeReset_kept {s₀ s : State} (modeHall : Bool) (slot : Nat) (hm : modeHall = s.chip.pins.modeHall) (h : Kept s₀ s) :
    Kept s₀ (nodeReset s modeHall slot) := by
  unfold nodeReset
  split
  · exact h
  · split
    · exact Kept.record h rfl rfl rfl rfl rfl rfl rfl rfl
    · exact afterReset_kept _ _ _ hm id h

theorem execNodeReset_kept {s₀ s t : State} (modeHall : Bool) (traySlot : Fin 8) (e : execNodeReset modeHall traySlot s = .next t)
    (hm : modeHall = s.chip.pins.modeHall) (h : Kept s₀ s) : Kept s₀ t := by
  injection e with e; subst e
  exact nodeReset_kept _ _ hm h

theorem execPowerCycle_kept {s₀ s t : State} (e : execPowerCycle s = .next t) (hm : s.chip.pins.modeHall = false)
    (hc : s.chip.aux.c0 = false) (h : Kept s₀ s) : Kept s₀ t := by
  injection e with e; subst e
  exact afterReset_kept _ _ _ hm.symm (fun x => absurd (hc.symm.trans x) (by decide)) h

theorem execResetNAssert_kept {s₀ s t : State} (e : execResetNAssert s = .next t) (h : Kept s₀ s) :
    Kept s₀ t := by
  unfold execResetNAssert at e
  injection e with e; subst e
  with_reducible repeat' first | assumption | (refine Kept.record ?_ rfl rfl rfl rfl rfl rfl rfl rfl; first | assumption) | intro _ | split

theorem execPerstNDeassert_kept {s₀ s t : State} (e : execPerstNDeassert s = .next t) (h : Kept s₀ s) :
    Kept s₀ t := by
  unfold execPerstNDeassert at e
  injection e with e; subst e
  with_reducible repeat' first | assumption | (refine Kept.record ?_ rfl rfl rfl rfl rfl rfl rfl rfl; first | assumption) | intro _ | split

/-- The interrupt controller at its reset state has the parts of every node. -/
theorem intcReset_kept {s₀ s : State} (b : Byte × Byte) (h : Kept s₀ s) :
    Kept s₀ { s with chip := { s.chip with intc := Intc.reset, bootLevel := b } } := by
  refine ⟨h.pending, h.hall, h.c0, h.regs, h.hbm, h.out, h.wire, fun x => ?_⟩
  have k := h.shape x
  simp only [State.Shape, shapeOf, List.cons.injEq, and_true] at k ⊢
  exact ⟨k.1, k.2.1, k.2.2.1, k.2.2.2.1, k.2.2.2.2.1, rfl, rfl, rfl⟩

theorem romHandover_kept {s₀ s : State} (good : Bool) (error level levelMin : Byte) (h : Kept s₀ s) :
    Kept s₀ (romHandover s good error level levelMin) := by
  unfold romHandover
  split
  · exact h
  · split
    · exact wrf_kept _ _ _ _ (wrf_kept _ _ _ _ h)
    · split
      · exact updTest_kept _ (wrf_kept _ _ _ _ h)
      · exact intcReset_kept _ (wr_kept _ _ (wrf_kept _ _ _ _ h))

theorem execBootRomHandover_kept {s₀ s t : State} (copy0Ok : Bool) (copy1Ok : Bool) (error : Byte) (level : Byte) (levelMin : Byte) (e : execBootRomHandover copy0Ok copy1Ok error level levelMin s = .next t) (h : Kept s₀ s) :
    Kept s₀ t := by
  unfold execBootRomHandover at e
  injection e with e; subst e
  with_reducible repeat' first | assumption | apply romHandover_kept | intro _ | split

theorem bootComplete_kept {s₀ s : State} (h : Kept s₀ s) :
    Kept s₀ (bootComplete s) := by
  unfold bootComplete
  try dsimp only
  with_reducible repeat' first | assumption | apply wr_kept | (refine Kept.record ?_ rfl rfl rfl rfl rfl rfl rfl rfl; first | assumption | apply wr_kept) | intro _ | apply Kept.ite | split

theorem writeStage_kept {s₀ s : State} (req : Requester) (v : Nat) (h : Kept s₀ s) :
    Kept s₀ (writeStage s req v) := by
  unfold writeStage
  try dsimp only
  with_reducible repeat' first | assumption | apply wrf_kept | apply bootComplete_kept | (refine Kept.record ?_ rfl rfl rfl rfl rfl rfl rfl rfl; first | assumption | apply wrf_kept | apply bootComplete_kept) | intro _ | apply Kept.ite | split

theorem idleTick_kept {s₀ s : State} (h : Kept s₀ s) :
    Kept s₀ (idleTick s) := by
  unfold idleTick
  with_reducible repeat' first | assumption | apply wr64_kept | intro _ | apply Kept.ite | split

end Sys2Proof.Machine
end

