-- ==== Sys2Proof/Laws/KeptLandings.lean ====
section
/-! SUPPORT. The definitions of Machine/Landings.lean keep what Kept says. -/
set_option linter.unusedTactic false
set_option linter.unreachableTactic false
namespace Sys2Proof.Machine

theorem goOn_kept {s₀ s : State} (id : Nat) (d : StageDef) (h : Kept s₀ s) :
    Kept s₀ (goOn s id d) := by
  unfold goOn
  try dsimp only
  with_reducible repeat' first | assumption | apply complete_kept | apply updWork_kept | apply finishStage_kept | apply startStage_kept | apply resumeStage_kept | (refine Kept.record ?_ rfl rfl rfl rfl rfl rfl rfl rfl; first | assumption | apply complete_kept | apply updWork_kept | apply finishStage_kept | apply startStage_kept | apply resumeStage_kept) | intro _ | apply Kept.ite | split

theorem waitStep_kept {s₀ s : State} (f : Flight) (o : Nat) (h : Kept s₀ s) :
    Kept s₀ (waitStep s f o) := by
  unfold waitStep
  try dsimp only
  with_reducible repeat' first | assumption | apply count_kept | apply updWork_kept | apply movePasses_kept | apply goOn_kept | apply foldl_kept | apply foldl_kept1 | (refine Kept.record ?_ rfl rfl rfl rfl rfl rfl rfl rfl; first | assumption | apply count_kept | apply updWork_kept | apply movePasses_kept | apply goOn_kept | apply foldl_kept | apply foldl_kept1) | intro _ | split

theorem refineFirst_kept {s₀ s : State} (f : Flight) (h : Kept s₀ s) :
    Kept s₀ (refineFirst s f) := by
  unfold refineFirst
  with_reducible repeat' first | assumption | apply updWork_kept | intro _ | apply Kept.ite | split

theorem stairAt_kept {s₀ s : State} (f : Flight) (b : BackDef) (l : LandingDef) (h : Kept s₀ s) :
    Kept s₀ (stairAt s f b l) := by
  unfold stairAt
  try dsimp only
  with_reducible repeat' first | assumption | apply updWork_kept | apply takeBack_kept | apply xnodeMerge_kept | apply refineFirst_kept | (refine Kept.record ?_ rfl rfl rfl rfl rfl rfl rfl rfl; first | assumption | apply updWork_kept | apply takeBack_kept | apply xnodeMerge_kept | apply refineFirst_kept) | intro _ | apply Kept.ite | split

theorem atLandings_kept1 {s₀ : State} (id : Nat) : ∀ (l : List LandingDef) {s : State}, Kept s₀ s → Kept s₀ (atLandings s id l).1
  | [], _, h => h
  | l :: r, s, h => by
    unfold atLandings
    split
    · exact h
    · split
      · exact atLandings_kept1 id r (traceLanding_kept _ _ _ (updWork_kept _ _ h))
      · split
        · exact traceLanding_kept _ _ _ (waitStep_kept _ _ h)
        · split
          · exact atLandings_kept1 id r (traceLanding_kept _ _ _ (stairAt_kept _ _ _ h))
          · exact failFlight_kept _ (traceLanding_kept _ _ _ h)

theorem atLandings_kept {s₀ s r : State} {x : Bool} {id : Nat} {l : List LandingDef} (e : atLandings s id l = (r, x)) (h : Kept s₀ s) : Kept s₀ r := by
  have k := atLandings_kept1 id l h
  rwa [e] at k

theorem startStages_kept {s₀ s : State} (id : Nat) (o : Nat) (h : Kept s₀ s) :
    Kept s₀ (startStages s id o) := by
  unfold startStages
  try dsimp only
  with_reducible repeat' first | assumption | apply startStage_kept | apply foldl_kept | apply foldl_kept1 | (refine Kept.record ?_ rfl rfl rfl rfl rfl rfl rfl rfl; first | assumption | apply startStage_kept | apply foldl_kept | apply foldl_kept1) | intro _ | split

theorem cancelNow_kept {s₀ s : State} (f : Flight) (h : Kept s₀ s) :
    Kept s₀ (cancelNow s f) := by
  unfold cancelNow
  with_reducible repeat' first | assumption | apply endFlight_kept | apply endCancelled_kept | intro _ | apply Kept.ite | split

theorem openForeground_kept {s₀ s : State} (f : Flight) (h : Kept s₀ s) :
    Kept s₀ (openForeground s f) := by
  unfold openForeground
  try dsimp only
  with_reducible repeat' first | assumption | apply failFlight_kept | refine atLandings_kept ‹_› ?_ | apply atLandings_kept1 | apply startStages_kept | apply cancelNow_kept | intro _ | apply Kept.ite | split

theorem openBackground_kept {s₀ s : State} (f : Flight) (h : Kept s₀ s) :
    Kept s₀ (openBackground s f) := by
  unfold openBackground
  try dsimp only
  with_reducible repeat' first | assumption | apply failFlight_kept | apply resumeStage_kept | apply startStages_kept | apply cancelNow_kept | apply foldl_kept | apply foldl_kept1 | (refine Kept.record ?_ rfl rfl rfl rfl rfl rfl rfl rfl; first | assumption | apply failFlight_kept | apply resumeStage_kept | apply startStages_kept | apply cancelNow_kept | apply foldl_kept | apply foldl_kept1) | intro _ | apply Kept.ite | split

theorem openFlight_kept {s₀ s : State} (id : Nat) (h : Kept s₀ s) :
    Kept s₀ (openFlight s id) := by
  unfold openFlight
  with_reducible repeat' first | assumption | apply openForeground_kept | apply openBackground_kept | (refine Kept.record ?_ rfl rfl rfl rfl rfl rfl rfl rfl; first | assumption | apply openForeground_kept | apply openBackground_kept) | intro _ | apply Kept.ite | split

theorem forwardPart_kept {s₀ s : State} (f : Flight) (p : PartInfo) (h : Kept s₀ s) :
    Kept s₀ (forwardPart s f p) := by
  unfold forwardPart
  try dsimp only
  with_reducible repeat' first | assumption | apply sendFrame_kept | (refine Kept.record ?_ rfl rfl rfl rfl rfl rfl rfl rfl; first | assumption | apply sendFrame_kept) | intro _ | split

theorem refusePart_kept {s₀ s : State} (f : Flight) (p : PartInfo) (reason : Nat) (h : Kept s₀ s) :
    Kept s₀ (refusePart s f p reason) := by
  unfold refusePart
  try dsimp only
  with_reducible repeat' first | assumption | apply sendNone_kept | apply skipShadow_kept | apply dropFlight_kept | intro _ | apply Kept.ite | split

theorem admitPart_kept {s₀ s : State} (f : Flight) (p : PartInfo) (h : Kept s₀ s) :
    Kept s₀ (admitPart s f p) := by
  unfold admitPart
  try dsimp only
  with_reducible repeat' first | assumption | apply count_kept | apply updPart_kept | apply openFlight_kept | apply forwardPart_kept | apply refusePart_kept | (refine Kept.record ?_ rfl rfl rfl rfl rfl rfl rfl rfl; first | assumption | apply count_kept | apply updPart_kept | apply openFlight_kept | apply forwardPart_kept | apply refusePart_kept) | (refine Kept.record ?_ rfl rfl rfl rfl rfl rfl rfl (by simp [shapeOf]); first | assumption | apply count_kept | apply updPart_kept | apply openFlight_kept | apply forwardPart_kept | apply refusePart_kept) | intro _ | apply Kept.ite | split

end Sys2Proof.Machine
end

