-- ==== Sys2Proof/Laws/KeptMemory.lean ====
section
/-! SUPPORT. The definitions of Machine/Memory.lean keep what Kept says. -/
set_option linter.unusedTactic false
set_option linter.unreachableTactic false
namespace Sys2Proof.Machine

theorem updStack_kept {s₀ s : State} (k : Nat) (f : Stack → Stack) (h : Kept s₀ s) : Kept s₀ (updStack s k f) :=
  h.withMem rfl (by simp [shapeOf])

theorem updNear_kept {s₀ s : State} (k : Nat) (f : NearBank → NearBank) (h : Kept s₀ s) : Kept s₀ (updNear s k f) :=
  h.withMem rfl (by simp [shapeOf])

theorem stackTraining_kept {s₀ s : State} (k : Nat) (r : StackTraining) (h : Kept s₀ s) :
    Kept s₀ (stackTraining s k r) := by
  unfold stackTraining
  try dsimp only
  with_reducible repeat' first | assumption | apply wr_kept | apply raiseErrs_kept | apply setHbmCapacity_kept | apply updStack_kept | (refine Kept.record ?_ rfl rfl rfl rfl rfl rfl rfl rfl; first | assumption | apply wr_kept | apply raiseErrs_kept | apply setHbmCapacity_kept | apply updStack_kept) | (refine Kept.record ?_ rfl rfl rfl rfl rfl rfl rfl (by simp [shapeOf]); first | assumption | apply wr_kept | apply raiseErrs_kept | apply setHbmCapacity_kept | apply updStack_kept) | intro _ | apply Kept.ite | split

theorem execHbmStackTraining_kept {s₀ s t : State} (stack : Fin 8) (result : StackTraining) (e : execHbmStackTraining stack result s = .next t) (h : Kept s₀ s) :
    Kept s₀ t := by
  unfold execHbmStackTraining at e
  injection e with e; subst e
  with_reducible repeat' first | assumption | apply stackTraining_kept | intro _ | split

theorem retirePc_kept {s₀ s : State} (k : Nat) (pc : Nat) (h : Kept s₀ s) :
    Kept s₀ (retirePc s k pc) := by
  unfold retirePc
  try dsimp only
  with_reducible repeat' first | assumption | apply wr_kept | apply wr64_kept | apply raiseEvt_kept | apply setHbmCapacity_kept | apply updStack_kept | (refine Kept.record ?_ rfl rfl rfl rfl rfl rfl rfl rfl; first | assumption | apply wr_kept | apply wr64_kept | apply raiseEvt_kept | apply setHbmCapacity_kept | apply updStack_kept) | (refine Kept.record ?_ rfl rfl rfl rfl rfl rfl rfl (by simp [shapeOf]); first | assumption | apply wr_kept | apply wr64_kept | apply raiseEvt_kept | apply setHbmCapacity_kept | apply updStack_kept) | intro _ | apply Kept.ite | split

theorem uncorrectableRead_kept {s₀ s : State} (k : Nat) (pc : Nat) (h : Kept s₀ s) :
    Kept s₀ (uncorrectableRead s k pc) := by
  unfold uncorrectableRead
  try dsimp only
  with_reducible repeat' first | assumption | apply count_kept | apply raiseErr_kept | apply updStack_kept | apply retirePc_kept | (refine Kept.record ?_ rfl rfl rfl rfl rfl rfl rfl rfl; first | assumption | apply count_kept | apply raiseErr_kept | apply updStack_kept | apply retirePc_kept) | (refine Kept.record ?_ rfl rfl rfl rfl rfl rfl rfl (by simp [shapeOf]); first | assumption | apply count_kept | apply raiseErr_kept | apply updStack_kept | apply retirePc_kept) | intro _ | apply Kept.ite | split

theorem moveBlocks_kept {s₀ s : State} (groups : Nat → List (List Nat)) (out : Heap) (h : Kept s₀ s) :
    Kept s₀ (moveBlocks s groups out) := by
  unfold moveBlocks
  try dsimp only
  with_reducible repeat' first | assumption | apply foldl_kept | apply foldl_kept1 | (refine Kept.record ?_ rfl rfl rfl rfl rfl rfl rfl rfl; first | assumption | apply foldl_kept | apply foldl_kept1) | intro _ | split

theorem pcRemapDone_kept {s₀ s : State} (k : Nat) (pc : Nat) (h : Kept s₀ s) :
    Kept s₀ (pcRemapDone s k pc) := by
  unfold pcRemapDone
  try dsimp only
  with_reducible repeat' first | assumption | apply updStack_kept | apply moveBlocks_kept | (refine Kept.record ?_ rfl rfl rfl rfl rfl rfl rfl rfl; first | assumption | apply updStack_kept | apply moveBlocks_kept) | intro _ | split

theorem execPcRemapDone_kept {s₀ s t : State} (stack : Fin 8) (pc : Fin 64) (e : execPcRemapDone stack pc s = .next t) (h : Kept s₀ s) :
    Kept s₀ t := by
  unfold execPcRemapDone at e
  injection e with e; subst e
  with_reducible repeat' first | assumption | apply pcRemapDone_kept | intro _ | split

theorem scanWindow_kept {s₀ s : State} (k : Nat) (drained : Nat) (reports : List (Nat × Bool × Nat)) (h : Kept s₀ s) :
    Kept s₀ (scanWindow s k drained reports) := by
  unfold scanWindow
  try dsimp only
  with_reducible repeat' first | assumption | apply updNear_kept | apply foldl_kept | apply foldl_kept1 | (refine Kept.record ?_ rfl rfl rfl rfl rfl rfl rfl rfl; first | assumption | apply updNear_kept | apply foldl_kept | apply foldl_kept1) | (refine Kept.record ?_ rfl rfl rfl rfl rfl rfl rfl (by simp [shapeOf]); first | assumption | apply updNear_kept | apply foldl_kept | apply foldl_kept1) | intro _ | apply Kept.ite | split

theorem execScanWindow_kept {s₀ s t : State} (stack : Fin 8) (drained : Nat) (reports : List (Nat × Bool × Nat)) (e : execScanWindow stack drained reports s = .next t) (h : Kept s₀ s) :
    Kept s₀ t := by
  unfold execScanWindow at e
  injection e with e; subst e
  with_reducible repeat' first | assumption | apply scanWindow_kept | intro _ | split

theorem addPoison_kept {s₀ s : State} (leaf : Word) (b : Nat) (id : Nat) (h : Kept s₀ s) :
    Kept s₀ (addPoison leaf b s id) := by
  unfold addPoison
  try dsimp only
  with_reducible repeat' first | assumption | apply updWork_kept | (refine Kept.record ?_ rfl rfl rfl rfl rfl rfl rfl rfl; first | assumption | apply updWork_kept) | intro _ | apply Kept.ite | split

theorem scanBurst_kept {s₀ s : State} (k : Nat) (b : Burst) (h : Kept s₀ s) :
    Kept s₀ (scanBurst s k b) := by
  unfold scanBurst
  try dsimp only
  with_reducible repeat' first | assumption | apply count_kept | apply countBy_kept | apply updNear_kept | apply uncorrectableRead_kept | apply addPoison_kept | apply foldl_kept | apply foldl_kept1 | (refine Kept.record ?_ rfl rfl rfl rfl rfl rfl rfl rfl; first | assumption | apply count_kept | apply countBy_kept | apply updNear_kept | apply uncorrectableRead_kept | apply addPoison_kept | apply foldl_kept | apply foldl_kept1) | (refine Kept.record ?_ rfl rfl rfl rfl rfl rfl rfl (by simp [shapeOf]); first | assumption | apply count_kept | apply countBy_kept | apply updNear_kept | apply uncorrectableRead_kept | apply addPoison_kept | apply foldl_kept | apply foldl_kept1) | intro _ | apply Kept.ite | split

theorem execScanBurst_kept {s₀ s t : State} (stack : Fin 8) (burst : Burst) (e : execScanBurst stack burst s = .next t) (h : Kept s₀ s) :
    Kept s₀ t := by
  unfold execScanBurst at e
  injection e with e; subst e
  with_reducible repeat' first | assumption | apply scanBurst_kept | intro _ | split

theorem revertPage_kept {s₀ s : State} (range : Nat) (page : Nat) (h : Kept s₀ s) :
    Kept s₀ (revertPage s range page) := by
  unfold revertPage
  try dsimp only
  with_reducible repeat' first | assumption | apply setTable_kept | apply foldl_kept | apply foldl_kept1 | (refine Kept.record ?_ rfl rfl rfl rfl rfl rfl rfl rfl; first | assumption | apply setTable_kept | apply foldl_kept | apply foldl_kept1) | intro _ | apply Kept.ite | split

theorem revertBucket_kept {s₀ s : State} (range : Nat) (page : Nat) (h : Kept s₀ s) :
    Kept s₀ (revertBucket s range page) := by
  unfold revertBucket
  try dsimp only
  with_reducible repeat' first | assumption | apply setTable_kept | apply updColl_kept | (refine Kept.record ?_ rfl rfl rfl rfl rfl rfl rfl rfl; first | assumption | apply setTable_kept | apply updColl_kept) | intro _ | apply Kept.ite | split

theorem dropPage_kept {s₀ s : State} (k : Nat) (range : Nat) (page : Nat) (h : Kept s₀ s) :
    Kept s₀ (dropPage s k range page) := by
  unfold dropPage
  try dsimp only
  with_reducible repeat' first | assumption | apply count_kept | apply raiseEvt_kept | apply updFlash_kept | apply revertPage_kept | apply revertBucket_kept | (refine Kept.record ?_ rfl rfl rfl rfl rfl rfl rfl rfl; first | assumption | apply count_kept | apply raiseEvt_kept | apply updFlash_kept | apply revertPage_kept | apply revertBucket_kept) | intro _ | apply Kept.ite | split

theorem writebackDue_kept {s₀ s : State} (range : Nat) (page : Nat) (h : Kept s₀ s) :
    Kept s₀ (writebackDue s range page) := by
  unfold writebackDue
  try dsimp only
  with_reducible repeat' first | assumption | apply updFlash_kept | (refine Kept.record ?_ rfl rfl rfl rfl rfl rfl rfl rfl; first | assumption | apply updFlash_kept) | intro _ | apply Kept.ite | split

theorem execWritebackDue_kept {s₀ s t : State} (range : Nat) (page : Nat) (e : execWritebackDue range page s = .next t) (h : Kept s₀ s) :
    Kept s₀ t := by
  unfold execWritebackDue at e
  injection e with e; subst e
  with_reducible repeat' first | assumption | apply writebackDue_kept | intro _ | split

theorem repairCopy_kept {s₀ s r : State} {k : Nat} {ok : Bool × Bool} {copy : Nat} {otherOk : Bool} (e : repairCopy s k ok copy otherOk = some r)
    (h : Kept s₀ s) : Kept s₀ r := by
  unfold repairCopy at e
  split at e
  · injection e with e; subst e; exact raiseEvt_kept _ _ (count_kept _ h)
  · contradiction

theorem repairCopy_kept2 {s₀ s u : State} (k : Nat) (ok : Bool × Bool) (copy : Nat) (otherOk : Bool) (h : Kept s₀ s) (hu : Kept s₀ u) :
    Kept s₀ ((repairCopy s k ok copy otherOk).getD u) := by
  cases e : repairCopy s k ok copy otherOk with
  | none => exact hu
  | some r => exact repairCopy_kept e h

theorem failMap_kept {s₀ s : State} (page : Nat) (copy : Nat) (h : Kept s₀ s) :
    Kept s₀ (failMap s page copy) := by
  unfold failMap
  try dsimp only
  with_reducible repeat' first | assumption | apply updFlash_kept | (refine Kept.record ?_ rfl rfl rfl rfl rfl rfl rfl rfl; first | assumption | apply updFlash_kept) | intro _ | apply Kept.ite | split

theorem bothRecords_kept {s₀ s : State} (n : Nat) (h : Kept s₀ s) :
    Kept s₀ (bothRecords s n) := by
  unfold bothRecords
  with_reducible repeat' first | assumption | apply raiseEvt_kept | apply raiseErr_kept | intro _ | apply Kept.ite | split

theorem poisonStruct_kept {s₀ s : State} (k : Nat) (read : Bool) (what : HbmStruct) (otherOk : Bool) (h : Kept s₀ s) :
    Kept s₀ (poisonStruct s k read what otherOk) := by
  unfold poisonStruct
  try dsimp only
  with_reducible repeat' first | assumption | apply count_kept | apply raiseErr_kept | apply updChan_kept | apply updColl_kept | apply addPoison_kept | apply dropPage_kept | refine repairCopy_kept ‹_› ?_ | apply repairCopy_kept2 | apply failMap_kept | apply bothRecords_kept | apply foldl_kept | apply foldl_kept1 | (refine Kept.record ?_ rfl rfl rfl rfl rfl rfl rfl rfl; first | assumption | apply count_kept | apply raiseErr_kept | apply updChan_kept | apply updColl_kept | apply addPoison_kept | apply dropPage_kept | refine repairCopy_kept ‹_› ?_ | apply repairCopy_kept2 | apply failMap_kept | apply bothRecords_kept | apply foldl_kept | apply foldl_kept1) | intro _ | apply Kept.ite | split

theorem readComplete_kept {s₀ s : State} (addr : Nat) (o : HbmOutcome) (what : HbmStruct) (otherOk : Bool) (h : Kept s₀ s) :
    Kept s₀ (readComplete s addr o what otherOk) := by
  unfold readComplete
  try dsimp only
  with_reducible repeat' first | assumption | apply count_kept | apply raiseErr_kept | apply uncorrectableRead_kept | apply poisonStruct_kept | (refine Kept.record ?_ rfl rfl rfl rfl rfl rfl rfl rfl; first | assumption | apply count_kept | apply raiseErr_kept | apply uncorrectableRead_kept | apply poisonStruct_kept) | (refine Kept.record ?_ rfl rfl rfl rfl rfl rfl rfl (by simp [shapeOf]); first | assumption | apply count_kept | apply raiseErr_kept | apply uncorrectableRead_kept | apply poisonStruct_kept) | intro _ | apply Kept.ite | split

theorem execHbmReadComplete_kept {s₀ s t : State} (addr : Nat) (outcome : HbmOutcome) (what : HbmStruct) (otherOk : Bool) (e : execHbmReadComplete addr outcome what otherOk s = .next t) (h : Kept s₀ s) :
    Kept s₀ t := by
  unfold execHbmReadComplete at e
  try dsimp only at e
  (repeat' split at e) <;> first
    | contradiction
    | (injection e with e; subst e)
  all_goals
    with_reducible repeat' first | assumption | apply readComplete_kept | intro _ | apply Kept.ite | split

theorem stackFail_kept {s₀ s : State} (k : Nat) (lost : List HbmStruct) (h : Kept s₀ s) :
    Kept s₀ (stackFail s k lost) := by
  unfold stackFail
  try dsimp only
  with_reducible repeat' first | assumption | apply wr_kept | apply wrf_kept | apply raiseErr_kept | apply setHbmCapacity_kept | apply updNear_kept | apply bothRecords_kept | apply poisonStruct_kept | apply foldl_kept | apply foldl_kept1 | (refine Kept.record ?_ rfl rfl rfl rfl rfl rfl rfl rfl; first | assumption | apply wr_kept | apply wrf_kept | apply raiseErr_kept | apply setHbmCapacity_kept | apply updNear_kept | apply bothRecords_kept | apply poisonStruct_kept | apply foldl_kept | apply foldl_kept1) | (refine Kept.record ?_ rfl rfl rfl rfl rfl rfl rfl (by simp [shapeOf]); first | assumption | apply wr_kept | apply wrf_kept | apply raiseErr_kept | apply setHbmCapacity_kept | apply updNear_kept | apply bothRecords_kept | apply poisonStruct_kept | apply foldl_kept | apply foldl_kept1) | intro _ | apply Kept.ite | split

theorem execStackFail_kept {s₀ s t : State} (stack : Fin 8) (lost : List HbmStruct) (e : execStackFail stack lost s = .next t) (h : Kept s₀ s) :
    Kept s₀ t := by
  unfold execStackFail at e
  injection e with e; subst e
  with_reducible repeat' first | assumption | apply stackFail_kept | intro _ | split

theorem copyRewritten_kept {s₀ s : State} (h : Kept s₀ s) :
    Kept s₀ (copyRewritten s) := by
  unfold copyRewritten
  try dsimp only
  with_reducible repeat' first | assumption | apply wrf_kept | apply updFlash_kept | apply moveBlocks_kept | (refine Kept.record ?_ rfl rfl rfl rfl rfl rfl rfl rfl; first | assumption | apply wrf_kept | apply updFlash_kept | apply moveBlocks_kept) | (refine Kept.record ?_ rfl rfl rfl rfl rfl rfl rfl (by simp [shapeOf]); first | assumption | apply wrf_kept | apply updFlash_kept | apply moveBlocks_kept) | intro _ | split

theorem execMirrorCopyRewritten_kept {s₀ s t : State} (e : execMirrorCopyRewritten s = .next t) (h : Kept s₀ s) :
    Kept s₀ t := by
  unfold execMirrorCopyRewritten at e
  injection e with e; subst e
  with_reducible repeat' first | assumption | apply copyRewritten_kept | intro _ | split

end Sys2Proof.Machine
end

