-- ==== Sys2Proof/Laws/KeptFlash.lean ====
section
/-! SUPPORT. The definitions of Machine/Flash.lean keep what Kept says. -/
set_option linter.unusedTactic false
set_option linter.unreachableTactic false
namespace Sys2Proof.Machine

theorem setBlock_kept {s₀ s : State} (key : Nat) (b : Block) (h : Kept s₀ s) :
    Kept s₀ (setBlock s key b) := by
  unfold setBlock
  try dsimp only
  with_reducible repeat' first | assumption | apply updFlash_kept | (refine Kept.record ?_ rfl rfl rfl rfl rfl rfl rfl rfl; first | assumption | apply updFlash_kept) | intro _ | split

theorem setOffer_kept {s₀ s : State} (h : Kept s₀ s) :
    Kept s₀ (setOffer s) := by
  unfold setOffer
  try dsimp only
  with_reducible repeat' first | assumption | apply wr_kept | refine freshWord_kept ‹_› ?_ | apply freshWord_kept1 | intro _ | apply Kept.ite | split

theorem startFlash_kept {s₀ s : State} (h : Kept s₀ s) :
    Kept s₀ (startFlash s) := by
  unfold startFlash
  try dsimp only
  with_reducible repeat' first | assumption | apply wr_kept | apply wr64_kept | refine freshWord_kept ‹_› ?_ | apply freshWord_kept1 | apply updFlash_kept | apply setOffer_kept | (refine Kept.record ?_ rfl rfl rfl rfl rfl rfl rfl rfl; first | assumption | apply wr_kept | apply wr64_kept | refine freshWord_kept ‹_› ?_ | apply freshWord_kept1 | apply updFlash_kept | apply setOffer_kept) | intro _ | apply Kept.ite | split

theorem takeInventory_kept {s₀ s : State} (ch : Nat) (targets : Byte) (inv : FlashInventory) (h : Kept s₀ s) :
    Kept s₀ (takeInventory s ch targets inv) := by
  unfold takeInventory
  try dsimp only
  with_reducible repeat' first | assumption | apply updFlash_kept | apply foldl_kept | apply foldl_kept1 | (refine Kept.record ?_ rfl rfl rfl rfl rfl rfl rfl rfl; first | assumption | apply updFlash_kept | apply foldl_kept | apply foldl_kept1) | intro _ | apply Kept.ite | split

theorem channelTrained_kept {s₀ s : State} (ch : Nat) (rate : Nat) (targets : Byte) (same : Bool) (inv : FlashInventory) (h : Kept s₀ s) :
    Kept s₀ (channelTrained s ch rate targets same inv) := by
  unfold channelTrained
  try dsimp only
  with_reducible repeat' first | assumption | apply wr_kept | apply countBy_kept | apply raiseEvt_kept | apply raiseErr_kept | apply setStepRates_kept | apply startFlash_kept | apply takeInventory_kept | intro _ | apply Kept.ite | split

theorem execFlashChannelTrained_kept {s₀ s t : State} (ch : Fin 32) (rate : Fin 6) (targets : Byte) (inventoryOk : Bool) (inv : FlashInventory) (e : execFlashChannelTrained ch rate targets inventoryOk inv s = .next t) (h : Kept s₀ s) :
    Kept s₀ t := by
  unfold execFlashChannelTrained at e
  injection e with e; subst e
  with_reducible repeat' first | assumption | apply channelTrained_kept | intro _ | split

theorem loseReads_kept {s₀ s : State} (range : Nat) (page : Nat) (pages : Nat) (both : Bool) (f : Flight) (h : Kept s₀ s) :
    Kept s₀ (loseReads range page pages both s f) := by
  unfold loseReads
  try dsimp only
  with_reducible repeat' first | assumption | apply updWork_kept | (refine Kept.record ?_ rfl rfl rfl rfl rfl rfl rfl rfl; first | assumption | apply updWork_kept) | intro _ | apply Kept.ite | split

theorem setLost_kept {s₀ s : State} (l : List Lost) (h : Kept s₀ s) :
    Kept s₀ (setLost s l) := by
  unfold setLost
  try dsimp only
  with_reducible repeat' first | assumption | apply updFlash_kept | (refine Kept.record ?_ rfl rfl rfl rfl rfl rfl rfl rfl; first | assumption | apply updFlash_kept) | intro _ | split

theorem askRepair_kept {s₀ s : State} (i : Nat) (h : Kept s₀ s) :
    Kept s₀ (askRepair s i) := by
  unfold askRepair
  try dsimp only
  with_reducible repeat' first | assumption | apply updFlash_kept | apply sendOwnerRead_kept | (refine Kept.record ?_ rfl rfl rfl rfl rfl rfl rfl rfl; first | assumption | apply updFlash_kept | apply sendOwnerRead_kept) | intro _ | split

theorem dataLoss_kept {s₀ s : State} (l : Lost) (h : Kept s₀ s) :
    Kept s₀ (dataLoss s l) := by
  unfold dataLoss
  try dsimp only
  with_reducible repeat' first | assumption | apply raiseEvt_kept | apply reportLoss_kept | intro _ | apply Kept.ite | split

theorem lostOverflow_kept {s₀ s : State} (l : Lost) (h : Kept s₀ s) :
    Kept s₀ (lostOverflow s l) := by
  unfold lostOverflow
  try dsimp only
  with_reducible repeat' first | assumption | apply raiseErr_kept | apply setLost_kept | apply dataLoss_kept | apply foldl_kept | apply foldl_kept1 | (refine Kept.record ?_ rfl rfl rfl rfl rfl rfl rfl rfl; first | assumption | apply raiseErr_kept | apply setLost_kept | apply dataLoss_kept | apply foldl_kept | apply foldl_kept1) | intro _ | apply Kept.ite | split

theorem addLostAs_kept {s₀ s : State} (both : Bool) (range : Nat) (page : Nat) (pages : Nat) (h : Kept s₀ s) :
    Kept s₀ (addLostAs s both range page pages) := by
  unfold addLostAs
  try dsimp only
  with_reducible repeat' first | assumption | apply raiseEvt_kept | apply loseReads_kept | apply setLost_kept | apply askRepair_kept | apply dataLoss_kept | apply lostOverflow_kept | apply foldl_kept | apply foldl_kept1 | intro _ | apply Kept.ite | split

theorem addLost_kept {s₀ s : State} (range : Nat) (page : Nat) (pages : Nat) (h : Kept s₀ s) :
    Kept s₀ (addLost s range page pages) := by
  unfold addLost
  with_reducible repeat' first | assumption | apply addLostAs_kept | intro _ | split

theorem repairRetry_kept {s₀ s : State} (i : Nat) (h : Kept s₀ s) :
    Kept s₀ (repairRetry s i) := by
  unfold repairRetry
  with_reducible repeat' first | assumption | apply askRepair_kept | (refine Kept.record ?_ rfl rfl rfl rfl rfl rfl rfl rfl; first | assumption | apply askRepair_kept) | intro _ | apply Kept.ite | split

theorem execRepairRetry_kept {s₀ s t : State} (entry : Nat) (e : execRepairRetry entry s = .next t) (h : Kept s₀ s) :
    Kept s₀ t := by
  unfold execRepairRetry at e
  injection e with e; subst e
  with_reducible repeat' first | assumption | apply repairRetry_kept | intro _ | split

theorem repairData_kept {s₀ s : State} (i : Nat) (status : Nat) (n : Nat) (h : Kept s₀ s) :
    Kept s₀ (repairData s i status n) := by
  unfold repairData
  try dsimp only
  with_reducible repeat' first | assumption | apply count_kept | apply updFlash_kept | apply setLost_kept | apply askRepair_kept | apply dataLoss_kept | (refine Kept.record ?_ rfl rfl rfl rfl rfl rfl rfl rfl; first | assumption | apply count_kept | apply updFlash_kept | apply setLost_kept | apply askRepair_kept | apply dataLoss_kept) | intro _ | apply Kept.ite | split

theorem openRow_kept {s₀ s : State} (slc : Bool) (h : Kept s₀ s) :
    Kept s₀ (openRow s slc) := by
  unfold openRow
  try dsimp only
  with_reducible repeat' first | assumption | apply updFlash_kept | apply setOffer_kept | apply foldl_kept | apply foldl_kept1 | (refine Kept.record ?_ rfl rfl rfl rfl rfl rfl rfl rfl; first | assumption | apply updFlash_kept | apply setOffer_kept | apply foldl_kept | apply foldl_kept1) | intro _ | apply Kept.ite | split

theorem updRow_kept {s₀ s : State} (key : Nat) (g : BlockRow → BlockRow) (h : Kept s₀ s) :
    Kept s₀ (updRow s key g) := by
  unfold updRow
  try dsimp only
  with_reducible repeat' first | assumption | apply updFlash_kept | (refine Kept.record ?_ rfl rfl rfl rfl rfl rfl rfl rfl; first | assumption | apply updFlash_kept) | intro _ | apply Kept.ite | split

theorem addStripe_kept {s₀ s : State} (key : Nat) (page : Nat) (h : Kept s₀ s) :
    Kept s₀ (addStripe s key page) := by
  unfold addStripe
  try dsimp only
  with_reducible repeat' first | assumption | apply updRow_kept | (refine Kept.record ?_ rfl rfl rfl rfl rfl rfl rfl rfl; first | assumption | apply updRow_kept) | intro _ | split

theorem addParity_kept {s₀ s : State} (key : Nat) (page : Nat) (pa : Nat) (h : Kept s₀ s) :
    Kept s₀ (addParity s key page pa) := by
  unfold addParity
  try dsimp only
  with_reducible repeat' first | assumption | apply updRow_kept | (refine Kept.record ?_ rfl rfl rfl rfl rfl rfl rfl rfl; first | assumption | apply updRow_kept) | intro _ | apply Kept.ite | split

theorem leaveRows_kept {s₀ s : State} (out : Nat → Bool) (h : Kept s₀ s) :
    Kept s₀ (leaveRows s out) := by
  unfold leaveRows
  try dsimp only
  with_reducible repeat' first | assumption | apply updFlash_kept | (refine Kept.record ?_ rfl rfl rfl rfl rfl rfl rfl rfl; first | assumption | apply updFlash_kept) | intro _ | split

theorem retireBlock_kept {s₀ s : State} (key : Nat) (h : Kept s₀ s) :
    Kept s₀ (retireBlock s key) := by
  unfold retireBlock
  with_reducible repeat' first | assumption | apply count_kept | apply raiseEvt_kept | apply setBlock_kept | apply setOffer_kept | (refine Kept.record ?_ rfl rfl rfl rfl rfl rfl rfl rfl; first | assumption | apply count_kept | apply raiseEvt_kept | apply setBlock_kept | apply setOffer_kept) | intro _ | apply Kept.ite | split

theorem settleBlock_kept {s₀ s : State} (p : Nat × Block) (h : Kept s₀ s) :
    Kept s₀ (settleBlock s p) := by
  unfold settleBlock
  with_reducible repeat' first | assumption | apply setBlock_kept | apply leaveRows_kept | apply retireBlock_kept | (refine Kept.record ?_ rfl rfl rfl rfl rfl rfl rfl rfl; first | assumption | apply setBlock_kept | apply leaveRows_kept | apply retireBlock_kept) | intro _ | apply Kept.ite | split

theorem settleBlocks_kept {s₀ s : State} (h : Kept s₀ s) :
    Kept s₀ (settleBlocks s) := by
  unfold settleBlocks
  with_reducible repeat' first | assumption | apply setCond_kept | apply settleBlock_kept | apply foldl_kept | apply foldl_kept1 | intro _ | split

theorem answered_kept {s₀ s : State} (die : Nat) (h : Kept s₀ s) :
    Kept s₀ (answered s die) := by
  unfold answered
  try dsimp only
  with_reducible repeat' first | assumption | apply updFlash_kept | (refine Kept.record ?_ rfl rfl rfl rfl rfl rfl rfl rfl; first | assumption | apply updFlash_kept) | intro _ | split

theorem eraseSuspend_kept {s₀ s : State} (die : Nat) (h : Kept s₀ s) :
    Kept s₀ (eraseSuspend s die) := by
  unfold eraseSuspend
  try dsimp only
  with_reducible repeat' first | assumption | apply count_kept | apply updFlash_kept | apply setBlock_kept | (refine Kept.record ?_ rfl rfl rfl rfl rfl rfl rfl rfl; first | assumption | apply count_kept | apply updFlash_kept | apply setBlock_kept) | intro _ | apply Kept.ite | split

theorem execEraseSuspend_kept {s₀ s t : State} (die : Fin 1024) (e : execEraseSuspend die s = .next t) (h : Kept s₀ s) :
    Kept s₀ t := by
  unfold execEraseSuspend at e
  injection e with e; subst e
  with_reducible repeat' first | assumption | apply eraseSuspend_kept | intro _ | split

theorem servedRead_kept {s₀ s : State} (die : Nat) (h : Kept s₀ s) :
    Kept s₀ (servedRead s die) := by
  unfold servedRead
  try dsimp only
  with_reducible repeat' first | assumption | apply updFlash_kept | (refine Kept.record ?_ rfl rfl rfl rfl rfl rfl rfl rfl; first | assumption | apply updFlash_kept) | intro _ | apply Kept.ite | split

theorem eraseComplete_kept {s₀ s : State} (die : Nat) (blk : Nat) (ok : Bool) (h : Kept s₀ s) :
    Kept s₀ (eraseComplete s die blk ok) := by
  unfold eraseComplete
  try dsimp only
  with_reducible repeat' first | assumption | apply count_kept | apply raiseErr_kept | apply setBlock_kept | apply retireBlock_kept | apply settleBlocks_kept | apply answered_kept | (refine Kept.record ?_ rfl rfl rfl rfl rfl rfl rfl rfl; first | assumption | apply count_kept | apply raiseErr_kept | apply setBlock_kept | apply retireBlock_kept | apply settleBlocks_kept | apply answered_kept) | intro _ | apply Kept.ite | split

theorem execEraseComplete_kept {s₀ s t : State} (die : Fin 1024) (block : Fin 65536) (ok : Bool) (e : execEraseComplete die block ok s = .next t) (h : Kept s₀ s) :
    Kept s₀ t := by
  unfold execEraseComplete at e
  injection e with e; subst e
  with_reducible repeat' first | assumption | apply eraseComplete_kept | intro _ | split

theorem mapPlot_kept {s₀ s : State} (key : Nat) (p : Nat × Plot) (h : Kept s₀ s) :
    Kept s₀ (mapPlot key s p) := by
  unfold mapPlot
  try dsimp only
  with_reducible repeat' first | assumption | apply updFlash_kept | (refine Kept.record ?_ rfl rfl rfl rfl rfl rfl rfl rfl; first | assumption | apply updFlash_kept) | intro _ | apply Kept.ite | split

theorem losePage_kept {s₀ s : State} (key : Nat) (page : Nat) (h : Kept s₀ s) :
    Kept s₀ (losePage key s page) := by
  unfold losePage
  try dsimp only
  with_reducible repeat' first | assumption | apply addLost_kept | apply foldl_kept | apply foldl_kept1 | (refine Kept.record ?_ rfl rfl rfl rfl rfl rfl rfl rfl; first | assumption | apply addLost_kept | apply foldl_kept | apply foldl_kept1) | intro _ | split

theorem blockVerify_kept {s₀ s : State} (die : Nat) (blk : Nat) (r : VerifyResult) (h : Kept s₀ s) :
    Kept s₀ (blockVerify s die blk r) := by
  unfold blockVerify
  try dsimp only
  with_reducible repeat' first | assumption | apply updFlash_kept | apply setBlock_kept | apply leaveRows_kept | apply settleBlocks_kept | apply mapPlot_kept | apply losePage_kept | apply foldl_kept | apply foldl_kept1 | (refine Kept.record ?_ rfl rfl rfl rfl rfl rfl rfl rfl; first | assumption | apply updFlash_kept | apply setBlock_kept | apply leaveRows_kept | apply settleBlocks_kept | apply mapPlot_kept | apply losePage_kept | apply foldl_kept | apply foldl_kept1) | intro _ | apply Kept.ite | split

theorem execBlockVerify_kept {s₀ s t : State} (die : Fin 1024) (block : Fin 65536) (result : VerifyResult) (e : execBlockVerify die block result s = .next t) (h : Kept s₀ s) :
    Kept s₀ t := by
  unfold execBlockVerify at e
  injection e with e; subst e
  with_reducible repeat' first | assumption | apply blockVerify_kept | intro _ | split

theorem recordArrives_kept {s₀ s : State} (id : Nat) (slot : Nat) (r : Refine) (h : Kept s₀ s) :
    Kept s₀ (recordArrives s id slot r) := by
  unfold recordArrives
  try dsimp only
  with_reducible repeat' first | assumption | apply count_kept | apply complete_kept | apply updWork_kept | (refine Kept.record ?_ rfl rfl rfl rfl rfl rfl rfl rfl; first | assumption | apply count_kept | apply complete_kept | apply updWork_kept) | intro _ | apply Kept.ite | split

theorem refineArrives_kept {s₀ s : State} (id : Nat) (slot : Nat) (h : Kept s₀ s) :
    Kept s₀ (refineArrives s id slot) := by
  unfold refineArrives
  try dsimp only
  with_reducible repeat' first | assumption | apply count_kept | apply recordArrives_kept | (refine Kept.record ?_ rfl rfl rfl rfl rfl rfl rfl rfl; first | assumption | apply count_kept | apply recordArrives_kept) | intro _ | apply Kept.ite | split

theorem refineRead_kept {s₀ s : State} (id : Nat) (slot : Nat) (h : Kept s₀ s) :
    Kept s₀ (refineRead s id slot) := by
  unfold refineRead
  try dsimp only
  with_reducible repeat' first | assumption | apply count_kept | apply heatUnit_kept | apply refineArrives_kept | (refine Kept.record ?_ rfl rfl rfl rfl rfl rfl rfl rfl; first | assumption | apply count_kept | apply heatUnit_kept | apply refineArrives_kept) | intro _ | apply Kept.ite | split

theorem flashRead_kept {s₀ s : State} (given : Nat) (rdr : FlashReader) (asked : Nat) (o : ReadOutcome) (h : Kept s₀ s) :
    Kept s₀ (flashRead s given rdr asked o) := by
  unfold flashRead
  try dsimp only
  with_reducible repeat' first | assumption | apply count_kept | apply countBy_kept | apply raiseErr_kept | apply meter_kept | apply installPage_kept | apply addLost_kept | apply answered_kept | apply servedRead_kept | apply refineRead_kept | (refine Kept.record ?_ rfl rfl rfl rfl rfl rfl rfl rfl; first | assumption | apply count_kept | apply countBy_kept | apply raiseErr_kept | apply meter_kept | apply installPage_kept | apply addLost_kept | apply answered_kept | apply servedRead_kept | apply refineRead_kept) | intro _ | apply Kept.ite | split

theorem execFlashReadComplete_kept {s₀ s t : State} (die : Fin 1024) (reader : FlashReader) (columns : Nat) (outcome : ReadOutcome) (e : execFlashReadComplete die reader columns outcome s = .next t) (h : Kept s₀ s) :
    Kept s₀ t := by
  unfold execFlashReadComplete at e
  injection e with e; subst e
  with_reducible repeat' first | assumption | apply flashRead_kept | intro _ | split

theorem takeCheckpoint_kept {s₀ s : State} (n : Nat) (h : Kept s₀ s) :
    Kept s₀ (takeCheckpoint s n) := by
  unfold takeCheckpoint
  try dsimp only
  with_reducible repeat' first | assumption | apply updFlash_kept | (refine Kept.record ?_ rfl rfl rfl rfl rfl rfl rfl rfl; first | assumption | apply updFlash_kept) | intro _ | apply Kept.ite | split

theorem updPlot_kept {s₀ s : State} (key : Nat) (g : Plot → Plot) (h : Kept s₀ s) :
    Kept s₀ (updPlot s key g) := by
  unfold updPlot
  try dsimp only
  with_reducible repeat' first | assumption | apply updFlash_kept | intro _ | split

theorem chargeWrite_kept {s₀ s : State} (range : Nat) (bytes : Nat) (h : Kept s₀ s) :
    Kept s₀ (chargeWrite s range bytes) := by
  unfold chargeWrite
  with_reducible repeat' first | assumption | apply meter_kept | intro _ | split

theorem wroteBack_kept {s₀ s : State} (range : Nat) (page : Nat) (bytes : Nat) (h : Kept s₀ s) :
    Kept s₀ (wroteBack s range page bytes) := by
  unfold wroteBack
  try dsimp only
  with_reducible repeat' first | assumption | apply count_kept | apply updFlash_kept | apply installPage_kept | apply setTable_kept | apply chargeWrite_kept | apply foldl_kept | apply foldl_kept1 | (refine Kept.record ?_ rfl rfl rfl rfl rfl rfl rfl rfl; first | assumption | apply count_kept | apply updFlash_kept | apply installPage_kept | apply setTable_kept | apply chargeWrite_kept | apply foldl_kept | apply foldl_kept1) | intro _ | split

theorem programEffect_kept {s₀ s : State} (pa : Nat) (k : ProgramKind) (bytes : Nat) (h : Kept s₀ s) :
    Kept s₀ (programEffect s pa k bytes) := by
  unfold programEffect
  try dsimp only
  with_reducible repeat' first | assumption | apply updFlash_kept | apply complete_kept | apply setDurable_kept | apply updColl_kept | apply setBlock_kept | apply addParity_kept | apply takeCheckpoint_kept | apply updPlot_kept | apply chargeWrite_kept | apply wroteBack_kept | (refine Kept.record ?_ rfl rfl rfl rfl rfl rfl rfl rfl; first | assumption | apply updFlash_kept | apply complete_kept | apply setDurable_kept | apply updColl_kept | apply setBlock_kept | apply addParity_kept | apply takeCheckpoint_kept | apply updPlot_kept | apply chargeWrite_kept | apply wroteBack_kept) | intro _ | apply Kept.ite | split

theorem programIssued_kept {s₀ s r : State} {key : Nat} {k : ProgramKind} {b : Block} (e : programIssued s key k = some (r, b)) (h : Kept s₀ s) :
    Kept s₀ r := by
  unfold programIssued at e
  dsimp only at e
  split at e
  · contradiction
  · split at e
    · split at e
      · rw [← (Prod.mk.inj (Option.some.inj e)).1]
        exact Kept.ite (openRow_kept _ h) h
      · contradiction
    · contradiction

theorem programDone_kept {s₀ s : State} (pa : Nat) (k : ProgramKind) (bytes : Nat) (ok : Bool) (last : Bool) (h : Kept s₀ s) :
    Kept s₀ (programDone s pa k bytes ok last) := by
  unfold programDone
  try dsimp only
  with_reducible repeat' first | assumption | apply count_kept | apply updFlash_kept | apply raiseErr_kept | apply setBlock_kept | apply addStripe_kept | apply settleBlocks_kept | apply answered_kept | apply programEffect_kept | refine programIssued_kept ‹_› ?_ | (refine Kept.record ?_ rfl rfl rfl rfl rfl rfl rfl rfl; first | assumption | apply count_kept | apply updFlash_kept | apply raiseErr_kept | apply setBlock_kept | apply addStripe_kept | apply settleBlocks_kept | apply answered_kept | apply programEffect_kept | refine programIssued_kept ‹_› ?_) | intro _ | apply Kept.ite | split

theorem execFlashProgramComplete_kept {s₀ s t : State} (pa : BitVec 40) (kind : ProgramKind) (bytes : Nat) (ok : Bool) (last : Bool) (e : execFlashProgramComplete pa kind bytes ok last s = .next t) (h : Kept s₀ s) :
    Kept s₀ t := by
  unfold execFlashProgramComplete at e
  injection e with e; subst e
  with_reducible repeat' first | assumption | apply programDone_kept | intro _ | split

theorem failDie_kept {s₀ s : State} (die : Nat) (h : Kept s₀ s) :
    Kept s₀ (failDie s die) := by
  unfold failDie
  try dsimp only
  with_reducible repeat' first | assumption | apply wr_kept | apply raiseEvt_kept | apply updFlash_kept | apply setOffer_kept | apply retireBlock_kept | apply foldl_kept | apply foldl_kept1 | (refine Kept.record ?_ rfl rfl rfl rfl rfl rfl rfl rfl; first | assumption | apply wr_kept | apply raiseEvt_kept | apply updFlash_kept | apply setOffer_kept | apply retireBlock_kept | apply foldl_kept | apply foldl_kept1) | intro _ | apply Kept.ite | split

theorem dieTimeout_kept {s₀ s : State} (die : Nat) (h : Kept s₀ s) :
    Kept s₀ (dieTimeout s die) := by
  unfold dieTimeout
  try dsimp only
  with_reducible repeat' first | assumption | apply updFlash_kept | apply raiseErr_kept | apply failDie_kept | (refine Kept.record ?_ rfl rfl rfl rfl rfl rfl rfl rfl; first | assumption | apply updFlash_kept | apply raiseErr_kept | apply failDie_kept) | intro _ | apply Kept.ite | split

theorem execDieTimeout_kept {s₀ s t : State} (die : Fin 1024) (e : execDieTimeout die s = .next t) (h : Kept s₀ s) :
    Kept s₀ t := by
  unfold execDieTimeout at e
  injection e with e; subst e
  with_reducible repeat' first | assumption | apply dieTimeout_kept | intro _ | split

theorem rebuildStripe_kept {s₀ s : State} (o : StripeOutcome) (last : Bool) (h : Kept s₀ s) :
    Kept s₀ (rebuildStripe s o last) := by
  unfold rebuildStripe
  try dsimp only
  with_reducible repeat' first | assumption | apply wr_kept | apply count_kept | apply raiseEvt_kept | apply updFlash_kept | apply addLostAs_kept | apply leaveRows_kept | apply settleBlocks_kept | (refine Kept.record ?_ rfl rfl rfl rfl rfl rfl rfl rfl; first | assumption | apply wr_kept | apply count_kept | apply raiseEvt_kept | apply updFlash_kept | apply addLostAs_kept | apply leaveRows_kept | apply settleBlocks_kept) | intro _ | apply Kept.ite | split

theorem execRebuildStripe_kept {s₀ s t : State} (outcome : StripeOutcome) (last : Bool) (e : execRebuildStripe outcome last s = .next t) (h : Kept s₀ s) :
    Kept s₀ t := by
  unfold execRebuildStripe at e
  injection e with e; subst e
  with_reducible repeat' first | assumption | apply rebuildStripe_kept | intro _ | split

theorem mapCheckpoint_kept {s₀ s : State} (h : Kept s₀ s) :
    Kept s₀ (mapCheckpoint s) := by
  unfold mapCheckpoint
  try dsimp only
  with_reducible repeat' first | assumption | apply updFlash_kept | (refine Kept.record ?_ rfl rfl rfl rfl rfl rfl rfl rfl; first | assumption | apply updFlash_kept) | intro _ | apply Kept.ite | split

theorem execMapCheckpoint_kept {s₀ s t : State} (e : execMapCheckpoint s = .next t) (h : Kept s₀ s) :
    Kept s₀ t := by
  unfold execMapCheckpoint at e
  injection e with e; subst e
  with_reducible repeat' first | assumption | apply mapCheckpoint_kept | intro _ | split

theorem mapRebuild_kept {s₀ s : State} (range : Nat) (page : Nat) (pages : Nat) (ok : Bool) (h : Kept s₀ s) :
    Kept s₀ (mapRebuild s range page pages ok) := by
  unfold mapRebuild
  try dsimp only
  with_reducible repeat' first | assumption | apply updFlash_kept | apply addLost_kept | (refine Kept.record ?_ rfl rfl rfl rfl rfl rfl rfl rfl; first | assumption | apply updFlash_kept | apply addLost_kept) | intro _ | apply Kept.ite | split

theorem execMapRebuild_kept {s₀ s t : State} (range : Nat) (page : Nat) (pages : Nat) (ok : Bool) (e : execMapRebuild range page pages ok s = .next t) (h : Kept s₀ s) :
    Kept s₀ t := by
  unfold execMapRebuild at e
  injection e with e; subst e
  with_reducible repeat' first | assumption | apply mapRebuild_kept | intro _ | split

theorem execFlashWriteProtect_kept {s₀ s t : State} (ch : Fin 32) (e : execFlashWriteProtect ch s = .next t) (h : Kept s₀ s) :
    Kept s₀ t := by
  unfold execFlashWriteProtect at e
  injection e with e; subst e
  try dsimp only
  with_reducible repeat' first | assumption | apply updFlash_kept | (refine Kept.record ?_ rfl rfl rfl rfl rfl rfl rfl rfl; first | assumption | apply updFlash_kept) | intro _ | apply Kept.ite | split

end Sys2Proof.Machine
end

