-- ==== Sys2Proof/Laws/KeptGraft.lean ====
section
/-! SUPPORT. The definitions of Machine/Graft.lean keep what Kept says. -/
set_option linter.unusedTactic false
set_option linter.unreachableTactic false
namespace Sys2Proof.Machine

theorem ownerAnswer_kept {s₀ s : State} (b : List Byte) (status : Nat) (h : Kept s₀ s) :
    Kept s₀ (ownerAnswer s b status) := by
  unfold ownerAnswer
  try dsimp only
  with_reducible repeat' first | assumption | apply sendFrame_kept | apply meterFabric_kept | (refine Kept.record ?_ rfl rfl rfl rfl rfl rfl rfl rfl; first | assumption | apply sendFrame_kept | apply meterFabric_kept) | intro _ | apply Kept.ite | split

theorem ownerRead_kept {s₀ s : State} (f : Frame) (h : Kept s₀ s) :
    Kept s₀ (ownerRead s f) := by
  unfold ownerRead
  try dsimp only
  with_reducible repeat' first | assumption | apply count_kept | apply ctlFail_kept | apply ownerAnswer_kept | (refine Kept.record ?_ rfl rfl rfl rfl rfl rfl rfl rfl; first | assumption | apply count_kept | apply ctlFail_kept | apply ownerAnswer_kept) | intro _ | apply Kept.ite | split

theorem execOwnerRead_kept {s₀ s t : State} (f : Frame) (e : execOwnerRead f s = .next t) (h : Kept s₀ s) :
    Kept s₀ t := by
  unfold execOwnerRead at e
  injection e with e; subst e
  try dsimp only
  with_reducible repeat' first | assumption | apply receive_kept | apply ownerRead_kept | intro _ | split

theorem bookAnswer_kept {s₀ s : State} (b : List Byte) (h : Kept s₀ s) :
    Kept s₀ (bookAnswer s b) := by
  unfold bookAnswer
  with_reducible repeat' first | assumption | (refine Kept.record ?_ rfl rfl rfl rfl rfl rfl rfl rfl; first | assumption) | intro _ | split

theorem serveOwners_kept {s₀ s : State} (h : Kept s₀ s) :
    Kept s₀ (serveOwners s) := by
  unfold serveOwners
  try dsimp only
  with_reducible repeat' first | assumption | apply ownerAnswer_kept | apply bookAnswer_kept | apply foldl_kept | apply foldl_kept1 | (refine Kept.record ?_ rfl rfl rfl rfl rfl rfl rfl rfl; first | assumption | apply ownerAnswer_kept | apply bookAnswer_kept | apply foldl_kept | apply foldl_kept1) | intro _ | split

theorem placeObject_kept {s₀ s r : State} {i : Nat} (e : placeObject s i = some r) (h : Kept s₀ s) : Kept s₀ r := by
  unfold placeObject at e
  dsimp only at e
  split at e
  · obtain ⟨x, -, hx⟩ := Option.map_eq_some_iff.mp e
    subst hx
    exact setUse_kept _ (foldl_kept _ (fun _ _ k => startTp_kept _ _ _ _ _ k) _ _ (dirtyMap_kept _ _ (Kept.record h rfl rfl rfl rfl rfl rfl rfl rfl)))
  · obtain ⟨x, -, hx⟩ := Option.map_eq_some_iff.mp e
    subst hx
    exact setUse_kept _ (setTable_kept _ _ h)

theorem graftFail_kept {s₀ s : State} (h : Kept s₀ s) :
    Kept s₀ (graftFail s) := by
  unfold graftFail
  with_reducible repeat' first | assumption | apply raiseEvt_kept | (refine Kept.record ?_ rfl rfl rfl rfl rfl rfl rfl rfl; first | assumption | apply raiseEvt_kept) | intro _ | split

theorem placed_kept {s₀ t : State} : ∀ (l : List Nat) (o : Option State), l.foldl (fun o i => o.bind fun t => placeObject t i) o = some t →
    (∀ s, o = some s → Kept s₀ s) → Kept s₀ t
  | [], _, e, h => h t e
  | i :: r, o, e, h => placed_kept r _ e fun s hs => by
    obtain ⟨u, hu, hp⟩ := Option.bind_eq_some_iff.mp hs
    exact placeObject_kept hp (h u hu)

theorem hbmDone_kept {s₀ s : State} (h : Kept s₀ s) : Kept s₀ (hbmDone s) := by
  unfold hbmDone
  split
  · exact graftFail_kept h
  · rename_i e
    have k := placed_kept _ _ e fun u hu => Option.some.inj hu ▸ h
    exact foldl_kept _ (fun _ _ k => drainPair_kept _ k) _ _ (setTrellisEpoch_kept (raiseEvt_kept _ _ (setGraft_kept _ k)))

theorem fillColl_kept {s₀ s : State} (p : Pair) (b : List Byte) (h : Kept s₀ s) :
    Kept s₀ (fillColl s p b) := by
  unfold fillColl
  try dsimp only
  with_reducible repeat' first | assumption | apply count_kept | apply updColl_kept | apply foldl_kept | apply foldl_kept1 | (refine Kept.record ?_ rfl rfl rfl rfl rfl rfl rfl rfl; first | assumption | apply count_kept | apply updColl_kept | apply foldl_kept | apply foldl_kept1) | intro _ | apply Kept.ite | split

theorem fillTable_kept {s₀ s : State} (p : Pair) (b : List Byte) (h : Kept s₀ s) :
    Kept s₀ (fillTable s p b) := by
  unfold fillTable
  try dsimp only
  with_reducible repeat' first | assumption | apply setTable_kept | (refine Kept.record ?_ rfl rfl rfl rfl rfl rfl rfl rfl; first | assumption | apply setTable_kept) | intro _ | apply Kept.ite | split

theorem fillObject_kept {s₀ s : State} (i : Nat) (h : Kept s₀ s) :
    Kept s₀ (fillObject s i) := by
  unfold fillObject
  try dsimp only
  with_reducible repeat' first | assumption | apply drainPair_kept | apply fillColl_kept | apply fillTable_kept | intro _ | apply Kept.ite | split

theorem graftProgress_kept {s₀ s : State} (i : Nat) (h : Kept s₀ s) :
    Kept s₀ (graftProgress s i) := by
  unfold graftProgress
  try dsimp only
  with_reducible repeat' first | assumption | apply raiseEvt_kept | apply setGraft_kept | apply graftFail_kept | apply hbmDone_kept | apply fillObject_kept | apply foldl_kept | apply foldl_kept1 | (refine Kept.record ?_ rfl rfl rfl rfl rfl rfl rfl rfl; first | assumption | apply raiseEvt_kept | apply setGraft_kept | apply graftFail_kept | apply hbmDone_kept | apply fillObject_kept | apply foldl_kept | apply foldl_kept1) | intro _ | apply Kept.ite | split

theorem graftData_kept {s₀ s : State} (i : Nat) (b : List Byte) (h : Kept s₀ s) :
    Kept s₀ (graftData s i b) := by
  unfold graftData
  try dsimp only
  with_reducible repeat' first | assumption | apply wr64_kept | apply setGraft_kept | apply graftProgress_kept | (refine Kept.record ?_ rfl rfl rfl rfl rfl rfl rfl rfl; first | assumption | apply wr64_kept | apply setGraft_kept | apply graftProgress_kept) | intro _ | apply Kept.ite | split

theorem remoteData_kept {s₀ s : State} (r : RemoteRead) (b : List Byte) (h : Kept s₀ s) :
    Kept s₀ (remoteData s r b) := by
  unfold remoteData
  try dsimp only
  with_reducible repeat' first | assumption | apply count_kept | apply askRemote_kept | apply updWork_kept | apply recordArrives_kept | (refine Kept.record ?_ rfl rfl rfl rfl rfl rfl rfl rfl; first | assumption | apply count_kept | apply askRemote_kept | apply updWork_kept | apply recordArrives_kept) | intro _ | apply Kept.ite | split

theorem ownerData_kept {s₀ s : State} (f : Frame) (h : Kept s₀ s) :
    Kept s₀ (ownerData s f) := by
  unfold ownerData
  try dsimp only
  with_reducible repeat' first | assumption | apply count_kept | apply ctlFail_kept | apply setGraft_kept | apply repairData_kept | apply graftData_kept | apply remoteData_kept | (refine Kept.record ?_ rfl rfl rfl rfl rfl rfl rfl rfl; first | assumption | apply count_kept | apply ctlFail_kept | apply setGraft_kept | apply repairData_kept | apply graftData_kept | apply remoteData_kept) | intro _ | apply Kept.ite | split

theorem execOwnerData_kept {s₀ s t : State} (f : Frame) (e : execOwnerData f s = .next t) (h : Kept s₀ s) :
    Kept s₀ t := by
  unfold execOwnerData at e
  injection e with e; subst e
  try dsimp only
  with_reducible repeat' first | assumption | apply receive_kept | apply ownerData_kept | intro _ | split

theorem askImage_kept {s₀ : State} (i : Nat) : ∀ (n o : Nat) {s : State}, Kept s₀ s → Kept s₀ (askImage s i o n)
  | 0, _, _, h => h
  | n + 1, o, s, h => by
    unfold askImage
    dsimp only
    split
    · exact h
    · exact askImage_kept i n _ (setGraft_kept _ (sendOwnerRead_kept _ _ _ _ _ _ h))

theorem readImages_kept {s₀ s : State} (h : Kept s₀ s) :
    Kept s₀ (readImages s) := by
  unfold readImages
  try dsimp only
  with_reducible repeat' first | assumption | apply askImage_kept | (refine Kept.record ?_ rfl rfl rfl rfl rfl rfl rfl rfl; first | assumption | apply askImage_kept) | intro _ | apply Kept.ite | split

theorem shadowQuery_kept {s₀ s : State} (f : Frame) (h : Kept s₀ s) :
    Kept s₀ (shadowQuery s f) := by
  unfold shadowQuery
  try dsimp only
  with_reducible repeat' first | assumption | apply ctlFail_kept | apply updPart_kept | refine takeQuery_kept ‹_› ?_ | apply skipShadow_kept | (refine Kept.record ?_ rfl rfl rfl rfl rfl rfl rfl rfl; first | assumption | apply ctlFail_kept | apply updPart_kept | refine takeQuery_kept ‹_› ?_ | apply skipShadow_kept) | intro _ | apply Kept.ite | split

theorem execShadowQuery_kept {s₀ s t : State} (f : Frame) (e : execShadowQuery f s = .next t) (h : Kept s₀ s) :
    Kept s₀ t := by
  unfold execShadowQuery at e
  injection e with e; subst e
  try dsimp only
  with_reducible repeat' first | assumption | apply receive_kept | apply shadowQuery_kept | intro _ | split

theorem shadowResult_kept {s₀ s : State} (f : Frame) (h : Kept s₀ s) :
    Kept s₀ (shadowResult s f) := by
  unfold shadowResult
  try dsimp only
  with_reducible repeat' first | assumption | apply ctlFail_kept | apply setGraft_kept | apply compareShadow_kept | (refine Kept.record ?_ rfl rfl rfl rfl rfl rfl rfl rfl; first | assumption | apply ctlFail_kept | apply setGraft_kept | apply compareShadow_kept) | intro _ | apply Kept.ite | split

theorem execShadowResult_kept {s₀ s t : State} (f : Frame) (e : execShadowResult f s = .next t) (h : Kept s₀ s) :
    Kept s₀ t := by
  unfold execShadowResult at e
  injection e with e; subst e
  try dsimp only
  with_reducible repeat' first | assumption | apply receive_kept | apply shadowResult_kept | intro _ | split

end Sys2Proof.Machine
end

