-- ==== Sys2Proof/Laws/KeptFaults.lean ====
section
/-! SUPPORT. The definitions of Machine/Faults.lean keep what Kept says. -/
set_option linter.unusedTactic false
set_option linter.unreachableTactic false
namespace Sys2Proof.Machine

theorem setFaults_kept {s₀ s : State} (g : Faults → Faults) (h : Kept s₀ s) :
    Kept s₀ (setFaults s g) := by
  unfold setFaults
  with_reducible repeat' first | assumption | (refine Kept.record ?_ rfl rfl rfl rfl rfl rfl rfl rfl; first | assumption) | intro _ | split

theorem nodeResult_kept {s₀ s : State} (r : Nat) (h : Kept s₀ s) :
    Kept s₀ (nodeResult s r) := by
  unfold nodeResult
  with_reducible repeat' first | assumption | apply wrf_kept | intro _ | split

theorem graftStart_kept {s₀ s : State} (h : Kept s₀ s) :
    Kept s₀ (graftStart s) := by
  unfold graftStart
  try dsimp only
  with_reducible repeat' first | assumption | apply wr_kept | apply wr64_kept | apply setFaults_kept | apply nodeResult_kept | (refine Kept.record ?_ rfl rfl rfl rfl rfl rfl rfl rfl; first | assumption | apply wr_kept | apply wr64_kept | apply setFaults_kept | apply nodeResult_kept) | intro _ | apply Kept.ite | split

theorem execGraftStart_kept {s₀ s t : State} (e : execGraftStart s = .next t) (h : Kept s₀ s) :
    Kept s₀ t := by
  unfold execGraftStart at e
  injection e with e; subst e
  with_reducible repeat' first | assumption | apply graftStart_kept | intro _ | split

theorem graftAbort_kept {s₀ s : State} (h : Kept s₀ s) :
    Kept s₀ (graftAbort s) := by
  unfold graftAbort
  try dsimp only
  with_reducible repeat' first | assumption | apply graftFail_kept | apply setFaults_kept | apply nodeResult_kept | (refine Kept.record ?_ rfl rfl rfl rfl rfl rfl rfl rfl; first | assumption | apply graftFail_kept | apply setFaults_kept | apply nodeResult_kept) | intro _ | apply Kept.ite | split

theorem execGraftAbort_kept {s₀ s t : State} (e : execGraftAbort s = .next t) (h : Kept s₀ s) :
    Kept s₀ t := by
  unfold execGraftAbort at e
  injection e with e; subst e
  with_reducible repeat' first | assumption | apply graftAbort_kept | intro _ | split

theorem serve_kept {s₀ s : State} (h : Kept s₀ s) :
    Kept s₀ (serve s) := by
  unfold serve
  try dsimp only
  with_reducible repeat' first | assumption | apply setFaults_kept | apply nodeResult_kept | (refine Kept.record ?_ rfl rfl rfl rfl rfl rfl rfl rfl; first | assumption | apply setFaults_kept | apply nodeResult_kept) | intro _ | apply Kept.ite | split

theorem execServe_kept {s₀ s t : State} (e : execServe s = .next t) (h : Kept s₀ s) :
    Kept s₀ t := by
  unfold execServe at e
  injection e with e; subst e
  with_reducible repeat' first | assumption | apply serve_kept | intro _ | split

theorem fence_kept {s₀ s : State} (h : Kept s₀ s) :
    Kept s₀ (fence s) := by
  unfold fence
  try dsimp only
  with_reducible repeat' first | assumption | apply setFaults_kept | apply nodeResult_kept | (refine Kept.record ?_ rfl rfl rfl rfl rfl rfl rfl rfl; first | assumption | apply setFaults_kept | apply nodeResult_kept) | intro _ | apply Kept.ite | split

theorem execFence_kept {s₀ s t : State} (e : execFence s = .next t) (h : Kept s₀ s) :
    Kept s₀ t := by
  unfold execFence at e
  injection e with e; subst e
  with_reducible repeat' first | assumption | apply fence_kept | intro _ | split

theorem fenceTimeout_kept {s₀ s : State} (h : Kept s₀ s) :
    Kept s₀ (fenceTimeout s) := by
  unfold fenceTimeout
  try dsimp only
  with_reducible repeat' first | assumption | apply setFaults_kept | (refine Kept.record ?_ rfl rfl rfl rfl rfl rfl rfl rfl; first | assumption | apply setFaults_kept) | intro _ | apply Kept.ite | split

theorem execFenceTimeout_kept {s₀ s t : State} (e : execFenceTimeout s = .next t) (h : Kept s₀ s) :
    Kept s₀ t := by
  unfold execFenceTimeout at e
  injection e with e; subst e
  with_reducible repeat' first | assumption | apply fenceTimeout_kept | intro _ | split

theorem graftStall_kept {s₀ s : State} (h : Kept s₀ s) :
    Kept s₀ (graftStall s) := by
  unfold graftStall
  try dsimp only
  with_reducible repeat' first | assumption | apply graftFail_kept | intro _ | apply Kept.ite | split

theorem execGraftStall_kept {s₀ s t : State} (e : execGraftStall s = .next t) (h : Kept s₀ s) :
    Kept s₀ t := by
  unfold execGraftStall at e
  injection e with e; subst e
  with_reducible repeat' first | assumption | apply graftStall_kept | intro _ | split

theorem graftWindow_kept {s₀ s : State} (h : Kept s₀ s) :
    Kept s₀ (graftWindow s) := by
  unfold graftWindow
  with_reducible repeat' first | assumption | apply graftFail_kept | intro _ | apply Kept.ite | split

theorem execGraftWindow_kept {s₀ s t : State} (e : execGraftWindow s = .next t) (h : Kept s₀ s) :
    Kept s₀ t := by
  unfold execGraftWindow at e
  injection e with e; subst e
  with_reducible repeat' first | assumption | apply graftWindow_kept | intro _ | split

theorem openService_kept {s₀ s : State} (h : Kept s₀ s) :
    Kept s₀ (openService s) := by
  unfold openService
  try dsimp only
  with_reducible repeat' first | assumption | apply raiseEvt_kept | apply setFaults_kept | (refine Kept.record ?_ rfl rfl rfl rfl rfl rfl rfl rfl; first | assumption | apply raiseEvt_kept | apply setFaults_kept) | intro _ | apply Kept.ite | split

theorem execQuiesce_kept {s₀ s t : State} (e : execQuiesce s = .next t) (h : Kept s₀ s) :
    Kept s₀ t := by
  unfold execQuiesce at e
  injection e with e; subst e
  with_reducible repeat' first | assumption | apply wrf_kept | intro _ | split

theorem execQuiesceEnd_kept {s₀ s t : State} (e : execQuiesceEnd s = .next t) (h : Kept s₀ s) :
    Kept s₀ t := by
  unfold execQuiesceEnd at e
  injection e with e; subst e
  with_reducible repeat' first | assumption | apply wrf_kept | intro _ | split

theorem openQuiesce_kept {s₀ s : State} (h : Kept s₀ s) :
    Kept s₀ (openQuiesce s) := by
  unfold openQuiesce
  try dsimp only
  with_reducible repeat' first | assumption | apply wrf_kept | apply raiseEvt_kept | intro _ | apply Kept.ite | split

theorem releaseFirstFault_kept {s₀ s : State} (h : Kept s₀ s) :
    Kept s₀ (releaseFirstFault s) := by
  unfold releaseFirstFault
  with_reducible repeat' first | assumption | apply wrf_kept | intro _ | apply Kept.ite | split

theorem clearBit_kept {s₀ s : State} (g : Nat) (h : Kept s₀ s) :
    Kept s₀ (clearBit s g) := by
  unfold clearBit
  try dsimp only
  with_reducible repeat' first | assumption | apply wrf_kept | apply wr64_kept | apply count_kept | apply setFaults_kept | (refine Kept.record ?_ rfl rfl rfl rfl rfl rfl rfl rfl; first | assumption | apply wrf_kept | apply wr64_kept | apply count_kept | apply setFaults_kept) | intro _ | apply Kept.ite | split

theorem faultClear_kept {s₀ s : State} (v : Quad) (h : Kept s₀ s) :
    Kept s₀ (faultClear s v) := by
  unfold faultClear
  try dsimp only
  with_reducible repeat' first | assumption | apply releaseFirstFault_kept | apply clearBit_kept | apply foldl_kept | apply foldl_kept1 | intro _ | split

theorem execFaultClear_kept {s₀ s t : State} (value : Quad) (e : execFaultClear value s = .next t) (h : Kept s₀ s) :
    Kept s₀ t := by
  unfold execFaultClear at e
  injection e with e; subst e
  with_reducible repeat' first | assumption | apply faultClear_kept | intro _ | split

theorem histPop_kept {s₀ s : State} (push : Bool) (h : Kept s₀ s) :
    Kept s₀ (histPop s push) := by
  unfold histPop
  try dsimp only
  with_reducible repeat' first | assumption | apply wr_kept | apply setFaults_kept | (refine Kept.record ?_ rfl rfl rfl rfl rfl rfl rfl rfl; first | assumption | apply wr_kept | apply setFaults_kept) | intro _ | apply Kept.ite | split

theorem execHistPop_kept {s₀ s t : State} (e : execHistPop s = .next t) (h : Kept s₀ s) :
    Kept s₀ t := by
  unfold execHistPop at e
  injection e with e; subst e
  with_reducible repeat' first | assumption | apply histPop_kept | intro _ | split

theorem execGoneClear_kept {s₀ s t : State} (node : BitVec 15) (e : execGoneClear node s = .next t) (h : Kept s₀ s) :
    Kept s₀ t := by
  unfold execGoneClear at e
  injection e with e; subst e
  try dsimp only
  with_reducible repeat' first | assumption | apply setFaults_kept | (refine Kept.record ?_ rfl rfl rfl rfl rfl rfl rfl rfl; first | assumption | apply setFaults_kept) | intro _ | split

theorem gone_kept {s₀ s : State} (f : Frame) (h : Kept s₀ s) :
    Kept s₀ (gone s f) := by
  unfold gone
  try dsimp only
  with_reducible repeat' first | assumption | apply count_kept | apply raiseEvt_kept | apply goSolo_kept | apply tryReplay_kept | apply ownerGone_kept | apply setFaults_kept | apply foldl_kept | apply foldl_kept1 | (refine Kept.record ?_ rfl rfl rfl rfl rfl rfl rfl rfl; first | assumption | apply count_kept | apply raiseEvt_kept | apply goSolo_kept | apply tryReplay_kept | apply ownerGone_kept | apply setFaults_kept | apply foldl_kept | apply foldl_kept1) | intro _ | split

theorem execGone_kept {s₀ s t : State} (f : Frame) (e : execGone f s = .next t) (h : Kept s₀ s) :
    Kept s₀ t := by
  unfold execGone at e
  injection e with e; subst e
  try dsimp only
  with_reducible repeat' first | assumption | apply receive_kept | apply gone_kept | intro _ | split

theorem faultFlight_kept {s₀ s : State} (f : Flight) (h : Kept s₀ s) :
    Kept s₀ (faultFlight s f) := by
  unfold faultFlight
  try dsimp only
  with_reducible repeat' first | assumption | apply complete_kept | refine updateEnded_kept ‹_› ?_ | apply updateEnded_kept1 | (refine Kept.record ?_ rfl rfl rfl rfl rfl rfl rfl rfl; first | assumption | apply complete_kept | refine updateEnded_kept ‹_› ?_ | apply updateEnded_kept1) | intro _ | split

theorem faultHeld_kept {s₀ s : State} (a : Deferred) (h : Kept s₀ s) : Kept s₀ (faultHeld s a) := by
  cases a with
  | finish => exact complete_kept _ _ _ _ _ _ h
  | reply => exact h

theorem nodeFaultCompletions_kept {s₀ s : State} (h : Kept s₀ s) :
    Kept s₀ (nodeFaultCompletions s) := by
  unfold nodeFaultCompletions
  try dsimp only
  with_reducible repeat' first | assumption | apply refuse_kept | apply setFaults_kept | apply faultFlight_kept | apply faultHeld_kept | apply foldl_kept | apply foldl_kept1 | (refine Kept.record ?_ rfl rfl rfl rfl rfl rfl rfl rfl; first | assumption | apply refuse_kept | apply setFaults_kept | apply faultFlight_kept | apply faultHeld_kept | apply foldl_kept | apply foldl_kept1) | intro _ | apply Kept.ite | split

theorem execNodeFaultCompletions_kept {s₀ s t : State} (e : execNodeFaultCompletions s = .next t) (h : Kept s₀ s) :
    Kept s₀ t := by
  unfold execNodeFaultCompletions at e
  injection e with e; subst e
  with_reducible repeat' first | assumption | apply nodeFaultCompletions_kept | intro _ | split

theorem execD2dFail_kept {s₀ s t : State} (e : execD2dFail s = .next t) (h : Kept s₀ s) :
    Kept s₀ t := by
  unfold execD2dFail at e
  injection e with e; subst e
  with_reducible repeat' first | assumption | apply raiseErr_kept | intro _ | split

theorem execMcUe_kept {s₀ s t : State} (e : execMcUe s = .next t) (h : Kept s₀ s) : Kept s₀ t := by
  injection e with e; subst e
  exact (raiseErr_kept _ _ _ h).withChip rfl rfl (by simp [shapeOf])

theorem execCollectorParity_kept {s₀ s t : State} (e : execCollectorParity s = .next t) (h : Kept s₀ s) :
    Kept s₀ t := by
  unfold execCollectorParity at e
  injection e with e; subst e
  with_reducible repeat' first | assumption | apply raiseErr_kept | intro _ | split

theorem execAerError_kept {s₀ s t : State} (kind : AerKind) (e : execAerError kind s = .next t) (h : Kept s₀ s) :
    Kept s₀ t := by
  unfold execAerError at e
  try dsimp only at e
  (repeat' split at e) <;> first
    | contradiction
    | (injection e with e; subst e)
  all_goals
    with_reducible repeat' first | assumption | apply raiseErr_kept | (refine Kept.record ?_ rfl rfl rfl rfl rfl rfl rfl rfl; first | assumption | apply raiseErr_kept) | intro _ | split

end Sys2Proof.Machine
end

