-- ==== Sys2Proof/Laws/KeptRecovery.lean ====
section
/-! SUPPORT. The definitions of Machine/Recovery.lean keep what Kept says. -/
set_option linter.unusedTactic false
set_option linter.unreachableTactic false
namespace Sys2Proof.Machine

theorem settleSuspect_kept {s₀ s : State} (failed : List Nat) (p : Nat × Block) (h : Kept s₀ s) :
    Kept s₀ (settleSuspect failed s p) := by
  unfold settleSuspect
  try dsimp only
  with_reducible repeat' first | assumption | apply count_kept | apply raiseErr_kept | apply setBlock_kept | apply retireBlock_kept | (refine Kept.record ?_ rfl rfl rfl rfl rfl rfl rfl rfl; first | assumption | apply count_kept | apply raiseErr_kept | apply setBlock_kept | apply retireBlock_kept) | intro _ | apply Kept.ite | split

theorem recoverOne_kept {s₀ s : State} (failed : List Nat) (p : Nat × List Coll) (h : Kept s₀ s) :
    Kept s₀ (recoverOne failed s p) := by
  unfold recoverOne
  try dsimp only
  with_reducible repeat' first | assumption | apply setUse_kept | apply updFlash_kept | apply dirtyMap_kept | (refine Kept.record ?_ rfl rfl rfl rfl rfl rfl rfl rfl; first | assumption | apply setUse_kept | apply updFlash_kept | apply dirtyMap_kept) | intro _ | apply Kept.ite | split

theorem recoverTable_kept {s₀ s : State} (p : Nat × Table) (h : Kept s₀ s) :
    Kept s₀ (recoverTable s p) := by
  unfold recoverTable
  with_reducible repeat' first | assumption | apply setUse_kept | apply setTable_kept | (refine Kept.record ?_ rfl rfl rfl rfl rfl rfl rfl rfl; first | assumption | apply setUse_kept | apply setTable_kept) | intro _ | apply Kept.ite | split

theorem recovery_kept {s₀ s : State} (r : RecoveryFound) (h : Kept s₀ s) :
    Kept s₀ (recovery s r) := by
  unfold recovery
  try dsimp only
  with_reducible repeat' first | assumption | apply updFlash_kept | apply setTrellisEpoch_kept | apply setDurable_kept | apply settleSuspect_kept | apply recoverOne_kept | apply recoverTable_kept | apply foldl_kept | apply foldl_kept1 | (refine Kept.record ?_ rfl rfl rfl rfl rfl rfl rfl rfl; first | assumption | apply updFlash_kept | apply setTrellisEpoch_kept | apply setDurable_kept | apply settleSuspect_kept | apply recoverOne_kept | apply recoverTable_kept | apply foldl_kept | apply foldl_kept1) | intro _ | apply Kept.ite | split

theorem execRecovery_kept {s₀ s t : State} (found : RecoveryFound) (e : execRecovery found s = .next t) (h : Kept s₀ s) :
    Kept s₀ t := by
  unfold execRecovery at e
  injection e with e; subst e
  with_reducible repeat' first | assumption | apply recovery_kept | intro _ | split

end Sys2Proof.Machine
end

