-- ==== Sys2Proof/Laws/KeptSteps.lean ====
section
/-! SUPPORT. The definitions of Machine/Steps.lean keep what Kept says. -/
set_option linter.unusedTactic false
set_option linter.unreachableTactic false
namespace Sys2Proof.Machine

theorem setStep_kept {s₀ s : State} (g : Step → Step) (h : Kept s₀ s) :
    Kept s₀ (setStep s g) := by
  unfold setStep
  with_reducible repeat' first | assumption | (refine Kept.record ?_ rfl rfl rfl rfl rfl rfl rfl rfl; first | assumption) | intro _ | split

theorem dropMark_kept {s₀ s : State} (h : Kept s₀ s) :
    Kept s₀ (dropMark s) := by
  unfold dropMark
  try dsimp only
  with_reducible repeat' first | assumption | apply wr_kept | apply setStep_kept | (refine Kept.record ?_ rfl rfl rfl rfl rfl rfl rfl rfl; first | assumption | apply wr_kept | apply setStep_kept) | intro _ | split

theorem markAtTick_kept {s₀ s : State} (h : Kept s₀ s) :
    Kept s₀ (markAtTick s) := by
  unfold markAtTick
  try dsimp only
  with_reducible repeat' first | assumption | apply count_kept | apply raiseEvt_kept | apply setStep_kept | apply dropMark_kept | (refine Kept.record ?_ rfl rfl rfl rfl rfl rfl rfl rfl; first | assumption | apply count_kept | apply raiseEvt_kept | apply setStep_kept | apply dropMark_kept) | intro _ | apply Kept.ite | split

theorem overruns_kept {s₀ s : State} (h : Kept s₀ s) :
    Kept s₀ (overruns s) := by
  unfold overruns
  try dsimp only
  with_reducible repeat' first | assumption | apply countN_kept | (refine Kept.record ?_ rfl rfl rfl rfl rfl rfl rfl rfl; first | assumption | apply countN_kept) | intro _ | split

theorem forceChans_kept {s₀ s : State} (h : Kept s₀ s) :
    Kept s₀ (forceChans s) := by
  unfold forceChans
  try dsimp only
  with_reducible repeat' first | assumption | (refine Kept.record ?_ rfl rfl rfl rfl rfl rfl rfl rfl; first | assumption) | intro _ | split

theorem tick_kept {s₀ s : State} (h : Kept s₀ s) :
    Kept s₀ (tick s) := by
  unfold tick
  try dsimp only
  with_reducible repeat' first | assumption | apply count_kept | apply raiseEvt_kept | apply lateTps_kept | apply setStep_kept | apply markAtTick_kept | apply overruns_kept | apply forceChans_kept | (refine Kept.record ?_ rfl rfl rfl rfl rfl rfl rfl rfl; first | assumption | apply count_kept | apply raiseEvt_kept | apply lateTps_kept | apply setStep_kept | apply markAtTick_kept | apply overruns_kept | apply forceChans_kept) | intro _ | apply Kept.ite | split

theorem execInternalTick_kept {s₀ s t : State} (e : execInternalTick s = .next t) (h : Kept s₀ s) :
    Kept s₀ t := by
  unfold execInternalTick at e
  injection e with e; subst e
  with_reducible repeat' first | assumption | apply tick_kept | intro _ | apply Kept.ite | split

theorem tickInEdge_kept {s₀ s : State} (ns : Nat) (h : Kept s₀ s) :
    Kept s₀ (tickInEdge s ns) := by
  unfold tickInEdge
  try dsimp only
  with_reducible repeat' first | assumption | apply count_kept | apply raiseEvt_kept | apply setStep_kept | apply tick_kept | (refine Kept.record ?_ rfl rfl rfl rfl rfl rfl rfl rfl; first | assumption | apply count_kept | apply raiseEvt_kept | apply setStep_kept | apply tick_kept) | intro _ | apply Kept.ite | split

theorem execTickInEdge_kept {s₀ s t : State} (ns : Nat) (e : execTickInEdge ns s = .next t) (h : Kept s₀ s) :
    Kept s₀ t := by
  unfold execTickInEdge at e
  injection e with e; subst e
  with_reducible repeat' first | assumption | apply tickInEdge_kept | intro _ | split

theorem tickLost_kept {s₀ s : State} (h : Kept s₀ s) :
    Kept s₀ (tickLost s) := by
  unfold tickLost
  try dsimp only
  with_reducible repeat' first | assumption | apply wrf_kept | apply raiseEvt_kept | apply raiseErr_kept | apply setStep_kept | (refine Kept.record ?_ rfl rfl rfl rfl rfl rfl rfl rfl; first | assumption | apply wrf_kept | apply raiseEvt_kept | apply raiseErr_kept | apply setStep_kept) | intro _ | apply Kept.ite | split

theorem flywheelTick_kept {s₀ s : State} (h : Kept s₀ s) :
    Kept s₀ (flywheelTick s) := by
  unfold flywheelTick
  try dsimp only
  with_reducible repeat' first | assumption | apply count_kept | apply raiseEvt_kept | apply setStep_kept | apply tick_kept | apply tickLost_kept | (refine Kept.record ?_ rfl rfl rfl rfl rfl rfl rfl rfl; first | assumption | apply count_kept | apply raiseEvt_kept | apply setStep_kept | apply tick_kept | apply tickLost_kept) | intro _ | apply Kept.ite | split

theorem execFlywheelTick_kept {s₀ s t : State} (e : execFlywheelTick s = .next t) (h : Kept s₀ s) :
    Kept s₀ t := by
  unfold execFlywheelTick at e
  injection e with e; subst e
  with_reducible repeat' first | assumption | apply flywheelTick_kept | intro _ | split

theorem usePeriod_kept {s₀ s : State} (h : Kept s₀ s) :
    Kept s₀ (usePeriod s) := by
  unfold usePeriod
  with_reducible repeat' first | assumption | apply wrf_kept | apply setStepRates_kept | intro _ | split

theorem stepRun_kept {s₀ s : State} (run : Bool) (h : Kept s₀ s) :
    Kept s₀ (stepRun s run) := by
  unfold stepRun
  try dsimp only
  with_reducible repeat' first | assumption | apply setStep_kept | apply usePeriod_kept | (refine Kept.record ?_ rfl rfl rfl rfl rfl rfl rfl rfl; first | assumption | apply setStep_kept | apply usePeriod_kept) | intro _ | apply Kept.ite | split

theorem execStepRun_kept {s₀ s t : State} (run : Bool) (e : execStepRun run s = .next t) (h : Kept s₀ s) :
    Kept s₀ t := by
  unfold execStepRun at e
  injection e with e; subst e
  with_reducible repeat' first | assumption | apply stepRun_kept | intro _ | split

theorem execTransplantGrid_kept {s₀ s t : State} (carriers : List (Fin 50)) (e : execTransplantGrid carriers s = .next t) (h : Kept s₀ s) :
    Kept s₀ t := by
  unfold execTransplantGrid at e
  injection e with e; subst e
  try dsimp only
  with_reducible repeat' first | assumption | apply transplantGrid_kept | apply flushClose_kept | apply foldl_kept | apply foldl_kept1 | intro _ | split

theorem openObjects_kept {s₀ s : State} (h : Kept s₀ s) :
    Kept s₀ (openObjects s) := by
  unfold openObjects
  try dsimp only
  with_reducible repeat' first | assumption | apply heartbeat_kept | apply setDurable_kept | apply freeOld_kept | apply flushClose_kept | apply openClose_kept | apply openPairs_kept | apply openMaps_kept | apply openService_kept | apply foldl_kept | apply foldl_kept1 | intro _ | split

theorem openPower_kept {s₀ s : State} (e : OpenEnv) (h : Kept s₀ s) :
    Kept s₀ (openPower s e) := by
  unfold openPower
  with_reducible repeat' first | assumption | apply openGallery_kept | apply clockSet_kept | apply thermalEvaluate_kept | apply foldl_kept | apply foldl_kept1 | intro _ | split

theorem openTenants_kept {s₀ s : State} (h : Kept s₀ s) :
    Kept s₀ (openTenants s) := by
  unfold openTenants
  try dsimp only
  with_reducible repeat' first | assumption | apply setStepRates_kept | apply latchTenant_kept | apply evaluateGuarantees_kept | apply freeTenant_kept | apply refillAll_kept | apply foldl_kept | apply foldl_kept1 | intro _ | split

theorem openFlights_kept {s₀ s : State} (h : Kept s₀ s) :
    Kept s₀ (openFlights s) := by
  unfold openFlights
  with_reducible repeat' first | assumption | apply openFlight_kept | apply foldl_kept | apply foldl_kept1 | intro _ | split

theorem openBackgrounds_kept {s₀ s : State} (h : Kept s₀ s) :
    Kept s₀ (openBackgrounds s) := by
  unfold openBackgrounds
  with_reducible repeat' first | assumption | apply openFlight_kept | apply foldl_kept | apply foldl_kept1 | intro _ | split

theorem openParts_kept {s₀ s0 : State} (h : Kept s₀ s0) :
    Kept s₀ (openParts s0) := by
  unfold openParts
  try dsimp only
  with_reducible repeat' first | assumption | apply serveRows_kept | apply admitPart_kept | apply foldl_kept | apply foldl_kept1 | (refine Kept.record ?_ rfl rfl rfl rfl rfl rfl rfl rfl; first | assumption | apply serveRows_kept | apply admitPart_kept | apply foldl_kept | apply foldl_kept1) | intro _ | apply Kept.ite | split

theorem openAdmission_kept {s₀ s0 : State} (h : Kept s₀ s0) :
    Kept s₀ (openAdmission s0) := by
  unfold openAdmission
  try dsimp only
  with_reducible repeat' first | assumption | apply expireAll_kept | apply admitLocal_kept | apply openFlight_kept | apply foldl_kept | apply foldl_kept1 | intro _ | apply Kept.ite | split

theorem lateYields_kept {s₀ s : State} (h : Kept s₀ s) :
    Kept s₀ (lateYields s) := by
  unfold lateYields
  try dsimp only
  with_reducible repeat' first | assumption | apply countN_kept | intro _ | split

theorem openCounts_kept {s₀ s : State} (h : Kept s₀ s) :
    Kept s₀ (openCounts s) := by
  unfold openCounts
  try dsimp only
  with_reducible repeat' first | assumption | apply count_kept | (refine Kept.record ?_ rfl rfl rfl rfl rfl rfl rfl rfl; first | assumption | apply count_kept) | intro _ | apply Kept.ite | split

theorem newWindows_kept {s₀ s : State} (h : Kept s₀ s) : Kept s₀ (newWindows s) := h.withMem rfl (by simp [shapeOf])

theorem openInstant_kept {s₀ s : State} (e : OpenEnv) (h : Kept s₀ s) :
    Kept s₀ (openInstant s e) := by
  unfold openInstant
  try dsimp only
  with_reducible repeat' first | assumption | apply raiseErr_kept | apply openLevel_kept | apply commitReady_kept | apply serveOwners_kept | apply readImages_kept | apply openQuiesce_kept | apply setStep_kept | apply openObjects_kept | apply openPower_kept | apply openTenants_kept | apply openFlights_kept | apply openBackgrounds_kept | apply openParts_kept | apply openAdmission_kept | apply lateYields_kept | apply openCounts_kept | apply newWindows_kept | apply foldl_kept | apply foldl_kept1 | (refine Kept.record ?_ rfl rfl rfl rfl rfl rfl rfl rfl; first | assumption | apply raiseErr_kept | apply openLevel_kept | apply commitReady_kept | apply serveOwners_kept | apply readImages_kept | apply openQuiesce_kept | apply setStep_kept | apply openObjects_kept | apply openPower_kept | apply openTenants_kept | apply openFlights_kept | apply openBackgrounds_kept | apply openParts_kept | apply openAdmission_kept | apply lateYields_kept | apply openCounts_kept | apply newWindows_kept | apply foldl_kept | apply foldl_kept1) | intro _ | apply Kept.ite | split

theorem execStepOpen_kept {s₀ s t : State} (env : OpenEnv) (e : execStepOpen env s = .next t) (h : Kept s₀ s) :
    Kept s₀ t := by
  unfold execStepOpen at e
  injection e with e; subst e
  with_reducible repeat' first | assumption | apply openInstant_kept | intro _ | apply Kept.ite | split

end Sys2Proof.Machine
end

