-- ==== Sys2Proof/Laws/KeptRegRead.lean ====
section
/-! SUPPORT. The definitions of Machine/RegRead.lean keep what Kept says. -/
set_option linter.unusedTactic false
set_option linter.unreachableTactic false
namespace Sys2Proof.Machine

theorem popRead_kept1 {s₀ s : State} (inb : Bool) (n : Nat) (push : Bool) (h : Kept s₀ s) :
    Kept s₀ (popRead s inb n push).2 := by
  unfold popRead
  try dsimp only
  with_reducible repeat' first | assumption | apply mboxInPop_kept | apply mboxOutPop_kept | (refine Kept.record ?_ rfl rfl rfl rfl rfl rfl rfl rfl; first | assumption | apply mboxInPop_kept | apply mboxOutPop_kept) | intro _ | apply Kept.ite2 | split

theorem popRead_kept {s₀ s r : State} {x : Nat} {inb : Bool} {n : Nat} {push : Bool} (e₁ : popRead s inb n push = (x, r)) (h : Kept s₀ s) :
    Kept s₀ r := by
  have k := popRead_kept1 inb n push h
  rwa [e₁] at k

theorem clearRead_kept {s₀ s : State} (a : Nat) (same : Nat) (h : Kept s₀ s) :
    Kept s₀ (clearRead s a same) := by
  unfold clearRead
  with_reducible repeat' first | assumption | apply wr_kept | apply wr64_kept | (refine Kept.record ?_ rfl rfl rfl rfl rfl rfl rfl rfl; first | assumption | apply wr_kept | apply wr64_kept) | intro _ | split

theorem readReg_kept1 {s₀ s : State} (a : Nat) (same : Nat) (h : Kept s₀ s) :
    Kept s₀ (readReg s a same).2 := by
  unfold readReg
  try dsimp only
  with_reducible repeat' first | assumption | refine popRead_kept ‹_› ?_ | apply popRead_kept1 | apply clearRead_kept | (refine Kept.record ?_ rfl rfl rfl rfl rfl rfl rfl rfl; first | assumption | refine popRead_kept ‹_› ?_ | apply popRead_kept1 | apply clearRead_kept) | intro _ | apply Kept.ite2 | split

theorem readReg_kept {s₀ s r : State} {x : Word} {a : Nat} {same : Nat} (e₁ : readReg s a same = (x, r)) (h : Kept s₀ s) :
    Kept s₀ r := by
  have k := readReg_kept1 a same h
  rwa [e₁] at k

theorem readLoc_kept1 {s₀ s : State} (l : Loc) (same : Nat) (h : Kept s₀ s) :
    Kept s₀ (readLoc s l same).2 := by
  unfold readLoc
  with_reducible repeat' first | assumption | refine readReg_kept ‹_› ?_ | apply readReg_kept1 | (refine Kept.record ?_ rfl rfl rfl rfl rfl rfl rfl rfl; first | assumption | refine readReg_kept ‹_› ?_ | apply readReg_kept1) | intro _ | split

theorem readLoc_kept {s₀ s r : State} {x : Word} {l : Loc} {same : Nat} (e₁ : readLoc s l same = (x, r)) (h : Kept s₀ s) :
    Kept s₀ r := by
  have k := readLoc_kept1 l same h
  rwa [e₁] at k

theorem countMmio_kept {s₀ s : State} (req : Requester) (a : Nat) (h : Kept s₀ s) :
    Kept s₀ (countMmio s req a) := by
  unfold countMmio
  with_reducible repeat' first | assumption | apply count_kept | intro _ | apply Kept.ite | split

theorem readWords_kept {s₀ : State} {req : Requester} {bar : Bar} {same : Nat} : ∀ {l : List Nat} {s r : State} {x : List Byte},
    readWords s req bar same l = (x, r) → Kept s₀ s → Kept s₀ r
  | [], _, _, _, e, h => by rw [← (Prod.mk.inj e).2]; exact h
  | w :: l, s, r, x, e, h => by
    unfold readWords at e
    split at e
    rename_i e1
    split at e
    rename_i e2
    rw [← (Prod.mk.inj e).2]
    exact readWords_kept e2 (readLoc_kept e1 h)

theorem readWords_kept1 {s₀ s : State} (req : Requester) (bar : Bar) (same : Nat) (l : List Nat) (h : Kept s₀ s) :
    Kept s₀ (readWords s req bar same l).2 := readWords_kept rfl h

theorem setAnswer_kept {s₀ s : State} (v : Option Quad) (ca : Bool) (h : Kept s₀ s) :
    Kept s₀ (setAnswer s v ca) := by
  unfold setAnswer
  with_reducible repeat' first | assumption | (refine Kept.record ?_ rfl rfl rfl rfl rfl rfl rfl rfl; first | assumption) | intro _ | split

theorem readSpan_kept {s₀ s : State} (req : Requester) (bar : Bar) (a : Nat) (len : Nat) (same : Nat) (h : Kept s₀ s) :
    Kept s₀ (readSpan s req bar a len same) := by
  unfold readSpan
  try dsimp only
  with_reducible repeat' first | assumption | apply countMmio_kept | refine readWords_kept ‹_› ?_ | apply readWords_kept1 | apply setAnswer_kept | (refine Kept.record ?_ rfl rfl rfl rfl rfl rfl rfl rfl; first | assumption | apply countMmio_kept | refine readWords_kept ‹_› ?_ | apply readWords_kept1 | apply setAnswer_kept) | intro _ | apply Kept.ite | split

theorem execRcRead_kept {s₀ s t : State} (req : Requester) (bar : Bar) (addr : Nat) (len : Nat) (sameCycle : Nat) (e : execRcRead req bar addr len sameCycle s = .next t) (h : Kept s₀ s) :
    Kept s₀ t := by
  unfold execRcRead at e
  injection e with e; subst e
  with_reducible repeat' first | assumption | apply readSpan_kept | intro _ | split

theorem mmioBad_kept {s₀ s : State} (req : Requester) (isWrite : Bool) (a : Nat) (len : Nat) (h : Kept s₀ s) :
    Kept s₀ (mmioBad s req isWrite a len) := by
  unfold mmioBad
  try dsimp only
  with_reducible repeat' first | assumption | apply countMmio_kept | apply setAnswer_kept | intro _ | apply Kept.ite | split

theorem execMmioBadRequest_kept {s₀ s t : State} (req : Requester) (isWrite : Bool) (addr : Nat) (len : Nat) (e : execMmioBadRequest req isWrite addr len s = .next t) (h : Kept s₀ s) :
    Kept s₀ t := by
  unfold execMmioBadRequest at e
  injection e with e; subst e
  with_reducible repeat' first | assumption | apply mmioBad_kept | intro _ | split

theorem execReadback_kept {s₀ s t : State} (req : Requester) (e : execReadback req s = .next t) (h : Kept s₀ s) :
    Kept s₀ t := by
  unfold execReadback at e
  injection e with e; subst e
  with_reducible repeat' first | assumption | apply readSpan_kept | intro _ | split

end Sys2Proof.Machine
end

