-- ==== Sys2Proof/Laws/KeptRegWrite.lean ====
section
/-! SUPPORT. The definitions of Machine/RegWrite.lean keep what Kept says. -/
set_option linter.unusedTactic false
set_option linter.unreachableTactic false
namespace Sys2Proof.Machine

theorem clampWrite_kept {s₀ s : State} (a : Nat) (v : Word) (lo : Nat) (hi : Nat) (h : Kept s₀ s) :
    Kept s₀ (clampWrite s a v lo hi) := by
  unfold clampWrite
  with_reducible repeat' first | assumption | apply softWrite_kept | intro _ | split

/-- Every action of a list keeps what Kept says. -/
def AllKept (s₀ : State) (l : List (State → State)) : Prop := ∀ a ∈ l, ∀ t, Kept s₀ t → Kept s₀ (a t)
theorem AllKept.nil {s₀ : State} : AllKept s₀ [] := fun _ h => nomatch h

theorem AllKept.cons {s₀ : State} {a : State → State} {l : List (State → State)} (h : ∀ t, Kept s₀ t → Kept s₀ (a t)) (k : AllKept s₀ l) :
    AllKept s₀ (a :: l) := fun b hb => by
  rcases List.mem_cons.mp hb with hb | hb
  · subst hb; exact h
  · exact k b hb

theorem eachBit_go {s₀ : State} (v : Word) : ∀ (l : List ((State → State) × Nat)) (s : State), (∀ x ∈ l, ∀ t, Kept s₀ t → Kept s₀ (x.1 t)) →
    Kept s₀ s → Kept s₀ (l.foldl (fun t x => if testBit v x.2 then x.1 t else t) s)
  | [], _, _, h => h
  | x :: r, s, ha, h => eachBit_go v r _ (fun y hy => ha y (List.mem_cons_of_mem _ hy)) (Kept.ite (ha x List.mem_cons_self s h) h)

theorem eachBit_kept {s₀ s : State} (v : Word) (acts : List (State → State)) (ha : AllKept s₀ acts) (h : Kept s₀ s) :
    Kept s₀ (eachBit s v acts) :=
  eachBit_go v _ _ (fun x hx => ha x.1 (by
    obtain ⟨_, _, e⟩ := List.mem_zipIdx hx
    exact e ▸ List.getElem_mem _)) h

theorem oneBit_kept {s₀ s : State} (v : Word) (acts : List (State → State)) (ha : AllKept s₀ acts) (h : Kept s₀ s) :
    Kept s₀ (oneBit s v acts) := Kept.ite (eachBit_kept v acts ha h) h

theorem onBit_kept {s₀ s : State} (v : Word) (act : State → State) (ha : ∀ t, Kept s₀ t → Kept s₀ (act t)) (h : Kept s₀ s) :
    Kept s₀ (onBit s v act) := eachBit_kept v _ (AllKept.cons ha AllKept.nil) h

theorem writeStepCtrl_kept {s₀ s : State} (v : Word) (h : Kept s₀ s) :
    Kept s₀ (writeStepCtrl s v) := by
  unfold writeStepCtrl
  try dsimp only
  with_reducible repeat' first | assumption | apply wrf_kept | apply usePeriod_kept | apply stepRun_kept | intro _ | apply Kept.ite | split

theorem writeAtrium_kept {s₀ s : State} (req : Requester) (o : Nat) (v : Word) (h : Kept s₀ s) :
    Kept s₀ (writeAtrium s req o v) := by
  unfold writeAtrium
  with_reducible repeat' first | assumption | apply softWrite_kept | apply writeNodeId_kept | apply writeStage_kept | apply clampWrite_kept | apply writeStepCtrl_kept | (refine Kept.record ?_ rfl rfl rfl rfl rfl rfl rfl rfl; first | assumption | apply softWrite_kept | apply writeNodeId_kept | apply writeStage_kept | apply clampWrite_kept | apply writeStepCtrl_kept) | intro _ | split

theorem writeTenant_kept {s₀ s : State} (o : Nat) (v : Word) (h : Kept s₀ s) :
    Kept s₀ (writeTenant s o v) := by
  unfold writeTenant
  try dsimp only
  with_reducible repeat' first | assumption | apply softWrite_kept | apply updTenant_kept | apply tenantAdmit_kept | apply tenantRelease_kept | apply guaranteeRankWrite_kept | apply c0ReservationWrite_kept | apply oneBit_kept | apply onBit_kept | apply AllKept.cons | exact AllKept.nil | (refine Kept.record ?_ rfl rfl rfl rfl rfl rfl rfl rfl; first | assumption | apply softWrite_kept | apply updTenant_kept | apply tenantAdmit_kept | apply tenantRelease_kept | apply guaranteeRankWrite_kept | apply c0ReservationWrite_kept | apply oneBit_kept | apply onBit_kept | apply AllKept.cons | exact AllKept.nil) | intro _ | split

theorem writeSched_kept {s₀ s : State} (o : Nat) (v : Word) (h : Kept s₀ s) :
    Kept s₀ (writeSched s o v) := by
  unfold writeSched
  try dsimp only
  with_reducible repeat' first | assumption | apply chanInval_kept | apply planLoad_kept | apply planRetire_kept | apply profileLoad_kept | apply failLoad_kept | apply collLoadStart_kept | apply collLoadContinue_kept | apply collDrop_kept | apply failTable_kept | apply tableLoadStart_kept | apply tableLoadContinue_kept | apply tableDrop_kept | apply modelLoad_kept | apply modelRetire_kept | apply shardmapLoad_kept | apply shardmapRetire_kept | apply clampWrite_kept | apply eachBit_kept | apply oneBit_kept | apply onBit_kept | apply writeTenant_kept | apply AllKept.cons | exact AllKept.nil | (refine Kept.record ?_ rfl rfl rfl rfl rfl rfl rfl rfl; first | assumption | apply chanInval_kept | apply planLoad_kept | apply planRetire_kept | apply profileLoad_kept | apply failLoad_kept | apply collLoadStart_kept | apply collLoadContinue_kept | apply collDrop_kept | apply failTable_kept | apply tableLoadStart_kept | apply tableLoadContinue_kept | apply tableDrop_kept | apply modelLoad_kept | apply modelRetire_kept | apply shardmapLoad_kept | apply shardmapRetire_kept | apply clampWrite_kept | apply eachBit_kept | apply oneBit_kept | apply onBit_kept | apply writeTenant_kept | apply AllKept.cons | exact AllKept.nil) | intro _ | split

theorem writeFault_kept {s₀ s : State} (o : Nat) (v : Word) (h : Kept s₀ s) :
    Kept s₀ (writeFault s o v) := by
  unfold writeFault
  try dsimp only
  with_reducible repeat' first | assumption | apply softWrite_kept | apply pairWrite_kept | apply setFaults_kept | apply graftStart_kept | apply graftAbort_kept | apply serve_kept | apply fence_kept | apply histPop_kept | apply gone_kept | apply clampWrite_kept | apply oneBit_kept | apply onBit_kept | apply AllKept.cons | exact AllKept.nil | (refine Kept.record ?_ rfl rfl rfl rfl rfl rfl rfl rfl; first | assumption | apply softWrite_kept | apply pairWrite_kept | apply setFaults_kept | apply graftStart_kept | apply graftAbort_kept | apply serve_kept | apply fence_kept | apply histPop_kept | apply gone_kept | apply clampWrite_kept | apply oneBit_kept | apply onBit_kept | apply AllKept.cons | exact AllKept.nil) | intro _ | split

theorem writeIntc_kept {s₀ s : State} (o : Nat) (v : Word) (h : Kept s₀ s) :
    Kept s₀ (writeIntc s o v) := by
  unfold writeIntc
  try dsimp only
  with_reducible repeat' first | assumption | apply softWrite_kept | apply swTrigger_kept | apply completeSource_kept | apply setCoreEn_kept | apply writeSrcCfg_kept | (refine Kept.record ?_ rfl rfl rfl rfl rfl rfl rfl rfl; first | assumption | apply softWrite_kept | apply swTrigger_kept | apply completeSource_kept | apply setCoreEn_kept | apply writeSrcCfg_kept) | intro _ | apply Kept.ite | split

theorem writePower_kept {s₀ s : State} (o : Nat) (v : Word) (h : Kept s₀ s) :
    Kept s₀ (writePower s o v) := by
  unfold writePower
  try dsimp only
  with_reducible repeat' first | assumption | apply softWrite_kept | apply clampWrite_kept | (refine Kept.record ?_ rfl rfl rfl rfl rfl rfl rfl rfl; first | assumption | apply softWrite_kept | apply clampWrite_kept) | intro _ | apply Kept.ite | split

theorem patStop_kept {s₀ s : State} (h : Kept s₀ s) :
    Kept s₀ (patStop s) := by
  unfold patStop
  with_reducible repeat' first | assumption | apply patEnd_kept | intro _ | apply Kept.ite | split

theorem snap_kept {s₀ s : State} (h : Kept s₀ s) :
    Kept s₀ (snap s) := by
  unfold snap
  try dsimp only
  with_reducible repeat' first | assumption | apply wr_kept | apply updTest_kept | (refine Kept.record ?_ rfl rfl rfl rfl rfl rfl rfl rfl; first | assumption | apply wr_kept | apply updTest_kept) | intro _ | split

theorem writeTest_kept {s₀ s : State} (o : Nat) (v : Word) (h : Kept s₀ s) :
    Kept s₀ (writeTest s o v) := by
  unfold writeTest
  with_reducible repeat' first | assumption | apply softWrite_kept | apply patStart_kept | apply mbistStart_kept | apply eachBit_kept | apply onBit_kept | apply patStop_kept | apply snap_kept | apply AllKept.cons | exact AllKept.nil | (refine Kept.record ?_ rfl rfl rfl rfl rfl rfl rfl rfl; first | assumption | apply softWrite_kept | apply patStart_kept | apply mbistStart_kept | apply eachBit_kept | apply onBit_kept | apply patStop_kept | apply snap_kept | apply AllKept.cons | exact AllKept.nil) | intro _ | split

theorem writeFt_kept {s₀ s : State} (o : Nat) (v : Word) (h : Kept s₀ s) :
    Kept s₀ (writeFt s o v) := by
  unfold writeFt
  with_reducible repeat' first | assumption | apply softWrite_kept | apply capacityReservationWrite_kept | apply clampWrite_kept | (refine Kept.record ?_ rfl rfl rfl rfl rfl rfl rfl rfl; first | assumption | apply softWrite_kept | apply capacityReservationWrite_kept | apply clampWrite_kept) | intro _ | split

theorem writePort_kept {s₀ s : State} (p : Nat) (a : Nat) (o : Nat) (v : Word) (h : Kept s₀ s) :
    Kept s₀ (writePort s p a o v) := by
  unfold writePort
  with_reducible repeat' first | assumption | apply softWrite_kept | apply writeLaneEn_kept | apply routeWrite_kept | apply classWrite_kept | apply eachBit_kept | apply AllKept.cons | exact AllKept.nil | (refine Kept.record ?_ rfl rfl rfl rfl rfl rfl rfl rfl; first | assumption | apply softWrite_kept | apply writeLaneEn_kept | apply routeWrite_kept | apply classWrite_kept | apply eachBit_kept | apply AllKept.cons | exact AllKept.nil) | intro _ | split

theorem writeTrace_kept {s₀ s : State} (a : Nat) (o : Nat) (v : Word) (h : Kept s₀ s) :
    Kept s₀ (writeTrace s a o v) := by
  unfold writeTrace
  with_reducible repeat' first | assumption | apply softWrite_kept | apply clampWrite_kept | (refine Kept.record ?_ rfl rfl rfl rfl rfl rfl rfl rfl; first | assumption | apply softWrite_kept | apply clampWrite_kept) | intro _ | split

theorem writeGallery_kept {s₀ s : State} (g : Nat) (a : Nat) (o : Nat) (v : Word) (h : Kept s₀ s) :
    Kept s₀ (writeGallery s g a o v) := by
  unfold writeGallery
  try dsimp only
  with_reducible repeat' first | assumption | apply softWrite_kept | apply startFlush_kept | apply writeFallowReq_kept | (refine Kept.record ?_ rfl rfl rfl rfl rfl rfl rfl rfl; first | assumption | apply softWrite_kept | apply startFlush_kept | apply writeFallowReq_kept) | intro _ | apply Kept.ite | split

theorem writeDoorbell_kept {s₀ s : State} (i : Nat) (o : Nat) (v : Word) (h : Kept s₀ s) :
    Kept s₀ (writeDoorbell s i o v) := by
  unfold writeDoorbell
  try dsimp only
  with_reducible repeat' first | assumption | apply sqTail_kept | apply cqHead_kept | intro _ | apply Kept.ite | split

theorem writeTstatus_kept {s₀ s : State} (i : Nat) (a : Nat) (o : Nat) (v : Word) (h : Kept s₀ s) :
    Kept s₀ (writeTstatus s i a o v) := by
  unfold writeTstatus
  with_reducible repeat' first | assumption | apply softWrite_kept | intro _ | apply Kept.ite | split

theorem writeOne_kept {s₀ s : State} (req : Requester) (a : Nat) (v : Word) (h : Kept s₀ s) :
    Kept s₀ (writeOne s req a v) := by
  unfold writeOne
  with_reducible repeat' first | assumption | apply softWrite_kept | apply clampWrite_kept | apply writeAtrium_kept | apply writeSched_kept | apply writeFault_kept | apply writeIntc_kept | apply writePower_kept | apply writeTest_kept | apply writeFt_kept | apply writePort_kept | apply writeTrace_kept | apply writeGallery_kept | apply writeDoorbell_kept | apply writeTstatus_kept | (refine Kept.record ?_ rfl rfl rfl rfl rfl rfl rfl rfl; first | assumption | apply softWrite_kept | apply clampWrite_kept | apply writeAtrium_kept | apply writeSched_kept | apply writeFault_kept | apply writeIntc_kept | apply writePower_kept | apply writeTest_kept | apply writeFt_kept | apply writePort_kept | apply writeTrace_kept | apply writeGallery_kept | apply writeDoorbell_kept | apply writeTstatus_kept) | intro _ | apply Kept.ite | split

theorem writeWide_kept {s₀ s : State} (a : Nat) (v : Nat) (h : Kept s₀ s) :
    Kept s₀ (writeWide s a v) := by
  unfold writeWide
  try dsimp only
  with_reducible repeat' first | assumption | apply softWrite64_kept | apply mboxIn_kept | apply mboxOut_kept | apply emit_kept | apply hallLevelStep_kept | apply faultClear_kept | (refine Kept.record ?_ rfl rfl rfl rfl rfl rfl rfl rfl; first | assumption | apply softWrite64_kept | apply mboxIn_kept | apply mboxOut_kept | apply emit_kept | apply hallLevelStep_kept | apply faultClear_kept) | intro _ | apply Kept.ite | split

theorem writeLow_kept {s₀ s : State} (a : Nat) (v : Word) (h : Kept s₀ s) :
    Kept s₀ (writeLow s a v) := by
  unfold writeLow
  with_reducible repeat' first | assumption | apply faultClear_kept | (refine Kept.record ?_ rfl rfl rfl rfl rfl rfl rfl rfl; first | assumption | apply faultClear_kept) | intro _ | apply Kept.ite | split

theorem writeHigh_kept {s₀ s : State} (a : Nat) (v : Word) (h : Kept s₀ s) :
    Kept s₀ (writeHigh s a v) := by
  unfold writeHigh
  with_reducible repeat' first | assumption | apply faultClear_kept | apply writeWide_kept | intro _ | apply Kept.ite | split

theorem writeReg_kept {s₀ s : State} (req : Requester) (a : Nat) (v : Word) (h : Kept s₀ s) :
    Kept s₀ (writeReg s req a v) := by
  unfold writeReg
  with_reducible repeat' first | assumption | apply writeOne_kept | apply writeLow_kept | apply writeHigh_kept | (refine Kept.record ?_ rfl rfl rfl rfl rfl rfl rfl rfl; first | assumption | apply writeOne_kept | apply writeLow_kept | apply writeHigh_kept) | intro _ | apply Kept.ite | split

theorem writeMsix_kept {s₀ s : State} (fn : PciFn) (off : Nat) (v : Word) (h : Kept s₀ s) :
    Kept s₀ (writeMsix s fn off v) := by
  unfold writeMsix
  try dsimp only
  with_reducible repeat' first | assumption | apply setPciState_kept | apply setVectorMask_kept | (refine Kept.record ?_ rfl rfl rfl rfl rfl rfl rfl rfl; first | assumption | apply setPciState_kept | apply setVectorMask_kept) | intro _ | apply Kept.ite | split

theorem writeLoc_kept {s₀ s : State} (req : Requester) (l : Loc) (v : Word) (h : Kept s₀ s) :
    Kept s₀ (writeLoc s req l v) := by
  unfold writeLoc
  with_reducible repeat' first | assumption | apply writeReg_kept | apply writeMsix_kept | (refine Kept.record ?_ rfl rfl rfl rfl rfl rfl rfl rfl; first | assumption | apply writeReg_kept | apply writeMsix_kept) | intro _ | split

theorem writeEight_kept {s₀ s : State} (req : Requester) (bar : Bar) (a : Nat) (v : Nat) (h : Kept s₀ s) :
    Kept s₀ (writeEight s req bar a v) := by
  unfold writeEight
  try dsimp only
  with_reducible repeat' first | assumption | apply writeWide_kept | apply writeLoc_kept | (refine Kept.record ?_ rfl rfl rfl rfl rfl rfl rfl rfl; first | assumption | apply writeWide_kept | apply writeLoc_kept) | intro _ | apply Kept.ite | split

theorem writeSpan_kept {s₀ s : State} (req : Requester) (bar : Bar) (a : Nat) (data : List Byte) (h : Kept s₀ s) :
    Kept s₀ (writeSpan s req bar a data) := by
  unfold writeSpan
  with_reducible repeat' first | assumption | apply countMmio_kept | apply writeLoc_kept | apply writeEight_kept | intro _ | apply Kept.ite | split

theorem execRegisterWrite_kept {s₀ s t : State} (req : Requester) (bar : Bar) (addr : Nat) (data : WData) (e : execRegisterWrite req bar addr data s = .next t) (h : Kept s₀ s) :
    Kept s₀ t := by
  unfold execRegisterWrite at e
  try dsimp only at e
  (repeat' split at e) <;> first
    | contradiction
    | (injection e with e; subst e)
  all_goals
    with_reducible repeat' first | assumption | apply writeSpan_kept | intro _ | apply Kept.ite | split

theorem fmNoValue_kept1 {s₀ s : State} (e : FmEntry) (st : Nat) (h : Kept s₀ s) :
    Kept s₀ (fmNoValue s e st).2 := by
  unfold fmNoValue
  try dsimp only
  with_reducible repeat' first | assumption | refine freshWord_kept ‹_› ?_ | apply freshWord_kept1 | intro _ | split

theorem fmNoValue_kept {s₀ s r : State} {x : List Byte} {e : FmEntry} {st : Nat} (e₁ : fmNoValue s e st = (x, r)) (h : Kept s₀ s) :
    Kept s₀ r := by
  have k := fmNoValue_kept1 e st h
  rwa [e₁] at k

theorem fmReadOne_kept1 {s₀ s : State} (e : FmEntry) (h : Kept s₀ s) :
    Kept s₀ (fmReadOne s e).2 := by
  unfold fmReadOne
  try dsimp only
  with_reducible repeat' first | assumption | refine readWords_kept ‹_› ?_ | apply readWords_kept1 | refine fmNoValue_kept ‹_› ?_ | apply fmNoValue_kept1 | intro _ | apply Kept.ite2 | split

theorem fmReadOne_kept {s₀ s r : State} {x : List Byte} {e : FmEntry} (e₁ : fmReadOne s e = (x, r)) (h : Kept s₀ s) :
    Kept s₀ r := by
  have k := fmReadOne_kept1 e h
  rwa [e₁] at k

theorem fmWriteOne_kept1 {s₀ s : State} (e : FmEntry) (h : Kept s₀ s) :
    Kept s₀ (fmWriteOne s e).2 := by
  unfold fmWriteOne
  with_reducible repeat' first | assumption | apply writeSpan_kept | refine fmNoValue_kept ‹_› ?_ | apply fmNoValue_kept1 | intro _ | apply Kept.ite2 | split

theorem fmWriteOne_kept {s₀ s r : State} {x : List Byte} {e : FmEntry} (e₁ : fmWriteOne s e = (x, r)) (h : Kept s₀ s) :
    Kept s₀ r := by
  have k := fmWriteOne_kept1 e h
  rwa [e₁] at k

theorem fmRun_kept {s₀ : State} {one : State → FmEntry → List Byte × State} (ho : ∀ t x, Kept s₀ t → Kept s₀ (one t x).2) :
    ∀ {l : List FmEntry} {s r : State} {x : List Byte}, fmRun one s l = (x, r) → Kept s₀ s → Kept s₀ r
  | [], _, _, _, e, h => by rw [← (Prod.mk.inj e).2]; exact h
  | w :: l, s, r, x, e, h => by
    unfold fmRun at e
    split at e
    rename_i e1
    split at e
    rename_i e2
    rw [← (Prod.mk.inj e).2]
    refine fmRun_kept ho e2 ?_
    have k := ho s w h
    rwa [e1] at k

theorem fmRespond_kept {s₀ s : State} (f : Frame) (payload : List Byte) (h : Kept s₀ s) :
    Kept s₀ (fmRespond s f payload) := by
  unfold fmRespond
  try dsimp only
  with_reducible repeat' first | assumption | apply pushEgress_kept | intro _ | apply Kept.ite | split

theorem fmServe_kept {s₀ s : State} (one : State → FmEntry → List Byte × State) (f : Frame) (ho : ∀ t x, Kept s₀ t → Kept s₀ (one t x).2)
    (h : Kept s₀ s) : Kept s₀ (fmServe one s f) := by
  unfold fmServe
  dsimp only
  exact fmRespond_kept _ _ (fmRun_kept ho rfl h)

theorem fmReads_kept {s₀ s : State} (f : Frame) (h : Kept s₀ s) : Kept s₀ (fmReads s f) :=
  Kept.ite (Kept.record h rfl rfl rfl rfl rfl rfl rfl rfl) (fmServe_kept _ _ (fun _ x k => fmReadOne_kept1 x k) h)

theorem fmReq_kept {s₀ s : State} (f : Frame) (op : Nat) (serve : State → Frame → State)
    (ho : ∀ t g, Kept s₀ t → Kept s₀ (serve t g)) (h : Kept s₀ s) : Kept s₀ (fmReq s f op serve) :=
  Kept.ite h (receive_kept _ _ _ (fun t k => ho t f k) h)

theorem execFmReqRead_kept {s₀ s t : State} (f : Frame) (e : execFmReqRead f s = .next t) (h : Kept s₀ s) : Kept s₀ t := by
  injection e with e; subst e
  exact fmReq_kept _ _ _ (fun _ g k => fmReads_kept g k) h

theorem execFmReqWrite_kept {s₀ s t : State} (f : Frame) (e : execFmReqWrite f s = .next t) (h : Kept s₀ s) : Kept s₀ t := by
  injection e with e; subst e
  exact fmReq_kept _ _ _ (fun _ g k => fmServe_kept _ g (fun _ x k => fmWriteOne_kept1 x k) k) h

theorem answerReadbacks_kept {s₀ s : State} (h : Kept s₀ s) : Kept s₀ (answerReadbacks s) := by
  unfold answerReadbacks
  dsimp only
  have k : Kept s₀ (if s.links.readbacks ≠ [] ∧ s.sched.inval.isNone = true ∧ tableWaits s = false then
      setAnswer { s with links := { s.links with readbacks := [] } } (some (BitVec.ofNat 64 (s.now % 2 ^ 32))) false
    else s) := Kept.ite (setAnswer_kept _ _ (Kept.record h rfl rfl rfl rfl rfl rfl rfl rfl)) h
  exact Kept.ite k (foldl_kept _ (fun _ g k => fmServe_kept _ g (fun _ x k => fmReadOne_kept1 x k) k) _ _
    (Kept.record k rfl rfl rfl rfl rfl rfl rfl rfl))

theorem execChanInvalDone_kept {s₀ s t : State} (e : execChanInvalDone s = .next t) (h : Kept s₀ s) :
    Kept s₀ t := by
  unfold execChanInvalDone at e
  (repeat' split at e) <;> first
    | contradiction
    | (injection e with e; subst e)
  all_goals
    with_reducible repeat' first | assumption | apply chanInvalDone_kept | apply answerReadbacks_kept | intro _ | apply Kept.ite | split

theorem execTableWriteComplete_kept {s₀ s t : State} (p : Fin 4) (e : execTableWriteComplete p s = .next t) (h : Kept s₀ s) :
    Kept s₀ t := by
  unfold execTableWriteComplete at e
  injection e with e; subst e
  with_reducible repeat' first | assumption | apply tableWriteComplete_kept | apply answerReadbacks_kept | intro _ | split

theorem regAccess_kept {s₀ s : State} (w : BitVec 98) (h : Kept s₀ s) :
    Kept s₀ (regAccess s w) := by
  unfold regAccess
  try dsimp only
  with_reducible repeat' first | assumption | apply updTest_kept | apply tapLoad_kept | refine readWords_kept ‹_› ?_ | apply readWords_kept1 | apply writeSpan_kept | (refine Kept.record ?_ rfl rfl rfl rfl rfl rfl rfl rfl; first | assumption | apply updTest_kept | apply tapLoad_kept | refine readWords_kept ‹_› ?_ | apply readWords_kept1 | apply writeSpan_kept) | intro _ | apply Kept.ite | split

theorem execRegAccess_kept {s₀ s t : State} (word : BitVec 98) (e : execRegAccess word s = .next t) (h : Kept s₀ s) :
    Kept s₀ t := by
  unfold execRegAccess at e
  try dsimp only at e
  (repeat' split at e) <;> first
    | contradiction
    | (injection e with e; subst e)
  all_goals
    with_reducible repeat' first | assumption | apply regAccess_kept | intro _ | apply Kept.ite | split

end Sys2Proof.Machine
end

