-- ==== Sys2Proof/Laws/State.lean ====
section
/-! SUPPORT. The laws of the named updates of State: one lemma per update and component, each by rfl. -/
namespace Sys2Proof.Machine

variable (s : State)

@[simp] theorem updPort_pending (p : Nat) (f : Port → Port) : (updPort s p f).pending = s.pending := rfl
@[simp] theorem updPort_regs (p : Nat) (f : Port → Port) : (updPort s p f).regs = s.regs := rfl
@[simp] theorem updPort_staged (p : Nat) (f : Port → Port) : (updPort s p f).staged = s.staged := rfl
@[simp] theorem updPort_latched (p : Nat) (f : Port → Port) : (updPort s p f).latched = s.latched := rfl
@[simp] theorem updPort_step (p : Nat) (f : Port → Port) : (updPort s p f).step = s.step := rfl
@[simp] theorem updPort_sched (p : Nat) (f : Port → Port) : (updPort s p f).sched = s.sched := rfl
@[simp] theorem updPort_store (p : Nat) (f : Port → Port) : (updPort s p f).store = s.store := rfl
@[simp] theorem updPort_mem (p : Nat) (f : Port → Port) : (updPort s p f).mem = s.mem := rfl
@[simp] theorem updPort_faults (p : Nat) (f : Port → Port) : (updPort s p f).faults = s.faults := rfl
theorem updPort_links (p : Nat) (f : Port → Port) : (updPort s p f).links = { s.links with ports := updAt s.links.ports p f } := rfl
@[simp] theorem updPort_rd (p : Nat) (f : Port → Port) (r : Nat) : rd (updPort s p f) r = rd s r := rfl

@[simp] theorem updFlash_pending (f : Flash → Flash) : (updFlash s f).pending = s.pending := rfl
@[simp] theorem updFlash_regs (f : Flash → Flash) : (updFlash s f).regs = s.regs := rfl
@[simp] theorem updFlash_staged (f : Flash → Flash) : (updFlash s f).staged = s.staged := rfl
@[simp] theorem updFlash_latched (f : Flash → Flash) : (updFlash s f).latched = s.latched := rfl
@[simp] theorem updFlash_step (f : Flash → Flash) : (updFlash s f).step = s.step := rfl
@[simp] theorem updFlash_sched (f : Flash → Flash) : (updFlash s f).sched = s.sched := rfl
@[simp] theorem updFlash_store (f : Flash → Flash) : (updFlash s f).store = s.store := rfl
@[simp] theorem updFlash_links (f : Flash → Flash) : (updFlash s f).links = s.links := rfl
@[simp] theorem updFlash_faults (f : Flash → Flash) : (updFlash s f).faults = s.faults := rfl
@[simp] theorem updFlash_chip (f : Flash → Flash) : (updFlash s f).chip = s.chip := rfl
theorem updFlash_mem (f : Flash → Flash) : (updFlash s f).mem = { s.mem with flash := f s.mem.flash } := rfl
@[simp] theorem updFlash_rd (f : Flash → Flash) (r : Nat) : rd (updFlash s f) r = rd s r := rfl

@[simp] theorem updGallery_pending (g : Nat) (f : Gallery → Gallery) : (updGallery s g f).pending = s.pending := rfl
@[simp] theorem updGallery_regs (g : Nat) (f : Gallery → Gallery) : (updGallery s g f).regs = s.regs := rfl
@[simp] theorem updGallery_staged (g : Nat) (f : Gallery → Gallery) : (updGallery s g f).staged = s.staged := rfl
@[simp] theorem updGallery_latched (g : Nat) (f : Gallery → Gallery) : (updGallery s g f).latched = s.latched := rfl
@[simp] theorem updGallery_step (g : Nat) (f : Gallery → Gallery) : (updGallery s g f).step = s.step := rfl
@[simp] theorem updGallery_sched (g : Nat) (f : Gallery → Gallery) : (updGallery s g f).sched = s.sched := rfl
@[simp] theorem updGallery_store (g : Nat) (f : Gallery → Gallery) : (updGallery s g f).store = s.store := rfl
@[simp] theorem updGallery_mem (g : Nat) (f : Gallery → Gallery) : (updGallery s g f).mem = s.mem := rfl
@[simp] theorem updGallery_links (g : Nat) (f : Gallery → Gallery) : (updGallery s g f).links = s.links := rfl
@[simp] theorem updGallery_faults (g : Nat) (f : Gallery → Gallery) : (updGallery s g f).faults = s.faults := rfl
theorem updGallery_chip (g : Nat) (f : Gallery → Gallery) : (updGallery s g f).chip = { s.chip with galleries := updAt s.chip.galleries g f } := rfl
@[simp] theorem updGallery_rd (g : Nat) (f : Gallery → Gallery) (r : Nat) : rd (updGallery s g f) r = rd s r := rfl

@[simp] theorem setIntc_pending (x : Intc) : (setIntc s x).pending = s.pending := rfl
@[simp] theorem setIntc_regs (x : Intc) : (setIntc s x).regs = s.regs := rfl
@[simp] theorem setIntc_staged (x : Intc) : (setIntc s x).staged = s.staged := rfl
@[simp] theorem setIntc_latched (x : Intc) : (setIntc s x).latched = s.latched := rfl
@[simp] theorem setIntc_step (x : Intc) : (setIntc s x).step = s.step := rfl
@[simp] theorem setIntc_sched (x : Intc) : (setIntc s x).sched = s.sched := rfl
@[simp] theorem setIntc_store (x : Intc) : (setIntc s x).store = s.store := rfl
@[simp] theorem setIntc_mem (x : Intc) : (setIntc s x).mem = s.mem := rfl
@[simp] theorem setIntc_links (x : Intc) : (setIntc s x).links = s.links := rfl
@[simp] theorem setIntc_faults (x : Intc) : (setIntc s x).faults = s.faults := rfl
theorem setIntc_chip (x : Intc) : (setIntc s x).chip = { s.chip with intc := x } := rfl
@[simp] theorem setIntc_rd (x : Intc) (r : Nat) : rd (setIntc s x) r = rd s r := rfl

@[simp] theorem updCore_pending (c : Nat) (f : CoreSt → CoreSt) : (updCore s c f).pending = s.pending := rfl
@[simp] theorem updCore_regs (c : Nat) (f : CoreSt → CoreSt) : (updCore s c f).regs = s.regs := rfl
@[simp] theorem updCore_staged (c : Nat) (f : CoreSt → CoreSt) : (updCore s c f).staged = s.staged := rfl
@[simp] theorem updCore_latched (c : Nat) (f : CoreSt → CoreSt) : (updCore s c f).latched = s.latched := rfl
@[simp] theorem updCore_step (c : Nat) (f : CoreSt → CoreSt) : (updCore s c f).step = s.step := rfl
@[simp] theorem updCore_sched (c : Nat) (f : CoreSt → CoreSt) : (updCore s c f).sched = s.sched := rfl
@[simp] theorem updCore_store (c : Nat) (f : CoreSt → CoreSt) : (updCore s c f).store = s.store := rfl
@[simp] theorem updCore_mem (c : Nat) (f : CoreSt → CoreSt) : (updCore s c f).mem = s.mem := rfl
@[simp] theorem updCore_links (c : Nat) (f : CoreSt → CoreSt) : (updCore s c f).links = s.links := rfl
@[simp] theorem updCore_faults (c : Nat) (f : CoreSt → CoreSt) : (updCore s c f).faults = s.faults := rfl
@[simp] theorem updCore_rd (c : Nat) (f : CoreSt → CoreSt) (r : Nat) : rd (updCore s c f) r = rd s r := rfl

@[simp] theorem updStack_pending (k : Nat) (f : Stack → Stack) : (updStack s k f).pending = s.pending := rfl
@[simp] theorem updStack_regs (k : Nat) (f : Stack → Stack) : (updStack s k f).regs = s.regs := rfl
@[simp] theorem updStack_staged (k : Nat) (f : Stack → Stack) : (updStack s k f).staged = s.staged := rfl
@[simp] theorem updStack_latched (k : Nat) (f : Stack → Stack) : (updStack s k f).latched = s.latched := rfl
@[simp] theorem updStack_step (k : Nat) (f : Stack → Stack) : (updStack s k f).step = s.step := rfl
@[simp] theorem updStack_sched (k : Nat) (f : Stack → Stack) : (updStack s k f).sched = s.sched := rfl
@[simp] theorem updStack_store (k : Nat) (f : Stack → Stack) : (updStack s k f).store = s.store := rfl
@[simp] theorem updStack_links (k : Nat) (f : Stack → Stack) : (updStack s k f).links = s.links := rfl
@[simp] theorem updStack_faults (k : Nat) (f : Stack → Stack) : (updStack s k f).faults = s.faults := rfl
@[simp] theorem updStack_chip (k : Nat) (f : Stack → Stack) : (updStack s k f).chip = s.chip := rfl
theorem updStack_mem (k : Nat) (f : Stack → Stack) : (updStack s k f).mem = { s.mem with stackSt := updAt s.mem.stackSt k f } := rfl
@[simp] theorem updStack_rd (k : Nat) (f : Stack → Stack) (r : Nat) : rd (updStack s k f) r = rd s r := rfl

@[simp] theorem updNear_pending (k : Nat) (f : NearBank → NearBank) : (updNear s k f).pending = s.pending := rfl
@[simp] theorem updNear_regs (k : Nat) (f : NearBank → NearBank) : (updNear s k f).regs = s.regs := rfl
@[simp] theorem updNear_staged (k : Nat) (f : NearBank → NearBank) : (updNear s k f).staged = s.staged := rfl
@[simp] theorem updNear_latched (k : Nat) (f : NearBank → NearBank) : (updNear s k f).latched = s.latched := rfl
@[simp] theorem updNear_step (k : Nat) (f : NearBank → NearBank) : (updNear s k f).step = s.step := rfl
@[simp] theorem updNear_sched (k : Nat) (f : NearBank → NearBank) : (updNear s k f).sched = s.sched := rfl
@[simp] theorem updNear_store (k : Nat) (f : NearBank → NearBank) : (updNear s k f).store = s.store := rfl
@[simp] theorem updNear_links (k : Nat) (f : NearBank → NearBank) : (updNear s k f).links = s.links := rfl
@[simp] theorem updNear_faults (k : Nat) (f : NearBank → NearBank) : (updNear s k f).faults = s.faults := rfl
@[simp] theorem updNear_chip (k : Nat) (f : NearBank → NearBank) : (updNear s k f).chip = s.chip := rfl
theorem updNear_mem (k : Nat) (f : NearBank → NearBank) : (updNear s k f).mem = { s.mem with near := updAt s.mem.near (k / 2) f } := rfl
@[simp] theorem updNear_rd (k : Nat) (f : NearBank → NearBank) (r : Nat) : rd (updNear s k f) r = rd s r := rfl

@[simp] theorem updPair_pending (i : Nat) (f : Pair → Pair) : (updPair s i f).pending = s.pending := rfl
@[simp] theorem updPair_regs (i : Nat) (f : Pair → Pair) : (updPair s i f).regs = s.regs := rfl
@[simp] theorem updPair_staged (i : Nat) (f : Pair → Pair) : (updPair s i f).staged = s.staged := rfl
@[simp] theorem updPair_latched (i : Nat) (f : Pair → Pair) : (updPair s i f).latched = s.latched := rfl
@[simp] theorem updPair_step (i : Nat) (f : Pair → Pair) : (updPair s i f).step = s.step := rfl
@[simp] theorem updPair_sched (i : Nat) (f : Pair → Pair) : (updPair s i f).sched = s.sched := rfl
@[simp] theorem updPair_store (i : Nat) (f : Pair → Pair) : (updPair s i f).store = s.store := rfl
@[simp] theorem updPair_mem (i : Nat) (f : Pair → Pair) : (updPair s i f).mem = s.mem := rfl
@[simp] theorem updPair_links (i : Nat) (f : Pair → Pair) : (updPair s i f).links = s.links := rfl
@[simp] theorem updPair_chip (i : Nat) (f : Pair → Pair) : (updPair s i f).chip = s.chip := rfl
theorem updPair_faults (i : Nat) (f : Pair → Pair) : (updPair s i f).faults = { s.faults with pairs := Tbl.set s.faults.pairs i (f (pairAt s i)) } := rfl
@[simp] theorem updPair_rd (i : Nat) (f : Pair → Pair) (r : Nat) : rd (updPair s i f) r = rd s r := rfl

@[simp] theorem updAux_pending (f : Aux → Aux) : (updAux s f).pending = s.pending := rfl
@[simp] theorem updAux_regs (f : Aux → Aux) : (updAux s f).regs = s.regs := rfl
@[simp] theorem updAux_staged (f : Aux → Aux) : (updAux s f).staged = s.staged := rfl
@[simp] theorem updAux_latched (f : Aux → Aux) : (updAux s f).latched = s.latched := rfl
@[simp] theorem updAux_step (f : Aux → Aux) : (updAux s f).step = s.step := rfl
@[simp] theorem updAux_sched (f : Aux → Aux) : (updAux s f).sched = s.sched := rfl
@[simp] theorem updAux_store (f : Aux → Aux) : (updAux s f).store = s.store := rfl
@[simp] theorem updAux_mem (f : Aux → Aux) : (updAux s f).mem = s.mem := rfl
@[simp] theorem updAux_links (f : Aux → Aux) : (updAux s f).links = s.links := rfl
@[simp] theorem updAux_faults (f : Aux → Aux) : (updAux s f).faults = s.faults := rfl
theorem updAux_chip (f : Aux → Aux) : (updAux s f).chip = { s.chip with aux := f s.chip.aux } := rfl
@[simp] theorem updAux_rd (f : Aux → Aux) (r : Nat) : rd (updAux s f) r = rd s r := rfl

@[simp] theorem updPower_pending (f : Power → Power) : (updPower s f).pending = s.pending := rfl
@[simp] theorem updPower_regs (f : Power → Power) : (updPower s f).regs = s.regs := rfl
@[simp] theorem updPower_staged (f : Power → Power) : (updPower s f).staged = s.staged := rfl
@[simp] theorem updPower_latched (f : Power → Power) : (updPower s f).latched = s.latched := rfl
@[simp] theorem updPower_step (f : Power → Power) : (updPower s f).step = s.step := rfl
@[simp] theorem updPower_sched (f : Power → Power) : (updPower s f).sched = s.sched := rfl
@[simp] theorem updPower_store (f : Power → Power) : (updPower s f).store = s.store := rfl
@[simp] theorem updPower_mem (f : Power → Power) : (updPower s f).mem = s.mem := rfl
@[simp] theorem updPower_links (f : Power → Power) : (updPower s f).links = s.links := rfl
@[simp] theorem updPower_faults (f : Power → Power) : (updPower s f).faults = s.faults := rfl
theorem updPower_chip (f : Power → Power) : (updPower s f).chip = { s.chip with power := f s.chip.power } := rfl
@[simp] theorem updPower_rd (f : Power → Power) (r : Nat) : rd (updPower s f) r = rd s r := rfl

@[simp] theorem updAvs_pending (east : Bool) (f : Avs → Avs) : (updAvs s east f).pending = s.pending := rfl
@[simp] theorem updAvs_regs (east : Bool) (f : Avs → Avs) : (updAvs s east f).regs = s.regs := rfl
@[simp] theorem updAvs_staged (east : Bool) (f : Avs → Avs) : (updAvs s east f).staged = s.staged := rfl
@[simp] theorem updAvs_latched (east : Bool) (f : Avs → Avs) : (updAvs s east f).latched = s.latched := rfl
@[simp] theorem updAvs_step (east : Bool) (f : Avs → Avs) : (updAvs s east f).step = s.step := rfl
@[simp] theorem updAvs_sched (east : Bool) (f : Avs → Avs) : (updAvs s east f).sched = s.sched := rfl
@[simp] theorem updAvs_store (east : Bool) (f : Avs → Avs) : (updAvs s east f).store = s.store := rfl
@[simp] theorem updAvs_mem (east : Bool) (f : Avs → Avs) : (updAvs s east f).mem = s.mem := rfl
@[simp] theorem updAvs_links (east : Bool) (f : Avs → Avs) : (updAvs s east f).links = s.links := rfl
@[simp] theorem updAvs_faults (east : Bool) (f : Avs → Avs) : (updAvs s east f).faults = s.faults := rfl
@[simp] theorem updAvs_rd (east : Bool) (f : Avs → Avs) (r : Nat) : rd (updAvs s east f) r = rd s r := rfl

@[simp] theorem updFlight_pending (id : Nat) (g : Flight → Flight) : (updFlight s id g).pending = s.pending := rfl
@[simp] theorem updFlight_regs (id : Nat) (g : Flight → Flight) : (updFlight s id g).regs = s.regs := rfl
@[simp] theorem updFlight_staged (id : Nat) (g : Flight → Flight) : (updFlight s id g).staged = s.staged := rfl
@[simp] theorem updFlight_latched (id : Nat) (g : Flight → Flight) : (updFlight s id g).latched = s.latched := rfl
@[simp] theorem updFlight_step (id : Nat) (g : Flight → Flight) : (updFlight s id g).step = s.step := rfl
@[simp] theorem updFlight_store (id : Nat) (g : Flight → Flight) : (updFlight s id g).store = s.store := rfl
@[simp] theorem updFlight_mem (id : Nat) (g : Flight → Flight) : (updFlight s id g).mem = s.mem := rfl
@[simp] theorem updFlight_links (id : Nat) (g : Flight → Flight) : (updFlight s id g).links = s.links := rfl
@[simp] theorem updFlight_faults (id : Nat) (g : Flight → Flight) : (updFlight s id g).faults = s.faults := rfl
@[simp] theorem updFlight_chip (id : Nat) (g : Flight → Flight) : (updFlight s id g).chip = s.chip := rfl
@[simp] theorem updFlight_rd (id : Nat) (g : Flight → Flight) (r : Nat) : rd (updFlight s id g) r = rd s r := rfl

@[simp] theorem updPart_pending (id : Nat) (g : Flight → Flight) : (updPart s id g).pending = s.pending := rfl
@[simp] theorem updPart_regs (id : Nat) (g : Flight → Flight) : (updPart s id g).regs = s.regs := rfl
@[simp] theorem updPart_staged (id : Nat) (g : Flight → Flight) : (updPart s id g).staged = s.staged := rfl
@[simp] theorem updPart_latched (id : Nat) (g : Flight → Flight) : (updPart s id g).latched = s.latched := rfl
@[simp] theorem updPart_step (id : Nat) (g : Flight → Flight) : (updPart s id g).step = s.step := rfl
@[simp] theorem updPart_store (id : Nat) (g : Flight → Flight) : (updPart s id g).store = s.store := rfl
@[simp] theorem updPart_mem (id : Nat) (g : Flight → Flight) : (updPart s id g).mem = s.mem := rfl
@[simp] theorem updPart_links (id : Nat) (g : Flight → Flight) : (updPart s id g).links = s.links := rfl
@[simp] theorem updPart_faults (id : Nat) (g : Flight → Flight) : (updPart s id g).faults = s.faults := rfl
@[simp] theorem updPart_chip (id : Nat) (g : Flight → Flight) : (updPart s id g).chip = s.chip := rfl
@[simp] theorem updPart_rd (id : Nat) (g : Flight → Flight) (r : Nat) : rd (updPart s id g) r = rd s r := rfl

@[simp] theorem updTenant_pending (t : Nat) (f : Tenant → Tenant) : (updTenant s t f).pending = s.pending := rfl
@[simp] theorem updTenant_regs (t : Nat) (f : Tenant → Tenant) : (updTenant s t f).regs = s.regs := rfl
@[simp] theorem updTenant_staged (t : Nat) (f : Tenant → Tenant) : (updTenant s t f).staged = s.staged := rfl
@[simp] theorem updTenant_latched (t : Nat) (f : Tenant → Tenant) : (updTenant s t f).latched = s.latched := rfl
@[simp] theorem updTenant_step (t : Nat) (f : Tenant → Tenant) : (updTenant s t f).step = s.step := rfl
@[simp] theorem updTenant_sched (t : Nat) (f : Tenant → Tenant) : (updTenant s t f).sched = s.sched := rfl
@[simp] theorem updTenant_mem (t : Nat) (f : Tenant → Tenant) : (updTenant s t f).mem = s.mem := rfl
@[simp] theorem updTenant_links (t : Nat) (f : Tenant → Tenant) : (updTenant s t f).links = s.links := rfl
@[simp] theorem updTenant_faults (t : Nat) (f : Tenant → Tenant) : (updTenant s t f).faults = s.faults := rfl
@[simp] theorem updTenant_chip (t : Nat) (f : Tenant → Tenant) : (updTenant s t f).chip = s.chip := rfl
theorem updTenant_store (t : Nat) (f : Tenant → Tenant) : (updTenant s t f).store = { s.store with tenants := Tbl.set s.store.tenants t (f (tenant s t)) } := rfl
@[simp] theorem updTenant_rd (t : Nat) (f : Tenant → Tenant) (r : Nat) : rd (updTenant s t f) r = rd s r := rfl

@[simp] theorem updTest_pending (f : Test → Test) : (updTest s f).pending = s.pending := rfl
@[simp] theorem updTest_regs (f : Test → Test) : (updTest s f).regs = s.regs := rfl
@[simp] theorem updTest_staged (f : Test → Test) : (updTest s f).staged = s.staged := rfl
@[simp] theorem updTest_latched (f : Test → Test) : (updTest s f).latched = s.latched := rfl
@[simp] theorem updTest_step (f : Test → Test) : (updTest s f).step = s.step := rfl
@[simp] theorem updTest_sched (f : Test → Test) : (updTest s f).sched = s.sched := rfl
@[simp] theorem updTest_store (f : Test → Test) : (updTest s f).store = s.store := rfl
@[simp] theorem updTest_mem (f : Test → Test) : (updTest s f).mem = s.mem := rfl
@[simp] theorem updTest_links (f : Test → Test) : (updTest s f).links = s.links := rfl
@[simp] theorem updTest_faults (f : Test → Test) : (updTest s f).faults = s.faults := rfl
theorem updTest_chip (f : Test → Test) : (updTest s f).chip = { s.chip with test := f s.chip.test } := rfl
@[simp] theorem updTest_rd (f : Test → Test) (r : Nat) : rd (updTest s f) r = rd s r := rfl

@[simp] theorem updTrace_pending (u : Nat) (f : TraceUnit → TraceUnit) : (updTrace s u f).pending = s.pending := rfl
@[simp] theorem updTrace_regs (u : Nat) (f : TraceUnit → TraceUnit) : (updTrace s u f).regs = s.regs := rfl
@[simp] theorem updTrace_staged (u : Nat) (f : TraceUnit → TraceUnit) : (updTrace s u f).staged = s.staged := rfl
@[simp] theorem updTrace_latched (u : Nat) (f : TraceUnit → TraceUnit) : (updTrace s u f).latched = s.latched := rfl
@[simp] theorem updTrace_step (u : Nat) (f : TraceUnit → TraceUnit) : (updTrace s u f).step = s.step := rfl
@[simp] theorem updTrace_sched (u : Nat) (f : TraceUnit → TraceUnit) : (updTrace s u f).sched = s.sched := rfl
@[simp] theorem updTrace_store (u : Nat) (f : TraceUnit → TraceUnit) : (updTrace s u f).store = s.store := rfl
@[simp] theorem updTrace_mem (u : Nat) (f : TraceUnit → TraceUnit) : (updTrace s u f).mem = s.mem := rfl
@[simp] theorem updTrace_links (u : Nat) (f : TraceUnit → TraceUnit) : (updTrace s u f).links = s.links := rfl
@[simp] theorem updTrace_faults (u : Nat) (f : TraceUnit → TraceUnit) : (updTrace s u f).faults = s.faults := rfl
theorem updTrace_chip (u : Nat) (f : TraceUnit → TraceUnit) : (updTrace s u f).chip = { s.chip with trace := updAt s.chip.trace u f } := rfl
@[simp] theorem updTrace_rd (u : Nat) (f : TraceUnit → TraceUnit) (r : Nat) : rd (updTrace s u f) r = rd s r := rfl

@[simp] theorem updColl_pending (n : Nat) (f : Coll → Coll) : (updColl s n f).pending = s.pending := rfl
@[simp] theorem updColl_regs (n : Nat) (f : Coll → Coll) : (updColl s n f).regs = s.regs := rfl
@[simp] theorem updColl_staged (n : Nat) (f : Coll → Coll) : (updColl s n f).staged = s.staged := rfl
@[simp] theorem updColl_latched (n : Nat) (f : Coll → Coll) : (updColl s n f).latched = s.latched := rfl
@[simp] theorem updColl_step (n : Nat) (f : Coll → Coll) : (updColl s n f).step = s.step := rfl
@[simp] theorem updColl_sched (n : Nat) (f : Coll → Coll) : (updColl s n f).sched = s.sched := rfl
@[simp] theorem updColl_mem (n : Nat) (f : Coll → Coll) : (updColl s n f).mem = s.mem := rfl
@[simp] theorem updColl_links (n : Nat) (f : Coll → Coll) : (updColl s n f).links = s.links := rfl
@[simp] theorem updColl_faults (n : Nat) (f : Coll → Coll) : (updColl s n f).faults = s.faults := rfl
@[simp] theorem updColl_chip (n : Nat) (f : Coll → Coll) : (updColl s n f).chip = s.chip := rfl
theorem updColl_store (n : Nat) (f : Coll → Coll) : (updColl s n f).store = { s.store with colls := Tbl.upd s.store.colls n f } := rfl
@[simp] theorem updColl_rd (n : Nat) (f : Coll → Coll) (r : Nat) : rd (updColl s n f) r = rd s r := rfl

@[simp] theorem setTable_pending (n : Nat) (t : Table) : (setTable s n t).pending = s.pending := rfl
@[simp] theorem setTable_regs (n : Nat) (t : Table) : (setTable s n t).regs = s.regs := rfl
@[simp] theorem setTable_staged (n : Nat) (t : Table) : (setTable s n t).staged = s.staged := rfl
@[simp] theorem setTable_latched (n : Nat) (t : Table) : (setTable s n t).latched = s.latched := rfl
@[simp] theorem setTable_step (n : Nat) (t : Table) : (setTable s n t).step = s.step := rfl
@[simp] theorem setTable_sched (n : Nat) (t : Table) : (setTable s n t).sched = s.sched := rfl
@[simp] theorem setTable_mem (n : Nat) (t : Table) : (setTable s n t).mem = s.mem := rfl
@[simp] theorem setTable_links (n : Nat) (t : Table) : (setTable s n t).links = s.links := rfl
@[simp] theorem setTable_faults (n : Nat) (t : Table) : (setTable s n t).faults = s.faults := rfl
@[simp] theorem setTable_chip (n : Nat) (t : Table) : (setTable s n t).chip = s.chip := rfl
theorem setTable_store (n : Nat) (t : Table) : (setTable s n t).store = { s.store with tables := Tbl.set s.store.tables n t } := rfl
@[simp] theorem setTable_rd (n : Nat) (t : Table) (r : Nat) : rd (setTable s n t) r = rd s r := rfl

@[simp] theorem updChan_pending (c : Nat) (f : Chan → Chan) : (updChan s c f).pending = s.pending := rfl
@[simp] theorem updChan_regs (c : Nat) (f : Chan → Chan) : (updChan s c f).regs = s.regs := rfl
@[simp] theorem updChan_staged (c : Nat) (f : Chan → Chan) : (updChan s c f).staged = s.staged := rfl
@[simp] theorem updChan_latched (c : Nat) (f : Chan → Chan) : (updChan s c f).latched = s.latched := rfl
@[simp] theorem updChan_step (c : Nat) (f : Chan → Chan) : (updChan s c f).step = s.step := rfl
@[simp] theorem updChan_sched (c : Nat) (f : Chan → Chan) : (updChan s c f).sched = s.sched := rfl
@[simp] theorem updChan_mem (c : Nat) (f : Chan → Chan) : (updChan s c f).mem = s.mem := rfl
@[simp] theorem updChan_links (c : Nat) (f : Chan → Chan) : (updChan s c f).links = s.links := rfl
@[simp] theorem updChan_faults (c : Nat) (f : Chan → Chan) : (updChan s c f).faults = s.faults := rfl
@[simp] theorem updChan_chip (c : Nat) (f : Chan → Chan) : (updChan s c f).chip = s.chip := rfl
theorem updChan_store (c : Nat) (f : Chan → Chan) : (updChan s c f).store = { s.store with chans := Tbl.set s.store.chans c (f (chan s c)) } := rfl
@[simp] theorem updChan_rd (c : Nat) (f : Chan → Chan) (r : Nat) : rd (updChan s c f) r = rd s r := rfl

@[simp] theorem setFaults_pending (g : Faults → Faults) : (setFaults s g).pending = s.pending := rfl
@[simp] theorem setFaults_regs (g : Faults → Faults) : (setFaults s g).regs = s.regs := rfl
@[simp] theorem setFaults_staged (g : Faults → Faults) : (setFaults s g).staged = s.staged := rfl
@[simp] theorem setFaults_latched (g : Faults → Faults) : (setFaults s g).latched = s.latched := rfl
@[simp] theorem setFaults_step (g : Faults → Faults) : (setFaults s g).step = s.step := rfl
@[simp] theorem setFaults_sched (g : Faults → Faults) : (setFaults s g).sched = s.sched := rfl
@[simp] theorem setFaults_store (g : Faults → Faults) : (setFaults s g).store = s.store := rfl
@[simp] theorem setFaults_mem (g : Faults → Faults) : (setFaults s g).mem = s.mem := rfl
@[simp] theorem setFaults_links (g : Faults → Faults) : (setFaults s g).links = s.links := rfl
@[simp] theorem setFaults_chip (g : Faults → Faults) : (setFaults s g).chip = s.chip := rfl
theorem setFaults_faults (g : Faults → Faults) : (setFaults s g).faults = g s.faults := rfl
@[simp] theorem setFaults_rd (g : Faults → Faults) (r : Nat) : rd (setFaults s g) r = rd s r := rfl

@[simp] theorem setFair_pending (q : Nat) (x : FairQ) : (setFair s q x).pending = s.pending := rfl
@[simp] theorem setFair_regs (q : Nat) (x : FairQ) : (setFair s q x).regs = s.regs := rfl
@[simp] theorem setFair_staged (q : Nat) (x : FairQ) : (setFair s q x).staged = s.staged := rfl
@[simp] theorem setFair_latched (q : Nat) (x : FairQ) : (setFair s q x).latched = s.latched := rfl
@[simp] theorem setFair_step (q : Nat) (x : FairQ) : (setFair s q x).step = s.step := rfl
@[simp] theorem setFair_store (q : Nat) (x : FairQ) : (setFair s q x).store = s.store := rfl
@[simp] theorem setFair_mem (q : Nat) (x : FairQ) : (setFair s q x).mem = s.mem := rfl
@[simp] theorem setFair_links (q : Nat) (x : FairQ) : (setFair s q x).links = s.links := rfl
@[simp] theorem setFair_faults (q : Nat) (x : FairQ) : (setFair s q x).faults = s.faults := rfl
@[simp] theorem setFair_chip (q : Nat) (x : FairQ) : (setFair s q x).chip = s.chip := rfl
theorem setFair_sched (q : Nat) (x : FairQ) : (setFair s q x).sched = { s.sched with fair := Tbl.set s.sched.fair q x } := rfl
@[simp] theorem setFair_rd (q : Nat) (x : FairQ) (r : Nat) : rd (setFair s q x) r = rd s r := rfl

@[simp] theorem setStep_pending (g : Step → Step) : (setStep s g).pending = s.pending := rfl
@[simp] theorem setStep_regs (g : Step → Step) : (setStep s g).regs = s.regs := rfl
@[simp] theorem setStep_staged (g : Step → Step) : (setStep s g).staged = s.staged := rfl
@[simp] theorem setStep_latched (g : Step → Step) : (setStep s g).latched = s.latched := rfl
@[simp] theorem setStep_sched (g : Step → Step) : (setStep s g).sched = s.sched := rfl
@[simp] theorem setStep_store (g : Step → Step) : (setStep s g).store = s.store := rfl
@[simp] theorem setStep_mem (g : Step → Step) : (setStep s g).mem = s.mem := rfl
@[simp] theorem setStep_links (g : Step → Step) : (setStep s g).links = s.links := rfl
@[simp] theorem setStep_faults (g : Step → Step) : (setStep s g).faults = s.faults := rfl
@[simp] theorem setStep_chip (g : Step → Step) : (setStep s g).chip = s.chip := rfl
theorem setStep_step (g : Step → Step) : (setStep s g).step = g s.step := rfl
@[simp] theorem setStep_rd (g : Step → Step) (r : Nat) : rd (setStep s g) r = rd s r := rfl

@[simp] theorem setAnswer_pending (v : Option Quad) (ca : Bool) : (setAnswer s v ca).pending = s.pending := rfl
@[simp] theorem setAnswer_regs (v : Option Quad) (ca : Bool) : (setAnswer s v ca).regs = s.regs := rfl
@[simp] theorem setAnswer_staged (v : Option Quad) (ca : Bool) : (setAnswer s v ca).staged = s.staged := rfl
@[simp] theorem setAnswer_latched (v : Option Quad) (ca : Bool) : (setAnswer s v ca).latched = s.latched := rfl
@[simp] theorem setAnswer_step (v : Option Quad) (ca : Bool) : (setAnswer s v ca).step = s.step := rfl
@[simp] theorem setAnswer_sched (v : Option Quad) (ca : Bool) : (setAnswer s v ca).sched = s.sched := rfl
@[simp] theorem setAnswer_store (v : Option Quad) (ca : Bool) : (setAnswer s v ca).store = s.store := rfl
@[simp] theorem setAnswer_mem (v : Option Quad) (ca : Bool) : (setAnswer s v ca).mem = s.mem := rfl
@[simp] theorem setAnswer_faults (v : Option Quad) (ca : Bool) : (setAnswer s v ca).faults = s.faults := rfl
@[simp] theorem setAnswer_chip (v : Option Quad) (ca : Bool) : (setAnswer s v ca).chip = s.chip := rfl
theorem setAnswer_links (v : Option Quad) (ca : Bool) : (setAnswer s v ca).links = { s.links with answer := v, abort := ca } := rfl
@[simp] theorem setAnswer_rd (v : Option Quad) (ca : Bool) (r : Nat) : rd (setAnswer s v ca) r = rd s r := rfl

@[simp] theorem setGraft_pending (g : Graft → Graft) : (setGraft s g).pending = s.pending := rfl
@[simp] theorem setGraft_regs (g : Graft → Graft) : (setGraft s g).regs = s.regs := rfl
@[simp] theorem setGraft_staged (g : Graft → Graft) : (setGraft s g).staged = s.staged := rfl
@[simp] theorem setGraft_latched (g : Graft → Graft) : (setGraft s g).latched = s.latched := rfl
@[simp] theorem setGraft_step (g : Graft → Graft) : (setGraft s g).step = s.step := rfl
@[simp] theorem setGraft_sched (g : Graft → Graft) : (setGraft s g).sched = s.sched := rfl
@[simp] theorem setGraft_store (g : Graft → Graft) : (setGraft s g).store = s.store := rfl
@[simp] theorem setGraft_mem (g : Graft → Graft) : (setGraft s g).mem = s.mem := rfl
@[simp] theorem setGraft_links (g : Graft → Graft) : (setGraft s g).links = s.links := rfl
@[simp] theorem setGraft_chip (g : Graft → Graft) : (setGraft s g).chip = s.chip := rfl
theorem setGraft_faults (g : Graft → Graft) : (setGraft s g).faults = { s.faults with graft := g s.faults.graft } := rfl
@[simp] theorem setGraft_rd (g : Graft → Graft) (r : Nat) : rd (setGraft s g) r = rd s r := rfl

end Sys2Proof.Machine
end

