-- ==== Sys2Proof/WellFormed.lean ====
section
/-! DEFINITION. When a command's operands are ones that the node's outside can present. -/
namespace Sys2Proof

/-- A Riltik header is 32 bytes and follows 14 bytes of addresses and EtherType; the FCS takes 4 (R441, R442). -/
def Frame.wellFormed (f : Frame) : Bool := f.hdr.length == 32 && 64 ≤ f.size && f.hdr.length + f.payload.length + 18 ≤ f.size

/-- The readings of an open instant: 50 galleries, four atrium sensors, eight stacks (R563, R580). -/
def OpenEnv.wellFormed (e : OpenEnv) : Bool := e.galleryTemps.length == 50 && e.atriumTemps.length == 4 && e.stackTemps.length == 8

/-- The operand checks of a command: what the node's outside can present to it. -/
def Instr.wellFormed : Instr → Bool
  | .registerWrite _ _ _ data => 0 < data.bytes.length && data.bytes.length ≤ 8
  | .rcRead _ _ _ len _ => len == 4 || len == 8
  | .mmioBadRequest _ _ _ len => 0 < len
  | .stepOpen e => e.wellFormed
  | .descriptorArrival _ desc _ _ => desc.length == 256
  | .fetchError _ (some desc) => desc.length == 256
  | .stepMark f | .hello f | .fmReqRead f | .fmReqWrite f | .rakeQuery f | .rakeContrib f | .rowReq f | .rowReply f | .ownerRead f
  | .ownerData f | .gone f | .dataLossAck f | .mirrorPrep f | .mirrorCommit f | .mirrorAbort f | .mirrorClose f | .mirrorRows f
  | .mirrorAck f | .shadowQuery f | .shadowResult f => f.wellFormed
  | .receivedFrameDropped f => !f.fcsOk || f.size < 64 || f.hdr.length ≤ 32
  | .portTrained _ lanes => lanes == 0 || lanes == 1 || lanes == 2 || lanes == 4
  | .scanWindow _ drained _ => drained ≤ 65536
  | _ => true

end Sys2Proof
end

