-- ==== Sys2Proof/Tests/Slice0.lean ====
section
/-! SUPPORT. Small tests: each check of WellFormed refuses an ill-formed command, and for every statement with hypotheses a
concrete state and operands that meet them. -/
open Sys2Proof.Machine
namespace Sys2Proof.Tests

/-! ### Ill-formed commands -/

def badFrame : Frame := ⟨0, true, 64, false, 0x88B5, 0, [], []⟩

theorem test_wf_write_empty : (Instr.registerWrite .mgmt .bar0 0 ⟨[], 0⟩).wellFormed = false := by decide
theorem test_wf_read_len : (Instr.rcRead .mgmt .bar0 0 3 0).wellFormed = false := by decide
theorem test_wf_bad_request_len : (Instr.mmioBadRequest .mgmt true 0 0).wellFormed = false := by decide
theorem test_wf_open_env : (Instr.stepOpen ⟨[], [], [], []⟩).wellFormed = false := by decide
theorem test_wf_descriptor_len : (Instr.descriptorArrival 0 [] [] []).wellFormed = false := by decide
theorem test_wf_fetch_error_len : (Instr.fetchError 0 (some [])).wellFormed = false := by decide
theorem test_wf_frame_header : (Instr.hello badFrame).wellFormed = false := by decide
theorem test_wf_dropped_frame : (Instr.receivedFrameDropped { badFrame with hdr := List.replicate 33 0 }).wellFormed = false := by decide
theorem test_wf_port_lanes : (Instr.portTrained 0 3).wellFormed = false := by decide
theorem test_wf_drained : (Instr.scanWindow 0 65537 []).wellFormed = false := by decide

/-! ## Witnesses: states and operands that meet the hypotheses of the statements, clause by clause -/

/-- The node in card mode, right after reset. -/
abbrev card : State := State.reset
/-- The node in hall mode, its node number 1 written and port 0 UP with a class entry that admits every frame. -/
def hall : State :=
  let s := { State.reset with chip := { Chip.reset with pins := { Pins.reset with modeHall := true } } }
  wr { s with links := { s.links with ports := updAt s.links.ports 0 fun p => { p with st := 3, used := 0xF, ver := 1, classes := [(0, ⟨0, 0, true, 0, 0, 2⟩)] } } }
    Reg.atrium.NODE_ID 0x80000001
def c0 (s : State) : State := { s with chip := { s.chip with aux := { s.chip.aux with c0 := true } } }
/-- The node at a step of this number, stepping. -/
def at_ (n : Nat) (s : State) : State := { s with step := { s.step with count := BitVec.ofNat 48 n, valid := true, run := true, everRun := true } }
/-- A frame from node 2 on port 0 whose ingress checks pass, with this type and payload. -/
def frame (typ : Nat) (body : List Byte) : Frame :=
  let b := frameBytes 1 typ 0 0 2 1 0 0 body
  ⟨0, true, 64, false, 0x88B5, 0, b.take 32, b.drop 32⟩
/-- A payload of 64 bytes of control part with its CTL_CRC. -/
def ctl (b : List Byte) : List Byte :=
  let h := (b ++ zeros 60).take 60
  h ++ toLe 4 (crc32c (h ++ zeros 4)).toNat

theorem witness_Rails_and_pins_take_their_level :
    railOffends card.chip.aux.rails 0 0 = false ∧ railOffends (Aux.off).rails 11 0 = true ∧
    (Aux.reset.seqViolation = false ∧ Aux.reset.uvSeen = false) ∧ ((11 : Fin 12).val ≠ 0) := by decide

theorem witness_Resets_keep_what_outlives_them :
    (card.chip.aux.clocks = true ∧ card.c0 = false ∧ card.chip.aux.seqViolation = false) ∧ (c0 card).chip.aux.clocks = true ∧ (c0 card).c0 = true := by decide

/-- A node whose flash runs. -/
def flashS : State := { card with mem := { card.mem with flash := { card.mem.flash with running := true } } }
def blk (st : BlkState) : Block := ⟨st, 0, false, 0, 0, 0, false, false, false⟩
def withBlocks (l : Tbl Block) (s : State) : State := { s with mem := { s.mem with flash := { s.mem.flash with blocks := l } } }

theorem witness_Boot_and_recovery :
    bootStage card = 0 ∧ card.chip.test.ir ≠ 0x10 ∧ flashRunning flashS = true ∧ flashS.c0 = false ∧ flashS.mem.flash.ckpts = [] ∧
    flashS.mem.flash.tables = [] ∧ flashS.mem.flash.journal = [] ∧ (blk .suspect).st = .suspect ∧ Tbl.get flashS.store.colls 4095 = none := by decide

def vfPending : State := setPciState card (.vf 255) { PciState.reset with bme := true, pba := 0x8000 }

theorem witness_Functions_hold_and_send_interrupts :
    (pciState vfPending (.vf 255)).bme = true ∧ (pciState vfPending (.vf 255)).d3 = false ∧ (pciState vfPending (.vf 255)).pba.getLsbD 15 = true := by decide

theorem witness_Function_resets :
    (pciState (vfFlr card 255) (.vf 255)).flr = true ∧ (vfFlr card 255).sched.flights = [] ∧ (vfFlr card 255).faults.endedFlights = [] := by decide

theorem witness_PcieLink_and_its_errors_are_reported : testBit (rd (wr card (pageBase .pcie 0 + 0x34) 1) (pageBase .pcie 0 + 0x34)) 0 = true := by decide

theorem witness_Register_writes :
    mgmtReaches card ∧ pageAt 0x6024 = some (.pcie, 0, 0x24) ∧ pageAt 0x20030 = some (.hbm, 0, 0x30) ∧ (regDefAt 0x6024).isSome = true ∧
    (regDefAt 0x20030).any (fun r => r.wide == .one) = true := by
  refine ⟨⟨rfl, rfl⟩, ?_⟩; decide

theorem witness_Bad_requests_are_counted : badSpan 0x30001 2 = false ∧ badSpan 6 4 = true ∧ badSpan 8 9 = true := by decide

theorem witness_Pages_identify_themselves :
    reaches card .mgmt = true ∧ pageAt 0x8000 = none ∧ pageAt 0x37FFC = none ∧ pageAt 0x01001004 = some (.tile, 0, 4) ∧ bootStage card ≠ 0x0F ∧
    tileAsleep { card with chip := { card.chip with galleries := updAt card.chip.galleries 0 fun g => { g with fstate := 2 } } } .tile 15 = true ∧
    reaches card (.vf 255) = true := by decide

theorem witness_Register_reads :
    mgmtReaches card ∧ bootStage card ≠ 0x0F ∧ pageAt Reg.pcie.FLR_COUNT = some (.pcie, 0, Reg.pcie.FLR_COUNT - 0x6000) ∧
    (regDefAt Reg.pcie.FLR_COUNT).any (fun r => r.rc && r.wide == .one) = true := by
  refine ⟨⟨rfl, rfl⟩, ?_⟩; decide

theorem witness_RegAccess_needs_the_production_test_state :
    let s := { card with chip := { card.chip with test := { card.chip.test with prod := true } } }
    let w : BitVec 98 := BitVec.ofNat 98 (2 ^ 97 + (pageBase .hbm 7 + 0x34) * 2 ^ 64 + 0xFFFFFFFF)
    s.running = true ∧ bootStage s ≠ 0x0F ∧ w.getLsbD 96 = false ∧ w.getLsbD 97 = true ∧
    (w.toNat / 2 ^ 64) % 2 ^ 32 = pageBase .hbm 7 + 0x34 ∧ (regDefAt (pageBase .hbm 7 + 0x34)).any (fun r => r.wide == .one && !r.rc) = true ∧
    card.chip.test.prod = false := by decide

/-! ### Steps, flights -/

theorem witness_Ticks_open_the_next_step :
    ((at_ 0 card).hall = false ∧ (at_ 0 card).step.run = true ∧ (at_ 0 card).running = true) ∧
    (hall.hall = true ∧ hall.running = true ∧ hall.step.everRun = false ∧ hall.step.mark = none) ∧
    ((at_ 5 hall).step.everRun = true ∧ 0 < periodNs (periodSel (at_ 5 hall)) - (rd (at_ 5 hall) Reg.atrium.TICK_GUARD).toNat ∧
      (at_ 5 hall).step.missedRun + 1 < lossLimit (at_ 5 hall)) := by decide

theorem witness_Steps_open_and_stepping_stops :
    ({ card with step := { card.step with seam := true } }).step.seam = true ∧ (c0 card).c0 = true ∧ card.c0 = false ∧ card.hall = false ∧
    card.step.run = false ∧ card.sched.flights = [] ∧ (∀ f ∈ card.sched.parts, f.part.any (·.admitted) = false) ∧
    ({ card with sched := { card.sched with flights := [default] } }).sched.flights ≠ [] := by decide

/-- A plan of one stage of this kind on gallery 49, a collection's flight of it in this step, and the node that runs it. -/
def plan1 (kind : Nat) : Plan :=
  { (default : Plan) with galleries := 1, span := 1, stages := [{ (default : StageDef) with no := 0, kind := kind, rset := 0 }], rsets := [{ (default : RSet) with galMask := 1 }] }
def run0 : StageRun := { (default : StageRun) with started := true }
def flight1 (kind : Nat) : Flight :=
  { (default : Flight) with id := 3, kind := .search, plan := plan1 kind, gmap := [49], stages := [run0] }
def flightS (f : Flight) : State := { at_ 5 card with sched := { card.sched with flights := [f] } }

set_option maxRecDepth 20000 in
theorem witness_StepMark_becomes_pending :
    (frame 0x02 (toLe 6 5)).typ = 0x02 ∧ accepts (at_ 5 hall) (frame 0x02 (toLe 6 5)) ∧ hall.hall = true ∧ (at_ 5 hall).step.valid = true ∧
    BitVec.ofNat 48 (leAt (frame 0x02 (toLe 6 5)).body 0 6) = (at_ 5 hall).step.count ∧
    BitVec.ofNat 48 (leAt (frame 0x02 (toLe 6 6)).body 0 6) ≠ (at_ 5 hall).step.count ∧ hall.step.valid = false ∧ hall.step.mark = none := by
  unfold accepts; decide

theorem witness_Flights_yield_and_stages_fail :
    let f : Flight := { flight1 0x05 with stages := [{ run0 with yielding := true }] }
    let s := flightS f
    workOf s 3 = some f ∧ (f.plan.stages[0]?).any (·.kind != 0x12) = true ∧ (f.run 0).runs = true ∧ (f.run 0).yielding = true ∧ f.cancel = false ∧
    testBit (rd (wr s (pageBase .atrium 0 + 0x34) 8) (pageBase .atrium 0 + 0x34)) 3 = true ∧
    (∃ d, f.plan.stages[0]? = some d ∧ (stageGalleries f.plan f.gmap d).contains 49 = true) ∧ 0 < f.stages.length := by
  refine ⟨by decide, by decide, by decide, by decide, by decide, by decide, ⟨_, rfl, by decide⟩, by decide⟩

theorem witness_Flights_yield_background :
    let f : Flight := { flight1 0x05 with stages := [{ run0 with yielding := true }], plan := { plan1 0x05 with flags := 4 } }
    f.background = true ∧ workOf (flightS f) 3 = some f ∧ (f.run 0).runs = true ∧ (f.run 0).yielding = true := by decide

/-- A flight whose stage runs on two galleries. -/
def flight2 (kind : Nat) : Flight := { flight1 kind with gmap := [0, 49], plan := { plan1 kind with galleries := 2, rsets := [{ (default : RSet) with galMask := 3 }] } }

theorem witness_StageComplete_waits_for_every_gallery :
    let f := flight2 0x05
    let g := flight1 0x07
    (∃ d, f.plan.stages[0]? = some d ∧ (stageGalleries f.plan f.gmap d).contains 49 = true ∧ stageHeld (flightS f) f d = false ∧
      (∃ h ∈ stageGalleries f.plan f.gmap d, h ≠ 49 ∧ h ∉ (f.run 0).done)) ∧ workOf (flightS f) 3 = some f ∧ f.part = none ∧
    (∃ d, g.plan.stages[0]? = some d ∧ (stageGalleries g.plan g.gmap d).contains 49 = true ∧ stageHeld (flightS g) g d = false ∧
      (∀ h ∈ stageGalleries g.plan g.gmap d, h = 49 ∨ h ∈ (g.run 0).done) ∧ d.kind = 0x07) ∧ g.kind = .search ∧ workOf (flightS g) 3 = some g ∧
    (g.run 0).runs = true := by
  refine ⟨⟨_, rfl, by decide, by decide, by decide⟩, by decide, by decide, ⟨_, rfl, by decide, by decide, by decide, by decide⟩, by decide, by decide, by decide⟩

/-- A collection that serves, with one empty version. -/
def coll1 : Coll := { (default : Coll) with life := .serving, versions := [default] }
def withColl (n : Nat) (c : Coll) (s : State) : State := { s with store := { s.store with colls := Tbl.set s.store.colls n c } }

set_option maxRecDepth 40000 in
theorem witness_UpdateCommit_commits_outside_the_seam :
    let f : Flight := { flight1 0x14 with kind := .insert, obj := 7, stages := [{ run0 with complete := true }] }
    let s := withColl 7 coll1 (flightS f)
    flightOf s 3 = some f ∧ readyToCommit s f = true ∧ s.step.seam = false ∧
    (commitTo (flushCopy s f) (some f.id) f.obj s.now f.desc.isInsert f.desc.ifAbsent none none f.work.items).1.isSome = true := by decide +kernel

/-- A transplant of partition 255. -/
def tp1 (sealed : Bool) : Transplant := { (default : Transplant) with part := 255, cut := 3, pub := 5, sealed := sealed, gallery := 49 }
/-- A version of one leaf of one item in partition 255, a collection of depth 2 that has it, and the stacks with their 64 pseudo-channels. -/
def leaf1 : LeafBlk := { (default : LeafBlk) with path := 0xFF000000, epoch := 2, slots := [7], recs := [default], norms := [(0, 0)], ok := true }
def node1 : NodeBlk := { (default : NodeBlk) with level := 2, path := 0xFF000000, epoch := 2, cents := [default], kids := [1], ok := (true, true) }
def version1 : Version := { (default : Version) with epoch := 2, nodes := [node1], leaves := [leaf1], ok := (true, true) }
def planted (sealed : Bool) : Coll :=
  { coll1 with info := { (default : CollInfo) with depth := 2, projDims := 128, refineDims := 256 }, versions := [version1], tps := [tp1 sealed] }
def hbmUp (s : State) : State := (List.range 8).foldl (fun t k => wr t (stackStatusReg k) 0x100) s
def plantedS (sealed : Bool) : State := hbmUp (withColl 4095 (planted sealed) (at_ 5 card))

set_option maxRecDepth 40000 in
theorem witness_Transplants_seal_and_publish :
    Tbl.get (plantedS false).store.colls 4095 = some (planted false) ∧ (tp1 false).sealed = false ∧ (plantedS false).step.bgHold = false ∧
    (planted false).life = .serving ∧ coll1.life = .serving ∧ ((planted false).bind 3).isSome = true ∧ (∀ m ∈ partNodes version1 255, m.ok = (true, true)) ∧
    ((rebuildPart (plantedS false) (planted false) version1 (tp1 false)).any fun y =>
      (placeNew (plantedS false) (planted false).info 5 [] y.1.nodes y.1.leaves).isSome) = true ∧
    rebuildPart (at_ 5 card) coll1 default (tp1 false) = none ∧ ({ coll1 with life := .draining }).life ≠ .serving ∧
    ({ card.step with bgHold := true }).bgHold = true ∧ (tp1 true).sealed = true ∧ (tp1 true).pub ≤ (plantedS true).now ∧ (plantedS true).step.seam = false ∧
    (plantedS true).step.run = true ∧
    (rootPlaces (plantedS true) (rootBytes (planted true)) (heapOf (plantedS true)) (planted true).versions.length).length = (planted true).versions.length := by
  refine ⟨?_, ?_, ?_, ?_, ?_, ?_, ?_, ?_, ?_, ?_, ?_, ?_, ?_, ?_, ?_, ?_⟩ <;> decide +kernel

/-- A collection with one seedbed entry of partition 255, and the node in a grid step with a threshold of 1. -/
def seeded : Coll := { coll1 with seeds := [⟨255, 0, 4, true, 0, 0, 0, default, none⟩] }
def gridS : State := wr (wr (wr (withColl 9 seeded (at_ 8 card)) Reg.sched.SEED_THRESH 1) Reg.sched.TP_GRID 8) (ftBank 0 0x41C) 1

theorem witness_Transplants_start_seal_and_publish :
    gridS.step.valid = true ∧ gridS.now % max 1 (rdf gridS Reg.sched.TP_GRID 15 0) = 0 ∧ (at_ 9 gridS).now % max 1 (rdf (at_ 9 gridS) Reg.sched.TP_GRID 15 0) ≠ 0 ∧
    testBit (rd gridS Reg.sched.TP_CTRL) 0 = true ∧ tpRunning gridS < max 1 (rdf gridS Reg.sched.TP_CTRL 4 1) ∧ eligibleParts gridS = [(9, 255)] ∧
    Tbl.get gridS.store.colls 9 = some seeded ∧ tpRoom gridS seeded 255 = true := by
  refine ⟨?_, ?_, ?_, ?_, ?_, ?_, ?_, ?_⟩ <;> decide +kernel

/-! ### Rings -/

/-- Channel 4095 enabled with rings of 64 entries, its function's bus mastering on, three descriptors rung. -/
def chan1 : Chan :=
  let e : ChanEntry := { (default : ChanEntry) with enabled := true, sqLog := 6, cqLog := 6, backlog := 4, version := 1 }
  { (default : Chan) with accepted := e, force := e, ok := (true, true), sqTail := 3, phase := true }
def ringS : State :=
  let s := { card with store := { card.store with chans := [(4095, chan1)] }, faults := { card.faults with nodeState := 3 } }
  wr (setPciState s (.vf 255) { PciState.reset with bme := true }) (Reg.tstatus.OFFER_VER 255) 0x01010101
/-- A query descriptor of version 1 and 256 bytes with its CRC. -/
def descBytes : List Byte :=
  let b := putAt (zeros 256) 0 ([0x10, 0x01] ++ toLe 2 256)
  putAt b 60 (toLe 4 (crcWithout b 60 4).toNat)

set_option maxRecDepth 20000 in
theorem witness_Descriptors_are_queued_or_fail :
    mayFetch ringS 4095 = true ∧ ringS.c0 = false ∧ earlyStatus ringS ⟨4095, 0, descBytes, [], [], 0, 0, false⟩ = 0 ∧
    testBit (rd (wr ringS (pageBase .pcie 0 + 0x34) 0x10) (pageBase .pcie 0 + 0x34)) 4 = true ∧ cqFull (chan ringS 4095) = false ∧
    (chan ringS 4095).arm = false := by
  refine ⟨?_, ?_, ?_, ?_, ?_, ?_⟩ <;> decide +kernel

theorem witness_Doorbells_move_the_ring_or_are_errors :
    (pciState ringS (vfOf 4095)).d3 = false ∧ sqTailOk ringS 4095 63 = true ∧ sqTailOk ringS 4095 64 = false ∧ cqHeadOk ringS 4095 0 = true ∧
    cqHeadOk ringS 4095 1 = false ∧ (chan ringS 4095).waiting = [] := by decide

/-- An image in HBM at this address. -/
def inMem (a : Nat) (b : List Byte) (s : State) : State := { s with mem := { s.mem with hbm := Memory.writes s.mem.hbm a b } }
/-- An edit entry that enables rings of 64 entries for tenant 255, which is ADMITTED. -/
def entryBytes : List Byte :=
  let b := putAt (zeros 256) 0 (toLe 4 0x4843564B ++ [1])
  putAt b 60 (toLe 4 (crcWithout b 60 4).toNat)
def invalS (c : Nat) : State := inMem (256 * c) entryBytes { card with sched := { card.sched with inval := some c } }

set_option maxRecDepth 20000 in
theorem witness_ChanInval_checks_one_entry :
    card.sched.inval = none ∧ (invalS 0).sched.inval = some 0 ∧ inHbm (2 ^ 39 - 256) 256 = true ∧ inHbm (2 ^ 39 - 255) 256 = false := by decide

/-! ### Plans, profiles, loads -/

/-- A plan image of one stage and one resource set. -/
def planBytes : List Byte :=
  let h := toLe 4 0x4C46564B ++ toLe 2 1 ++ toLe 2 0 ++ toLe 4 192 ++ toLe 4 7 ++ toLe 2 1 ++ [1, 0] ++ toLe 2 1 ++ [1, 1] ++ toLe 2 1250 ++ [0, 1, 0, 0] ++
    toLe 2 0 ++ toLe 4 64 ++ toLe 4 0 ++ toLe 4 96 ++ toLe 4 0 ++ toLe 4 128 ++ toLe 4 64 ++ zeros 8
  let b := h ++ ([0, 0, 1, 0] ++ zeros 8 ++ [0xFF] ++ zeros 19) ++ ([0, 0, 1, 0] ++ zeros 28) ++ zeros 64
  putAt b 60 (toLe 4 (imageCrc b).toNat)
def planS : State := inMem 0x7FFFFFFF40 planBytes { card with sched := { card.sched with planLoad := some (0x7FFFFFFF40, 1023) } }

set_option maxRecDepth 40000 in
theorem witness_Plans_are_loaded_and_retired :
    busyBit card Reg.sched.PLAN_STATUS = false ∧ busyBit (planLoad card) Reg.sched.PLAN_STATUS = true ∧ planS.sched.planLoad = some (0x7FFFFFFF40, 1023) ∧
    (inHbm 0x7FFFFFFF40 64 && inHbm 0x7FFFFFFF40 (planImage planS 0x7FFFFFFF40).length) = true ∧ planResult planS 1023 (planImage planS 0x7FFFFFFF40) = 0 ∧
    (inHbm (2 ^ 39) 64 && inHbm (2 ^ 39) 64) = false ∧ planResult card 0 (zeros 64) = 1 ∧ slotUsed (planRetire card) 0 = false ∧
    (planRetire card).sched.planRetire = some 0 ∧ slotUsed (flightS (flight1 5)) 0 = true := by
  refine ⟨?_, ?_, ?_, ?_, ?_, ?_, ?_, ?_, ?_, ?_⟩ <;> decide +kernel

/-- A profile image of three kernels, as the built-in ones are, with number 16. -/
def profileBytes : List Byte :=
  let k (i : Byte) : List Byte := [i, 3, 3, 32, 0, 0, 0, 0x0D, 0, 1] ++ zeros 22
  let b := toLe 4 0x5041564B ++ toLe 2 1 ++ toLe 2 16 ++ toLe 4 160 ++ [3] ++ zeros 51 ++ k 0 ++ k 1 ++ k 2
  putAt b 60 (toLe 4 (imageCrc b).toNat)
def profileS : State := inMem 0 profileBytes { card with sched := { card.sched with profileLoad := some 0 } }

set_option maxRecDepth 40000 in
theorem witness_Profiles_are_loaded :
    busyBit card Reg.sched.PROFILE_STATUS = false ∧ profileS.sched.profileLoad = some 0 ∧ (inHbm 0 64 && inHbm 0 (profileImage profileS 0).length) = true ∧
    (profileResult profileS (profileImage profileS 0)).1 = 0 ∧ (profileResult card (zeros 64)).1 ≠ 0 := by
  refine ⟨?_, ?_, ?_, ?_, ?_⟩ <;> decide +kernel

/-- Tenant 0 admitted, and chunks of 4 KiB at address 0. -/
def admitted : State :=
  wr (wr { card with store := { card.store with tenants := [(0, { (default : Tenant) with tstate := 1 })] } } Reg.sched.COLL_LOAD_BYTES 4096) Reg.sched.TABLE_LOAD_BYTES 4096
/-- A load whose image is 8,192 bytes long, 4,096 of them consumed. -/
def load1 (last : Bool) : Load := ⟨9, 0, 4096, putAt (zeros 4096) 8 (toLe 8 8192), [], last⟩
def loadS (last : Bool) : State :=
  wr (wr { admitted with store := { admitted.store with load := some (load1 last), tload := some (load1 last) } } Reg.sched.COLL_STATUS 0x40000000) Reg.sched.TABLE_STATUS 0x40000000

set_option maxRecDepth 40000 in
theorem witness_Loads_start_and_continue :
    admitted.store.load = none ∧ chunkShape admitted collRegs = true ∧ 4096 ≤ chunkLen admitted collRegs ∧ Tbl.get admitted.store.colls (collTarget admitted) = none ∧
    tenantState admitted (collTenant admitted) = 1 ∧ admitted.store.tload = none ∧ chunkShape admitted tableRegs = true ∧ 4096 ≤ chunkLen admitted tableRegs ∧
    Tbl.get admitted.store.tables (tableTarget admitted) = none ∧ tenantState admitted (tableTenant admitted) = 1 ∧
    needData (loadS false) collRegs = true ∧ needData (loadS false) tableRegs = true ∧
    chunkFits (chunkLen (loadS false) collRegs) ((load1 false).bytes.length + chunkLen (loadS false) collRegs) (leAt (load1 false).bytes 8 8) = true := by
  refine ⟨?_, ?_, ?_, ?_, ?_, ?_, ?_, ?_, ?_, ?_, ?_, ?_, ?_⟩ <;> decide +kernel

def table1 : Table := { (default : Table) with life := .serving }
theorem witness_Loads_are_aborted_and_objects_dropped :
    (loadS true).store.load.isSome = true ∧ (loadS true).store.tload.isSome = true ∧
    Tbl.get (withColl 0 coll1 card).store.colls (collTarget (withColl 0 coll1 card)) = some coll1 ∧ coll1.life = .serving ∧ table1.life = .serving ∧
    tableInUse (flightS { flight1 5 with kind := .scatter, obj := 0 }) (tableTarget (flightS { flight1 5 with kind := .scatter, obj := 0 })) = true := by
  refine ⟨?_, ?_, ?_, ?_, ?_, ?_⟩ <;> decide

set_option maxRecDepth 40000 in
theorem witness_Loads_take_chunks_and_commit :
    let s := wr (wr (hbmUp (loadS false)) Reg.sched.COLL_STATUS 0x80000000) Reg.sched.TABLE_STATUS 0x80000000
    -- a header that promises one node in section 2, which begins at 8,192
    let l : Load := ⟨9, 0, 64, putAt (putAt (putAt (zeros 256) 52 [1]) 168 (toLe 8 8192)) 176 (toLe 8 4096), [], false⟩
    busyBit s Reg.sched.COLL_STATUS = true ∧ busyBit s Reg.sched.TABLE_STATUS = true ∧ l.bytes ≠ [] ∧ streamFail s none (l.bytes ++ zeros 64) [] = none ∧
    bucketFail (l.bytes ++ zeros 64) = none ∧ (load1 true).last = true ∧ collInUse card 4095 = false ∧ coll1.tps = [] := by
  refine ⟨?_, ?_, ?_, ?_, ?_, ?_, ?_, ?_⟩ <;> decide +kernel

/-! ### Models, shard maps, tenants -/


/-- A model that waits for its relay, one that is staged, and a flight that runs its layer 0. -/
def model1 (relay : Bool) : Model := { (default : Model) with relay := relay, layers := [default] }
def withModel (m : Model) (s : State) : State := { s with store := { s.store with models := [(63, m)] } }
def modelFlight : Flight := { flight1 0x0F with plan := { plan1 0x0F with code := toLe 2 63 ++ zeros 14 } }

theorem witness_Models_are_loaded_and_their_weights_placed :
    busyBit card Reg.sched.MODEL_STATUS = false ∧ ({ card with sched := { card.sched with modelLoad := some (0, 63, 0) } }).sched.modelLoad = some (0, 63, 0) ∧
    (inHbm 0 64 && inHbm 0 (modelImage card 0).length) = true ∧ (modelResult card 63 0 (modelImage card 0)).1 ≠ 0 ∧ modelUsed card 63 = false ∧
    Tbl.get (withModel (model1 true) card).store.models 63 = some (model1 true) ∧ (model1 true).relay = true ∧
    pinsLaid (withModel (model1 true) card) 63 + (model1 true).weights.length ≤ pinnedArea (withModel (model1 true) card) ∧ weightsInHbm card 63 (model1 false) 0 = true ∧ (model1 true).lost = false ∧
    ({ model1 true with lost := true }).lost = true ∧ ({ model1 false with staged := true }).staged = true ∧ 0 < (model1 false).layers.length ∧
    (∃ f ∈ (flightS modelFlight).sched.flights, stageIns (flightS modelFlight) 63 0 f ≠ []) := by
  refine ⟨?_, ?_, ?_, ?_, ?_, ?_, ?_, ?_, ?_, ?_, ?_, ?_, ?_, modelFlight, by decide, ?_⟩ <;> decide +kernel

/-- The hall node's map of collection 9, itself the one shard. -/
def mapBytes : List Byte :=
  let b := toLe 4 0x4853564B ++ toLe 2 1 ++ toLe 2 9 ++ toLe 4 1 ++ toLe 4 1 ++ toLe 2 1 ++ toLe 2 0 ++ toLe 4 0 ++ zeros 40 ++ (toLe 2 1 ++ toLe 2 9 ++ zeros 12)
  putAt b 60 (toLe 4 (imageCrc b).toNat)
def mapS : State := inMem 0 mapBytes (withColl 9 coll1 hall)

set_option maxRecDepth 40000 in
theorem witness_Shard_maps_change_at_the_next_step :
    (inHbm 0 64 && inHbm 0 (mapImage mapS 0).length) = true ∧ mapResult mapS (mapImage mapS 0) = 0 ∧ leAt (mapImage mapS 0) 6 2 = 9 ∧
    Tbl.get mapS.store.colls 9 = some coll1 ∧ mapResult card (mapImage card 0) ≠ 0 ∧ (inHbm (2 ^ 39) 64 && inHbm (2 ^ 39) 64) = false ∧
    rdf (wr (withColl 4095 coll1 card) Reg.sched.SHARDMAP_SEL 4095) Reg.sched.SHARDMAP_SEL 11 0 = 4095 := by
  refine ⟨?_, ?_, ?_, ?_, ?_, ?_, ?_⟩ <;> decide +kernel

/-- Tenants 0 and 255, both ADMITTED, 255 of rank 3. -/
def two : State :=
  wr { card with store := { card.store with tenants := [(0, { (default : Tenant) with tstate := 1 }), (255, { (default : Tenant) with tstate := 1 })] } } (schedBank 255 0x34C) 3

theorem witness_Tenants_and_their_reservations :
    (tenantState card (tenantSel card) = 0 ∧ rankTaken card (tenantSel card) (rankReg card (tenantSel card)) = false) ∧
    (tenantState two (tenantSel two) = 1 ∧ tenantIdle two 0 = true ∧ tenantIdle (withColl 1 coll1 two) 0 = false) ∧
    (rankTaken two 0 3 = true ∧ rankTaken two 0 255 = false) ∧
    (C0Kind.tileShare ≠ .seatsPerStep ∧ sumWith two 0 1024 .tileShare ≤ fullHealth two .tileShare ∧ fullHealth two .tileShare < sumWith two 0 1025 .tileShare) ∧
    (sumWith two 256 0 .seats ≤ 1 ∧ 1 < sumWith (wr two (schedBank 255 0x350) 2) 256 0 .seats) ∧
    ((rd two (ftBank 0 0x420)).toNat ≤ 425984 ∧ capSum two 0x41C 0 425984 ≤ (rd two Reg.ft.HBM_RESERVABLE_MIB).toNat ∧
      0 < (rd (wr two (ftBank 0 0x420) 1) (ftBank 0 0x420)).toNat) ∧
    ((rd two (ftBank 0 0x428)).toNat ≤ 0 ∧ capSum two 0x424 0 0 ≤ (rd two Reg.ft.FLASH_OFFER_GIB).toNat) ∧
    (capSum two 0x41C 256 0 ≤ hbmReservable two 131072 ∧ hbmReservable (wr two (ftBank 0 0x41C) 0xFFFFFFFF) 16384 < capSum (wr two (ftBank 0 0x41C) 0xFFFFFFFF) 0x41C 256 0) := by
  refine ⟨⟨?_, ?_⟩, ⟨?_, ?_, ?_⟩, ⟨?_, ?_⟩, ⟨?_, ?_, ?_⟩, ⟨?_, ?_⟩, ⟨?_, ?_, ?_⟩, ⟨?_, ?_⟩, ?_, ?_⟩ <;> decide +kernel

/-- A row model of one layer that adds nothing to its 32 columns, with its image of 4,096 bytes. -/
def modelBytes : List Byte :=
  let h := toLe 4 0x444D564B ++ toLe 2 1 ++ [1, 0] ++ toLe 8 4096 ++ toLe 2 1 ++ toLe 2 1 ++ toLe 2 1 ++ toLe 2 32 ++ toLe 2 32 ++ toLe 2 0 ++ toLe 4 0 ++
    toLe 8 0 ++ zeros 8 ++ toLe 8 4096 ++ zeros 8
  let l := [0, 0, 5, 0, 0, 0, 1, 0] ++ toLe 4 32 ++ toLe 4 32 ++ zeros 8 ++ [0x0C] ++ zeros 103
  putAt (h ++ l) 60 (toLe 4 (imageCrc (h ++ l)).toNat) ++ zeros 3904

set_option maxRecDepth 100000 in
theorem witness_a_model_is_accepted : modelResult card 63 0 modelBytes = (0, 0) := by decide +kernel

/-! ### HBM and flash -/

/-- Every stack in this state. -/
def stackRow (n : Nat) (s : State) : State := (List.range 8).foldl (fun t k => wrf t (stackStatusReg k) 1 0 n) s
def mask (k : PageKind) (n : Nat) (w : Word) (s : State) : State := wr s (pageBase k n + 0x34) w

theorem witness_Hbm_stacks_train_and_fail :
    card.mem.stackSt.length = 8 ∧ card.mem.near.length = 4 ∧ stackState (stackRow 3 card) 7 = 3 ∧ stackState (stackRow 0 card) 0 ≠ 3 ∧
    testBit (rd (mask .hbm 7 0x18 card) (pageBase .hbm 7 + 0x34)) 3 = true ∧ testBit (rd (mask .hbm 7 0x18 card) (pageBase .hbm 7 + 0x34)) 4 = true ∧
    stackState (stackRow 2 card) 7 = 2 := by decide

def dirtyS : State := { flashS with mem := { flashS.mem with flash := { flashS.mem.flash with dirty := [(dirtyKey 4096 5, 2)] } } }
theorem witness_Hbm_reads_retire_and_copies_return :
    inHbm (2 ^ 39 - 1) 1 = true ∧ inHbm (2 ^ 39) 1 = false ∧ (2 ^ 39 - 1) / 2 ^ 36 = 7 ∧ (2 ^ 39 - 1) / 4096 % 64 = 63 ∧ stackState (stackRow 1 card) 7 ≤ 1 ∧
    testBit (rd (mask .hbm 7 3 card) (pageBase .hbm 7 + 0x34)) 0 = true ∧ testBit (rd (mask .hbm 7 3 card) (pageBase .hbm 7 + 0x34)) 1 = true ∧
    1 < rdf (wr card (Reg.hbm.UE_RETIRE 7) 2) (Reg.hbm.UE_RETIRE 7) 7 0 ∧ max 1 (rdf (wr card (Reg.hbm.UE_RETIRE 7) 1) (Reg.hbm.UE_RETIRE 7) 7 0) ≤ 1 ∧
    pcRetired card 7 63 = false ∧ pageDirty card 4096 5 = false ∧ (Tbl.get dirtyS.mem.flash.dirty (dirtyKey 4096 5)).isSome = true ∧
    Tbl.get dirtyS.mem.flash.wb (dirtyKey 4096 5) = none ∧ flashRunning dirtyS = true := by decide

/-- Near-bank unit 6 with a pass of one flight and this fill. -/
def nearS (fill : Nat) : State :=
  let s := stackRow 0 card
  updNear s 6 fun _ => ⟨[⟨9, 0, 0, 1, [1], 1, 0⟩, ⟨9, 0, 0, 0, [3], 2, 0⟩], fill, 0, 5, []⟩
theorem witness_Scan_windows_and_bursts :
    (nearS 0).mem.near.length = 4 ∧ nearRuns (nearS 0) 6 = true ∧ (nearUnit (nearS 0) 6).queue = [⟨9, 0, 0, 1, [1], 1, 0⟩] ++ ⟨9, 0, 0, 0, [3], 2, 0⟩ :: [] ∧ (nearS 0).ticks < 1 ∧ 0 ≤ (nearS 0).ticks ∧
    (nearS 0).step.seam = false ∧ ({ card.step with seam := true }).seam = true ∧
    (nearUnit (nearS 0) 6).burstsLeft ≠ 0 ∧ 16384 < (nearUnit (nearS 16281) 6).fill + 104 * 1 ∧ (nearUnit (nearS 16280) 6).fill + 104 * 1 ≤ 16384 ∧
    (nearUnit (stackRow 0 card) 6).queue = [] ∧ winBooked (nearS 0) ≤ (nearUnit (nearS 0) 6).windowsRun ∧
    (let f : Flight := { flight1 5 with plan := { plan1 5 with rsets := [{ (default : RSet) with galMask := 1, windows := 1 }] } }
     (nearUnit (flightS f) 6).windowsRun < winBooked (flightS f)) := by
  refine ⟨?_, ?_, ?_, ?_, ?_, ?_, ?_, ?_, ?_, ?_, ?_, ?_, ?_⟩ <;> decide

/-- Channel 31 in training, or ONLINE with its dies. -/
def chan31 (st : Nat) : State := wrf flashS (chanStatusReg 31) 1 0 st
/-- A search whose REFINE waits for slot 5. -/
def refineFlight : Flight :=
  let p := plan1 8
  { flight1 8 with stages := [{ run0 with complete := true }], plan := p, obj := 9, work := { (default : Work) with rake := [{ (default : RakeEntry) with slot := 5 }] } }
def refineS : State := withColl 9 { coll1 with slots := [(5, { (default : SlotData) with programmed := true, refine := { (default : Refine) with codes := [0] } })] } { chan31 2 with sched := { card.sched with flights := [refineFlight] } }

theorem witness_Flash_channels_train_and_read :
    (rdf (chan31 1) (chanStatusReg 31) 1 0 = 1 ∧ (chan31 1).c0 = false ∧ (5 : Fin 6).val ≠ 0 ∧ rateMax card 31 ≠ 0 ∧
      (rd (chan31 1) Reg.ft.RAW_GIB).toNat + 4 < 2 ^ 32) ∧
    testBit (rd (mask .flashCh 31 0x10 card) (pageBase .flashCh 31 + 0x34)) 4 = true ∧ dieRuns (chan31 2) 1023 = true ∧
    Tbl.get (chan31 2).mem.flash.dies 1023 = none ∧ (rd (chan31 2) (Reg.flashCh.READS 31)).toNat + ceilDiv 36 36 < 2 ^ 32 ∧
    (workOf refineS 3 = some refineFlight ∧ (Tbl.get (collOf refineS refineFlight).slots 5).any (fun d => !d.refine.missing) = true ∧
      (refineFlight.plan.stages.any fun x => x.kind == 8 && (refineFlight.run x.no).complete) = true ∧ refineFlight.work.narrowed = false ∧
      landingOpen refineFlight 1 = true ∧ 5 ∉ refineFlight.work.lost ∧ 5 ∉ refineFlight.work.lostBoth ∧ (∃ e ∈ refineFlight.work.rake, e.slot = 5)) ∧
    (let s := withBlocks [(65536 * 1023 + 7, blk .erasing)] (chan31 2)
     (s.mem.flash.blocks.find? fun p => p.1 / 65536 == 1023 && p.2.st == .erasing) = some (65536 * 1023 + 7, blk .erasing) ∧
      (blk .erasing).suspended = false ∧ (blk .erasing).suspends < rdf s Reg.ft.ERASE_SUSPEND_MAX 7 0 ∧
      rdf s Reg.ft.ERASE_SUSPEND_MAX 7 0 ≤ ({ blk .erasing with suspends := 255 }).suspends) ∧
    31 ∈ ({ card.mem.flash with wpPending := [31] }).wpPending := by decide

theorem witness_Flash_blocks_go_round :
    let s := chan31 2
    Tbl.wf s.mem.flash.blocks ∧ paDie (2 ^ 40 - 1) = 1023 ∧ paBlock (2 ^ 40 - 1) = 65536 * 1023 + 65535 ∧ dieRuns s 1023 = true ∧
    block? s (65536 * 1023 + 65535) = none ∧ (block? (withBlocks [(65536 * 1023 + 65535, blk .erasing)] s) (65536 * 1023 + 65535)) = some (blk .erasing) ∧
    Tbl.wf [(65536 * 1023 + 65535, blk .closed)] ∧
    testBit (rd (mask .flashCh 31 12 card) (pageBase .flashCh 31 + 0x34)) 2 = true ∧ testBit (rd (mask .flashCh 31 12 card) (pageBase .flashCh 31 + 0x34)) 3 = true ∧
    ({ blk .closed with sys := true }).sys = true ∧ (blk .closed).bad = false ∧ s.mem.flash.plots = [] ∧ s.mem.flash.spill = [] ∧
    (Tbl.get s.mem.flash.timeouts 1023).getD 0 + 1 = 1 ∧ (Tbl.get [(1023, 2)] 1023).getD 0 + 1 = 3 ∧ s.mem.flash.rebuilding = none := by decide

/-- A LOST range of table 0, whose mirror is node 2, and a report of it. -/
def lost1 : Lost := ⟨4096, 3, 1, false, 0, 0, 0, false, 0, 8, 0, 3⟩
theorem witness_Flash_maps_and_losses_are_kept :
    flashRunning flashS = true ∧ (at_ 20 flashS).mem.flash.mapCkpt + max 1 (rd (wr flashS Reg.ft.MAP_CKPT_STEPS 20) Reg.ft.MAP_CKPT_STEPS).toNat ≤ (at_ 20 flashS).now ∧
    (at_ 19 flashS).now < flashS.mem.flash.mapCkpt + (rd (wr flashS Reg.ft.MAP_CKPT_STEPS 20) Reg.ft.MAP_CKPT_STEPS).toNat ∧ lost1.both = false ∧
    (at_ 3 card).now < lost1.asked + (rd (wr card Reg.ft.REPAIR_STEPS 4) Reg.ft.REPAIR_STEPS).toNat ∧
    lost1.asked + max 1 (rd (wr card Reg.ft.REPAIR_STEPS 4) Reg.ft.REPAIR_STEPS).toNat ≤ (at_ 4 card).now ∧
    mirrorNode { hall with faults := { hall.faults with pairs := [(0, { (default : Pair) with role := 1, peer := 2, obj := 4096 })] } } 4096 = some 2 ∧
    (at_ 16 card).now < 1 + 16 ∧ 0 + 16 ≤ (at_ 16 card).now ∧ (⟨7, lost1, 0, true⟩ : Report).waiting = true := by decide

set_option maxRecDepth 20000 in
theorem witness_a_loss_is_acknowledged :
    (frame 0x06 (toLe 4 7 ++ zeros 12)).typ = 0x06 ∧ accepts hall (frame 0x06 (toLe 4 7 ++ zeros 12)) ∧ leAt (frame 0x06 (toLe 4 7 ++ zeros 12)).body 0 4 = 7 := by
  unfold accepts; decide

/-! ### Fabric -/

/-- Hall mode with port 3 in this state, all lanes enabled. -/
def portS (st : Nat) (used : BitVec 4) : State :=
  wr { hall with links := { hall.links with ports := updAt hall.links.ports 3 fun p => { p with st := st, used := used } } } (Reg.port.LANE_EN 3) 0xF
/-- A HELLO frame on port 3 that offers these versions. -/
def helloOf (lo hi : Byte) : Frame := { frame 0x01 ([lo, hi] ++ zeros 30) with port := 3 }

set_option maxRecDepth 40000 in
theorem witness_Ports_come_up_and_go_down :
    (portS 1 0).links.ports.length = 4 ∧ (port (portS 1 0) 3).st = 1 ∧ lanesFor 4 (laneEn (portS 1 0) 3) none = some 0xF ∧
    lanesFor 2 0xC (some 0) = some 0xC ∧ (port (portS 3 0xF) 3).st = 3 ∧ testBit (rd (mask .port 3 1 hall) (pageBase .port 3 + 0x34)) 0 = true ∧
    (port (portS 4 0) 3).st = 4 ∧ laneEn (portS 4 0) 3 ≠ 0 ∧ (port (portS 3 0xF) 3).used &&& 0x7 ≠ (port (portS 3 0xF) 3).used ∧ (portS 3 0xF).hall = true ∧
    (portS 3 0xF).c0 = false ∧ card.hall = false ∧ laneEn (wr (portS 5 0) (Reg.port.LANE_EN 3) 0) 3 = 0 ∧ (port (portS 5 0) 3).st ≠ 3 ∧
    ((port (portS 2 0) 3).queues.getD 0 []).length < 256 ∧ (port (portS 2 0) 3).st = 2 ∧ (helloOf 1 1).typ = 0x01 ∧ (helloOf 1 1).port = 3 ∧
    (ingress (portS 2 0) (helloOf 1 1)).2 = true ∧ (ingress (portS 2 0) (helloOf 2 3)).2 = true ∧
    max (rdf (portS 2 0) Reg.atrium.RILTIK_VER 15 8) (leAt (helloOf 1 1).body 0 1) ≤ min (rdf (portS 2 0) Reg.atrium.RILTIK_VER 7 0) (leAt (helloOf 1 1).body 1 1) ∧
    min (rdf (portS 2 0) Reg.atrium.RILTIK_VER 7 0) (leAt (helloOf 2 3).body 1 1) < max (rdf (portS 2 0) Reg.atrium.RILTIK_VER 15 8) (leAt (helloOf 2 3).body 0 1) := by
  refine ⟨?_, ?_, ?_, ?_, ?_, ?_, ?_, ?_, ?_, ?_, ?_, ?_, ?_, ?_, ?_, ?_, ?_, ?_, ?_, ?_, ?_, ?_⟩ <;> decide +kernel

/-- A queued frame to endpoint 32767 bound to generation 1, and port 0 with it and this waiting write. -/
def eg1 : EgFrame := ⟨32767, 0, some 1, 0x20, 0, zeros 64⟩
def queueS (l : List EgFrame) (w : Option TableWrite) : State :=
  wr { hall with links := { hall.links with ports := updAt hall.links.ports 0 fun p => { p with queues := [[], l, [], [], []], waitWrite := w } } } (Reg.port.ROUTE_SEL 0) 32767

theorem witness_Table_writes_wait_for_bound_frames :
    (queueS [] none).links.ports.length = 4 ∧ (port (queueS [] none) 0).waitWrite = none ∧ rdf (queueS [] none) (Reg.port.ROUTE_SEL 0) 15 0 = 32767 ∧
    boundTo (port (queueS [] none) 0) 32767 1 = false ∧ boundTo (port (queueS [eg1] none) 0) 32767 1 = true ∧
    (port (queueS [eg1] (some (.route 32767 true 0))) 0).waitWrite = some (.route 32767 true 0) := by decide

set_option maxRecDepth 40000 in
theorem witness_Frames_leave_and_are_refused :
    (port (queueS [eg1] none) 0).queues.getD 1 [] = [eg1] ∧ (port (queueS [eg1] none) 0).held = [] ∧ (port (queueS [eg1] none) 0).queues.getD 0 [] = [] ∧
    (ingress hall (frame 0x20 [])).2 = true ∧ (ingress hall { frame 0x20 [] with fcsOk := false }).2 ≠ true ∧
    (let b := frameBytes 1 0x20 0 0 2 32766 0 0 []
     let f : Frame := ⟨0, true, 64, false, 0x88B5, 0, b.take 32, b.drop 32⟩
     f.crcGood = true ∧ f.u 6 2 ≠ selfNode hall ∧ f.u 6 2 ≠ 0xFFFF ∧ (port hall 0).isUp = true ∧ f.typ ≠ 0x01 ∧
      f.etherType.toNat = rdf hall Reg.atrium.RILTIK_ETHERTYPE 15 0 ∧ rdf hall Reg.atrium.RILTIK_VER 15 8 ≤ f.u 0 1 ∧ f.u 0 1 ≤ rdf hall Reg.atrium.RILTIK_VER 7 0) ∧
    nodeIdValid card = false ∧ nodeIdValid hall = true ∧
    (rdf (wr hall Reg.atrium.FEATURE_LEVEL 0x101) Reg.atrium.FEATURE_LEVEL 15 8 ≤ 1 ∧ 1 ≤ rdf (wr hall Reg.atrium.FEATURE_LEVEL 0x101) Reg.atrium.FEATURE_LEVEL 7 0) := by
  refine ⟨?_, ?_, ?_, ?_, ?_, ?_, ?_, ?_, ?_⟩ <;> decide +kernel

/-- An FM_REQ with one entry. -/
def fmReq (op : Byte) (addr v : Nat) : Frame := frame 0x08 (zeros 4 ++ [op, 1, 0, 0] ++ toLe 4 addr ++ [4, 0, 0, 0] ++ toLe 8 v)

set_option maxRecDepth 40000 in
theorem witness_The_fabric_manager_reads_and_writes :
    (fmReq 1 0x27034 0).typ = 0x08 ∧ (ingress hall (fmReq 1 0x27034 0)).2 = true ∧ leAt (fmReq 1 0x27034 0).body 4 1 = 1 ∧
    fmEntries (fmReq 1 0x27034 0).body = [⟨0x27034, 4, 0⟩] ∧ fmAddrOk ⟨0x27034, 4, 0⟩ = true ∧ pageAt 0x27034 = some (.hbm, 7, 0x34) ∧
    (regDefAt 0x27034).any (fun r => r.wide == .one && !r.rc) = true ∧ bootStage hall ≠ 0x0F ∧ ((port hall 0).queues.getD 0 []).length < 256 ∧
    fmEntries (fmReq 2 0x13034 7).body = [⟨pageBase .port 3 + 0x34, 4, 7⟩] ∧ (regDefAt (pageBase .port 3 + 0x34)).isSome = true ∧ hall.running = true ∧
    fmMayWrite ⟨0x1FC, 4, 0⟩ = false ∧ fmMayWrite ⟨0x14000, 4, 0⟩ = false ∧ (ingress hall (fmReq 2 0x13034 7)).2 = true := by
  refine ⟨?_, ?_, ?_, ?_, ?_, ?_, ?_, ?_, ?_, ?_, ?_, ?_, ?_, ?_, ?_⟩ <;> decide +kernel

/-- A collection with a map whose shard 0 is this node's, an empty plan that searches over the hall in slot 0, and the node that serves it. -/
def hallColl : Coll := { coll1 with map := some ⟨0, 1, 0, [⟨1, 9, false, 0, 0, false⟩], 0⟩ }
def hallServes : State :=
  let s := withColl 9 hallColl { hall with faults := { hall.faults with nodeState := 3 } }
  { s with sched := { s.sched with plans := [(0, ⟨{ (default : Plan) with flags := 1 }, false⟩)] } }
def queryBody : List Byte :=
  let b := putAt (zeros 192) 26 (toLe 2 9)
  putAt b 60 (toLe 4 (crcWithout b 60 4).toNat)
/-- The coordinator's flight 3 over that map. -/
def hallFlight : Flight := { flight1 5 with map := hallColl.map }
def contribBody : List Byte := ctl (toLe 2 1 ++ [0, 0] ++ toLe 4 3 ++ zeros 40 ++ toLe 4 0 ++ toLe 2 2)

set_option maxRecDepth 40000 in
theorem witness_Rake_and_row_frames_are_taken_rake :
    (ingress hallServes (frame 0x20 queryBody)).2 = true ∧ (frame 0x20 queryBody).typ = 0x20 ∧ queryCtlOk (frame 0x20 queryBody).body = true ∧
    Tbl.get hallServes.store.colls (Query.mk queryBody false false).coll = some hallColl ∧ (planOf hallServes ((Query.mk queryBody false false).u 28 2)).isSome = true ∧
    queryReason hallServes ⟨queryBody, false, false⟩ = 0 ∧ queryReason hall ⟨queryBody, false, false⟩ ≠ 0 ∧ queryCtlOk (zeros 191) = false ∧
    (frame 0x21 contribBody).typ = 0x21 ∧ ctlOk (frame 0x21 contribBody).body = true ∧ flightOf hall 3 = none ∧ leAt contribBody 4 4 = 3 ∧
    hallFlight.map.isSome = true ∧ hallFlight.epoch = leAt contribBody 8 6 ∧ leAt contribBody 0 2 % 0x8000 = selfNode hall ∧
    inMap hallFlight (leAt contribBody 16 2) = true ∧ (leAt contribBody 2 1).testBit 0 = false ∧ hallFlight.merged = false ∧ landingOpen hallFlight 3 = true ∧ hallFlight.contribs = [] ∧
    (ingress hallServes (frame 0x21 contribBody)).2 = true := by
  refine ⟨?_, ?_, ?_, ?_, ?_, ?_, ?_, ?_, ?_, ?_, ?_, ?_, ?_, ?_, ?_, ?_, ?_, ?_, ?_, ?_, ?_⟩ <;> decide +kernel

/-- A batch that waits for row 0 from node 2, and a table of hall number 7 that serves. -/
def rowFlight : Flight :=
  { flight1 0x10 with kind := .scatter, desc := { (default : Desc) with bytes := [0x31] }, work := { (default : Work) with rows := [{ (default : RowItem) with remote := 3, done := false }] } }
def rowServes : State :=
  { hall with faults := { hall.faults with nodeState := 3 }, store := { hall.store with tables := [(5, { table1 with hall := 7 })] } }
def reqBody : List Byte := ctl (toLe 2 2 ++ [0x30, 0] ++ zeros 12 ++ toLe 4 7 ++ toLe 2 5)
def replyBody : List Byte := ctl (toLe 2 1 ++ [0x31, 0] ++ toLe 4 3 ++ zeros 14 ++ toLe 2 1) ++ zeros 8

set_option maxRecDepth 40000 in
theorem witness_Rake_and_row_frames_are_taken_row :
    (ingress rowServes (frame 0x30 reqBody)).2 = true ∧ ctlOk (frame 0x30 reqBody).body = true ∧ (frame 0x30 reqBody).typ = 0x30 ∧ reqServed rowServes reqBody = true ∧
    reqServed hall reqBody = false ∧ (frame 0x31 replyBody).typ = 0x31 ∧ ctlOk (frame 0x31 replyBody).body = true ∧ flightOf hall (leAt replyBody 4 4) = none ∧
    flightOf (flightS rowFlight) (leAt replyBody 4 4) = some rowFlight ∧ rowFlight.epoch = leAt replyBody 8 6 ∧ rowFlight.desc.op = leAt replyBody 2 1 ∧
    replyEntries replyBody 0 = [(0, 0, [])] ∧ (rowFlight.work.rows[0]?).any (fun r => r.remote == (frame 0x31 replyBody).src + 1 && !r.done) = true ∧
    (ingress rowServes (frame 0x31 replyBody)).2 = true := by
  refine ⟨?_, ?_, ?_, ?_, ?_, ?_, ?_, ?_, ?_, ?_, ?_, ?_, ?_, ?_⟩ <;> decide +kernel

/-- An OWNER_READ of the first 4 KiB of a row table with one page of rows, and OWNER_DATA for request 8. -/
def readBody : List Byte := ctl (toLe 2 2 ++ zeros 14 ++ toLe 4 7 ++ [3] ++ zeros 11 ++ toLe 4 0)
def dataBody (n : Nat) : List Byte := ctl (toLe 2 1 ++ [0, 0] ++ toLe 4 8 ++ zeros 24 ++ toLe 4 n)
def graftS (i : Nat) : State :=
  { hall with faults := { hall.faults with
      pairs := [(i, { (default : Pair) with role := 2, peer := 2, obj := 9 })], graft := { Graft.reset with active := true, reqs := [(8, i)] } } }

set_option maxRecDepth 40000 in
theorem witness_Owner_frames_are_served_and_taken :
    (ingress rowServes (frame 0x40 readBody)).2 = true ∧ ctlOk (frame 0x40 readBody).body = true ∧ (frame 0x40 readBody).typ = 0x40 ∧
    ownerStatus rowServes readBody = some 0 ∧ ownerStatus hall readBody = some 4 ∧
    ((frame 0x41 (dataBody 4096)).typ = 0x41 ∧ leAt (dataBody 4096) 4 4 = 8 ∧ Tbl.get Graft.reset.reqs 8 = none ∧ Tbl.get Graft.reset.reads 8 = none ∧
      lost1.req = 8 ∧ lost1.peer = (frame 0x41 (dataBody 4096)).src + 1 ∧ lost1.both = false ∧ leAt (dataBody 4096) 21 1 = 0 ∧
      4096 * lost1.pages ≤ lost1.got + leAt (dataBody 4096) 32 4) ∧
    (Tbl.get (graftS 255).faults.graft.reqs 8 = some 255 ∧ (graftS 255).faults.graft.active = true ∧ (graftS 255).faults.graft.hbmDone = false ∧
      255 ∈ followerPairs (graftS 255) ∧ leAt (dataBody 4095) 24 8 = (imageOf (graftS 255) 255).length ∧
      (imageOf (graftS 255) 255).length + ((dataBody 4095 ++ zeros 4095).drop 64 |>.take (leAt (dataBody 4095) 32 4)).length < 4096) := by
  refine ⟨?_, ?_, ?_, ?_, ?_, ⟨?_, ?_, ?_, ?_, ?_, ?_, ?_, ?_, ?_⟩, ?_, ?_, ?_, ?_, ?_, ?_⟩ <;> decide +kernel

/-- A node in SHADOW with collection 9 as node 2's follower. -/
def shadowS : State :=
  { hallServes with faults := { hallServes.faults with nodeState := 2, pairs := [(0, { (default : Pair) with role := 2, peer := 2, obj := 9 })] } }
def shadowPart : Flight := { flight1 5 with part := some ⟨1, 3, 0, false, true, false⟩ }

set_option maxRecDepth 40000 in
theorem witness_Gone_and_shadow_frames_are_taken :
    (ingress hall (frame 0x04 (zeros 16))).2 = true ∧ (frame 0x04 (zeros 16)).typ = 0x04 ∧ hall.faults.pairs = [] ∧ hall.sched.flights = [] ∧
    (ingress shadowS (frame 0x58 queryBody)).2 = true ∧ (frame 0x58 queryBody).typ = 0x58 ∧
    (shadowS.faults.pairs.any fun p => p.2.role == 2 && p.2.peer == (frame 0x58 queryBody).src && p.2.obj == objColl ((Query.mk queryBody true false).u 26 2)) = true ∧
    shadowS.faults.nodeState = 2 ∧ queryReason shadowS ⟨queryBody, true, false⟩ = 0 ∧ (∀ x ∈ shadowS.sched.flights ++ shadowS.sched.parts, x.id ≠ shadowS.sched.nextFlight) ∧
    (hall.faults.pairs.any fun p => p.2.role == 2) = false ∧ (frame 0x59 contribBody).typ = 0x59 ∧
    Tbl.get shadowS.faults.graft.own (shadowKey 1 3 0) = none ∧ shadowKey (leAt contribBody 0 2 % 0x8000) (leAt contribBody 4 4) (leAt contribBody 16 2) = shadowKey 1 3 0 ∧
    ([shadowPart].any fun x => match x.part with | some p => p.shadow && shadowKey p.coord p.flightNo p.shard == shadowKey 1 3 0 | none => false) = true := by
  refine ⟨?_, ?_, ?_, ?_, ?_, ?_, ?_, ?_, ?_, ?_, ?_, ?_, ?_, ?_, ?_⟩ <;> decide +kernel

/-! ### Mirror pairs, faults -/

def unit1 : MUnit := ⟨1, 0x50, 0x21, 0, 0, 1, 1, [], 0, false, 0, 0⟩
/-- A source that has one unit outstanding, sent in step 0, and the acknowledgement of it. -/
def sourceS : State := { hall with faults := { hall.faults with pairs := [(255, { (default : Pair) with role := 1, peer := 2, obj := 9, seq := 1, units := [{ unit1 with typ := 0x51 }] })] } }
def ackBody : List Byte := ctl (toLe 8 1 ++ toLe 6 0 ++ zeros 2 ++ toLe 2 9 ++ toLe 2 9 ++ [0, 1])

set_option maxRecDepth 40000 in
theorem witness_Pairs_are_written_and_streamed :
    pairResult card 0 = 3 ∧ pairResult hall (2 ^ 62 + 2 ^ 45) = 1 ∧
    pairResult (withColl 9 coll1 { hall with faults := { hall.faults with nodeState := 3 } }) (2 ^ 62 + 2 * 2 ^ 47 + 9 * 2 ^ 32 + 9) = 0 ∧ (pairAt hall 255).streams = false ∧
    (pairAt sourceS 255).streams = true ∧ (at_ 1 sourceS).now < unit1.sentAt + 2 ∧ unit1.sentAt + 2 ≤ (at_ 2 sourceS).now ∧ unit1.acked = false ∧
    (ingress sourceS (frame 0x54 ackBody)).2 = true ∧ (frame 0x54 ackBody).typ = 0x54 ∧ ctlOk (frame 0x54 ackBody).body = true ∧
    ((sourceS.faults.pairs.find? fun x => x.2.streams && x.2.peer == (frame 0x54 ackBody).src && x.2.obj == (parseMHdr ackBody).srcObj).map (·.1)) = some 255 ∧
    (parseMHdr ackBody).status ≠ 1 ∧ ((pairAt sourceS 255).units.find? fun x => x.seq == (parseMHdr ackBody).seq) = some { unit1 with typ := 0x51 } ∧
    sourceS.faults.held = [] := by
  refine ⟨?_, ?_, ?_, ?_, ?_, ?_, ?_, ?_, ?_, ?_, ?_, ?_, ?_, ?_, ?_⟩ <;> decide +kernel

/-- A follower of node 2's collection 9 that holds a PREP of a delete of no entries, and the next unit of its stream. -/
def followS (l : List MUnit) (n : Nat) : State :=
  withColl 9 coll1 { hall with faults := { hall.faults with nodeState := 3, pairs := [(0, { (default : Pair) with role := 2, peer := 2, obj := 9, applied := n, units := l })] } }
def streamBody (seq : Nat) (st : Byte) (rest : List Byte) : List Byte := ctl (toLe 8 seq ++ toLe 6 4 ++ zeros 2 ++ toLe 2 9 ++ toLe 2 9 ++ [0, 1, st]) ++ rest
def prep0 : MUnit := ⟨1, 0x50, 0x21, 3, 0, 0, 1, [(0, 0, 0, [])], 0, false, 0, 0⟩

set_option maxRecDepth 40000 in
theorem witness_Follower_applies_the_stream :
    let p := pairAt (followS [prep0] 1) 0
    let u : MUnit := ⟨2, 0x51, 0, 4, 0, 0, 1, [(0, 0, 0, zeros 8)], 0, false, 0, 0⟩
    (ingress (followS [] 0) (frame 0x50 (streamBody 1 0x21 []))).2 = true ∧ (frame 0x50 (streamBody 1 0x21 [])).typ = 0x50 ∧
    ctlOk (frame 0x50 (streamBody 1 0x21 [])).body = true ∧ (parseMHdr (streamBody 1 0x21 [])).seq = 1 ∧ (parseMHdr (streamBody 1 0x21 [])).fragCount = 1 ∧
    (((followS [] 0).faults.pairs.find? fun x => x.2.role == 2 && x.2.peer == 2 && x.2.obj == (parseMHdr (streamBody 1 0x21 [])).dstObj).map (·.1)) = some 0 ∧
    (pairAt (followS [] 0) 0).diverged = false ∧ heldBytes (pairAt (followS [] 0) 0) + 64 ≤ 0x200000000 ∧ copying (followS [] 0) 9 = false ∧
    (∀ x ∈ p.units, x.seq ≤ p.applied) ∧ (frame 0x51 (streamBody 2 0 (zeros 8))).typ = 0x51 ∧ leAt (streamBody 2 0 (zeros 8)) 22 1 = 0 ∧
    leAt (streamBody 2 1 (zeros 8)) 22 1 = 1 ∧ openPrep p 0 2 = some prep0 ∧ prep0.op ≠ 0x20 ∧
    (commitTo (updPair (sendAck (updPair (followS [prep0] 1) 0 fun q => { q with units := q.units ++ [u] }) 0 2 0 0) 0 fun q =>
      { q with units := q.units.filter (·.seq ≠ 1) }) none 9 4 false false (some 0) (some []) (prepItems coll1 prep0)).1.isSome = true ∧
    (frame 0x52 (streamBody 2 0 (zeros 16))).typ = 0x52 ∧ leAt (zeros 16) 8 2 = 0 ∧ (frame 0x53 (streamBody 2 0 (zeros 24))).typ = 0x53 ∧
    (ingress (followS [prep0] 1) (frame 0x52 (streamBody 2 0 (zeros 16)))).2 = true := by
  refine ⟨?_, ?_, ?_, ?_, ?_, ?_, ?_, ?_, ?_, ?_, ?_, ?_, ?_, ?_, ?_, ?_, ?_, ?_, ?_, ?_⟩ <;> decide +kernel

def faultsS (f : Faults → Faults) (s : State) : State := { s with faults := f s.faults }
theorem witness_Node_commands_change_the_service_state :
    card.hall = false ∧ hall.hall = true ∧ graftStartResult card ≠ 0 ∧
    graftStartResult (faultsS (fun x => { x with pairs := [(0, { (default : Pair) with role := 2, peer := 2, obj := 9 })] }) (at_ 5 hall)) = 0 ∧
    grafting (faultsS (fun x => { x with nodeState := 2 }) hall) = true ∧ hall.faults.nodeState = 0 ∧ hall.faults.graftAsked = false ∧ followerPairs hall = [] ∧
    max 1 (rdf (wr hall Reg.fault.FENCE_STEPS 4) Reg.fault.FENCE_STEPS 7 0) ≤ 4 ∧ 3 < rdf (wr hall Reg.fault.FENCE_STEPS 4) Reg.fault.FENCE_STEPS 7 0 ∧
    0 + max 1 (rd (wr hall Reg.fault.GRAFT_STALL 9) Reg.fault.GRAFT_STALL).toNat ≤ (at_ 9 hall).now ∧
    (at_ 8 hall).now < 0 + (rd (wr hall Reg.fault.GRAFT_STALL 9) Reg.fault.GRAFT_STALL).toNat ∧
    0 + (rd (wr hall Reg.fault.GRAFT_WINDOW 9) Reg.fault.GRAFT_WINDOW).toNat ≤ (at_ 9 hall).now ∧
    (at_ 8 hall).now < 0 + (rd (wr hall Reg.fault.GRAFT_WINDOW 9) Reg.fault.GRAFT_WINDOW).toNat := by
  refine ⟨?_, ?_, ?_, ?_, ?_, ?_, ?_, ?_, ?_, ?_, ?_, ?_, ?_, ?_⟩ <;> decide

theorem witness_Faults_are_cleared_and_reported :
    let s := wr (wr64 card Reg.fault.FAULT_STATUS (2 ^ 49)) 0x2018 0x40
    let d : Desc := { (default : Desc) with chan := 4095 }
    bitsOf (rd64 s Reg.fault.FAULT_STATUS) 49 49 = 1 ∧ mayClear s 49 = true ∧ mayClear (c0 (wr64 s Reg.fault.FAULT_C0_GROUPS (2 ^ 49))) 49 = false ∧
    rd64 s Reg.fault.FAULT_STATUS = 2 ^ 49 ∧ card.faults.hist = [] ∧ card.c0 = false ∧ (c0 ringS).c0 = true ∧ d.hdrOk = false ∧ busOk (c0 ringS) (vfOf 4095) = true ∧
    (chan (c0 ringS) 4095).waiting = [] ∧ cqFull (chan (c0 ringS) 4095) = false ∧ (chan (c0 ringS) 4095).arm = false := by
  refine ⟨?_, ?_, ?_, ?_, ?_, ?_, ?_, ?_, ?_, ?_, ?_, ?_⟩ <;> decide +kernel

theorem witness_C0_errors_latch : card.chip.pins.resetN = true ∧ ({ Pins.reset with resetN := false }).resetN = false := by decide

/-! ### Galleries, interrupts, trace, test -/

def gal49 (f : Gallery → Gallery) (s : State) : State := { s with chip := { s.chip with galleries := updAt s.chip.galleries 49 f } }

/-- A flush of gallery 49 alone waits for gallery 49. -/
def flushS : State := gal49 (fun g => { g with flushLeft := some [49], flushInv := true }) card

theorem flushS_other (k : Nat) (h : k ≠ 49) : (gallery flushS k).flushLeft = none := by
  have hl : flushS.chip.galleries.length = 50 := by decide
  have h50 : ∀ j : Fin 50, j.val ≠ 49 → (gallery flushS j.val).flushLeft = none := by decide +kernel
  rcases Nat.lt_or_ge k 50 with hk | hk
  · exact h50 ⟨k, hk⟩ h
  · unfold gallery
    have hn : flushS.chip.galleries[k]? = none := List.getElem?_eq_none (by omega)
    simp [List.getD, hn]
    rfl

theorem witness_Galleries_flush_doze_and_fail :
    card.chip.galleries.length = 50 ∧ testBit (rd card (Reg.gallery.GAL_FLUSH_STATUS 49)) 31 = false ∧
    testBit (rd (wr card (Reg.gallery.GAL_FLUSH_STATUS 49) 0x80000000) (Reg.gallery.GAL_FLUSH_STATUS 49)) 31 = true ∧ flushRangeOk (2 ^ 39) 4096 = false ∧
    flushRangeOk 0 4096 = true ∧
    (gallery flushS 49).flushLeft = some [49] ∧ (gallery flushS 49).flushInv = true ∧ (∀ k, k ≠ 49 → (gallery flushS k).flushLeft = none) ∧
    (gallery card 49).dozing.getLsbD (799 % 16) = false ∧ tileBusy card 799 = false ∧ (gallery card 49).fstate = 0 ∧ (gallery card 49).stretched = false ∧
    testBit (rd (mask .tile 799 2 card) (pageBase .tile 799 + 0x34)) 1 = true := by
  refine ⟨?_, ?_, ?_, ?_, ?_, ?_, ?_, flushS_other, ?_, ?_, ?_, ?_, ?_⟩ <;> decide +kernel

theorem witness_Fallow_is_entered_and_left :
    card.chip.galleries.length = 50 ∧ card.chip.trace.length = 51 ∧ (gallery card 49).fstate = 0 ∧ galleryBooked card 49 = false ∧
    (let f : Flight := { flight1 5 with start := 5 }
     galleryBooked (gal49 (fun g => { g with fstate := 1 }) (flightS f)) 49 = true) ∧ (traceUnit card 49).fifo = [] ∧
    testBit (rd card (Reg.trace.CTRL 49)) 0 = false ∧ (gallery (gal49 (fun g => { g with fstate := 2 }) card) 49).fstate = 2 ∧
    (gallery (gal49 (fun g => { g with fstate := 4 }) card) 49).fstate = 4 := by
  refine ⟨?_, ?_, ?_, ?_, ?_, ?_, ?_, ?_, ?_⟩ <;> decide +kernel

theorem witness_Regulators_and_tray_management_answer :
    (getAvs card true).waiting = false ∧ (getAvs (updAvs card true fun a => { a with waiting := true }) true).waiting = true ∧
    (getAvs (updAvs card true fun a => { a with waiting := true }) false).frozen = false ∧
    testBit (rd (mask .power 0 4 card) (pageBase .power 0 + 0x34)) 2 = true := by decide

/-- The controller with one source that is enabled for core 3 and edge-triggered. -/
def src1 : Src := { Src.reset with enable := true, targets := 8, urgency := 200 }
def intcS (n : Nat) (x : Src) (s : State) : State :=
  setCoreEn { s with chip := { s.chip with intc := { s.chip.intc with srcs := [(n, x)] } } } 3 true

theorem witness_Interrupts_are_taken_and_completed :
    card.chip.intc.cores.length = 4 ∧ isAssigned 89 = false ∧ isAssigned 3 = true ∧ isSoftSource 3 = false ∧ src1.activeOn = none ∧ src1.bound = none ∧
    bindTarget (intcS 3 src1 card) src1 = some 3 ∧ preempts (intcS 3 src1 card) (getCore (intcS 3 src1 card) 3).nest src1.urgency = true ∧
    (getCore (intcS 3 src1 card) 3).nest.length < 8 ∧ (intcS 3 src1 card).chip.intc.srcs = [(3, src1)] ∧ src1.sense = 0 ∧
    sourceInput (wr card (pageBase .power 0 + 0x28) 1) 3 = true ∧ ({ src1 with activeOn := some 3 }).activeOn = some 3 ∧ (getSrc card 3).activeOn ≠ some 3 ∧
    testBit (rd (mask .intc 0 1 card) (pageBase .intc 0 + 0x34)) 0 = true ∧ card.chip.intc.srcs = [] ∧
    testBit (rd (mask .atrium 0 0x20 card) (pageBase .atrium 0 + 0x34)) 5 = true := by
  refine ⟨?_, ?_, ?_, ?_, ?_, ?_, ?_, ?_, ?_, ?_, ?_, ?_, ?_, ?_, ?_, ?_, ?_⟩ <;> decide +kernel

theorem witness_Mailboxes_queue_values :
    card.chip.intc.mboxIn.length = 4 ∧ card.chip.intc.mboxOut.length = 4 ∧ (card.chip.intc.mboxIn.getD 3 []).length < 16 ∧
    16 ≤ ((setMboxIn card 3 (List.replicate 16 0)).chip.intc.mboxIn.getD 3 []).length ∧ card.chip.intc.mboxOut.getD 3 [] = [] ∧
    (setMboxOut card 3 [7]).chip.intc.mboxOut.getD 3 [] = [7] ∧ 16 ≤ ((setMboxOut card 3 (List.replicate 16 0)).chip.intc.mboxOut.getD 3 []).length ∧
    ({ PciState.reset with unmasked := 8 }).unmasked.getLsbD 3 = true ∧ card.links.pf.d3 = false := by decide

theorem witness_Trace_packets_flow_to_the_host :
    card.chip.trace.length = 51 ∧ testBit (rd card (Reg.trace.CTRL 50)) 0 = false ∧ testBit (rd (wr card (Reg.trace.CTRL 50) 9) (Reg.trace.CTRL 50)) 0 = true ∧
    (traceUnit card 50).fifo.length < 64 ∧ testBit (rd card (Reg.trace.MERGE_CTRL 50)) 8 = false ∧
    testBit (rd (wr card (Reg.trace.MERGE_CTRL 50) 0x100) (Reg.trace.MERGE_CTRL 50)) 8 = true ∧ mergerUnit card 50 = 50 ∧
    mergerUnit (wr card (Reg.trace.MERGE_CTRL 50) 0x100) 0 = 0 ∧ sinkMode card = 0 ∧ testBit (rd (wr card (Reg.trace.CTRL 50) 9) (Reg.trace.CTRL 50)) 3 = true ∧
    Nat.max 1 (rdf (wr card (Reg.trace.SUMMARY_STEPS 50) 7) (Reg.trace.SUMMARY_STEPS 50) 15 0) ≤ (at_ 7 card).now - (traceUnit card 50).lastSummary ∧
    rdf (wr card (Reg.trace.SYNC_STEPS 50) 7) (Reg.trace.SYNC_STEPS 50) 12 0 ≤ (at_ 7 card).now - (traceUnit card 50).lastSync ∧ inFallow card 50 = false ∧
    inFallow (gal49 (fun g => { g with fstate := 2 }) card) 49 = true := by
  refine ⟨?_, ?_, ?_, ?_, ?_, ?_, ?_, ?_, ?_, ?_, ?_, ?_, ?_, ?_⟩ <;> decide +kernel

/-- A running test of this kind of target. -/
def patS (sel : Nat) : State := wr (wr card Reg.test.PAT_STATUS 0x80000000) Reg.test.PAT_SEL (BitVec.ofNat 32 sel)
theorem witness_Tests_run_and_end :
    patRunning card = false ∧ patRunning (patS 0) = true ∧ patLocked (patS 0) = false ∧
    patLocked (wr (patS 0) Reg.test.PAT_STATUS 0xC0000000) = true ∧ rd (wr (patS 0) Reg.test.PAT_LIMIT_MS 1) Reg.test.PAT_LIMIT_MS ≠ 0 ∧
    rd card Reg.test.PAT_LIMIT_MS = 0 ∧ (c0 (patS 0)).c0 = true ∧ testBit (rd (mask .test 0 1 card) (pageBase .test 0 + 0x34)) 0 = true ∧
    rdf card Reg.test.PAT_CTRL 3 2 ≠ 1 ∧ patKind (patS 0x2000000) = 2 ∧ ({ Pins.reset with perstN := false }).perstN = false ∧
    ({ card.chip.test with eyeRun := true }).eyeRun = true ∧ card.chip.test.eyeRun = false ∧ testBit (rd card Reg.test.EYE_SEL) 4 = false ∧
    testBit (rd card Reg.test.MBIST_STATUS) 31 = false ∧ mbistAccepts card 49 = false ∧ mbistAccepts (gal49 (fun g => { g with fstate := 2 }) card) 49 = true ∧
    ({ card.chip.test with mbistAt := some 49 }).mbistAt = some 49 ∧ (gallery card 49).wakeAsked = false := by
  refine ⟨?_, ?_, ?_, ?_, ?_, ?_, ?_, ?_, ?_, ?_, ?_, ?_, ?_, ?_, ?_, ?_, ?_, ?_, ?_⟩ <;> decide +kernel

theorem witness_Tap_instructions_are_loaded :
    ({ Pins.reset with resetN := false }).resetN = false ∧ card.chip.pins.resetN = true := by decide

theorem witness_A_step_runs_the_front_command : card.pending = [] ∧ card.running = true := by decide

theorem witness_Steps_keep_the_latch_and_the_mode :
    let s := { c0 card with pending := [Instr.railTransition 0 .off 0] }
    s.c0 = true ∧ s.pending.head? ≠ some .powerCycle ∧ (updAt s.chip.aux.rails 0 fun _ => Rail.off).any (·.above) = true ∧
    (∀ m slot, s.pending.head? ≠ some (.nodeReset m slot)) ∧ (∃ t, step s = .next t) := by
  refine ⟨by decide, by decide, by decide, (fun m slot h => by cases h), ⟨_, rfl⟩⟩

theorem witness_Every_step_keeps_the_canonical_form :
    RegFile.wf card.regs ∧ Memory.wf card.mem.hbm ∧ card.Shape ∧ (∃ t, step card = .next t) ∧ (∃ t, exec .internalTick card = .next t) := by
  refine ⟨by decide, by decide, rfl, ⟨_, rfl⟩, ⟨_, rfl⟩⟩

/-! ### Further clauses -/

/-- Flash with one block in this state and one checkpoint of collection 9. -/
def ckptS (f : Flash → Flash) : State := { flashS with mem := { flashS.mem with flash := f flashS.mem.flash } }
theorem witness_Boot_and_recovery_blocks_and_checkpoints :
    let one : State := ckptS fun f => { f with blocks := [(7, blk .suspect)] }
    let k : Coll := { coll1 with versions := [default] }
    let ck : State := ckptS fun f => { f with ckpts := [(9, [k])] }
    flashRunning one = true ∧ one.c0 = false ∧ one.mem.flash.ckpts = [] ∧ one.mem.flash.tables = [] ∧ one.mem.flash.blocks = [(7, blk .suspect)] ∧
    flashRunning ck = true ∧ ck.c0 = false ∧ ck.mem.flash.blocks = [] ∧ ck.mem.flash.tables = [] ∧ ck.mem.flash.journal = [] ∧
    ck.mem.flash.ckpts = [(9, [k])] ∧ k.versions = [default] ∧ Tbl.get ck.store.colls 9 = none := by decide

theorem witness_Register_reads_wait_for_table_writes :
    let inv : State := { card with sched := { card.sched with inval := some 4095 } }
    reaches inv .mgmt = true ∧ inv.sched.inval.isSome = true ∧ reaches card .mgmt = true ∧ card.sched.inval = none ∧ tableWaits card = false ∧ bootStage card ≠ 0x0F ∧
    tableWaits (queueS [eg1] (some (.route 32767 true 0))) = true ∧ reaches card (.vf 255) = true := by
  refine ⟨?_, ?_, ?_, ?_, ?_, ?_, ?_, ?_⟩ <;> decide +kernel

theorem witness_Register_writes_of_ERR_STAT :
    mgmtReaches card ∧ pageAt (pageBase .hbm 7 + 0x30) = some (.hbm, 7, 0x30) ∧ (regDefAt (pageBase .hbm 7 + 0x30)).any (fun r => r.wide == .one) = true ∧
    pageAt (pageBase .nb 6 + 0x38) = some (.nb, 6, 0x38) ∧ (regDefAt (pageBase .nb 6 + 0x38)).any (fun r => r.wide == .one) = true := by
  refine ⟨⟨rfl, rfl⟩, ?_⟩; decide

theorem witness_Steps_open_stopped_and_stepping :
    let stopped : State := { card with step := { card.step with seam := true } }
    let goes : State := { at_ 5 card with step := { (at_ 5 card).step with seam := true } }
    (stopped.step.seam = true ∧ stopped.hall = false ∧ stopped.step.run = false) ∧ (goes.step.seam = true ∧ goes.step.run = true ∧ goes.c0 = false) ∧
    ((c0 goes).step.seam = true ∧ (c0 goes).step.run = true ∧ (c0 goes).c0 = true) := by decide

theorem witness_Flights_yield_where_none_waits :
    let f : Flight := { flight1 0x05 with stages := [{ run0 with yielding := true }], plan := { plan1 0x05 with flags := 4 } }
    workOf (flightS f) f.id = some f ∧ f.background = true ∧ f.plan.stages[0]?.any (fun d => d.no == 0 && d.kind != 0x12) = true ∧
    (∀ g ∈ (flightS f).sched.flights ++ (flightS f).sched.parts, ∀ r ∈ g.stages, r.waitsForYield = false) ∧
    (f.run 0).runs = true ∧ (f.run 0).yielding = true ∧ f.cancel = false := by decide

theorem witness_StageComplete_of_an_overrun_stage :
    let f : Flight := { flight1 5 with stages := [{ run0 with overrun := true }] }
    workOf (flightS f) f.id = some f ∧ f.part = none ∧ (∃ d, f.plan.stages[0]? = some d ∧ (stageGalleries f.plan f.gmap d).contains 49 = true ∧
      stageHeld (flightS f) f d = false) ∧ (f.run 0).runs = true ∧ (f.run 0).overrun = true ∧ 0 < f.stages.length := by
  refine ⟨by decide, by decide, ⟨_, rfl, by decide, by decide⟩, by decide, by decide, by decide⟩

/-- Two READBACKs wait for the check of entry 0. -/
def waitInval : State := { invalS 0 with links := { (invalS 0).links with readbacks := [.mgmt, .mgmt] } }
theorem witness_ChanInval_answers_the_reads_that_wait :
    waitInval.sched.inval = some 0 ∧ inHbm (rd64 waitInval Reg.sched.CHAN_TABLE_BASE + 256 * 0) 256 = true ∧ waitInval.links.fmHeld = [] ∧
    waitInval.links.readbacks ≠ [] ∧ tableWaits waitInval = false ∧ (invalS 0).links.fmHeld = [] ∧ (invalS 0).links.readbacks = [] ∧
    inHbm (rd64 (invalS 0) Reg.sched.CHAN_TABLE_BASE + 256 * 0) 256 = true ∧
    inHbm (rd64 (wr64 (invalS 4095) Reg.sched.CHAN_TABLE_BASE (2 ^ 39 - 4096)) Reg.sched.CHAN_TABLE_BASE + 256 * 4095) 256 = false := by
  refine ⟨?_, ?_, ?_, ?_, ?_, ?_, ?_, ?_, ?_⟩ <;> decide +kernel

/-- A complete load of an image whose header names no node, leaf or unit. -/
def loadT : Load := ⟨9, 0, 4096, zeros 256, [], true⟩
def commitS (n : Nat) : State :=
  let l : Load := { loadT with bytes := putAt loadT.bytes 32 (toLe 8 n) }
  let s := hbmUp (loadS true)
  { s with store := { s.store with load := some l } }
set_option maxRecDepth 40000 in
theorem witness_Loads_commit_with_room_and_without :
    ((commitS 0).store.load.map (·.last)) = some true ∧ ((commitS 0).store.load.any fun l => loadProgrammed (commitS 0) l) = true ∧
    nodeItems (commitS 0) ≤ 4000000000 ∧ ((commitS 0).store.load.any fun l => (placeImage (commitS 0) none l.bytes l.leafStacks).isOk) = true ∧
    nodeItems (commitS 4000000000) ≤ 4000000000 ∧
    ((commitS 4000000001).store.load.any fun l => l.last && loadProgrammed (commitS 4000000001) l) = true ∧ 4000000000 < nodeItems (commitS 4000000001) ∧
    loadProgrammed card { loadT with bytes := putAt (zeros 320) 304 (toLe 8 1) } = false := by
  refine ⟨?_, ?_, ?_, ?_, ?_, ?_, ?_, ?_⟩ <;> decide +kernel

theorem witness_Hbm_stacks_in_and_out_of_the_test_state :
    let prod : State := { card with chip := { card.chip with test := { card.chip.test with prod := true } } }
    let s := mask .hbm 7 0x18 (stackRow 3 card)
    s.mem.stackSt.length = 8 ∧ s.mem.near.length = 4 ∧ stackState s 7 = 3 ∧ s.chip.test.prod = false ∧
    testBit (rd s (pageBase .hbm 7 + 0x34)) 3 = true ∧ testBit (rd s (pageBase .hbm 7 + 0x34)) 4 = true ∧ prod.chip.test.prod = true ∧
    stackState (mask .hbm 7 8 (stackRow 0 card)) 7 ≠ 2 ∧ testBit (rd (mask .hbm 7 8 (stackRow 0 card)) (pageBase .hbm 7 + 0x34)) 3 = true ∧
    (∀ c ∈ card.store.colls, ∀ v ∈ c.2.versions.head?, v.addrs.1 / 2 ^ 36 ≠ 7 ∧ v.addrs.2 / 2 ^ 36 ≠ 7) ∧ stackState (stackRow 2 card) 7 = 2 := by decide

theorem witness_Hbm_reads_of_every_outcome :
    let a := 2 ^ 39 - 1
    let s := mask .hbm 7 7 (stackRow 1 card)
    s.mem.stackSt.length = 8 ∧ inHbm a 1 = true ∧ stackState s (a / 2 ^ 36) ≤ 1 ∧ testBit (rd s (pageBase .hbm 7 + 0x34)) 0 = true ∧
    testBit (rd s (pageBase .hbm 7 + 0x34)) 1 = true ∧ testBit (rd s (pageBase .hbm 7 + 0x34)) 2 = true ∧
    (Tbl.get (s.mem.stackSt.getD 7 Stack.reset).ue (servingPc s 7 (a % 2 ^ 36))).getD 0 + 1 < rdf (wr s (Reg.hbm.UE_RETIRE 7) 2) (Reg.hbm.UE_RETIRE 7) 7 0 ∧
    max 1 (rdf s (Reg.hbm.UE_RETIRE 7) 7 0) ≤ 128 ∧ pcRetired s 7 (servingPc s 7 (a % 2 ^ 36)) = false ∧ 2 ≤ stackState (stackRow 2 card) 7 ∧
    (∀ x ∈ heapOf card, x.1 / 2 ^ 36 = 7 → x.1 + x.2 ≤ stackEnd card 7) ∧
    (let t := withColl 9 { coll1 with info := { coll1.info with buckets := 3 } } card
     pageBucket t 9 (mapPage coll1.info + 2) = some (2, []) ∧ pageBucket t 9 (mapPage coll1.info + 3) = none) := by
  refine ⟨?_, ?_, ?_, ?_, ?_, ?_, ?_, ?_, ?_, ?_, ?_, ?_⟩ <;> decide +kernel

theorem witness_Scan_windows_that_wait :
    (∀ x ∈ [(⟨9, 0, 0, 1, [1], 1, 0⟩ : Pass)], (nearS 0).ticks < x.step) ∧ (nearUnit (nearS 0) 6).burstsLeft ≠ 0 ∧
    (let s := updNear (nearS 0) 6 fun u => { u with queue := [⟨9, 0, 0, 1, [1], 1, 0⟩] }
     nearRuns s 6 = true ∧ ∀ x ∈ (nearUnit s 6).queue, s.ticks < x.step) := by
  refine ⟨?_, ?_, ?_, ?_⟩ <;> decide

/-- The inventory of channel 31 as it is taken: one die with 65,536 blocks, no block bad. -/
def inv1 : FlashInventory := ⟨64, 1, 65536, [(31, 65535)]⟩
/-- Group 63 alone has dies: die 31 of channel 31. -/
def rowS : State :=
  let s := chan31 2
  { s with mem := { s.mem with flash := { s.mem.flash with inventory := [(31, ([31], 65536))] } } }
theorem witness_Flash_channels_train_with_an_inventory :
    sameAsFirst (chan31 1) 0xFF inv1 = true ∧ (rd (chan31 1) Reg.ft.RAW_GIB).toNat + inv1.gib < 2 ^ 32 ∧ rateMax (chan31 1) 31 ≠ 0 ∧
    rdf (chan31 1) (chanStatusReg 31) 1 0 = 1 ∧ (chan31 1).chip.test.prod = false ∧ block? (chan31 1) (65536 * (32 * 31 + 31) + 65535) = none ∧
    ({ card with chip := { card.chip with test := { card.chip.test with prod := true } } }).chip.test.prod = true := by
  refine ⟨?_, ?_, ?_, ?_, ?_, ?_, ?_⟩ <;> decide +kernel

theorem witness_Flash_reads_wait_and_are_served :
    readWaits (chan31 2) 1023 .media = false ∧ dieRuns (chan31 2) 1023 = true ∧ Tbl.get (chan31 2).mem.flash.dies 1023 = none ∧
    readDie refineS (.refine 3 5) 1023 = 1023 ∧ readWaits refineS 1023 (.refine 3 5) = false ∧ readUnmapped refineS (.refine 3 5) = false ∧
    (collOf refineS refineFlight).slots = [(5, { (default : SlotData) with programmed := true, refine := { (default : Refine) with codes := [0] } })] ∧
    dieRuns refineS 1023 = true ∧ Tbl.get refineS.mem.flash.dies 1023 = none ∧
    (let s : State := { refineS with mem := { refineS.mem with flash := { refineS.mem.flash with spill := [(histKey 9 5, (2 ^ 40 - 1, 0))] } } }
     readWaits s (readDie s .media 1023) .media = true ∧ readDie s (.refine 3 5) 0 = 1023) := by
  refine ⟨?_, ?_, ?_, ?_, ?_, ?_, ?_, ?_, ?_, ?_, ?_⟩ <;> decide +kernel

theorem witness_Flash_blocks_open_in_rows :
    Tbl.wf rowS.mem.flash.blocks ∧ rowS.mem.flash.recheck = [] ∧ turnGroup rowS = some 63 ∧ (∀ x ∈ rowS.mem.flash.blocks, x.2.st ≠ .suspect) ∧
    groupBlocks rowS 63 = [65536 * 1023] ∧ dieRuns rowS 1023 = true ∧ paDie (16777216 * 65536 * 1023 / 65536) ≤ 1023 ∧
    (let s := withBlocks [(65536 * 1023 + 65535, { blk .open_ with slc := true })] rowS
     Tbl.wf s.mem.flash.blocks ∧ block? s (65536 * 1023 + 65535) = some { blk .open_ with slc := true } ∧ s.mem.flash.recheck = [] ∧
     ({ blk .open_ with slc := true }).slc = kindSlc (.journal 0) ∧ ({ blk .open_ with slc := true }).bad = false) ∧
    ({ rowS.mem.flash with recheck := [7] }).recheck ≠ [] ∧ blockMapped rowS (65536 * 1023) = false ∧
    0 ≤ rdf card Reg.ft.VERIFY_LIMIT 15 0 ∧ rdf card Reg.ft.VERIFY_LIMIT 15 0 < 65536 := by
  refine ⟨?_, ?_, ?_, ?_, ?_, ?_, ?_, ?_, ?_, ?_, ?_, ?_⟩ <;> decide +kernel

theorem witness_Frames_leave_in_turn :
    let s := queueS [eg1] none
    let t : State := { s with links := { s.links with ports := updAt s.links.ports 0 fun p => { p with sending := some 1 } } }
    (port t 0).sending = some 1 ∧ (port t 0).queues.getD 1 [] = [eg1] ∧ (port t 0).held = [] ∧ (port s 0).sending ≠ some 4 ∧ t.links.ports.length = 4 := by
  decide

theorem witness_Ports_have_five_queues :
    (port (portS 2 0) 3).queues.length = 5 ∧ ((port (portS 2 0) 3).queues.getD 0 []).length < 256 ∧ (queueS [] (some (.route 32767 true 0))).links.readbacks = [] ∧
    (queueS [] (some (.route 32767 true 0))).links.fmHeld = [] ∧
    boundTo (port (queueS [] (some (.route 32767 true 0))) 0) 32767 1 = false := by
  refine ⟨?_, ?_, ?_, ?_, ?_⟩ <;> decide +kernel

set_option maxRecDepth 40000 in
theorem witness_The_fabric_manager_waits_for_table_writes :
    let s := queueS [eg1] (some (.route 32767 true 0))
    tableWaits hall = false ∧ tableWaits s = true ∧ (fmReq 1 0x120 0).typ = 0x08 ∧ accepts s (fmReq 1 0x120 0) ∧ leAt (fmReq 1 0x120 0).body 4 1 = 1 ∧
    (fmEntries (fmReq 1 0x120 0).body).any (fun e => (spanWords e.addr e.width).contains Reg.atrium.STEP_LOW) = true ∧
    (fmEntries (fmReq 1 0x27034 0).body).any (fun e => (spanWords e.addr e.width).contains Reg.atrium.STEP_LOW) = false ∧
    accepts hall (fmReq 1 0x27034 0) ∧ accepts hall (fmReq 2 0x13034 7) ∧ accepts hall (fmReq 2 0x1FC 7) ∧ fmEntries (fmReq 2 0x1FC 7).body = [⟨0x1FC, 4, 7⟩] := by
  unfold accepts
  refine ⟨?_, ?_, ?_, ?_, ?_, ?_, ?_, ?_, ?_, ?_, ?_⟩ <;> decide +kernel

theorem witness_Shadow_queries_and_results_are_ignored :
    let serves : State := { shadowS with faults := { shadowS.faults with nodeState := 3 } }
    serves.faults.nodeState ≠ 2 ∧ testBit (rd serves Reg.fault.SHADOW_CTRL) 8 = false ∧ serves.faults.nodeState = 3 ∧
    (hall.sched.parts.any fun x => match x.part with | some p => p.shadow && shadowKey p.coord p.flightNo p.shard == 0 | none => false) = false := by
  refine ⟨?_, ?_, ?_, ?_⟩ <;> decide +kernel

theorem witness_Flushes_of_dirty_lines :
    let d : Dirty := ⟨2 ^ 38, 4096, .seed, 9, 5, 3⟩
    let s := gal49 (fun g => { g with lines := [d], flushLeft := some [49], flushRange := (2 ^ 38 + 4095, 1) }) card
    (gallery s 49).flushLeft = some [49] ∧ (gallery s 49).lines.any (fun d => meets d.addr d.bytes (gallery s 49).flushRange) = true ∧
    (gallery s 49).flushInv = false ∧ (gallery flushS 49).lines.any (fun d => meets d.addr d.bytes (gallery flushS 49).flushRange) = false ∧
    s.chip.galleries.length = 50 := by
  refine ⟨?_, ?_, ?_, ?_, ?_⟩ <;> decide +kernel

theorem witness_Fallow_gates_and_wakes :
    let asked := gal49 (fun g => { g with fstate := 1 }) card
    let gone := gal49 (fun g => { g with fstate := 2 }) card
    (gallery asked 49).fstate = 1 ∧ (gallery asked 49).forced = false ∧ (gallery asked 49).pushedEnter = false ∧ galleryBooked asked 49 = false ∧
    (traceUnit asked 49).fifo = [] ∧ testBit (rd asked (Reg.trace.CTRL 49)) 0 = false ∧ (gallery asked 49).lines = [] ∧ (gallery gone 49).fstate = 2 ∧
    (gallery gone 49).mbist = false ∧ (gallery (gal49 (fun g => { g with fstate := 4 }) card) 49).ret = false := by
  refine ⟨?_, ?_, ?_, ?_, ?_, ?_, ?_, ?_, ?_, ?_⟩ <;> decide +kernel

theorem witness_Tests_are_started_and_refused :
    patTargetOk (patS 0xFFFFFFF) = false ∧ (gallery (gal49 (fun g => { g with fstate := 2 }) card) 49).lines = [] ∧
    (let s := gal49 (fun g => { g with mbist := true }) { card with chip := { card.chip with test := { card.chip.test with mbistAt := some 49 } } }
     s.chip.test.mbistAt = some 49 ∧ (gallery s 49).wakeAsked = false ∧ testBit (rd (mask .test 0 2 s) (pageBase .test 0 + 0x34)) 1 = true) := by
  refine ⟨?_, ?_, ?_, ?_, ?_⟩ <;> decide +kernel

theorem witness_a_pop_that_meets_a_push :
    card.faults.hist = [] ∧ mgmtReaches card ∧ card.chip.intc.mboxIn.getD 3 [] = [] ∧ (traceUnit card 50).fifo = [] := by
  refine ⟨rfl, ⟨rfl, rfl⟩, rfl, rfl⟩

/-! ### Values: results that the spec's own words or examples give -/

/-- The spec's example of R21: tile 419's page, and what its PAGE_ID reads. -/
theorem test_tile_419 : pageBase .tile 419 = 0x01344000 ∧ pageId .tile 419 = 0x001101A3 := by decide
/-- The check value of CRC-32C over the digits 1 to 9 (log entry 30). -/
theorem test_crc32c : crc32c [0x31, 0x32, 0x33, 0x34, 0x35, 0x36, 0x37, 0x38, 0x39] = 0xE3069283 := by decide +kernel
/-- 1.5 times -2 is -3; 1 and 2^-24 add up to 1, a tie that rounds to even. -/
theorem test_fp32 : f32mul 0x3FC00000 0xC0000000 = 0xC0400000 ∧ f32add 0x3F800000 0x33800000 = 0x3F800000 := by decide +kernel
/-- A tick in card mode opens the next step. -/
theorem test_tick_counts : ∃ t, exec .internalTick (at_ 7 card) = .next t ∧ t.now = 8 := ⟨_, rfl, by decide +kernel⟩
/-- A command waits first in, first out: the front one runs, the rest stay. -/
theorem test_step_takes_the_front :
    ∃ t, step { card with pending := [.perstNDeassert, .internalTick] } = .next t ∧ t.pending = [.internalTick] := ⟨_, rfl, by decide +kernel⟩

theorem witness_Commands_leave_the_queue_and_what_was_sent : ∃ c s t, exec c s = .next t ∧ c = .internalTick ∧ s = card := ⟨_, _, _, rfl, rfl, rfl⟩

end Sys2Proof.Tests
end

/-! PROOFS. O58: every step keeps the canonical form of the register file and of HBM, and the number of the node's parts. -/
namespace Sys2Proof.Machine

/-! ## What every command keeps -/

/-- The commands that can end a latch or sample the straps: a rail's crossing, POWER_CYCLE and NODE_RESET (R29, R486). -/
def movesLatches : Instr → Bool
  | .railTransition _ _ _ | .powerCycle | .nodeReset _ _ => true
  | _ => false

/-- Any other command keeps everything that `Kept` names. -/
theorem exec_kept {c : Instr} {s t : State} (hc : movesLatches c = false) (e : exec c s = .next t) : Kept s t := by
  cases c with
  | registerWrite req bar addr data => exact execRegisterWrite_kept _ _ _ _ e (.refl s)
  | rcRead req bar addr len sameCycle => exact execRcRead_kept _ _ _ _ _ e (.refl s)
  | mmioBadRequest req isWrite addr len => exact execMmioBadRequest_kept _ _ _ _ e (.refl s)
  | readback req => exact execReadback_kept _ e (.refl s)
  | railTransition _ _ _ => cases hc
  | railUv rail => exact execRailUv_kept _ e (.refl s)
  | powerCycle => cases hc
  | resetNAssert => exact execResetNAssert_kept e (.refl s)
  | nodeReset _ _ => cases hc
  | bootRomHandover copy0Ok copy1Ok error level levelMin => exact execBootRomHandover_kept _ _ _ _ _ e (.refl s)
  | recovery found => exact execRecovery_kept _ e (.refl s)
  | pcieReset kind => exact execPcieReset_kept _ e (.refl s)
  | vfFlr vf => exact execVfFlr_kept _ e (.refl s)
  | flrComplete vf => exact execFlrComplete_kept _ e (.refl s)
  | busMasterDisable vf => exact execBusMasterDisable_kept _ e (.refl s)
  | busMasterEnable vf => exact execBusMasterEnable_kept _ e (.refl s)
  | pcieLinkChange rate width flit => exact execPcieLinkChange_kept _ _ _ e (.refl s)
  | internalTick => exact execInternalTick_kept e (.refl s)
  | tickInEdge ns => exact execTickInEdge_kept _ e (.refl s)
  | flywheelTick => exact execFlywheelTick_kept e (.refl s)
  | stepOpen env => exact execStepOpen_kept _ e (.refl s)
  | bgFence => exact execBgFence_kept e (.refl s)
  | preemptionPoint flight stage progress => exact execPreemptionPoint_kept _ _ _ e (.refl s)
  | stageComplete flight stage gallery => exact execStageComplete_kept _ _ _ e (.refl s)
  | flightCancel flight => exact execFlightCancel_kept _ e (.refl s)
  | updateCommit flight => exact execUpdateCommit_kept _ e (.refl s)
  | transplantGrid carriers => exact execTransplantGrid_kept _ e (.refl s)
  | transplantSeal coll part leafStacks => exact execTransplantSeal_kept _ _ _ e (.refl s)
  | transplantPublish coll => exact execTransplantPublish_kept _ e (.refl s)
  | descriptorArrival chan desc buf keys => exact execDescriptorArrival_kept _ _ _ _ e (.refl s)
  | fetchError chan desc => exact execFetchError_kept _ _ e (.refl s)
  | sqTail chan value => exact execSqTail_kept _ _ e (.refl s)
  | cqHead chan value => exact execCqHead_kept _ _ e (.refl s)
  | stepRun run => exact execStepRun_kept _ e (.refl s)
  | stepMark f => exact execStepMark_kept _ e (.refl s)
  | planLoad => exact execPlanLoad_kept e (.refl s)
  | planLoadDone => exact execPlanLoadDone_kept e (.refl s)
  | planRetire => exact execPlanRetire_kept e (.refl s)
  | planSlotEmptied => exact execPlanSlotEmptied_kept e (.refl s)
  | profileLoad => exact execProfileLoad_kept e (.refl s)
  | profileLoadDone => exact execProfileLoadDone_kept e (.refl s)
  | collLoadStart => exact execCollLoadStart_kept e (.refl s)
  | collLoadContinue => exact execCollLoadContinue_kept e (.refl s)
  | collLoadAbort => exact execCollLoadAbort_kept e (.refl s)
  | collDrop => exact execCollDrop_kept e (.refl s)
  | collChunkDone data leafStacks => exact execCollChunkDone_kept _ _ e (.refl s)
  | collLoadCommit => exact execCollLoadCommit_kept e (.refl s)
  | collDrained coll => exact execCollDrained_kept _ e (.refl s)
  | tableLoadStart => exact execTableLoadStart_kept e (.refl s)
  | tableLoadContinue => exact execTableLoadContinue_kept e (.refl s)
  | tableLoadAbort => exact execTableLoadAbort_kept e (.refl s)
  | tableDrop => exact execTableDrop_kept e (.refl s)
  | tableChunkDone data => exact execTableChunkDone_kept _ e (.refl s)
  | tableLoadCommit => exact execTableLoadCommit_kept e (.refl s)
  | modelLoad => exact execModelLoad_kept e (.refl s)
  | modelLoadDone => exact execModelLoadDone_kept e (.refl s)
  | modelRetire => exact execModelRetire_kept e (.refl s)
  | modelSlotEmptied => exact execModelSlotEmptied_kept e (.refl s)
  | weightStageInDone slot layer => exact execWeightStageInDone_kept _ _ e (.refl s)
  | pinRelayDone slot => exact execPinRelayDone_kept _ e (.refl s)
  | shardmapLoad => exact execShardmapLoad_kept e (.refl s)
  | shardmapRetire => exact execShardmapRetire_kept e (.refl s)
  | chanInval chan => exact execChanInval_kept _ e (.refl s)
  | chanInvalDone => exact execChanInvalDone_kept e (.refl s)
  | tenantAdmit => exact execTenantAdmit_kept e (.refl s)
  | tenantRelease => exact execTenantRelease_kept e (.refl s)
  | guaranteeRankWrite rank => exact execGuaranteeRankWrite_kept _ e (.refl s)
  | c0ReservationWrite kind value => exact execC0ReservationWrite_kept _ _ e (.refl s)
  | capacityReservationWrite kind value => exact execCapacityReservationWrite_kept _ _ e (.refl s)
  | meterLatch => exact execMeterLatch_kept e (.refl s)
  | flushWriteback gallery bcast => exact execFlushWriteback_kept _ _ e (.refl s)
  | flushWbInval gallery bcast => exact execFlushWbInval_kept _ _ e (.refl s)
  | flushInval gallery bcast => exact execFlushInval_kept _ _ e (.refl s)
  | flushComplete gallery => exact execFlushComplete_kept _ e (.refl s)
  | scanWindow stack drained reports => exact execScanWindow_kept _ _ _ e (.refl s)
  | scanBurst stack burst => exact execScanBurst_kept _ _ e (.refl s)
  | hbmReadComplete addr outcome what otherOk => exact execHbmReadComplete_kept _ _ _ _ e (.refl s)
  | pcRemapDone stack pc => exact execPcRemapDone_kept _ _ e (.refl s)
  | stackFail stack lost => exact execStackFail_kept _ _ e (.refl s)
  | writebackDue range page => exact execWritebackDue_kept _ _ e (.refl s)
  | flashChannelTrained ch rate targets inventoryOk inv => exact execFlashChannelTrained_kept _ _ _ _ _ e (.refl s)
  | flashReadComplete die reader columns outcome => exact execFlashReadComplete_kept _ _ _ _ e (.refl s)
  | eraseSuspend die => exact execEraseSuspend_kept _ e (.refl s)
  | flashProgramComplete pa kind bytes ok last => exact execFlashProgramComplete_kept _ _ _ _ _ e (.refl s)
  | eraseComplete die block ok => exact execEraseComplete_kept _ _ _ e (.refl s)
  | blockVerify die block result => exact execBlockVerify_kept _ _ _ e (.refl s)
  | dieTimeout die => exact execDieTimeout_kept _ e (.refl s)
  | rebuildStripe outcome last => exact execRebuildStripe_kept _ _ e (.refl s)
  | repairRetry entry => exact execRepairRetry_kept _ e (.refl s)
  | mapCheckpoint => exact execMapCheckpoint_kept e (.refl s)
  | mapRebuild range page pages ok => exact execMapRebuild_kept _ _ _ _ e (.refl s)
  | dataLossResend => exact execDataLossResend_kept e (.refl s)
  | portTrained port lanes => exact execPortTrained_kept _ _ e (.refl s)
  | portLinkLoss port lane => exact execPortLinkLoss_kept _ _ e (.refl s)
  | portRetrainTimer port => exact execPortRetrainTimer_kept _ e (.refl s)
  | helloTimer port => exact execHelloTimer_kept _ e (.refl s)
  | hello f => exact execHello_kept _ e (.refl s)
  | fmReqRead f => exact execFmReqRead_kept _ e (.refl s)
  | fmReqWrite f => exact execFmReqWrite_kept _ e (.refl s)
  | rakeQuery f => exact execRakeQuery_kept _ e (.refl s)
  | rakeContrib f => exact execRakeContrib_kept _ e (.refl s)
  | rowReq f => exact execRowReq_kept _ e (.refl s)
  | rowReply f => exact execRowReply_kept _ e (.refl s)
  | ownerRead f => exact execOwnerRead_kept _ e (.refl s)
  | ownerData f => exact execOwnerData_kept _ e (.refl s)
  | gone f => exact execGone_kept _ e (.refl s)
  | dataLossAck f => exact execDataLossAck_kept _ e (.refl s)
  | mirrorPrep f => exact execMirrorPrep_kept _ e (.refl s)
  | mirrorCommit f => exact execMirrorCommit_kept _ e (.refl s)
  | mirrorAbort f => exact execMirrorAbort_kept _ e (.refl s)
  | mirrorClose f => exact execMirrorClose_kept _ e (.refl s)
  | mirrorRows f => exact execMirrorRows_kept _ e (.refl s)
  | mirrorAck f => exact execMirrorAck_kept _ e (.refl s)
  | mirrorResend pair => exact execMirrorResend_kept _ e (.refl s)
  | shadowQuery f => exact execShadowQuery_kept _ e (.refl s)
  | shadowResult f => exact execShadowResult_kept _ e (.refl s)
  | pairWrite => exact execPairWrite_kept e (.refl s)
  | graftStart => exact execGraftStart_kept e (.refl s)
  | graftStall => exact execGraftStall_kept e (.refl s)
  | graftWindow => exact execGraftWindow_kept e (.refl s)
  | graftAbort => exact execGraftAbort_kept e (.refl s)
  | serve => exact execServe_kept e (.refl s)
  | fence => exact execFence_kept e (.refl s)
  | fenceTimeout => exact execFenceTimeout_kept e (.refl s)
  | quiesce => exact execQuiesce_kept e (.refl s)
  | quiesceEnd => exact execQuiesceEnd_kept e (.refl s)
  | faultClear value => exact execFaultClear_kept _ e (.refl s)
  | flashWriteProtect ch => exact execFlashWriteProtect_kept _ e (.refl s)
  | nodeFaultCompletions => exact execNodeFaultCompletions_kept e (.refl s)
  | histPop => exact execHistPop_kept e (.refl s)
  | goneClear node => exact execGoneClear_kept _ e (.refl s)
  | nodeId node => exact execNodeId_kept _ e (.refl s)
  | hallLevelStep high => exact execHallLevelStep_kept _ e (.refl s)
  | routeWrite port => exact execRouteWrite_kept _ e (.refl s)
  | classWrite port => exact execClassWrite_kept _ e (.refl s)
  | tableWriteComplete port => exact execTableWriteComplete_kept _ e (.refl s)
  | laneEn port value => exact execLaneEn_kept _ _ e (.refl s)
  | fallowRequest gallery off => exact execFallowRequest_kept _ _ e (.refl s)
  | fallowGate gallery => exact execFallowGate_kept _ e (.refl s)
  | fallowWake gallery => exact execFallowWake_kept _ e (.refl s)
  | fallowExit gallery => exact execFallowExit_kept _ e (.refl s)
  | fallowAbort gallery => exact execFallowAbort_kept _ e (.refl s)
  | doze tile => exact execDoze_kept _ e (.refl s)
  | droopStretch gallery => exact execDroopStretch_kept _ e (.refl s)
  | droopRelease gallery => exact execDroopRelease_kept _ e (.refl s)
  | thermTrip sensor => exact execThermTrip_kept sensor e (.refl s)
  | avsAck east => exact execAvsAck_kept _ e (.refl s)
  | avsTimeout east => exact execAvsTimeout_kept _ e (.refl s)
  | interruptAssert src phase => exact execInterruptAssert_kept _ _ e (.refl s)
  | handlerReturn core => exact execHandlerReturn_kept _ e (.refl s)
  | swTrigger src => exact execSwTrigger_kept _ e (.refl s)
  | complete core src => exact execComplete_kept _ _ e (.refl s)
  | coreEn core enable => exact execCoreEn_kept _ _ e (.refl s)
  | mcWdog core => exact execMcWdog_kept _ e (.refl s)
  | mboxIn n value => exact execMboxIn_kept _ _ e (.refl s)
  | mboxInPop n => exact execMboxInPop_kept _ e (.refl s)
  | mboxOut n value => exact execMboxOut_kept _ _ e (.refl s)
  | mboxOutPop n => exact execMboxOutPop_kept _ e (.refl s)
  | swPacket unit value => exact execSwPacket_kept _ _ e (.refl s)
  | traceMergerPop unit => exact execTraceMergerPop_kept _ e (.refl s)
  | summary unit => exact execSummary_kept _ e (.refl s)
  | traceSync unit => exact execTraceSync_kept _ e (.refl s)
  | patStart => exact execPatStart_kept e (.refl s)
  | patStop => exact execPatStop_kept e (.refl s)
  | patLimitExpired => exact execPatLimitExpired_kept e (.refl s)
  | patAbort cause => exact execPatAbort_kept _ e (.refl s)
  | snap => exact execSnap_kept e (.refl s)
  | eyeCaptureDone trained heights widths => exact execEyeCaptureDone_kept _ _ _ e (.refl s)
  | mbistStart => exact execMbistStart_kept e (.refl s)
  | mbistDone pass array offset => exact execMbistDone_kept _ _ _ e (.refl s)
  | trstN => exact execTrstN_kept e (.refl s)
  | idcode => exact execIdcode_kept e (.refl s)
  | samplePreload => exact execSamplePreload_kept e (.refl s)
  | extest => exact execExtest_kept e (.refl s)
  | clamp => exact execClamp_kept e (.refl s)
  | highz => exact execHighz_kept e (.refl s)
  | extestPulse => exact execExtestPulse_kept e (.refl s)
  | extestTrain => exact execExtestTrain_kept e (.refl s)
  | prodTest => exact execProdTest_kept e (.refl s)
  | regAccess word => exact execRegAccess_kept _ e (.refl s)
  | bypass => exact execBypass_kept e (.refl s)
  | i3cDynamicAddress addr => exact execI3cDynamicAddress_kept _ e (.refl s)
  | trayManagementRead reg => exact execTrayManagementRead_kept _ e (.refl s)
  | lsUe e => exact execLsUe_kept _ e (.refl s)
  | d2dFail => exact execD2dFail_kept e (.refl s)
  | mcUe => exact execMcUe_kept e (.refl s)
  | collectorParity => exact execCollectorParity_kept e (.refl s)
  | corrUe flight stage gallery => exact execCorrUe_kept _ _ _ e (.refl s)
  | aerError kind => exact execAerError_kept _ e (.refl s)
  | hbmStackTraining stack result => exact execHbmStackTraining_kept _ _ e (.refl s)
  | referenceClockStable => exact execReferenceClockStable_kept e (.refl s)
  | perstNDeassert => exact execPerstNDeassert_kept e (.refl s)
  | d3hot fn enter => exact execD3hot_kept _ _ e (.refl s)
  | msixUnmask fn vector => exact execMsixUnmask_kept _ _ e (.refl s)
  | frameTransmitted port queue => exact execFrameTransmitted_kept _ _ e (.refl s)
  | receivedFrameDropped f => exact execReceivedFrameDropped_kept _ e (.refl s)
  | mirrorCopyRewritten => exact execMirrorCopyRewritten_kept e (.refl s)
  | checkerLock => exact execCheckerLock_kept e (.refl s)
  | checkerLockLoss => exact execCheckerLockLoss_kept e (.refl s)

/-! ## The canonical form -/

/-- The canonical form of a state: the register file and HBM list nothing twice and nothing that an unlisted address reads as, and the node has
its parts. -/
structure Canonical (s : State) : Prop where
  regs : RegFile.wf s.regs
  hbm : Memory.wf s.mem.hbm
  shape : s.Shape

theorem Kept.canonical {s t : State} (h : Kept s t) (hs : Canonical s) : Canonical t := ⟨h.regs hs.regs, h.hbm hs.hbm, h.shape hs.shape⟩

/-- A state out of reset is canonical whatever the reset found: its register file and its HBM are empty. -/
theorem afterReset_canonical (s : State) (aux : Aux) (pins : Pins) (ir : Byte) : Canonical (afterReset s aux pins ir) :=
  ⟨⟨List.Pairwise.nil, List.forall_mem_nil _⟩, Memory.nil_wf, rfl⟩

theorem nodeReset_canonical {s : State} (modeHall : Bool) (slot : Nat) (hs : Canonical s) : Canonical (nodeReset s modeHall slot) := by
  unfold nodeReset
  split
  · exact hs
  · split
    · exact ⟨hs.regs, hs.hbm, hs.shape⟩
    · exact afterReset_canonical _ _ _ _

/-- A command that moves the latches keeps the canonical form as well: what a rail does is confined to the VDD_AUX domain, and the resets leave a
node with nothing in it. -/
theorem exec_canonical_of_movesLatches {c : Instr} {s t : State} (hc : movesLatches c = true) (e : exec c s = .next t) (hs : Canonical s) :
    Canonical t := by
  unfold movesLatches at hc
  split at hc
  case h_1 =>
    cases e
    exact ⟨hs.regs, hs.hbm, hs.shape⟩
  case h_2 =>
    cases e
    exact afterReset_canonical _ _ _ _
  case h_3 =>
    cases e
    exact nodeReset_canonical _ _ hs
  case h_4 => cases hc

theorem exec_canonical {c : Instr} {s t : State} (e : exec c s = .next t) (hs : Canonical s) : Canonical t := by
  cases hc : movesLatches c with
  | false => exact (exec_kept hc e).canonical hs
  | true => exact exec_canonical_of_movesLatches hc e hs

theorem step_canonical {s t : State} (e : step s = .next t) (hs : Canonical s) : Canonical t := by
  unfold step at e
  split at e
  · cases e
    exact (idleTick_kept (.refl s)).canonical hs
  · exact exec_canonical e ⟨hs.regs, hs.hbm, hs.shape⟩

/-- Settles O58: the front command keeps the canonical form on the state with the queue's rest, and so does an idle period. -/
theorem every_step_keeps_the_canonical_form : Obligations.Every_step_keeps_the_canonical_form := by
  intro s t hregs hhbm hshape e
  obtain ⟨hregs', hhbm', hshape'⟩ := step_canonical e ⟨hregs, hhbm, hshape⟩
  exact ⟨hregs', hhbm', hshape'⟩

end Sys2Proof.Machine

/-! PROOFS. What a request to the registers does: the words that it names, those it reads and writes, and the requests that are discarded (R9 to R15,
R81, R415). -/
namespace Sys2Proof.Machine

/-! ## Where the words of the tables lie -/

/-- A page that holds an address gives the offset in its 4 KiB; the PCIe, HBM and near-bank pages lie above those of the scheduler, the faults and the
interrupt controller, whose words act when they are read or written. -/
theorem pageAt_cases {P : Option (PageKind × Nat × Nat) → Prop} {a : Nat} (hn : P none)
    (hs : ∀ k n, (k ∈ [PageKind.pcie, .hbm, .nb] → 0x6000 ≤ a ∧ a < 0x38000) → P (some (k, n, a % 0x1000))) : P (pageAt a) := by
  unfold pageAt
  dsimp only
  refine iteInduction (fun h => ?_) (fun h => ?_)
  · split
    case h_7 => exact hs _ _ fun _ => by omega
    all_goals exact hs _ _ (by simp)
  refine iteInduction (fun h => hs _ _ (by simp)) (fun h => ?_)
  refine iteInduction (fun h => hs _ _ (by omega)) (fun h => ?_)
  refine iteInduction (fun h => iteInduction (fun _ => hs _ _ (by omega)) fun _ => hn) (fun h => ?_)
  refine iteInduction (fun h => hs _ _ (by simp)) (fun h => ?_)
  refine iteInduction (fun h => hs _ _ (by simp)) (fun h => ?_)
  refine iteInduction (fun h => ?_) (fun h => ?_)
  · exact iteInduction (fun _ => hs _ _ (by simp)) fun _ => iteInduction (fun _ => hs _ _ (by simp)) fun _ => hn
  refine iteInduction (fun h => ?_) (fun h => ?_)
  · exact iteInduction (fun _ => hs _ _ (by simp)) fun _ => iteInduction (fun _ => hs _ _ (by simp)) fun _ => hn
  exact iteInduction (fun _ => hs _ _ (by simp)) fun _ => iteInduction (fun _ => hs _ _ (by simp)) fun _ => hn

theorem pageAt_offset {a n o : Nat} {k : PageKind} : pageAt a = some (k, n, o) → o = a % 0x1000 :=
  pageAt_cases (P := (· = some (k, n, o) → o = a % 0x1000)) nofun fun _ _ _ h => by cases h; rfl

theorem pageAt_range {a n o : Nat} {k : PageKind} (hk : k ∈ [PageKind.pcie, .hbm, .nb]) :
    pageAt a = some (k, n, o) → 0x6000 ≤ a ∧ a < 0x38000 :=
  pageAt_cases (P := (· = some (k, n, o) → _)) nofun fun _ _ hr h => by cases h; exact hr hk

/-- Every table lists whole words. -/
theorem regs_aligned (k : PageKind) : ∀ r ∈ k.regs, r.off % 4 = 0 := by
  cases k <;> decide +kernel

theorem regDefAt_aligned {a : Nat} {r : RegDef} (h : regDefAt a = some r) : a % 4 = 0 := by
  unfold regDefAt at h
  split at h
  · cases h
  · next k n o hp =>
    split at h
    · cases h
    · split at h
      · cases h
      · next q hq =>
        have hoff : q.off = o := by simpa using List.find?_some hq
        have haligned := regs_aligned k q (List.mem_of_find?_eq_some hq)
        have ho := pageAt_offset hp
        omega

/-! ## Which words a request names -/

theorem mgmtReaches.reaches {s : State} (h : mgmtReaches s) : reaches s .mgmt = true := by
  obtain ⟨hrun, hd3⟩ := h
  simp [Machine.reaches, pcieFn, pciState, hrun, hd3]

/-- A word is the number that its four bytes hold. -/
theorem leNat_toLe_word (v : Word) : leNat (toLe 4 v.toNat) = v.toNat := by
  rw [leNat_toLe]
  exact Nat.mod_eq_of_lt v.isLt

theorem word_leNat_toLe (v : Word) : word (leNat (toLe 4 v.toNat)) = v := by
  rw [leNat_toLe_word, word, BitVec.ofNat_toNat, BitVec.setWidth_eq]

theorem badSpan_word {a : Nat} (ha : a % 4 = 0) : badSpan a 4 = false := by
  have : a % 8 + 4 ≤ 8 := by omega
  simpa [badSpan] using this

theorem spanWords_word {a : Nat} (ha : a % 4 = 0) : spanWords a 4 = [a] := by
  unfold spanWords
  rw [if_neg (by decide), if_pos (by omega), show a / 4 * 4 = a by omega]

theorem msixLoc_ne_reg (fn : PciFn) (t p a r : Nat) : msixLoc fn t p a ≠ .reg r := by
  unfold msixLoc
  split
  · nofun
  · split <;> nofun

theorem locate_mgmt_bar0 {a : Nat} (ha : a < 2 ^ 28) : locate .mgmt .bar0 a = .reg a := if_pos ha

/-- The management function's BAR0 addresses are the register addresses; no other of its addresses names a register. -/
theorem eq_of_locate_mgmt {bar : Bar} {a r : Nat} (h : locate .mgmt bar a = .reg r) : a = r := by
  cases bar with
  | bar0 =>
    by_cases ha : a < 2 ^ 28
    · rw [locate_mgmt_bar0 ha] at h
      exact Loc.reg.inj h
    · rw [show locate .mgmt .bar0 a = .gap from if_neg ha] at h
      cases h
  | bar2 => exact absurd h (msixLoc_ne_reg _ _ _ _ _)

/-! ## Writes -/

theorem metBytes_length (s : State) (req : Requester) (bar : Bar) (a : Nat) (d : WData) : (metBytes s req bar a d).length = d.bytes.length := by
  unfold metBytes
  split
  · rfl
  · split
    · next h => rw [toLe_length, h]
    · split
      · next h => rw [List.length_append, toLe_length, toLe_length, h]
      · rfl

/-- A write loads a shard map only when it is of whole words and names SHARDMAP_CMD. -/
theorem mapFault_eq_false {s : State} {req : Requester} {bar : Bar} {a : Nat} {data : List Byte}
    (h : data.length = 4 ∨ data.length = 8 → locate req bar a ≠ .reg Reg.sched.SHARDMAP_CMD) : mapFault s req bar a data = false := by
  unfold mapFault
  by_cases hl : data.length = 4 ∨ data.length = 8
  · simp [beq_eq_false_iff_ne.mpr (h hl)]
  · obtain ⟨h4, h8⟩ := not_or.mp hl
    simp [h4, h8]

/-- A write that loads no shard map acts on the bytes that its cycle leaves it. -/
theorem exec_registerWrite {s : State} {req : Requester} {bar : Bar} {a : Nat} {d : WData} (h : mapFault s req bar a d.bytes = false) :
    exec (.registerWrite req bar a d) s = .next (writeSpan s req bar a (metBytes s req bar a d)) := by
  show execRegisterWrite req bar a d s = _
  unfold execRegisterWrite
  rw [h]
  rfl

/-- R14: a write of no whole register is counted in MMIO_SHORT_WR and does nothing else. -/
theorem writeSpan_short {s : State} {bar : Bar} {a : Nat} {data : List Byte} (hr : reaches s .mgmt = true) (hb : badSpan a data.length = false)
    (h4 : data.length = 4 → a % 4 ≠ 0) (h8 : data.length ≠ 8) : writeSpan s .mgmt bar a data = count s Reg.pcie.MMIO_SHORT_WR := by
  unfold writeSpan
  rw [if_neg (by simp [hr]), if_neg (by simp [hb]), if_neg (fun h => h4 h.1 h.2), if_neg h8]
  rfl

/-- A write of one whole word reaches what its address names. -/
theorem writeSpan_word {s : State} {req : Requester} {bar : Bar} {a : Nat} (hr : reaches s req = true) (ha : a % 4 = 0) (v : Word) :
    writeSpan s req bar a (toLe 4 v.toNat) = writeLoc s req (locate req bar a) v := by
  unfold writeSpan
  rw [toLe_length, if_neg (by simp [hr]), if_neg (by simp [badSpan_word ha]), if_pos ⟨rfl, ha⟩, word_leNat_toLe]

/-- Settles O8: both kinds of request are stopped before any register, at the counter that R14 or R415 names. -/
theorem bad_requests_are_counted : Obligations.Bad_requests_are_counted := by
  intro s bar a hmgmt
  have hr := hmgmt.reaches
  refine ⟨fun data hb h8 h4 sets => ?_, fun len hb => ⟨?_, ?_⟩⟩
  · have hload : data.length = 4 ∨ data.length = 8 → locate .mgmt bar a ≠ .reg Reg.sched.SHARDMAP_CMD := by
      rintro hl hloc
      exact h4 (hl.resolve_right h8) (eq_of_locate_mgmt hloc ▸ rfl)
    rw [exec_registerWrite (mapFault_eq_false hload)]
    exact congrArg _ (writeSpan_short hr (by rwa [metBytes_length]) (by rwa [metBytes_length]) (by rwa [metBytes_length]))
  · show Host.Outcome.next (mmioBad s .mgmt true a len) = _
    unfold mmioBad
    rw [if_neg (by simp [hr, hb])]
    rfl
  · refine ⟨_, rfl, ?_⟩
    unfold mmioBad
    rw [if_neg (by simp [hr, hb])]
    exact ⟨rfl, rfl, rfl, rfl⟩


/-! ## Reads -/

/-- A read of one whole word returns what its address names, unless it is one of READBACK that waits. -/
theorem readSpan_word {s : State} {req : Requester} {bar : Bar} {a : Nat} (same : Nat) (hr : reaches s req = true) (ha : a % 4 = 0)
    (hw : readbackWaits s req a 4 = false) : readSpan s req bar a 4 same =
      setAnswer (readLoc s (locate req bar a) same).2 (some ((readLoc s (locate req bar a) same).1.setWidth 64)) false := by
  unfold readSpan
  rw [if_neg (by simp [hr]), if_neg (by simp [badSpan_word ha])]
  dsimp only
  rw [show (if 4 < 4 then countMmio s req Reg.pcie.MMIO_SHORT_RD else s) = s from rfl, if_neg (by simp [hw]), spanWords_word ha, ha]
  have hv (v : Word) : sub (toLe 4 v.toNat ++ []) 0 4 = toLe 4 v.toNat := by simp [sub, toLe_length]
  simp only [readWords, hv, leNat_toLe_word, BitVec.ofNat_toNat]

/-- A read of another word than READBACK does not wait. -/
theorem readbackWaits_of_ne {s : State} {req : Requester} {a : Nat} (ha : a % 4 = 0) (hne : a ≠ Reg.atrium.STEP_LOW) :
    readbackWaits s req a 4 = false := by
  simp [readbackWaits, spanWords_word ha, Ne.symm hne]

/-- A read of READBACK by a requester other than a virtual function waits for the side effects not yet taken (R81). -/
theorem readbackWaits_readback {s : State} {req : Requester} (hvf : ∀ i, req ≠ .vf i) :
    readbackWaits s req Reg.atrium.STEP_LOW 4 = (s.sched.inval.isSome || tableWaits s) := by
  unfold readbackWaits
  rw [show (spanWords Reg.atrium.STEP_LOW 4).contains Reg.atrium.STEP_LOW = true by decide]
  split
  · next i => exact absurd rfl (hvf i)
  · simp

theorem readbackWaits_vf (s : State) (i : Fin 256) (a len : Nat) : readbackWaits s (.vf i) a len = false := rfl

/-- No word of the PCIe and HBM pages is shown in place of the register file's. -/
theorem pageWord_pcie_hbm (s : State) {k : PageKind} (hk : k ∈ [PageKind.pcie, .hbm]) (n o : Nat) : pageWord s k n o = none := by
  unfold pageWord
  obtain rfl | rfl : k = .pcie ∨ k = .hbm := by simpa using hk
  all_goals exact ite_self _

/-- A page but a tile's is readable once the boot has not failed. -/
theorem not_unreadable {s : State} {k : PageKind} (n : Nat) (hk : k ≠ .tile) (hboot : bootStage s ≠ 0x0F) :
    unreadable s k = false ∧ tileAsleep s k n = false := by
  simp [unreadable, tileAsleep, hk, hboot]

theorem popAt_of_range {a : Nat} (h : a < 0x30E0 ∨ 0x3140 ≤ a) : popAt a = none := by
  unfold popAt
  rw [if_neg (by omega), if_neg (by omega)]

/-- A read of a 32-bit register of a readable page, but of a pop register, shows the page's word and clears an RC register. -/
theorem readReg_one {s : State} {a n o : Nat} {k : PageKind} (same : Nat) (hp : pageAt a = some (k, n, o)) (hk : k ≠ .tile)
    (hboot : bootStage s ≠ 0x0F) (hpop : popAt a = none) (hone : wideAt a = .one) :
    readReg s a same = (readWord s a, if clearsOnRead a then wr s (heldAt s a) (word same) else s) := by
  obtain ⟨hu, ht⟩ := not_unreadable n hk hboot
  unfold readReg
  rw [if_neg (by simp [hp, hu, ht]), hpop]
  simp only [hone, clearRead]

/-- Beyond the page's head a readable page shows its own word, or the register file's where it shows none. -/
theorem readWord_page {s : State} {a n o : Nat} {k : PageKind} (hp : pageAt a = some (k, n, o)) (hk : k ≠ .tile) (hboot : bootStage s ≠ 0x0F)
    (ho : 0x10 ≤ o) : readWord s a = (pageWord s k n o).getD (if (regDefAt a).isSome then rd s a else 0) := by
  obtain ⟨hu, ht⟩ := not_unreadable n hk hboot
  unfold readWord
  rw [hp]
  dsimp only
  rw [if_neg (by simp [hu]), if_neg (by omega), if_neg (by omega), if_neg (by simp [ht]), if_neg (by omega)]
  cases pageWord s k n o <;> rfl

/-- A read of a 32-bit register of a PCIe or HBM page shows the register file's word, and clears an RC register but for the increments of its
cycle (R11, R12). -/
theorem readReg_pcie_hbm {s : State} {a n o : Nat} {k : PageKind} {r : RegDef} (same : Nat) (hk : k ∈ [PageKind.pcie, .hbm])
    (hp : pageAt a = some (k, n, o)) (ho : 0x10 ≤ o) (hr : regDefAt a = some r) (hone : r.wide = .one) (hboot : bootStage s ≠ 0x0F) :
    readReg s a same = (rd s a, if r.rc then wr s a (word same) else s) := by
  have htile : k ≠ .tile := by rintro rfl; simp at hk
  obtain ⟨hlo, -⟩ := pageAt_range (List.mem_of_mem_dropLast (l := [PageKind.pcie, .hbm, .nb]) hk) hp
  have hheld : heldAt s a = a := if_neg (by unfold Reg.sched.C0_OVERFLOW Reg.sched.THROTTLED_COUNT; omega)
  rw [readReg_one same hp htile hboot (popAt_of_range (by omega)) (by simp [wideAt, hr, hone]), readWord_page hp htile hboot ho,
    pageWord_pcie_hbm s hk, hheld]
  simp [clearsOnRead, hr]

/-! ## READBACK -/

/-- The word that a requester's READBACK address names (R81, R603). -/
def readbackReg : Requester → Nat
  | .vf i => Reg.tstatus.READBACK i.val
  | _ => Reg.atrium.STEP_LOW

theorem locate_readback (req : Requester) : locate req .bar0 (readbackAddr req) = .reg (readbackReg req) := by
  cases req with
  | vf i =>
    refine congrArg Loc.reg ?_
    show 0x10000000 + 0x10000 * i.val + 0x1040 = 0x10001040 + 0x10000 * i.val
    omega
  | _ => rfl

theorem pageAt_tstatus_readback : ∀ i : Fin 256, pageAt (Reg.tstatus.READBACK i.val) = some (.tstatus, i.val, 0x40) := by
  decide +kernel

/-- READBACK shows STEP_COUNT [31:0] on the atrium page and on a tenant's status page, and a read of it changes nothing. -/
theorem readReg_readback {s : State} (req : Requester) (hboot : bootStage s ≠ 0x0F) : readReg s (readbackReg req) 0 = (word s.now, s) := by
  cases req with
  | vf i =>
    have hp := pageAt_tstatus_readback i
    have hdef : regDefAt (Reg.tstatus.READBACK i.val) = some ⟨0x40, 0x0, 0x0, 0x0, false, false, .one⟩ := by
      unfold regDefAt
      rw [hp]
      rfl
    show readReg s (Reg.tstatus.READBACK i.val) 0 = _
    rw [readReg_one 0 hp nofun hboot (popAt_of_range (by unfold Reg.tstatus.READBACK; omega)) (by simp only [wideAt, hdef]),
      readWord_page hp nofun hboot (by decide)]
    simp only [clearsOnRead, hdef]
    rfl
  | _ =>
    have hp : pageAt Reg.atrium.STEP_LOW = some (.atrium, 0, 0x120) := by decide +kernel
    show readReg s Reg.atrium.STEP_LOW 0 = _
    rw [readReg_one 0 hp nofun hboot (by decide) (by decide +kernel), readWord_page hp nofun hboot (by decide)]
    rfl

/-- Settles O10: one word is read, and what it shows is the register file's word on the PCIe and HBM pages and STEP_COUNT at READBACK. -/
theorem register_reads : Obligations.Register_reads := by
  refine ⟨fun s a same k n o r hk hp ho hr hone hmgmt hboot => ?_, fun s req hreach hvf hwait => ?_, fun s req hreach hboot hfree => ?_⟩
  · obtain ⟨hlo, hhi⟩ := pageAt_range (List.mem_of_mem_dropLast (l := [PageKind.pcie, .hbm, .nb]) hk) hp
    have ha := regDefAt_aligned hr
    have hne : a ≠ Reg.atrium.STEP_LOW := by unfold Reg.atrium.STEP_LOW; omega
    refine ⟨_, congrArg Host.Outcome.next (readSpan_word same hmgmt.reaches ha (readbackWaits_of_ne ha hne)), ?_⟩
    rw [locate_mgmt_bar0 (by omega)]
    simp only [readLoc, readReg_pcie_hbm same hk hp ho hr hone hboot]
    cases r.rc with
    | true => exact ⟨rfl, rfl, rd_wr_self s a _, fun b hb => rd_wr_ne s _ hb.symm, rfl, rfl⟩
    | false => exact ⟨rfl, rfl, rfl, fun b _ => rfl, rfl, rfl⟩
  · have hw : readbackWaits s req Reg.atrium.STEP_LOW 4 = true := by simpa [readbackWaits_readback hvf] using hwait
    have haddr : readbackAddr req = Reg.atrium.STEP_LOW := by
      cases req with
      | vf i => exact absurd rfl (hvf i)
      | _ => rfl
    show Host.Outcome.next (readSpan s req .bar0 (readbackAddr req) 4 0) = _
    unfold readSpan
    rw [haddr, if_neg (by simp [hreach]), if_neg (by decide)]
    exact congrArg _ (if_pos ⟨rfl, hw⟩)
  · have hw : readbackWaits s req (readbackAddr req) 4 = false := by
      cases req with
      | vf i => exact readbackWaits_vf s i _ _
      | _ =>
        obtain ⟨hinval, htable⟩ := hfree.resolve_left (by rintro ⟨i, hi⟩; cases hi)
        exact (readbackWaits_readback (by rintro i hi; cases hi)).trans (by simp [hinval, htable])
    have ha : readbackAddr req % 4 = 0 := by unfold readbackAddr; split <;> rfl
    refine ⟨_, congrArg Host.Outcome.next (readSpan_word 0 hreach ha hw), ?_⟩
    rw [locate_readback]
    simp only [readLoc, readReg_readback req hboot]
    refine ⟨congrArg some (BitVec.eq_of_toNat_eq ?_), rfl, rfl⟩
    simp [word]


/-! ## Writes of one word -/

theorem metBits_zero (s : State) (l : Loc) : metBits s l 0 = 0 := by
  unfold metBits
  cases l with
  | reg a =>
    dsimp only
    split
    · simp
    · split <;> simp
  | _ => rfl

theorem and_not_metBits_zero (s : State) (l : Loc) (v : Word) : v &&& ~~~metBits s l 0 = v := by
  rw [metBits_zero, show ~~~(0 : Word) = BitVec.allOnes 32 by decide, BitVec.and_allOnes]

/-- A write of one word takes effect without the bits that its cycle takes from it (R12, R23). -/
theorem metBytes_word (s : State) (req : Requester) (bar : Bar) (a : Nat) (v c : Word) :
    metBytes s req bar a ⟨toLe 4 v.toNat, c.setWidth 64⟩ = toLe 4 (v &&& ~~~metBits s (locate req bar a) c).toNat := by
  unfold metBytes
  dsimp only
  have hc : (c.setWidth 64).setWidth 32 = c := by simp
  split
  · next h0 =>
    have hz : c = 0 := by rw [← hc, h0]; rfl
    rw [hz, and_not_metBits_zero]
  · rw [if_pos (toLe_length 4 _), word_leNat_toLe, hc]

/-- A 4-byte write by the management function reaches the register at its address. -/
theorem exec_registerWrite_word {s : State} {a : Nat} (v c : Word) (hmgmt : mgmtReaches s) (ha : a % 4 = 0) (hlt : a < 2 ^ 28)
    (hne : a ≠ Reg.sched.SHARDMAP_CMD) : exec (.registerWrite .mgmt .bar0 a ⟨toLe 4 v.toNat, c.setWidth 64⟩) s =
      .next (writeReg s .mgmt a (v &&& ~~~metBits s (.reg a) c)) := by
  rw [exec_registerWrite (mapFault_eq_false fun _ h => hne (eq_of_locate_mgmt h)), metBytes_word, writeSpan_word hmgmt.reaches ha,
    locate_mgmt_bar0 hlt]
  rfl

/-- The same with nothing met in the write's cycle. -/
theorem exec_registerWrite_word_alone {s : State} {a : Nat} (v : Word) (hmgmt : mgmtReaches s) (ha : a % 4 = 0) (hlt : a < 2 ^ 28)
    (hne : a ≠ Reg.sched.SHARDMAP_CMD) : exec (.registerWrite .mgmt .bar0 a ⟨toLe 4 v.toNat, 0⟩) s = .next (writeReg s .mgmt a v) := by
  have h := exec_registerWrite_word v 0 hmgmt ha hlt hne
  rwa [and_not_metBits_zero] at h

/-! ## A 32-bit register of a PCIe, HBM or near-bank page -/

theorem softWrite_eq {s : State} {a : Nat} {r : RegDef} (v : Word) (h : regDefAt a = some r) : softWrite s a v =
    if a % 0x1000 = 0x30 then releaseFirst (wr s a (writtenWord r (rd s a) v)) (a - 0x30) else wr s a (writtenWord r (rd s a) v) := by
  unfold softWrite
  rw [h]

/-- What ERR_FIRST reads as once ERR_STAT is written (R19). -/
theorem rd_releaseFirst (s : State) (base b : Nat) : rd (releaseFirst s base) b =
    if rd s (base + 0x30) = 0 ∧ base + 0x38 = b then rd s b &&& 0x7FFFFFFF else rd s b := by
  unfold releaseFirst
  split
  · next h0 =>
    rw [rd_wr]
    by_cases hb : base + 0x38 = b
    · simp [h0, hb]
    · simp [hb]
  · next h0 => exact (if_neg fun h => h0 h.1).symm

theorem releaseFirst_regs (s : State) (base : Nat) : releaseFirst s base = { s with regs := (releaseFirst s base).regs } := by
  unfold releaseFirst
  split <;> rfl

/-- A write of a 32-bit register of these pages is a plain software write. -/
theorem writeReg_plain {s : State} {req : Requester} {a n o : Nat} {k : PageKind} {r : RegDef} (v : Word) (hk : k ∈ [PageKind.pcie, .hbm, .nb])
    (hp : pageAt a = some (k, n, o)) (hr : regDefAt a = some r) (hone : r.wide = .one) : writeReg s req a v = softWrite s a v := by
  unfold writeReg
  rw [show wideAt a = .one by simp [wideAt, hr, hone]]
  dsimp only
  unfold writeOne
  rw [hp]
  obtain rfl | rfl | rfl : k = .pcie ∨ k = .hbm ∨ k = .nb := by simpa using hk
  all_goals rfl

/-- The first clause of O7: a 4-byte write of a 32-bit register of a PCIe, HBM or near-bank page changes that register by its RW and W1C bits, and
of ERR_STAT at 0 releases ERR_FIRST. -/
theorem registerWrite_one_word {s : State} {a n o : Nat} {k : PageKind} {r : RegDef} (v c : Word) (hk : k ∈ [PageKind.pcie, .hbm, .nb])
    (hp : pageAt a = some (k, n, o)) (hr : regDefAt a = some r) (hone : r.wide = .one) (hmgmt : mgmtReaches s) :
    ∃ t, exec (.registerWrite .mgmt .bar0 a ⟨toLe 4 v.toNat, c.setWidth 64⟩) s = .next t ∧
      rd t a = writtenWord r (rd s a) (v &&& ~~~(c &&& BitVec.ofNat 32 r.w1c)) ∧ OnlyRegs s t (if o = 0x30 then [a, a + 8] else [a]) ∧
      (o = 0x30 → rd t (a + 8) = if rd t a = 0 then rd s (a + 8) &&& 0x7FFFFFFF else rd s (a + 8)) := by
  obtain ⟨hlo, hhi⟩ := pageAt_range hk hp
  have hmet : metBits s (.reg a) c = c &&& BitVec.ofNat 32 r.w1c := by
    unfold metBits
    dsimp only
    rw [if_neg (by unfold Reg.fault.HIST_POP; omega), hr]
  have ho := pageAt_offset hp
  refine ⟨_, exec_registerWrite_word v c hmgmt (regDefAt_aligned hr) (by omega) (by unfold Reg.sched.SHARDMAP_CMD; omega), ?_⟩
  rw [writeReg_plain _ hk hp hr hone, softWrite_eq _ hr, hmet, ← ho]
  by_cases h30 : o = 0x30
  · have hbase : a - 0x30 + 0x30 = a ∧ a - 0x30 + 0x38 = a + 8 := by omega
    simp only [if_pos h30, rd_releaseFirst, hbase, rd_wr_self]
    refine ⟨by simp, ⟨releaseFirst_regs _ _, fun b hb => ?_⟩, fun _ => ?_⟩
    · simp only [List.mem_cons, List.not_mem_nil, or_false, not_or] at hb
      rw [rd_releaseFirst, hbase.2, if_neg fun h => hb.2 h.2.symm, rd_wr_ne _ _ (Ne.symm hb.1)]
    · simp [rd_wr]
  · simp only [if_neg h30]
    exact ⟨rd_wr_self s a _, ⟨rfl, fun b hb => rd_wr_ne s _ fun h => hb (by simp [h])⟩, fun h => absurd h h30⟩

/-! ## PORT_MAC, a 64-bit register (R13) -/

/-- The words of PORT_MAC: 48 bits are RW, and the upper half of the high word is reserved. -/
theorem regDefAt_portMac : ∀ p : Fin 4,
    regDefAt (Reg.port.PORT_MAC p) = some ⟨0x40, 0x0, 0xFFFFFFFF, 0x0, false, false, .low⟩ ∧
    regDefAt (Reg.port.PORT_MAC p + 4) = some ⟨0x44, 0x0, 0xFFFF, 0x0, false, false, .high⟩ := by
  decide +kernel

theorem pageAt_portMac : ∀ p : Fin 4, pageAt (Reg.port.PORT_MAC p) = some (.port, p.val, 0x40) := by
  decide +kernel

theorem takesWide_portMac (p : Fin 4) : takesWide (Reg.port.PORT_MAC p) = true := by
  simp [takesWide, (regDefAt_portMac p).1]

/-- PORT_MAC lies above every register that is written as a whole in a way of its own. -/
theorem portMac_gt (n : Nat) : 0xFFFF < Reg.port.PORT_MAC n := by
  unfold Reg.port.PORT_MAC
  omega

theorem portMac_place (n : Nat) (hn : n < 4 := by omega) :
    Reg.port.PORT_MAC n % 4 = 0 ∧ Reg.port.PORT_MAC n + 4 < 2 ^ 28 ∧ Reg.sched.SHARDMAP_CMD < Reg.port.PORT_MAC n := by
  unfold Reg.port.PORT_MAC Reg.sched.SHARDMAP_CMD
  omega

/-- A write of the low word is only staged. -/
theorem writeReg_portMac_low (s : State) (req : Requester) (p : Fin 4) (lo : Word) : writeReg s req (Reg.port.PORT_MAC p) lo =
    { s with staged := Tbl.set s.staged (Reg.port.PORT_MAC p) lo } := by
  have hgt := portMac_gt p
  unfold writeReg
  simp only [wideAt, (regDefAt_portMac p).1, takesWide_portMac, if_true]
  exact if_neg (by unfold Reg.fault.FAULT_STATUS; omega)

/-- A write of PORT_MAC as a whole is a plain software write of both words. -/
theorem writeWide_portMac (s : State) (p : Fin 4) (v : Nat) : writeWide s (Reg.port.PORT_MAC p) v =
    softWrite64 { s with staged := Tbl.del s.staged (Reg.port.PORT_MAC p) } (Reg.port.PORT_MAC p) v := by
  have hgt := portMac_gt p
  unfold writeWide
  dsimp only
  rw [if_neg (by unfold Reg.fault.FAULT_STATUS; omega), if_neg (by omega), if_neg (by omega),
    if_neg (by unfold Reg.atrium.HALL_LEVEL_STEP; omega), pageAt_portMac]

/-- A write of the high word puts it in force with the staged low word. -/
theorem writeReg_portMac_high {s : State} (req : Requester) {p : Fin 4} {lo : Word} (hi : Word)
    (hst : Tbl.get s.staged (Reg.port.PORT_MAC p) = some lo) : writeReg s req (Reg.port.PORT_MAC p + 4) hi =
      softWrite64 { s with staged := Tbl.del s.staged (Reg.port.PORT_MAC p) } (Reg.port.PORT_MAC p) (lo.toNat + 2 ^ 32 * hi.toNat) := by
  have hgt := portMac_gt p
  unfold writeReg
  simp only [wideAt, (regDefAt_portMac p).2, Nat.add_sub_cancel, takesWide_portMac, if_true]
  unfold writeHigh
  rw [if_neg (by unfold Reg.fault.FAULT_STATUS; omega), hst]
  exact writeWide_portMac _ _ _

/-- A write of a word without W1C bits takes its RW bits and leaves the others. -/
theorem writtenWord_rw {r : RegDef} (h : r.w1c = 0) (old v : Word) :
    writtenWord r old v = (old &&& ~~~BitVec.ofNat 32 r.rw) ||| (v &&& BitVec.ofNat 32 r.rw) := by
  rw [writtenWord, h, show v &&& BitVec.ofNat 32 0 = 0 from BitVec.and_zero, show ~~~(0 : Word) = BitVec.allOnes 32 by decide,
    BitVec.and_allOnes]

theorem softWrite_portMac_low (s : State) (p : Fin 4) (lo : Word) : softWrite s (Reg.port.PORT_MAC p) lo = wr s (Reg.port.PORT_MAC p) lo := by
  rw [softWrite_eq _ (regDefAt_portMac p).1, if_neg (by unfold Reg.port.PORT_MAC; omega), writtenWord_rw rfl,
    show BitVec.ofNat 32 0xFFFFFFFF = BitVec.allOnes 32 by decide, BitVec.not_allOnes, BitVec.and_zero, BitVec.and_allOnes, BitVec.zero_or]

/-- The reserved half of the high word stays as it stood: a write leaves the bits that are not RW. -/
theorem softWrite_portMac_high (s : State) (p : Fin 4) (hi : Word) : softWrite s (Reg.port.PORT_MAC p + 4) hi =
    wr s (Reg.port.PORT_MAC p + 4) ((rd s (Reg.port.PORT_MAC p + 4) &&& 0xFFFF0000) ||| (hi &&& 0xFFFF)) := by
  rw [softWrite_eq _ (regDefAt_portMac p).2, if_neg (by unfold Reg.port.PORT_MAC; omega), writtenWord_rw rfl]
  rfl

/-- A write of PORT_MAC as a whole, in terms of the register file. -/
theorem softWrite64_portMac (s : State) (p : Fin 4) (lo hi : Word) : softWrite64 s (Reg.port.PORT_MAC p) (lo.toNat + 2 ^ 32 * hi.toNat) =
    { wr (wr s (Reg.port.PORT_MAC p) lo) (Reg.port.PORT_MAC p + 4) ((rd s (Reg.port.PORT_MAC p + 4) &&& 0xFFFF0000) ||| (hi &&& 0xFFFF)) with
      staged := Tbl.del s.staged (Reg.port.PORT_MAC p) } := by
  have hlo : BitVec.ofNat 32 (lo.toNat + 2 ^ 32 * hi.toNat) = lo := BitVec.eq_of_toNat_eq (by simp; omega)
  have hhi : BitVec.ofNat 32 ((lo.toNat + 2 ^ 32 * hi.toNat) / 0x100000000) = hi := BitVec.eq_of_toNat_eq (by simp; omega)
  unfold softWrite64
  dsimp only
  rw [hlo, hhi, softWrite_portMac_low, softWrite_portMac_high, rd_wr_ne _ _ (by omega)]
  rfl

/-- What a register reads as after it, whatever waits staged. -/
theorem rd_softWrite64_portMac (s : State) (g : Tbl Word) (p : Fin 4) (lo hi : Word) (b : Nat) :
    rd (softWrite64 { s with staged := g } (Reg.port.PORT_MAC p) (lo.toNat + 2 ^ 32 * hi.toNat)) b =
      if Reg.port.PORT_MAC p + 4 = b then (rd s (Reg.port.PORT_MAC p + 4) &&& 0xFFFF0000) ||| (hi &&& 0xFFFF)
      else if Reg.port.PORT_MAC p = b then lo else rd s b := by
  rw [softWrite64_portMac, ← rd_wr s, ← rd_wr]
  rfl

theorem exec_write_portMac_low {s : State} (p : Fin 4) (lo : Word) (hmgmt : mgmtReaches s) :
    exec (.registerWrite .mgmt .bar0 (Reg.port.PORT_MAC p) ⟨toLe 4 lo.toNat, 0⟩) s =
      .next { s with staged := Tbl.set s.staged (Reg.port.PORT_MAC p) lo } := by
  obtain ⟨haligned, hbar, hcmd⟩ := portMac_place p
  rw [exec_registerWrite_word_alone lo hmgmt haligned (by omega) (by omega), writeReg_portMac_low]

theorem exec_write_portMac_high {s : State} (p : Fin 4) {lo : Word} (hi : Word) (hmgmt : mgmtReaches s)
    (hst : Tbl.get s.staged (Reg.port.PORT_MAC p) = some lo) :
    exec (.registerWrite .mgmt .bar0 (Reg.port.PORT_MAC p + 4) ⟨toLe 4 hi.toNat, 0⟩) s = .next
      (softWrite64 { s with staged := Tbl.del s.staged (Reg.port.PORT_MAC p) } (Reg.port.PORT_MAC p) (lo.toNat + 2 ^ 32 * hi.toNat)) := by
  obtain ⟨haligned, hbar, hcmd⟩ := portMac_place p
  rw [exec_registerWrite_word_alone hi hmgmt (by omega) hbar (by omega), writeReg_portMac_high _ hi hst]

/-- The second clause of O7 where the reserved half of PORT_MAC's high word reads 0 (R13): the low word waits staged, and the high word puts both in
force. -/
theorem portMac_takes_effect_whole {s : State} (p : Fin 4) (lo hi : Word) (hmgmt : mgmtReaches s)
    (hres : rd s (Reg.port.PORT_MAC p + 4) &&& 0xFFFF0000 = 0) :
    ∃ t u, exec (.registerWrite .mgmt .bar0 (Reg.port.PORT_MAC p) ⟨toLe 4 lo.toNat, 0⟩) s = .next t ∧
      t = { s with staged := Tbl.set s.staged (Reg.port.PORT_MAC p) lo } ∧
      exec (.registerWrite .mgmt .bar0 (Reg.port.PORT_MAC p + 4) ⟨toLe 4 hi.toNat, 0⟩) t = .next u ∧
      rd u (Reg.port.PORT_MAC p) = lo ∧ rd u (Reg.port.PORT_MAC p + 4) = hi &&& 0xFFFF ∧ Tbl.get u.staged (Reg.port.PORT_MAC p) = none ∧
      u = { s with regs := u.regs, staged := u.staged } ∧
      ∀ a, a ≠ Reg.port.PORT_MAC p → a ≠ Reg.port.PORT_MAC p + 4 → rd u a = rd s a := by
  have hread := rd_softWrite64_portMac s (Tbl.del (Tbl.set s.staged (Reg.port.PORT_MAC p) lo) (Reg.port.PORT_MAC p)) p lo hi
  refine ⟨_, _, exec_write_portMac_low p lo hmgmt, rfl, exec_write_portMac_high p hi hmgmt (Tbl.get_set_self _ _ _), ?_, ?_, ?_, ?_,
    fun a hlo hhi => ?_⟩
  · exact (hread _).trans (by rw [if_neg (by omega), if_pos rfl])
  · exact (hread _).trans (by rw [if_pos rfl, hres, show (0 : Word) ||| (hi &&& 0xFFFF) = hi &&& 0xFFFF from BitVec.zero_or])
  · rw [softWrite64_portMac]
    exact Tbl.get_del_self _ _
  · rw [softWrite64_portMac]
    rfl
  · exact (hread _).trans (by rw [if_neg hhi.symm, if_neg hlo.symm])

/-- Refutes O7, by its second clause: it says of any state that PORT_MAC's high word reads as the low half of the value written. Where the register
file holds a reserved bit of that word, here bit 16, the write leaves the bit, as it leaves every bit that is neither RW nor W1C. (The statement does
not ask that the reserved bits read 0; where they do the clause holds, `portMac_takes_effect_whole`, and so does the first clause,
`registerWrite_one_word`.) -/
theorem not_register_writes : ¬ Obligations.Register_writes := by
  rintro ⟨-, hwide⟩
  let s : State := wr State.reset (Reg.port.PORT_MAC (0 : Fin 4) + 4) 0x10000
  obtain ⟨t, u, -, rfl, hu, -, hhi, -⟩ := hwide s 0 0 0 ⟨rfl, rfl⟩
  rw [exec_write_portMac_high 0 0 ⟨rfl, rfl⟩ (Tbl.get_set_self _ _ _)] at hu
  obtain rfl := Host.Outcome.next.inj hu
  have hread := (rd_softWrite64_portMac s _ 0 0 0 _).symm.trans hhi
  rw [if_pos rfl, rd_wr_self] at hread
  exact absurd hread (by decide)

end Sys2Proof.Machine

/-! PROOFS. Clearing faults, the history queue, the gone set and the completions after a C0 fault (R23, R480, R485, R488 to R490). -/
namespace Sys2Proof.Machine

/-! ## 64-bit registers -/

theorem rd64_congr {s t : State} {a : Nat} (hlo : rd t a = rd s a) (hhi : rd t (a + 4) = rd s (a + 4)) : rd64 t a = rd64 s a := by
  unfold rd64
  rw [hlo, hhi]

theorem rd64_lt (s : State) (a : Nat) : rd64 s a < 2 ^ 64 := by
  unfold rd64
  omega

theorem bitsOf_self (w i : Nat) : bitsOf w i i = (w.testBit i).toNat := by
  rw [bitsOf, Nat.add_sub_cancel_left, pow_one, Nat.toNat_testBit, Nat.shiftRight_eq_div_pow]

/-- A bit that reads 1 weighs no more than its word. -/
theorem two_pow_le_of_bitsOf {w g : Nat} (h : bitsOf w g g = 1) : 2 ^ g ≤ w := by
  rw [bitsOf_self] at h
  exact Nat.ge_two_pow_of_testBit (Bool.toNat_eq_one.mp h)

/-- The bits of a 64-bit register's low word. -/
theorem bitsOf_rd64_low (s : State) (a : Nat) {i : Nat} (hi : i < 32) : bitsOf (rd64 s a) i i = fld (rd s a) i i := by
  rw [fld, bitsOf_self, bitsOf_self, rd64, show (0x100000000 : Nat) = 2 ^ 32 by norm_num, Nat.add_comm,
    Nat.testBit_two_pow_mul_add _ (rd s a).isLt, if_pos hi]

/-! ## FAULT_FIRST is released with the last bit of FAULT_STATUS (R490) -/

theorem releaseFirstFault_regs (s : State) : releaseFirstFault s = { s with regs := (releaseFirstFault s).regs } := by
  unfold releaseFirstFault
  split <;> rfl

theorem rd_releaseFirstFault {s : State} {a : Nat} (h : a ≠ Reg.fault.FAULT_FIRST) : rd (releaseFirstFault s) a = rd s a := by
  unfold releaseFirstFault
  split
  · rw [rd_wrf, if_neg h.symm]
  · rfl

theorem releaseFirstFault_of_pos {s : State} (h : 0 < rd64 s Reg.fault.FAULT_STATUS) : releaseFirstFault s = s :=
  if_neg (by omega)

theorem releaseFirstFault_valid {s : State} (h : rd64 s Reg.fault.FAULT_STATUS = 0) :
    bitsOf (rd64 (releaseFirstFault s) Reg.fault.FAULT_FIRST) 7 7 = 0 := by
  rw [bitsOf_rd64_low _ _ (by decide), releaseFirstFault, if_pos h, rd_wrf, if_pos rfl, fld_withFld _ _ _ _ (by decide), Nat.zero_mod]

/-! ## FAULT_CLEAR of one bit -/

/-- The write of one bit names that bit alone. -/
theorem filter_getLsbD_twoPow : ∀ g : Fin 64, (List.range 64).filter (fun i => (BitVec.ofNat 64 (2 ^ g.val)).getLsbD i) = [g.val] := by
  decide +kernel

theorem faultClear_bit (s : State) (g : Fin 64) : faultClear s (BitVec.ofNat 64 (2 ^ g.val)) = releaseFirstFault (clearBit s g) := by
  unfold faultClear
  rw [filter_getLsbD_twoPow]
  rfl

theorem clearBit_refused {s : State} {g : Nat} (hset : bitsOf (rd64 s Reg.fault.FAULT_STATUS) g g = 1) (h : mayClear s g = false) :
    clearBit s g = count s Reg.fault.CLEAR_REFUSED := by
  unfold clearBit
  rw [if_neg (by omega), if_pos h]

/-- The state in which FAULT_STATUS has lost a bit. -/
def bitCleared (s : State) (g : Nat) : State :=
  setFaults (wr64 s Reg.fault.FAULT_STATUS (rd64 s Reg.fault.FAULT_STATUS - 2 ^ g)) fun f => { f with c1Set := Tbl.del f.c1Set g }

theorem clearBit_cleared {s : State} {g : Nat} (hset : bitsOf (rd64 s Reg.fault.FAULT_STATUS) g g = 1) (h : mayClear s g = true) :
    clearBit s g = if g = 0 then wrf (bitCleared s g) Reg.atrium.STEP_STATUS 3 3 0 else bitCleared s g := by
  unfold clearBit
  rw [if_neg (by omega), if_neg (by simp [h])]
  rfl

theorem rd_bitCleared {s : State} {g a : Nat} (hlo : a ≠ Reg.fault.FAULT_STATUS) (hhi : a ≠ Reg.fault.FAULT_STATUS + 4) :
    rd (bitCleared s g) a = rd s a := by
  show rd (wr64 s _ _) a = _
  rw [rd_wr64, if_neg hhi.symm, if_neg hlo.symm]

theorem rd64_bitCleared (s : State) (g : Nat) :
    rd64 (bitCleared s g) Reg.fault.FAULT_STATUS = rd64 s Reg.fault.FAULT_STATUS - 2 ^ g :=
  rd64_wr64 s _ _ (Nat.lt_of_le_of_lt (Nat.sub_le _ _) (rd64_lt s _))

theorem clearBit_faults {s : State} {g : Nat} (hset : bitsOf (rd64 s Reg.fault.FAULT_STATUS) g g = 1) (h : mayClear s g = true) :
    clearBit s g = { s with faults := { s.faults with c1Set := Tbl.del s.faults.c1Set g }, regs := (clearBit s g).regs } := by
  rw [clearBit_cleared hset h]
  split <;> rfl

theorem rd_clearBit {s : State} {g a : Nat} (hset : bitsOf (rd64 s Reg.fault.FAULT_STATUS) g g = 1) (h : mayClear s g = true)
    (hlo : a ≠ Reg.fault.FAULT_STATUS) (hhi : a ≠ Reg.fault.FAULT_STATUS + 4) (hstep : a ≠ Reg.atrium.STEP_STATUS) :
    rd (clearBit s g) a = rd s a := by
  rw [clearBit_cleared hset h]
  split
  · rw [rd_wrf, if_neg hstep.symm, rd_bitCleared hlo hhi]
  · exact rd_bitCleared hlo hhi

theorem rd64_clearBit {s : State} {g : Nat} (hset : bitsOf (rd64 s Reg.fault.FAULT_STATUS) g g = 1) (h : mayClear s g = true) :
    rd64 (clearBit s g) Reg.fault.FAULT_STATUS = rd64 s Reg.fault.FAULT_STATUS - 2 ^ g := by
  rw [clearBit_cleared hset h, ← rd64_bitCleared]
  split
  · exact rd64_congr (by rw [rd_wrf, if_neg (by decide)]) (by rw [rd_wrf, if_neg (by decide)])
  · rfl

/-- Clearing bit 0 clears TICK_LOST as well. -/
theorem rdf_clearBit_zero {s : State} (hset : bitsOf (rd64 s Reg.fault.FAULT_STATUS) 0 0 = 1) (h : mayClear s 0 = true) :
    rdf (clearBit s 0) Reg.atrium.STEP_STATUS 3 3 = 0 := by
  rw [clearBit_cleared hset h, if_pos rfl, rdf, rd_wrf, if_pos rfl, fld_withFld _ _ _ _ (by decide), Nat.zero_mod]

theorem exec_faultClear_refused {s : State} {g : Fin 64} (hset : bitsOf (rd64 s Reg.fault.FAULT_STATUS) g.val g.val = 1)
    (h : mayClear s g.val = false) : exec (.faultClear (BitVec.ofNat 64 (2 ^ g.val))) s = .next (count s Reg.fault.CLEAR_REFUSED) := by
  show Host.Outcome.next (faultClear s _) = _
  have hstatus : rd64 (count s Reg.fault.CLEAR_REFUSED) Reg.fault.FAULT_STATUS = rd64 s Reg.fault.FAULT_STATUS :=
    rd64_congr (by rw [rd_count, if_neg (by decide)]) (by rw [rd_count, if_neg (by decide)])
  have hpos := (Nat.two_pow_pos g.val).trans_le (two_pow_le_of_bitsOf hset)
  rw [faultClear_bit, clearBit_refused hset h, releaseFirstFault_of_pos (hstatus ▸ hpos)]

theorem exec_faultClear_cleared {s : State} {g : Fin 64} (hset : bitsOf (rd64 s Reg.fault.FAULT_STATUS) g.val g.val = 1)
    (h : mayClear s g.val = true) : ∃ t, exec (.faultClear (BitVec.ofNat 64 (2 ^ g.val))) s = .next t ∧
      rd64 t Reg.fault.FAULT_STATUS = rd64 s Reg.fault.FAULT_STATUS - 2 ^ g.val ∧
      t.faults = { s.faults with c1Set := Tbl.del s.faults.c1Set g.val } ∧ (g.val = 0 → rdf t Reg.atrium.STEP_STATUS 3 3 = 0) ∧
      (rd64 s Reg.fault.FAULT_STATUS = 2 ^ g.val → bitsOf (rd64 t Reg.fault.FAULT_FIRST) 7 7 = 0) ∧
      OnlyRegs { s with faults := t.faults } t
        [Reg.fault.FAULT_STATUS, Reg.fault.FAULT_STATUS + 4, Reg.fault.FAULT_FIRST, Reg.atrium.STEP_STATUS] := by
  have hfaults : (releaseFirstFault (clearBit s g)).faults = { s.faults with c1Set := Tbl.del s.faults.c1Set g.val } := by
    rw [releaseFirstFault_regs, clearBit_faults hset h]
  refine ⟨_, congrArg Host.Outcome.next (faultClear_bit s g), ?_, hfaults, fun h0 => ?_, fun hlast => ?_, ?_, fun a ha => ?_⟩
  · rw [← rd64_clearBit hset h]
    exact rd64_congr (rd_releaseFirstFault (by decide)) (rd_releaseFirstFault (by decide))
  · rw [rdf, rd_releaseFirstFault (by decide), h0]
    rw [h0] at hset h
    exact rdf_clearBit_zero hset h
  · exact releaseFirstFault_valid (by rw [rd64_clearBit hset h, hlast, Nat.sub_self])
  · rw [hfaults, releaseFirstFault_regs, clearBit_faults hset h]
  · simp only [List.mem_cons, List.not_mem_nil, or_false, not_or] at ha
    obtain ⟨hlo, hhi, hfirst, hstep⟩ := ha
    rw [rd_releaseFirstFault hfirst, rd_clearBit hset h hlo hhi hstep]
    rfl

/-! ## The history queue and the gone set -/

/-- A pop of the empty history queue that meets a push does nothing (R23): the written bit is taken from the write. -/
theorem exec_write_histPop_met {s : State} (hempty : s.faults.hist = []) (hmgmt : mgmtReaches s) :
    exec (.registerWrite .mgmt .bar0 Reg.fault.HIST_POP ⟨toLe 4 1, 1⟩) s = .next s := by
  have hmet : metBits s (.reg Reg.fault.HIST_POP) 1 = 0xFFFFFFFF := by
    unfold metBits
    dsimp only
    rw [if_pos rfl, hempty]
    rfl
  have hone : wideAt Reg.fault.HIST_POP = .one := by decide +kernel
  have hpage : pageAt Reg.fault.HIST_POP = some (.fault, 0, 0x94) := by decide +kernel
  refine (exec_registerWrite_word 1 1 hmgmt (by decide) (by decide) (by decide)).trans (congrArg _ ?_)
  unfold writeReg
  rw [hmet, hone]
  dsimp only
  unfold writeOne
  rw [hpage]
  rfl

theorem exec_histPop_empty {s : State} (h : s.faults.hist = []) : ∃ t, exec .histPop s = .next t ∧
    testBit (rd t Reg.fault.HIST_CTRL) 30 = true ∧ OnlyRegs s t [Reg.fault.HIST_CTRL] := by
  have hpop : histPop s false = wr s Reg.fault.HIST_CTRL (setBit (rd s Reg.fault.HIST_CTRL) 30) := by
    unfold histPop
    rw [h]
    rfl
  refine ⟨_, congrArg Host.Outcome.next hpop, ?_, rfl, fun a ha => rd_wr_ne s _ (Ne.symm (by simpa using ha))⟩
  rw [rd_wr_self, testBit_setBit]
  rfl

theorem exec_histPop_cons {s : State} {e : HistEntry} {r : List HistEntry} (h : s.faults.hist = e :: r) :
    exec .histPop s = .next { s with faults := { s.faults with hist := r } } := by
  show Host.Outcome.next (histPop s false) = _
  unfold histPop
  rw [h]
  rfl

theorem exec_goneClear (s : State) (n : BitVec 15) : exec (.goneClear n) s =
    .next { s with faults := { s.faults with gone := s.faults.gone.filter (·.1 ≠ n.toNat) } } := rfl

/-! ## Completions -/

/-- A descriptor that completes with no header and without admission leaves a completion entry alone. -/
theorem refuse_headerless {s : State} {d : Desc} (st detail : Nat) (hhdr : d.hdrOk = false) (hbus : busOk s (vfOf d.chan) = true) :
    refuse s d st detail = postCqe (freshEpoch s).2 d.chan ⟨d.tag, st, BitVec.ofNat 8 d.op, false, d.sqSlot, 0, 0⟩ := by
  have hbus' : busOk (freshEpoch s).2 (vfOf d.chan) = true := hbus
  unfold refuse
  simp only [hhdr, Bool.false_and, Bool.false_eq_true, if_false]
  unfold complete
  simp [hbus']

theorem postCqe_room {s : State} {c : Nat} (q : Cqe) (hw : (chan s c).waiting = []) (hroom : cqFull (chan s c) = false) :
    postCqe s c q = putCqe s c q := by
  simp [postCqe, hw, hroom]

theorem chan_updChan (s : State) (c : Nat) (f : Chan → Chan) : chan (updChan s c f) c = f (chan s c) := by
  rw [chan, updChan, Tbl.get_set_self]
  rfl

/-- A completion entry of a channel that is not armed: one write to the host, and the ring moves on. -/
theorem putCqe_unarmed {s : State} {c : Nat} (q : Cqe) (h : (chan s c).arm = false) :
    putCqe s c q =
      updChan (hostWrite s (vfOf c) ((chan s c).accepted.cqAddr.toNat + 32 * (chan s c).cqTail) (cqeBytes c (chan s c) q)) c fun x =>
        { x with cqTail := ((chan s c).cqTail + 1) % 2 ^ (chan s c).accepted.cqLog,
                 phase := (if ((chan s c).cqTail + 1) % 2 ^ (chan s c).accepted.cqLog = 0 then !x.phase else x.phase),
                 outstanding := x.outstanding - 1, arm := false } := by
  unfold putCqe
  simp [h]

/-- After a C0 fault one descriptor that was still queued completes with NODE_FAULT (R488). -/
theorem nodeFaultCompletions_one {s : State} {d : Desc} (hc0 : s.c0 = true) (hd : s.faults.ended = [d]) (hf : s.faults.endedFlights = [])
    (hh : s.faults.held = []) : nodeFaultCompletions s = refuse { s with faults := { s.faults with ended := [] } } d ST_NODE_FAULT 0 := by
  have hrest : ({ s.faults with ended := [], endedFlights := [], held := [] } : Faults) = { s.faults with ended := [] } := by simp [hf, hh]
  unfold nodeFaultCompletions
  rw [if_pos hc0, hd, hf, hh, ← hrest]
  rfl

/-- Settles O46. -/
theorem faults_are_cleared_and_reported : Obligations.Faults_are_cleared_and_reported := by
  intro s
  refine ⟨?clear, ?popEmpty, ?popMet, ?pop, ?gone, ?noFault, ?completes⟩
  case clear => exact fun g hset => ⟨exec_faultClear_refused hset, exec_faultClear_cleared hset⟩
  case popEmpty => exact exec_histPop_empty
  case popMet => exact exec_write_histPop_met
  case pop => exact fun e r => exec_histPop_cons
  case gone => exact fun n => ⟨_, exec_goneClear s n, fun m => by simp, rfl⟩
  case noFault => exact fun hc0 => congrArg Host.Outcome.next (if_neg (by simp [hc0]))
  case completes =>
    intro d hc0 hd hf hh hhdr hbus ch hw hroom harm
    let s1 : State := { s with faults := { s.faults with ended := [] } }
    have hput : nodeFaultCompletions s =
        putCqe (freshEpoch s1).2 d.chan ⟨d.tag, ST_NODE_FAULT, BitVec.ofNat 8 d.op, false, d.sqSlot, 0, 0⟩ := by
      rw [nodeFaultCompletions_one hc0 hd hf hh, refuse_headerless (s := s1) _ _ hhdr hbus]
      exact postCqe_room _ hw hroom
    refine ⟨_, congrArg Host.Outcome.next hput, ?_⟩
    rw [putCqe_unarmed (s := (freshEpoch s1).2) _ harm]
    refine ⟨rfl, rfl, ?_, rfl, rfl, rfl⟩
    rw [chan_updChan]
    rfl

end Sys2Proof.Machine

/-! PROOFS. The mailboxes (R23 to R25, R533). -/
namespace Sys2Proof.Machine

/-! ## The queues and the status word -/

theorem getD_updAt {α : Type} {l : List α} {n : Nat} (f : α → α) (d : α) (h : n < l.length) : (updAt l n f).getD n d = f (l.getD n d) := by
  simp [List.getD, updAt_getElem?, List.getElem?_eq_getElem h]

theorem mboxIn_setMboxIn {s : State} {n : Nat} (q : List Quad) (h : n < s.chip.intc.mboxIn.length) :
    (setMboxIn s n q).chip.intc.mboxIn.getD n [] = q := getD_updAt _ _ h

theorem mboxOut_setMboxOut {s : State} {n : Nat} (q : List Quad) (h : n < s.chip.intc.mboxOut.length) :
    (setMboxOut s n q).chip.intc.mboxOut.getD n [] = q := getD_updAt _ _ h

theorem setMboxBit_set (s : State) {n bit : Nat} (hb : bit < 32) : testBit (rd (setMboxBit s n bit) (Reg.intc.MBOX_STATUS n)) bit = true := by
  unfold setMboxBit
  rw [rd_wr_self, testBit_setBit]
  simp [hb]

/-- A push that is refused: the count and the sticky bit, and no other register (R24, R25). -/
theorem refusedPush (s : State) (n : Nat) {bit : Nat} (hb : bit < 32) :
    testBit (rd (setMboxBit (count s Reg.intc.MBOX_DROPPED) n bit) (Reg.intc.MBOX_STATUS n)) bit = true ∧
    rd (setMboxBit (count s Reg.intc.MBOX_DROPPED) n bit) Reg.intc.MBOX_DROPPED = counted Reg.intc.MBOX_DROPPED (rd s Reg.intc.MBOX_DROPPED) ∧
    OnlyRegs s (setMboxBit (count s Reg.intc.MBOX_DROPPED) n bit) [Reg.intc.MBOX_DROPPED, Reg.intc.MBOX_STATUS n] := by
  have hne : Reg.intc.MBOX_STATUS n ≠ Reg.intc.MBOX_DROPPED := by unfold Reg.intc.MBOX_STATUS Reg.intc.MBOX_DROPPED; omega
  refine ⟨setMboxBit_set _ hb, (rd_wr_ne _ _ hne).trans (by rw [rd_count, if_pos rfl]), rfl, fun a ha => ?_⟩
  simp only [List.mem_cons, List.not_mem_nil, or_false, not_or] at ha
  exact (rd_wr_ne _ _ (Ne.symm ha.2)).trans (by rw [rd_count, if_neg (Ne.symm ha.1)])

/-! ## Pushes -/

theorem mboxIn_room {s : State} {n : Nat} (v : Quad) (h : (s.chip.intc.mboxIn.getD n []).length < 16) :
    mboxIn s n v = setMboxIn s n (s.chip.intc.mboxIn.getD n [] ++ [v]) := if_pos h

theorem mboxIn_full {s : State} {n : Nat} (v : Quad) (h : 16 ≤ (s.chip.intc.mboxIn.getD n []).length) :
    mboxIn s n v = setMboxBit (count s Reg.intc.MBOX_DROPPED) n 29 := if_neg (by omega)

theorem mboxOut_room {s : State} {n : Nat} (v : Quad) (h : (s.chip.intc.mboxOut.getD n []).length < 16)
    (hne : s.chip.intc.mboxOut.getD n [] ≠ []) : mboxOut s n v = setMboxOut s n (s.chip.intc.mboxOut.getD n [] ++ [v]) := by
  unfold mboxOut
  dsimp only
  rw [if_pos h, if_neg (by simpa using hne)]

theorem mboxOut_full {s : State} {n : Nat} (v : Quad) (h : 16 ≤ (s.chip.intc.mboxOut.getD n []).length) :
    mboxOut s n v = setMboxBit (count s Reg.intc.MBOX_DROPPED) n 31 := if_neg (by omega)

/-- A vector of the physical function that is unmasked is sent unless the function is in D3hot (R426). -/
theorem sendMsix_pf {s : State} {v : Nat} (hu : s.links.pf.unmasked.getLsbD v = true) (hd : s.links.pf.d3 = false) :
    sendMsix s .pf v = hostMsix s .pf v := by
  unfold sendMsix
  simp [pciState, hu, hd]

/-- The value that makes an outbound mailbox non-empty sends its vector (R533). -/
theorem mboxOut_first {s : State} {n : Nat} (v : Quad) (h : s.chip.intc.mboxOut.getD n [] = []) (hu : s.links.pf.unmasked.getLsbD n = true)
    (hd : s.links.pf.d3 = false) : mboxOut s n v = hostMsix (setMboxOut s n [v]) .pf n := by
  unfold mboxOut
  rw [h]
  exact sendMsix_pf hu hd

/-! ## Pops -/

theorem mboxInPop_cons {s : State} {n : Nat} {w : Quad} {r : List Quad} (b : Bool) (h : s.chip.intc.mboxIn.getD n [] = w :: r) :
    mboxInPop s n b = answerQ (setMboxIn s n r) w := by
  unfold mboxInPop
  rw [h]

theorem mboxInPop_nil {s : State} {n : Nat} (b : Bool) (h : s.chip.intc.mboxIn.getD n [] = []) :
    mboxInPop s n b = answerQ (if b then s else setMboxBit s n 28) 0 := by
  unfold mboxInPop
  rw [h]

theorem mboxOutPop_cons {s : State} {n : Nat} {w : Quad} {r : List Quad} (b : Bool) (h : s.chip.intc.mboxOut.getD n [] = w :: r) :
    mboxOutPop s n b = answerQ (setMboxOut s n r) w := by
  unfold mboxOutPop
  rw [h]

theorem mboxOutPop_nil {s : State} {n : Nat} (b : Bool) (h : s.chip.intc.mboxOut.getD n [] = []) :
    mboxOutPop s n b = answerQ (if b then s else setMboxBit s n 30) 0 := by
  unfold mboxOutPop
  rw [h]

/-- Settles O52: each push and pop, with room and without, is one of the cases above. -/
theorem mailboxes_queue_values : Obligations.Mailboxes_queue_values := by
  intro s n v hin hout i o
  have hni : n.val < s.chip.intc.mboxIn.length := by omega
  have hno : n.val < s.chip.intc.mboxOut.length := by omega
  refine ⟨?inRoom, ?inFull, ?inPop, ?inUnderflow, ?inMeets, ?outRoom, ?outFirst, ?outFull, ?outPop, ?outUnderflow, ?outMeets⟩
  case inRoom => exact fun h => congrArg Host.Outcome.next (mboxIn_room v h)
  case inFull => exact fun h => ⟨_, congrArg Host.Outcome.next (mboxIn_full v h), refusedPush s n (by decide)⟩
  case inPop =>
    exact fun w r b h => ⟨_, congrArg Host.Outcome.next (mboxInPop_cons b h), rfl, mboxIn_setMboxIn r hni, rfl⟩
  case inUnderflow =>
    exact fun h => ⟨_, congrArg Host.Outcome.next (mboxInPop_nil false h), rfl, setMboxBit_set s (n := n) (by decide), rfl⟩
  case inMeets => exact fun h => congrArg Host.Outcome.next (mboxInPop_nil true h)
  case outRoom => exact fun h hne => congrArg Host.Outcome.next (mboxOut_room v h hne)
  case outFirst =>
    exact fun h hu hd => ⟨_, congrArg Host.Outcome.next (mboxOut_first v h hu hd), mboxOut_setMboxOut [v] hno, rfl⟩
  case outFull =>
    intro h
    obtain ⟨hbit, -, hregs⟩ := refusedPush s n.val (bit := 31) (by decide)
    exact ⟨_, congrArg Host.Outcome.next (mboxOut_full v h), hbit, hregs⟩
  case outPop =>
    exact fun w r b h => ⟨_, congrArg Host.Outcome.next (mboxOutPop_cons b h), rfl, mboxOut_setMboxOut r hno, rfl⟩
  case outUnderflow =>
    exact fun h => ⟨_, congrArg Host.Outcome.next (mboxOutPop_nil false h), rfl, setMboxBit_set s (n := n) (by decide), rfl⟩
  case outMeets => exact fun h => congrArg Host.Outcome.next (mboxOutPop_nil true h)

end Sys2Proof.Machine

/-! PROOFS. What an error leaves of the registers beyond those of the collector (R18, R19, R477), and the PCIe link (R437). -/
namespace Sys2Proof.Machine

/-! ## The collector writes below the PCIe page, and a load that it aborts in the tenants' banks, above every BAR0 page -/

section
variable {s : State} {a : Nat} (hlo : 0x6000 ≤ a) (hhi : a < 0x21000000)
include hlo

theorem rd_wr_low {b : Nat} (w : Word) (hb : b < 0x6000) : rd (wr s b w) a = rd s a :=
  rd_wr_ne s w (by omega)

theorem rd_count_low {b : Nat} (hb : b < 0x6000) : rd (count s b) a = rd s a :=
  rd_wr_low hlo _ hb

theorem rd_wr64_low {b : Nat} (v : Nat) (hb : b + 4 < 0x6000) : rd (wr64 s b v) a = rd s a := by
  rw [wr64, rd_wr_low hlo _ hb, rd_wr_low hlo _ (by omega)]

theorem rd_raiseEvt_low {b : Nat} (k : Nat) (hb : b + 0x28 < 0x6000) : rd (raiseEvt s b k) a = rd s a :=
  rd_raiseEvt_ne s k (by omega)

theorem rd_pushHist (e : HistEntry) : rd (pushHist s e) a = rd s a := by
  unfold pushHist
  split
  · rfl
  · rw [rd_wr_low hlo _ (by decide), rd_count_low hlo (by decide)]

/-- First-error capture writes the collector's own registers. -/
theorem rd_capture (k : PageKind) (n b : Nat) (c : FClass) : rd (capture s k n b c) a = rd s a := by
  unfold capture
  extract_lets e s1
  have h1 : rd s1 a = rd s a := by
    unfold s1
    split
    · split
      · rfl
      · split
        · rw [rd_wr64_low hlo _ (by decide), rd_wr64_low hlo _ (by decide)]
        · exact rd_wr_low hlo _ (by decide)
    · split
      · rfl
      · exact rd_pushHist hlo _
  split
  · rw [rd_wr64_low hlo _ (by decide), rd_wr64_low hlo _ (by decide), h1]
  · exact h1

theorem rd_setFaultBit (g : Nat) : rd (setFaultBit s g) a = rd s a := by
  unfold setFaultBit
  dsimp only
  split <;> exact rd_wr64_low hlo _ (by decide)

include hhi

theorem rd_setUse (t : Nat) : rd (setUse s t) a = rd s a := by
  unfold setUse
  dsimp only
  rw [rd_wr_ne _ _ (by unfold ftBank; omega), rd_wr_ne _ _ (by unfold ftBank; omega)]

theorem rd_abortCollLoad : rd (abortCollLoad s) a = rd s a := by
  unfold abortCollLoad
  split
  · rfl
  · rw [rd_setUse hlo hhi]
    show rd (wr s Reg.sched.COLL_STATUS 9) a = rd s a
    exact rd_wr_low hlo _ (by decide)

theorem rd_abortTableLoad : rd (abortTableLoad s) a = rd s a := by
  unfold abortTableLoad
  split
  · rfl
  · rw [rd_setUse hlo hhi, rd_raiseEvt_low hlo _ (by decide)]
    show rd (wr s Reg.sched.TABLE_STATUS 9) a = rd s a
    exact rd_wr_low hlo _ (by decide)

theorem rd_abortLoads : rd (abortLoads s) a = rd s a := by
  rw [abortLoads, rd_abortTableLoad hlo hhi, rd_abortCollLoad hlo hhi]

/-- Collecting an error that is not of class C0 leaves every register between the collector's and the tenants' banks. -/
theorem rd_collect {k : PageKind} {n b : Nat} (hc : errClass k b ≠ .c0) : rd (collect s k n b) a = rd s a := by
  unfold collect
  cases hcls : errClass k b with
  | c0 => exact absurd hcls hc
  | c1 =>
    dsimp only
    rw [rd_raiseEvt_low hlo _ (by decide), rd_setFaultBit hlo, rd_capture hlo, rd_abortLoads hlo hhi]
  | c2 =>
    dsimp only
    rw [rd_capture hlo, rd_raiseEvt_low hlo _ (by decide), rd_count_low hlo (by decide)]

end

/-- An error that is not of class C0 sets its bit in the page's ERR_STAT and counts in ERR_COUNT, masked or not (R18, R19). -/
theorem raiseErr_page {s : State} {k : PageKind} {n b : Nat} (hlo : 0x6000 ≤ pageBase k n) (hhi : pageBase k n < 0x20000000)
    (hc : errClass k b ≠ .c0) :
    rd (raiseErr s k n b) (pageBase k n + 0x30) = setBit (rd s (pageBase k n + 0x30)) b ∧
    rd (raiseErr s k n b) (pageBase k n + 0x3C) = counted (pageBase k n + 0x3C) (rd s (pageBase k n + 0x3C)) := by
  generalize hp : pageBase k n = p at *
  let s1 := count (wr s (p + 0x30) (setBit (rd s (p + 0x30)) b)) (p + 0x3C)
  have h1 : rd s1 (p + 0x30) = setBit (rd s (p + 0x30)) b := by rw [rd_count, if_neg (by omega), rd_wr_self]
  have h2 : rd s1 (p + 0x3C) = counted (p + 0x3C) (rd s (p + 0x3C)) := by rw [rd_count, if_pos rfl, rd_wr_ne _ _ (by omega)]
  unfold raiseErr
  rw [hp]
  dsimp only
  split
  · exact ⟨h1, h2⟩
  · rw [rd_collect (by omega) (by omega) hc, rd_collect (by omega) (by omega) hc]
    split
    · exact ⟨h1, h2⟩
    · rw [rd_wr_ne _ _ (by omega), rd_wr_ne _ _ (by omega)]
      exact ⟨h1, h2⟩

theorem errClass_pcie_ne_c0 (b : Nat) : errClass .pcie b ≠ .c0 := by
  unfold errClass
  dsimp only
  split <;> nofun

/-! ## The link (R437) -/

/-- STATUS of a link in use: LINK_UP, RATE, WIDTH and FLIT, each in its field. -/
theorem fld_linkStatus {rate w : Nat} (flit : Bool) (hrate : rate < 8) (hw : w < 32) :
    let v : Word := BitVec.ofNat 32 (flit.toNat * 512 + (w % 32) * 16 + rate * 2 + 1)
    fld v 0 0 = 1 ∧ fld v 3 1 = rate ∧ fld v 8 4 = w ∧ fld v 9 9 = flit.toNat := by
  have hf := Bool.toNat_le flit
  have hv : (BitVec.ofNat 32 (flit.toNat * 512 + (w % 32) * 16 + rate * 2 + 1)).toNat = flit.toNat * 512 + w * 16 + rate * 2 + 1 := by
    rw [BitVec.toNat_ofNat]
    omega
  dsimp only
  simp only [fld, bitsOf, hv, Nat.shiftRight_eq_div_pow]
  omega

/-- The trained link: STATUS, and LINK_CHANGE where it changed. -/
theorem linkChange_trained {s : State} {rate w : Nat} (flit : Bool) (h : rate ≠ 0) :
    rd (linkChange s rate w flit) pcieStatusReg = BitVec.ofNat 32 (flit.toNat * 512 + (w % 32) * 16 + rate * 2 + 1) ∧
    OnlyRegs s (linkChange s rate w flit) [pcieStatusReg, pageBase .pcie 0 + 0x28] := by
  unfold linkChange
  simp only [if_neg h]
  split
  · refine ⟨?_, ?_, fun a ha => ?_⟩
    · rw [rd_raiseEvt_ne _ _ (by decide), rd_wr_self]
    · rw [raiseEvt_regs]
      rfl
    · simp only [List.mem_cons, List.not_mem_nil, or_false, not_or] at ha
      rw [rd_raiseEvt_ne _ _ (Ne.symm ha.2), rd_wr_ne _ _ (Ne.symm ha.1)]
  · refine ⟨rd_wr_self _ _ _, rfl, fun a ha => rd_wr_ne _ _ fun h => ha ?_⟩
    simp [h]

/-- Settles O5: STATUS holds the trained values; an error's bit and count are those of `raiseErr_page`, and a masked one goes no further. -/
theorem pcieLink_and_its_errors_are_reported : Obligations.PcieLink_and_its_errors_are_reported := by
  refine ⟨fun s rate w flit hrate hw => ?_, fun s k bit hk => ?_⟩
  · obtain ⟨hstatus, honly⟩ := linkChange_trained (s := s) (w := w) flit hrate
    refine ⟨_, rfl, honly, ?_⟩
    rw [hstatus]
    exact fld_linkStatus flit (by omega) hw
  · have hexec : exec (.aerError k) s = .next (raiseErr s .pcie 0 bit) ∧ bit < 32 := by
      simp only [List.mem_cons, Prod.mk.injEq, List.not_mem_nil, or_false] at hk
      obtain ⟨rfl, rfl⟩ | ⟨rfl, rfl⟩ | ⟨rfl, rfl⟩ := hk
      all_goals exact ⟨rfl, by decide⟩
    obtain ⟨hnext, hbit⟩ := hexec
    obtain ⟨hset, hcount⟩ := raiseErr_page (s := s) (n := 0) (by decide) (by decide) (errClass_pcie_ne_c0 bit)
    refine ⟨_, hnext, ?_, hcount, fun hmask => ?_⟩
    · rw [hset, testBit_setBit]
      simp [hbit]
    · rw [raiseErr_masked s .pcie 0 bit hmask (errClass_pcie_ne_c0 bit)]
      refine ⟨rfl, fun a ha => ?_⟩
      simp only [List.mem_cons, List.not_mem_nil, or_false, not_or] at ha
      rw [rd_count, if_neg (Ne.symm ha.2), rd_wr_ne _ _ (Ne.symm ha.1)]

end Sys2Proof.Machine

/-! PROOFS. The latches and MODE_HALL across a step, and what a node reset and a power cycle leave (R29, R155, R486, R559, R566, R567, R571). -/
namespace Sys2Proof.Machine

/-! ## NODE_RESET, by what it meets -/

/-- With stable clocks and nothing latched the node starts afresh. -/
theorem nodeReset_of_unlatched {s : State} (m : Bool) (slot : Nat) (hclk : s.chip.aux.clocks = true) (hc0 : s.c0 = false)
    (hseq : s.chip.aux.seqViolation = false) :
    nodeReset s m slot = afterReset s s.chip.aux ⟨true, s.chip.pins.perstN, m, slot⟩ (tapAfterReset s.chip.test.ir) := by
  unfold nodeReset
  rw [if_neg (by simp [hclk]), if_neg (by simp [hc0, hseq])]

/-- A latched fault or sequencing violation confines it to the pin (R567). -/
theorem nodeReset_of_latched {s : State} (m : Bool) (slot : Nat) (hclk : s.chip.aux.clocks = true)
    (hlatch : s.c0 = true ∨ s.chip.aux.seqViolation = true) :
    nodeReset s m slot = { s with chip := { s.chip with pins := { s.chip.pins with resetN := true } } } := by
  unfold nodeReset
  rw [if_neg (by simp [hclk]), if_pos hlatch]

/-- With or without stable clocks it leaves the VDD_AUX domain as it stands (R567). -/
theorem nodeReset_aux (s : State) (m : Bool) (slot : Nat) : (nodeReset s m slot).chip.aux = s.chip.aux := by
  unfold nodeReset
  split
  · rfl
  · split <;> rfl

/-! ## The C0 latch and MODE_HALL -/

/-- A rail's crossing takes the C0 latch only as it goes off and leaves no rail up (R486). -/
theorem railMove_c0 {x : Aux} {r : Nat} {cross : RailCross} {us : Nat} (hx : x.c0 = true)
    (hup : cross = .off → (updAt x.rails r fun _ => Rail.off).any (·.above) = true) : (railMove x r cross us).c0 = true := by
  cases cross with
  | aboveTenth => exact hx
  | belowMin => exact hx
  | valid =>
    have hlog : (logRail x r).c0 = true := by
      unfold logRail
      split <;> exact hx
    show Aux.c0 (if railOffends x.rails r us then _ else x) = true
    split
    · exact hlog
    · exact hx
  | off =>
    have hkeep : (x.c0 && (updAt x.rails r fun _ => Rail.off).any (·.above)) = true := by rw [hx, hup rfl]; rfl
    show Aux.c0 (if r ≠ 0 then _ else _) = true
    split <;> exact hkeep

/-- What a command can do to the latches and the straps: all but three kinds keep them, and of those three POWER_CYCLE alone goes through neither
`railMove` nor `nodeReset`. -/
theorem exec_latch_cases {c : Instr} {s t : State} (e : exec c s = .next t) :
    Kept s t ∨ (∃ rail cross us, c = .railTransition rail cross us ∧ t = updAux s (railMove · rail.val cross us)) ∨
    (∃ m slot, c = .nodeReset m slot ∧ t = nodeReset s m slot.val) ∨ c = .powerCycle := by
  cases hc : movesLatches c with
  | false => exact .inl (exec_kept hc e)
  | true =>
    unfold movesLatches at hc
    split at hc
    case h_1 rail cross us =>
      cases e
      exact .inr (.inl ⟨rail, cross, us, rfl, rfl⟩)
    case h_2 => exact .inr (.inr (.inr rfl))
    case h_3 m slot =>
      cases e
      exact .inr (.inr (.inl ⟨m, slot, rfl, rfl⟩))
    case h_4 => cases hc

/-- A command other than POWER_CYCLE and the removal of the last rail that is up keeps a latched C0 fault (R486). -/
theorem exec_c0 {c : Instr} {s t : State} (hpower : c ≠ .powerCycle)
    (hrail : ∀ (rail : Fin 12) us, c = .railTransition rail .off us →
      (updAt s.chip.aux.rails rail.val fun _ => Rail.off).any (·.above) = true)
    (e : exec c s = .next t) (h : s.c0 = true) : t.c0 = true := by
  obtain hkept | ⟨rail, cross, us, rfl, rfl⟩ | ⟨m, slot, rfl, rfl⟩ | hpc := exec_latch_cases e
  · exact hkept.c0 h
  · exact railMove_c0 h fun hoff => hrail rail us (hoff ▸ rfl)
  · exact (congrArg Aux.c0 (nodeReset_aux s m slot)).trans h
  · exact absurd hpc hpower

/-- A command that does not sample the straps keeps MODE_HALL (R29). -/
theorem exec_hall {c : Instr} {s t : State} (hpower : c ≠ .powerCycle) (hreset : ∀ m slot, c ≠ .nodeReset m slot)
    (e : exec c s = .next t) : t.hall = s.hall := by
  obtain hkept | ⟨_, _, _, rfl, rfl⟩ | ⟨m, slot, hnr, _⟩ | hpc := exec_latch_cases e
  · exact hkept.hall
  · rfl
  · exact absurd hnr (hreset m slot)
  · exact absurd hpc hpower

/-- A step runs the front command on the state with the queue's rest, or idles. -/
theorem step_cases {s t : State} (e : step s = .next t) :
    t = idleTick s ∨ ∃ c rest, s.pending.head? = some c ∧ exec c { s with pending := rest } = .next t := by
  unfold step at e
  split at e
  · cases e
    exact .inl rfl
  · next c rest hq => exact .inr ⟨c, rest, by rw [hq]; rfl, e⟩

/-- Settles O59: only a rail, POWER_CYCLE and NODE_RESET can reach the latch or the straps, and NODE_RESET keeps the VDD_AUX domain. -/
theorem steps_keep_the_latch_and_the_mode : Obligations.Steps_keep_the_latch_and_the_mode := by
  refine ⟨fun s t h hpower hrail e => ?_, fun s t hpower hreset e => ?_⟩
  · have hc0 : t.c0 = true := by
      obtain rfl | ⟨c, rest, hq, e⟩ := step_cases e
      · exact (idleTick_kept (.refl s)).c0 h
      · rw [hq] at hpower hrail
        exact exec_c0 (s := { s with pending := rest }) (fun hc => hpower (hc ▸ rfl)) (fun rail us hc => hrail rail us (hc ▸ rfl)) e h
    exact ⟨hc0, congrArg (!·) hc0⟩
  · obtain rfl | ⟨c, rest, hq, e⟩ := step_cases e
    · exact (idleTick_kept (.refl s)).hall
    · rw [hq] at hpower hreset
      exact exec_hall (s := { s with pending := rest }) (fun hc => hpower (hc ▸ rfl)) (fun m slot hc => hreset m slot (hc ▸ rfl)) e

/-! ## The flash across a reset -/

/-- Releasing several ranges filters whatever list releasing one of them filters by its range. -/
theorem foldl_release {α : Type} (part : Flash → List α) (range : α → Nat)
    (hpart : ∀ (f : Flash) r, part (f.release r) = (part f).filter (range · ≠ r)) (l : List Nat) (f : Flash) :
    part (l.foldl Flash.release f) = (part f).filter (range · ∉ l) := by
  induction l generalizing f with
  | nil => simp
  | cons r l ih =>
    rw [List.foldl_cons, ih, hpart, List.filter_filter]
    refine List.filter_congr fun x _ => ?_
    simp [Bool.and_comm]

theorem Tbl.get_filter {α : Type} (t : Tbl α) {p : Nat → Bool} {k : Nat} (hk : p k = true) : Tbl.get (t.filter fun x => p x.1) k = Tbl.get t k := by
  induction t with
  | nil => rfl
  | cons x t ih =>
    obtain ⟨j, v⟩ := x
    by_cases hj : j = k
    · subst hj
      simp [hk, Tbl.get]
    · by_cases hp : p j = true <;> simp [hp, hj, Tbl.get, ih]

section
variable (s : State) (f : Flash)

/-- The mapping, the journal and LOST_MAP after a reset are what they were, without the ranges of objects that were LOADING or DRAINING (R155). -/
theorem flashAfterReset_plots :
    (flashAfterReset s f).plots = f.plots.filter fun x => decide (x.1 / 2 ^ 32 ∉ emptiedRanges s) :=
  foldl_release (·.plots) (·.1 / 2 ^ 32) (fun _ _ => rfl) _ f

theorem flashAfterReset_journal : (flashAfterReset s f).journal = f.journal.filter (·.coll ∉ emptiedRanges s) :=
  foldl_release (·.journal) (·.coll) (fun _ _ => rfl) _ f

theorem flashAfterReset_lost : (flashAfterReset s f).lost = f.lost.filter (·.range ∉ emptiedRanges s) :=
  foldl_release (·.lost) (·.range) (fun _ _ => rfl) _ f

theorem flashAfterReset_spill : (flashAfterReset s f).spill = f.spill.filter fun x => decide (x.1 / 2 ^ 40 ∉ emptiedRanges s) :=
  foldl_release (·.spill) (·.1 / 2 ^ 40) (fun _ _ => rfl) _ f

end

/-- What the flash `g` keeps of the flash `f` when the objects of some ranges become EMPTY: the mapping, journal and LOST_MAP of every other range,
nothing of those, and the spill index where there are none. -/
structure KeepsButRanges (ranges : List Nat) (f g : Flash) : Prop where
  plot : ∀ k, k / 2 ^ 32 ∉ ranges → Tbl.get g.plots k = Tbl.get f.plots k
  plotRange : ∀ k q, (k, q) ∈ g.plots → k / 2 ^ 32 ∉ ranges
  journal : ∀ j, j ∈ g.journal ↔ j ∈ f.journal ∧ j.coll ∉ ranges
  lost : ∀ l, l ∈ g.lost ↔ l ∈ f.lost ∧ l.range ∉ ranges
  spill : ranges = [] → g.spill = f.spill

theorem flashAfterReset_keeps (s : State) (f : Flash) : KeepsButRanges (emptiedRanges s) f (flashAfterReset s f) where
  plot k hk := by
    rw [flashAfterReset_plots]
    exact Tbl.get_filter f.plots (p := fun k => decide (k / 2 ^ 32 ∉ emptiedRanges s)) (decide_eq_true hk)
  plotRange k q hmem := by
    rw [flashAfterReset_plots] at hmem
    exact of_decide_eq_true (List.mem_filter.mp hmem).2
  journal j := by simp [flashAfterReset_journal]
  lost l := by simp [flashAfterReset_lost]
  spill hnone := by simp [flashAfterReset_spill, hnone]

/-- Settles O2: POWER_CYCLE and an unlatched NODE_RESET both leave `afterReset`, whose flash `flashAfterReset_keeps` describes; a latched NODE_RESET
stops at the pin. -/
theorem resets_keep_what_outlives_them : Obligations.Resets_keep_what_outlives_them := by
  unfold Obligations.Resets_keep_what_outlives_them
  intro kept
  have hkept (s : State) (aux : Aux) (pins : Pins) (ir : Byte) : kept s (afterReset s aux pins ir) := by
    obtain ⟨hplot, hrange, hjournal, hlost, hspill⟩ := flashAfterReset_keeps s s.mem.flash
    exact ⟨hplot, hrange, hjournal, hlost, hspill⟩
  refine ⟨fun s => ?_, fun s m slot hclk hc0 hseq => ?_, fun s m slot hclk hlatch => ?_⟩
  · exact ⟨_, rfl, rfl, rfl, rfl, rfl, rfl, rfl, hkept _ _ _ _, rfl⟩
  · exact ⟨_, congrArg Host.Outcome.next (nodeReset_of_unlatched m slot.val hclk hc0 hseq),
      rfl, rfl, rfl, rfl, rfl, rfl, rfl, rfl, rfl, hkept _ _ _ _, rfl⟩
  · exact congrArg Host.Outcome.next (nodeReset_of_latched m slot.val hclk hlatch)

end Sys2Proof.Machine

/-! PROOFS. Changes of the register file alone, and STEP_MARK frames (R45, R446, R465). -/
namespace Sys2Proof.Machine

/-! ## Changes of the register file alone -/

/-- `t` is `s` but for the words of the register file at the addresses of `P`. -/
structure RegsWithin (P : Nat → Prop) (s t : State) : Prop where
  eq : t = { s with regs := t.regs }
  rd : ∀ a, ¬ P a → rd t a = rd s a

namespace RegsWithin
variable {P Q : Nat → Prop} {s t u : State} {a : Nat}

theorem refl (P : Nat → Prop) (s : State) : RegsWithin P s s := ⟨rfl, fun _ _ => rfl⟩

theorem trans (h : RegsWithin P s t) (k : RegsWithin P t u) : RegsWithin P s u :=
  ⟨k.eq.trans (by rw [h.eq]), fun a ha => (k.rd a ha).trans (h.rd a ha)⟩

theorem mono (h : RegsWithin P s t) (hPQ : ∀ a, P a → Q a) : RegsWithin Q s t := ⟨h.eq, fun a ha => h.rd a fun hp => ha (hPQ a hp)⟩

theorem onlyRegs {l : List Nat} (h : RegsWithin (· ∈ l) s t) : OnlyRegs s t l := ⟨h.eq, h.rd⟩

theorem wr (w : Word) (ha : P a) : RegsWithin P s (wr s a w) := ⟨rfl, fun _ hb => rd_wr_ne s w fun e => hb (e ▸ ha)⟩

theorem wrf {hi lo v : Nat} (ha : P a) : RegsWithin P s (wrf s a hi lo v) := wr _ ha

theorem wr64 {v : Nat} (hlo : P a) (hhi : P (a + 4)) : RegsWithin P s (wr64 s a v) := (wr _ hlo).trans (wr _ hhi)

theorem count (ha : P a) : RegsWithin P s (count s a) := wr _ ha

theorem countBy {n : Nat} (ha : P a) : RegsWithin P s (countBy s a n) := wr _ ha

theorem count64 (hlo : P a) (hhi : P (a + 4)) : RegsWithin P s (count64 s a) := wr64 hlo hhi

theorem countN (ha : P a) (n : Nat) (s : State) : RegsWithin P s (countN s a n) :=
  ⟨countN_regs a n s, fun b hb => rd_countN_ne (fun e : a = b => hb (e ▸ ha)) n s⟩

theorem raiseEvt {b k : Nat} (ha : P (b + 0x28)) : RegsWithin P s (raiseEvt s b k) :=
  ⟨raiseEvt_regs s b k, fun c hb => rd_raiseEvt_ne s k fun e : b + 0x28 = c => hb (e ▸ ha)⟩

/-- The same beside another schedule. -/
theorem withSched (h : RegsWithin P s t) (x : Sched) : RegsWithin P { s with sched := x } { t with sched := x } :=
  ⟨by rw [h.eq], h.rd⟩

end RegsWithin

/-! ## STEP_MARK -/

/-- An answer of the ingress checks that, where it delivers the frame, has a property. -/
def Delivers (P : State → Prop) (r : State × Bool) : Prop := r.2 = true → P r.1

theorem Delivers.ite {P : State → Prop} {c : Prop} [Decidable c] {x y : State × Bool} (hx : Delivers P x) (hy : Delivers P y) :
    Delivers P (if c then x else y) := by
  split <;> assumption

theorem Delivers.drop {P : State → Prop} (s : State) : Delivers P (s, false) := nofun

/-- What every frame is counted as that passes the ingress checks (R446): each check drops it, or goes on to the next one. -/
theorem ingress_delivers {P : State → Prop} {s : State} {f : Frame} (hone : P (count64 s (Reg.port.RX_FRAMES f.port.val)))
    (hmany : P (count64 (count s (Reg.port.MULTI_MATCH f.port.val)) (Reg.port.RX_FRAMES f.port.val))) : Delivers P (ingress s f) := by
  unfold ingress
  dsimp only
  refine .ite (.drop _) <| .ite (.drop _) <| .ite (.drop _) <| .ite (.drop _) <| .ite (.drop _) <| .ite (.drop _) <| .ite (.drop _) <|
    .ite (fun _ => hone) <| .ite (.drop _) <| .ite (.drop _) ?_
  split
  · exact .drop _
  · refine .ite (.drop _) <| .ite (.drop _) <| .ite (.drop _) fun _ => ?_
    dsimp only
    split
    · exact hmany
    · exact hone

theorem port_counters_above (n : Nat) :
    0x10000 ≤ Reg.port.RX_FRAMES n ∧ 0x10000 ≤ Reg.port.RX_FRAMES n + 4 ∧ 0x10000 ≤ Reg.port.MULTI_MATCH n := by
  unfold Reg.port.RX_FRAMES Reg.port.MULTI_MATCH
  omega

/-- A frame that passes the ingress checks has changed counters of its port alone, which lie above the atrium page. -/
theorem delivered_regs {s : State} {f : Frame} (h : accepts s f) : RegsWithin (0x10000 ≤ ·) s (delivered s f) := by
  obtain ⟨hrx, hrx4, hmm⟩ := port_counters_above f.port.val
  exact ingress_delivers (.count64 hrx hrx4) ((RegsWithin.count hmm).trans (.count64 hrx hrx4)) h

theorem delivered_step {s : State} {f : Frame} (h : accepts s f) : (delivered s f).step = s.step := by rw [(delivered_regs h).eq]

/-- A STEP_MARK frame that passes the ingress checks reaches its agent (R465). -/
theorem exec_stepMark {s : State} {f : Frame} (htyp : f.typ = 0x02) (h : accepts s f) (hhall : s.hall = true) :
    exec (.stepMark f) s = .next (stepMark (delivered s f) f) := by
  have hu : (delivered s f).hall = true := by
    unfold State.hall
    rw [(delivered_regs h).eq]
    exact hhall
  show Host.Outcome.next (receive s f 0x02 _) = _
  unfold receive
  unfold delivered at hu ⊢
  unfold accepts at h
  simp [htyp, h, hu]

/-- Settles O14: past the ingress checks the number is compared with STEP_COUNT, and what the agent then writes lies in the atrium page, below the
counters of `delivered_regs`. -/
theorem stepMark_becomes_pending : Obligations.StepMark_becomes_pending := by
  intro s f htyp hacc hhall
  have hstep := delivered_step hacc
  have hexec := exec_stepMark htyp hacc hhall
  intro n u
  rw [hexec]
  refine ⟨fun hlate => ?_, fun hfirst => ?_, fun hnew hnone => ?_⟩
  · have e : stepMark u f = count u Reg.atrium.MARK_LATE := by
      unfold stepMark
      exact if_pos (by rw [hstep]; exact hlate)
    refine ⟨_, rfl, ?_, ?_⟩
    · rw [e, rd_count, if_pos rfl, (delivered_regs hacc).rd _ (by decide)]
    · rw [e]
      exact (RegsWithin.count (P := (· ∈ [Reg.atrium.MARK_LATE])) (by simp)).onlyRegs
  · have e : stepMark u f = u := by
      unfold stepMark
      dsimp only
      rw [if_neg (by rw [hstep]; simp [hfirst.1]), if_pos (by rw [hstep]; exact hfirst)]
    rw [e]
  · have e : stepMark u f = Machine.wr64 { u with step := { u.step with mark := some n } } Reg.atrium.STEP_MARK (2 ^ 63 + n.toNat) := by
      unfold stepMark
      dsimp only
      rw [if_neg (by rw [hstep]; exact fun hl => hnew hl.1 hl.2), if_neg (by rw [hstep]; exact fun hl => by simp [hnone hl.1] at hl)]
    refine ⟨_, rfl, ?_, ?_, ?_⟩
    · rw [e, wr64_step]
      exact congrArg (fun x : Step => { x with mark := some n }) hstep
    · rw [e, rd64_wr64 _ _ _ (by have := n.isLt; omega)]
    · rw [e]
      exact (RegsWithin.wr64 (P := (· ∈ [Reg.atrium.STEP_MARK, Reg.atrium.STEP_MARK + 4])) (by simp) (by simp)).onlyRegs

end Sys2Proof.Machine

/-! PROOFS. The ticks of both modes (R37 to R39, R45, R387). -/
namespace Sys2Proof.Machine

/-! ## What a tick leaves -/

/-- The registers that a tick without a pending STEP_MARK number may write. -/
def tickRegs : List Nat := [pageBase .atrium 0 + 0x28, pageBase .sched 0 + 0x28, Reg.sched.OVERRUN_COUNT, Reg.sched.TP_LATE]

theorem RegsWithin.exists {P : Nat → Prop} {s t : State} (h : RegsWithin P s t) : ∃ r, t = { s with regs := r } := ⟨_, h.eq⟩

theorem overruns_frame (s : State) :
    (∃ r sched, overruns s = { s with regs := r, sched := sched }) ∧ ∀ a, a ∉ tickRegs → rd (overruns s) a = rd s a := by
  unfold overruns
  dsimp only
  have h (n : Nat) (t : State) : RegsWithin (· ∈ tickRegs) t (countN t Reg.sched.OVERRUN_COUNT n) := .countN (by simp [tickRegs]) n t
  obtain ⟨r, e⟩ := (h _ _).exists
  exact ⟨⟨r, _, e⟩, (h _ _).rd⟩

theorem lateTps_frame (s : State) :
    (∃ r c, lateTps s = { s with regs := r, store := { s.store with colls := c } }) ∧ ∀ a, a ∉ tickRegs → rd (lateTps s) a = rd s a := by
  unfold lateTps
  refine List.foldlRecOn _ _ (motive := fun t => (∃ r c, t = { s with regs := r, store := { s.store with colls := c } }) ∧
    ∀ a, a ∉ tickRegs → rd t a = rd s a) ⟨⟨_, _, rfl⟩, fun _ _ => rfl⟩ fun t ⟨ht, hrd⟩ p _ => ?_
  dsimp only
  split
  · exact ⟨ht, hrd⟩
  · have h (u : State) : RegsWithin (· ∈ tickRegs) u (raiseEvt (count u Reg.sched.TP_LATE) (pageBase .sched 0) 11) :=
      (RegsWithin.count (by simp [tickRegs])).trans (.raiseEvt (by simp [tickRegs]))
    obtain ⟨r, c, rfl⟩ := ht
    obtain ⟨q, e⟩ := (h _).exists
    exact ⟨⟨q, _, e⟩, fun a ha => ((h _).rd a ha).trans (hrd a ha)⟩

/-- The step that a tick without a pending STEP_MARK number opens (R38, R39, R45): in hall mode a run of mismatches ends. -/
def stepAfter (s : State) : Step :=
  { s.step with count := s.step.count + 1, ticks := s.step.ticks + 1, seam := true, everRun := true, noToken := [],
                mismatchRun := if s.hall then 0 else s.step.mismatchRun }

theorem markAtTick_none {s : State} (h : s.step.mark = none) : markAtTick s = setStep s fun p => { p with mismatchRun := 0 } := by
  unfold markAtTick
  rw [h]

/-- The state in which that tick has opened the seam. -/
def seamOpened (s : State) : State := { s with step := stepAfter s }

theorem mark_seamOpened {s : State} (hmark : s.hall = true → s.step.mark = none) :
    let u := setStep s fun p => { p with count := p.count + 1, ticks := p.ticks + 1, seam := true, everRun := true, noToken := [] }
    (if s.hall then markAtTick u else u) = seamOpened s := by
  intro u
  split
  · next hhall =>
    rw [markAtTick_none (s := u) (hmark hhall)]
    simp [u, setStep, seamOpened, stepAfter, hhall]
  · next hhall => simp [u, setStep, seamOpened, stepAfter, hhall]

/-- A tick without a pending STEP_MARK number: what it counts first, the seam, and what follows it. -/
theorem tick_eq {s : State} (hmark : s.hall = true → s.step.mark = none) :
    tick s = forceChans (lateTps (seamOpened (overruns (raiseEvt s (pageBase .atrium 0) 0)))) := by
  let u := overruns (raiseEvt s (pageBase .atrium 0) 0)
  have hstep : u.step = s.step := by simp [u, overruns]
  have hhall : u.hall = s.hall := by simp [u, overruns, State.hall]
  rw [show overruns (raiseEvt s (pageBase .atrium 0) 0) = u from rfl, ← mark_seamOpened (s := u) (by rwa [hstep, hhall]), hhall]
  rfl

/-- A tick without a pending STEP_MARK number opens the seam and puts the channel entries accepted before in force; beside them only flights,
collections and `tickRegs` differ. -/
theorem tick_frame {s : State} (hmark : s.hall = true → s.step.mark = none) :
    (∃ r sched c, tick s = { s with
      regs := r, step := stepAfter s, sched := sched
      store := { s.store with colls := c, chans := s.store.chans.map fun p => (p.1, { p.2 with force := p.2.accepted }) } }) ∧
    ∀ a, a ∉ tickRegs → rd (tick s) a = rd s a := by
  have hevt : RegsWithin (· ∈ tickRegs) s (raiseEvt s (pageBase .atrium 0) 0) := .raiseEvt (by simp [tickRegs])
  obtain ⟨r0, e0⟩ := hevt.exists
  obtain ⟨⟨r1, sched, e1⟩, h1⟩ := overruns_frame (raiseEvt s (pageBase .atrium 0) 0)
  obtain ⟨⟨r3, c, e3⟩, h3⟩ := lateTps_frame (seamOpened (overruns (raiseEvt s (pageBase .atrium 0) 0)))
  rw [tick_eq hmark]
  refine ⟨⟨r3, sched, c, ?_⟩, fun a ha => (h3 a ha).trans ((h1 a ha).trans (hevt.rd a ha))⟩
  rw [e3, e1, e0]
  rfl

/-! ## The sources of ticks -/

theorem chan_forced {s t : State} (h : t.store.chans = s.store.chans.map fun p => (p.1, { p.2 with force := p.2.accepted })) (c : Nat) :
    (chan t c).force = (chan s c).accepted := by
  have hget (l : Tbl Chan) : Tbl.get (l.map fun p => (p.1, { p.2 with force := p.2.accepted })) c =
      (Tbl.get l c).map fun x => { x with force := x.accepted } := by
    induction l with
    | nil => rfl
    | cons p l ih => by_cases h : p.1 = c <;> simp [Tbl.get, h, ih]
  unfold chan
  rw [h, hget]
  cases Tbl.get s.store.chans c <;> rfl

/-- The state in which an edge of TICK_IN has been accepted: it ends the flywheel (R38). -/
def edgeAccepted (s : State) : State := setStep s fun p => { p with flywheel := false, missedRun := 0, lossRaised := false }

/-- The state in which the flywheel has taken over a missed tick: it is counted (R38). -/
def tickMissed (s : State) : State :=
  setStep (raiseEvt (count s Reg.atrium.TICK_MISSED) (pageBase .atrium 0) 1) fun p => { p with flywheel := true, missedRun := p.missedRun + 1 }

theorem tickMissed_step (s : State) : (tickMissed s).step = { s.step with flywheel := true, missedRun := s.step.missedRun + 1 } := by
  simp [tickMissed, setStep]

theorem tickMissed_hall (s : State) : (tickMissed s).hall = s.hall := by simp [tickMissed, State.hall]

/-- An edge of TICK_IN that is the first of all, or that lies in its window, is accepted (R37, R38). -/
theorem exec_tickInEdge_accepted {s : State} {ns : Nat} (hhall : s.hall = true) (hrun : s.running = true)
    (hwin : s.step.everRun = false ∨ (periodNs (periodSel s) - (rd s Reg.atrium.TICK_GUARD).toNat ≤ ns ∧
      ns ≤ periodNs (periodSel s) + (rd s Reg.atrium.TICK_GUARD).toNat)) :
    exec (.tickInEdge ns) s = .next (tick (edgeAccepted s)) := by
  show Host.Outcome.next (tickInEdge s ns) = _
  unfold tickInEdge
  rw [edgeAccepted, if_neg (by simp [hhall, hrun]), if_pos hwin]

/-- One before its window is only counted (R37). -/
theorem exec_tickInEdge_early {s : State} {ns : Nat} (hhall : s.hall = true) (hrun : s.running = true) (hever : s.step.everRun = true)
    (hns : ns < periodNs (periodSel s) - (rd s Reg.atrium.TICK_GUARD).toNat) :
    exec (.tickInEdge ns) s = .next (raiseEvt (count s Reg.atrium.TICK_EARLY) (pageBase .atrium 0) 2) := by
  show Host.Outcome.next (tickInEdge s ns) = _
  unfold tickInEdge
  rw [if_neg (by simp [hhall, hrun]), if_neg fun h => h.elim (by simp [hever]) fun hw => by omega, if_pos hns]

/-- A window without an edge below TICK_LOSS_LIMIT: the flywheel gives the tick (R38). -/
theorem exec_flywheelTick_below {s : State} (hhall : s.hall = true) (hever : s.step.everRun = true) (hrun : s.running = true)
    (hlim : s.step.missedRun + 1 < lossLimit s) :
    exec .flywheelTick s = .next (tick (tickMissed s)) := by
  show Host.Outcome.next (flywheelTick s) = _
  unfold flywheelTick
  dsimp only
  rw [← tickMissed, tickMissed_step, if_neg (by simp [hhall, hever, hrun]), if_neg fun h => absurd h.1 (by dsimp only; omega)]

/-- Settles O12: each source of ticks leaves `tick` of a state that differs from `s` in the step and in counters, and `tick_frame` says the rest. -/
theorem ticks_open_the_next_step : Obligations.Ticks_open_the_next_step := by
  refine ⟨fun s hcard hstep hrun => ?_, fun s ns hhall hrun => ⟨fun hwin hmark => ?_, fun hever hns => ?_⟩,
    fun s hhall hever hrun hlim hmark => ?_⟩
  · have hexec : exec .internalTick s = .next (tick s) := congrArg Host.Outcome.next (if_pos ⟨hcard, hstep, hrun⟩)
    obtain ⟨⟨r, sched, c, e⟩, hrd⟩ := tick_frame (s := s) (by simp [hcard])
    rw [e] at hexec hrd
    refine ⟨_, hexec, ?_, chan_forced rfl, rfl, rfl, rfl, rfl, fun a h1 h2 h3 h4 => hrd a (by simp [tickRegs, *])⟩
    simp [stepAfter, hcard]
  · have hexec := exec_tickInEdge_accepted hhall hrun hwin
    have hh : (edgeAccepted s).hall = true := hhall
    obtain ⟨⟨r, sched, c, e⟩, -⟩ := tick_frame (s := edgeAccepted s) fun _ => hmark
    rw [e] at hexec
    refine ⟨_, hexec, ?_, rfl, rfl, rfl⟩
    rw [stepAfter, hh]
    rfl
  · have hregs : RegsWithin (· ∈ [Reg.atrium.TICK_EARLY, pageBase .atrium 0 + 0x28]) s
        (raiseEvt (count s Reg.atrium.TICK_EARLY) (pageBase .atrium 0) 2) := (RegsWithin.count (by simp)).trans (.raiseEvt (by simp))
    refine ⟨_, exec_tickInEdge_early hhall hrun hever hns, ?_, fun hen => ?_, hregs.onlyRegs⟩
    · rw [rd_raiseEvt_ne _ _ (by decide), rd_count, if_pos rfl]
    · have hen' : testBit (rd (count s Reg.atrium.TICK_EARLY) (pageBase .atrium 0 + 0x24)) 2 = true := by rwa [rd_count, if_neg (by decide)]
      unfold raiseEvt
      rw [if_pos hen', rd_wr_self, testBit_setBit]
      simp
  · have hexec := exec_flywheelTick_below hhall hever hrun hlim
    obtain ⟨⟨r, sched, c, e⟩, hrd⟩ := tick_frame (s := tickMissed s) fun _ => by rw [tickMissed_step]; exact hmark
    rw [e] at hexec hrd
    refine ⟨_, hexec, ?_, ?_, ?_, ?_, ?_⟩
    · simp [stepAfter, tickMissed_step, tickMissed_hall, hhall, hever]
    · rw [hrd _ (by decide), tickMissed, setStep_rd, rd_raiseEvt_ne _ _ (by decide), rd_count, if_pos rfl]
    all_goals simp [tickMissed]

end Sys2Proof.Machine

/-! PROOFS. Loading and retiring flight plans (R54, R55, R313). -/
namespace Sys2Proof.Machine

/-! ## BUSY of a status register -/

/-- A command of the scheduler sets or clears BUSY beside what it notes in the schedule. -/
def setBusy (s : State) (a : Nat) (b : Bool) (x : Sched) : State := { wrf s a 31 31 b.toNat with sched := x }

theorem busyBit_setBusy (s : State) (a : Nat) (b : Bool) (x : Sched) : busyBit (setBusy s a b x) a = b := by
  have h : rd (setBusy s a b x) a = withFld (rd s a) 31 31 b.toNat := (rd_wrf s a a 31 31 b.toNat).trans (if_pos rfl)
  unfold busyBit testBit
  rw [h, getLsbD_withFld]
  cases b <;> rfl

theorem setBusy_onlyRegs (s : State) (a : Nat) (b : Bool) (x : Sched) : OnlyRegs { s with sched := x } (setBusy s a b x) [a] :=
  (RegsWithin.withSched (.wrf (List.mem_singleton.mpr rfl)) x).onlyRegs

/-! ## Slots -/

theorem planOf_congr {s t : State} {k : Nat} (h : Tbl.get t.sched.plans k = Tbl.get s.sched.plans k) : planOf t k = planOf s k := by
  unfold planOf
  rw [h]

/-- A slot that is marked retiring gives no plan for new work (R55). -/
theorem planOf_retiring {s t : State} {slot : Nat}
    (h : t.sched.plans = Tbl.upd s.sched.plans slot fun p => { p with retiring := true }) : planOf t slot = none := by
  unfold planOf
  rw [h, Tbl.get_upd, if_pos rfl]
  cases Tbl.get s.sched.plans slot <;> rfl

/-! ## The commands -/

theorem planLoad_free {s : State} (h : busyBit s Reg.sched.PLAN_STATUS = false) :
    exec .planLoad s = .next (setBusy s Reg.sched.PLAN_STATUS true { s.sched with
      planLoad := some (rd64 s Reg.sched.PLAN_LOAD_ADDR, rdf s Reg.sched.PLAN_LOAD_SLOT 9 0) }) := by
  show Host.Outcome.next (planLoad s) = _
  unfold planLoad
  rw [if_neg (by simp [h])]
  rfl

theorem planRetire_free {s : State} (h : busyBit s Reg.sched.PLAN_STATUS = false) :
    exec .planRetire s = .next (setBusy s Reg.sched.PLAN_STATUS true { s.sched with
      planRetire := some (rdf s Reg.sched.PLAN_LOAD_SLOT 9 0)
      plans := Tbl.upd s.sched.plans (rdf s Reg.sched.PLAN_LOAD_SLOT 9 0) fun p => { p with retiring := true } }) := by
  show Host.Outcome.next (planRetire s) = _
  unfold planRetire
  rw [if_neg (by simp [h])]
  rfl

/-- With BUSY 1 both commands are ignored (R54, R55). -/
theorem plan_commands_busy {s : State} (h : busyBit s Reg.sched.PLAN_STATUS = true) :
    exec .planLoad s = .next s ∧ exec .planRetire s = .next s :=
  ⟨congrArg Host.Outcome.next (if_pos h), congrArg Host.Outcome.next (if_pos h)⟩

/-- A load in progress ends when its image lies in HBM, and faults otherwise (R54, R313). -/
theorem exec_planLoadDone {s : State} {a slot : Nat} (h : s.sched.planLoad = some (a, slot)) :
    exec .planLoadDone s =
      if inHbm a 64 && inHbm a (planImage s a).length then .next (planLoadDone s slot (planImage s a)) else .fault (.hbmAddress a) := by
  show execPlanLoadDone s = _
  unfold execPlanLoadDone
  rw [h]

theorem planLoadDone_onlyRegs (s : State) (slot : Nat) (b : List Byte) :
    OnlyRegs { s with sched := (planLoadDone s slot b).sched } (planLoadDone s slot b) [Reg.sched.PLAN_STATUS] :=
  (RegsWithin.withSched (.wr _ (List.mem_singleton.mpr rfl)) _).onlyRegs

theorem planLoadDone_status (s : State) (slot : Nat) (b : List Byte) :
    rd (planLoadDone s slot b) Reg.sched.PLAN_STATUS = BitVec.ofNat 32 (planResult s slot b) :=
  rd_wr_self s _ _

theorem planLoadDone_plans (s : State) (slot : Nat) (b : List Byte) : (planLoadDone s slot b).sched.plans =
    if planResult s slot b = 0 then Tbl.set s.sched.plans slot ⟨parsePlan b, false⟩ else s.sched.plans := rfl

theorem exec_planSlotEmptied {s : State} {slot : Nat} (h : s.sched.planRetire = some slot) :
    exec .planSlotEmptied s = .next (if slotUsed s slot then s else
      setBusy s Reg.sched.PLAN_STATUS false { s.sched with planRetire := none, plans := Tbl.del s.sched.plans slot }) := by
  show Host.Outcome.next (planSlotEmptied s) = _
  unfold planSlotEmptied
  rw [h]
  rfl

/-- Settles O22: BUSY decides whether a command acts; a load leaves its RESULT and, accepted, its slot; a retired slot that is not used is deleted. -/
theorem plans_are_loaded_and_retired : Obligations.Plans_are_loaded_and_retired := by
  refine ⟨fun s => ⟨fun hfree => ⟨?_, ?_⟩, fun hbusy => plan_commands_busy hbusy⟩,
    fun s slot => ⟨fun a hload => ⟨fun hout => ?_, fun hin => ?_⟩,
    fun hret hused => ?_, fun hret hfree => ?_⟩⟩
  · exact ⟨_, planLoad_free hfree, busyBit_setBusy _ _ _ _, rfl, setBusy_onlyRegs _ _ _ _⟩
  · refine ⟨_, planRetire_free hfree, busyBit_setBusy _ _ _ _, rfl, planOf_retiring (s := s) rfl, fun k hk => planOf_congr ?_,
      setBusy_onlyRegs _ _ _ _⟩
    exact (Tbl.get_upd _ _ _ _).trans (if_neg (Ne.symm hk))
  · rw [exec_planLoadDone hload, if_neg (by simp [hout])]
  · refine ⟨_, (exec_planLoadDone hload).trans (if_pos hin), planLoadDone_status _ _ _, rfl, fun hok => ⟨?_, fun k hk => planOf_congr ?_⟩,
      fun hbad => (planLoadDone_plans _ _ _).trans (if_neg hbad), planLoadDone_onlyRegs _ _ _⟩
    · unfold planOf
      rw [planLoadDone_plans, if_pos hok, Tbl.get_set_self]
      rfl
    · rw [planLoadDone_plans, if_pos hok, Tbl.get_set, if_neg (Ne.symm hk)]
  · rw [exec_planSlotEmptied hret, if_pos hused]
  · refine ⟨_, (exec_planSlotEmptied hret).trans (congrArg _ (if_neg (by simp [hfree]))), ?_, rfl, fun k hk => planOf_congr ?_,
      busyBit_setBusy _ _ _ _, setBusy_onlyRegs _ _ _ _⟩
    · unfold planOf setBusy
      rw [Tbl.get_del_self]
    · exact (Tbl.get_del _ _ _).trans (if_neg (Ne.symm hk))

end Sys2Proof.Machine

/-! PROOFS. The check of one channel-table entry (R81, R82, R313, R385, R386). -/
namespace Sys2Proof.Machine

theorem chan_updChan_ne {s : State} {c k : Nat} (f : Chan → Chan) (h : k ≠ c) : chan (updChan s c f) k = chan s k := by
  unfold chan
  rw [updChan_store, Tbl.get_set, if_neg (Ne.symm h)]

/-- An accepted entry has the next VERSION and comes into force with the next tick (R386, R387). -/
theorem acceptEntry_accepted (ch : Chan) (e : ChanEntry) :
    (acceptEntry ch e).accepted.version = ch.accepted.version + 1 ∧ (acceptEntry ch e).accepted.enabled = e.enabled ∧
    (acceptEntry ch e).force = ch.force := by
  unfold acceptEntry
  dsimp only
  split
  · split <;> exact ⟨rfl, rfl, rfl⟩
  · exact ⟨rfl, rfl, rfl⟩

/-! ## CHAN_INVAL -/

theorem exec_chanInval_free {s : State} (c : Fin 4096) (h : s.sched.inval = none) :
    exec (.chanInval c) s = .next (setBusy s Reg.sched.CHAN_STATUS true { s.sched with inval := some c.val }) := by
  show Host.Outcome.next (chanInval s c.val) = _
  unfold chanInval
  rw [h]
  rfl

theorem exec_chanInval_taken {s : State} (c : Fin 4096) (h : s.sched.inval.isSome = true) : exec (.chanInval c) s = .next s := by
  obtain ⟨k, hk⟩ := Option.isSome_iff_exists.mp h
  show Host.Outcome.next (chanInval s c.val) = _
  unfold chanInval
  rw [hk]

/-! ## CHAN_INVAL_DONE -/

theorem exec_chanInvalDone {s : State} {c : Nat} (h : s.sched.inval = some c) :
    exec .chanInvalDone s =
      if inHbm (rd64 s Reg.sched.CHAN_TABLE_BASE + 256 * c) 256 then .next (answerReadbacks (chanInvalDone s c))
      else .fault (.hbmAddress (rd64 s Reg.sched.CHAN_TABLE_BASE + 256 * c)) := by
  show execChanInvalDone s = _
  unfold execChanInvalDone
  rw [h]

section
variable (s : State) (c : Nat)

/-- The edit entry of a channel, as HBM holds it. -/
def editEntry : List Byte := hbmBytes s (rd64 s Reg.sched.CHAN_TABLE_BASE + 256 * c) 256

/-- Where the RESULT of the check is written and, of a good entry, the channel takes it. -/
theorem chanInvalDone_eq : chanInvalDone s c = raiseEvt (if invalResult s c (editEntry s c) = 0
    then updChan (wr { s with sched := { s.sched with inval := none } } Reg.sched.CHAN_STATUS (BitVec.ofNat 32 (invalResult s c (editEntry s c)))) c
      fun x => acceptEntry x (parseEntry (editEntry s c))
    else wr { s with sched := { s.sched with inval := none } } Reg.sched.CHAN_STATUS (BitVec.ofNat 32 (invalResult s c (editEntry s c))))
    (pageBase .sched 0) 20 := rfl

theorem chanInvalDone_frame : chanInvalDone s c = { s with
    regs := (chanInvalDone s c).regs, sched := { s.sched with inval := none }, store := (chanInvalDone s c).store } := by
  rw [chanInvalDone_eq, raiseEvt_regs]
  split <;> rfl

theorem rd_chanInvalDone {r : Nat} (hr : r ≠ pageBase .sched 0 + 0x28) : rd (chanInvalDone s c) r =
    if Reg.sched.CHAN_STATUS = r then BitVec.ofNat 32 (invalResult s c (editEntry s c)) else rd s r := by
  rw [chanInvalDone_eq, rd_raiseEvt_ne _ _ (Ne.symm hr)]
  split <;> exact rd_wr _ _ _ _

theorem chanInvalDone_store_refused (h : invalResult s c (editEntry s c) ≠ 0) : (chanInvalDone s c).store = s.store := by
  rw [chanInvalDone_eq, raiseEvt_store, if_neg h]
  rfl

theorem chan_chanInvalDone_ne {k : Nat} (hk : k ≠ c) : chan (chanInvalDone s c) k = chan s k := by
  rw [chanInvalDone_eq]
  unfold chan
  rw [raiseEvt_store]
  split
  · exact chan_updChan_ne _ hk
  · rfl

theorem chan_chanInvalDone_accepted (h : invalResult s c (editEntry s c) = 0) :
    chan (chanInvalDone s c) c = acceptEntry (chan s c) (parseEntry (editEntry s c)) := by
  rw [chanInvalDone_eq, if_pos h]
  unfold chan
  rw [raiseEvt_store]
  exact chan_updChan _ _ _

end

/-- No request of the fabric manager is held that could go on. -/
theorem serveHeld_nil {s : State} (h : s.links.fmHeld = []) : (if tableWaits s then s
    else s.links.fmHeld.foldl (fmServe fmReadOne) { s with links := { s.links with fmHeld := [] } }) = s := by
  have hlinks : { s.links with fmHeld := [] } = s.links := by rw [← h]
  rw [hlinks, h]
  exact ite_self _

/-- With no side effect left, the reads of READBACK that waited are answered with STEP_COUNT [31:0] (R81). -/
theorem answerReadbacks_waiting {s : State} (hfm : s.links.fmHeld = []) (hrb : s.links.readbacks ≠ []) (hinv : s.sched.inval = none)
    (htab : tableWaits s = false) :
    answerReadbacks s = setAnswer { s with links := { s.links with readbacks := [] } } (some (BitVec.ofNat 64 (s.now % 2 ^ 32))) false := by
  unfold answerReadbacks
  dsimp only
  rw [if_pos (c := s.links.readbacks ≠ [] ∧ s.sched.inval.isNone = true ∧ tableWaits s = false) ⟨hrb, by simp [hinv], htab⟩]
  exact serveHeld_nil (s := setAnswer _ _ _) hfm

/-- With none that waits nothing happens. -/
theorem answerReadbacks_none {s : State} (hfm : s.links.fmHeld = []) (hrb : s.links.readbacks = []) : answerReadbacks s = s := by
  unfold answerReadbacks
  dsimp only
  rw [if_neg (c := s.links.readbacks ≠ [] ∧ s.sched.inval.isNone = true ∧ tableWaits s = false) fun h => h.1 hrb]
  exact serveHeld_nil hfm

/-- Settles O21. -/
theorem chanInval_checks_one_entry : Obligations.ChanInval_checks_one_entry := by
  refine fun s c => ⟨fun hfree => ?_, fun htaken => exec_chanInval_taken c htaken, fun hinv => ?_⟩
  · exact ⟨_, exec_chanInval_free c hfree, rfl, busyBit_setBusy s Reg.sched.CHAN_STATUS true _, setBusy_onlyRegs _ _ _ _⟩
  intro a b
  have hexec := exec_chanInvalDone hinv
  refine ⟨fun hout => ?_, fun hin hfm hrb htab => ?_, fun hin hfm hrb => ?_⟩
  · exact hexec.trans (if_neg (by rw [hout]; decide))
  · have hlinks : (chanInvalDone s c.val).links = s.links := by rw [chanInvalDone_frame]
    have hsched : (chanInvalDone s c.val).sched = { s.sched with inval := none } := by rw [chanInvalDone_frame]
    have hnow : (chanInvalDone s c.val).now = s.now := by rw [chanInvalDone_frame]; rfl
    have hans := answerReadbacks_waiting (s := chanInvalDone s c.val) (by rw [hlinks, hfm]) (by rwa [hlinks]) (by rw [hsched])
      (by rw [tableWaits, hlinks]; exact htab)
    refine ⟨_, hexec.trans ((if_pos hin).trans (congrArg _ hans)), hsched, rfl, ?_⟩
    rw [← hnow]
    rfl
  · have hlinks : (chanInvalDone s c.val).links = s.links := by rw [chanInvalDone_frame]
    have hans := answerReadbacks_none (s := chanInvalDone s c.val) (by rw [hlinks, hfm]) (by rw [hlinks, hrb])
    refine ⟨_, hexec.trans ((if_pos hin).trans (congrArg _ hans)), ?_, ?_, fun hgood => ?_, chanInvalDone_store_refused s c.val,
      fun k hk => chan_chanInvalDone_ne s c.val hk, ?_, fun r hst hevt => ?_⟩
    · rw [chanInvalDone_frame]
    · exact (rd_chanInvalDone s c.val (by decide)).trans (if_pos rfl)
    · rw [chan_chanInvalDone_accepted s c.val hgood]
      exact acceptEntry_accepted _ _
    · rw [chanInvalDone_frame]
    · exact (rd_chanInvalDone s c.val hevt).trans (if_neg (Ne.symm hst))

end Sys2Proof.Machine

/-! PROOFS. Windows and bursts of a near-bank unit (R43, R316 to R319). -/
namespace Sys2Proof.Machine

/-! ## A unit -/

theorem nearUnit_updNear {s : State} {k : Nat} (f : NearBank → NearBank) (h : k / 2 < s.mem.near.length) :
    nearUnit (updNear s k f) k = f (nearUnit s k) :=
  getD_updAt f NearBank.reset h

/-- A change of a unit and of registers changes nothing else. -/
theorem RegsWithin.updNear {P : Nat → Prop} {s t : State} (h : RegsWithin P s t) (k : Nat) (f : NearBank → NearBank) :
    RegsWithin P { s with mem := { s.mem with near := (updNear t k f).mem.near } } (Machine.updNear t k f) :=
  ⟨by rw [Machine.updNear, h.eq], h.rd⟩

/-! ## Which pass is due -/

/-- The first pass whose scan step has come, behind those of later steps. -/
theorem duePass_split {now : Nat} {before : List Pass} {q : Pass} {rest : List Pass} (hlater : ∀ x ∈ before, now < x.step) (hdue : q.step ≤ now) :
    duePass now (before ++ q :: rest) = some (before, q, rest) := by
  induction before with
  | nil => simp [duePass, hdue]
  | cons x l ih =>
    rw [List.cons_append, duePass, if_neg (Nat.not_le.mpr (hlater x List.mem_cons_self)), ih fun y hy => hlater y (List.mem_cons_of_mem x hy)]
    rfl

theorem duePass_none {now : Nat} {l : List Pass} (h : ∀ x ∈ l, now < x.step) : duePass now l = none := by
  induction l with
  | nil => rfl
  | cons x l ih =>
    rw [duePass, if_neg (Nat.not_le.mpr (h x List.mem_cons_self)), ih fun y hy => h y (List.mem_cons_of_mem x hy)]
    rfl

/-! ## The commands -/

theorem exec_scanWindow_open {s : State} {k : Fin 8} (drained : Nat) (reports : List (Nat × Bool × Nat)) (hrun : nearRuns s k.val = true)
    (hseam : s.step.seam = false) : exec (.scanWindow k drained reports) s = .next (updNear s k.val fun u => { u with
      fill := u.fill - drained
      reports := reports.foldl (fun t r => Tbl.set t r.1 (r.2.1, r.2.2)) (u.reports.filter fun r => (workOf s r.1).isSome)
      windowsRun := if decide ((nearUnit s k.val).windowsRun < winBooked s) then u.windowsRun + 1 else u.windowsRun
      burstsLeft := if decide ((nearUnit s k.val).windowsRun < winBooked s) then rdf s (Reg.nb.BURSTS_PER_WIN k.val) 10 0 else 0 }) := by
  show Host.Outcome.next (scanWindow s k.val drained reports) = _
  unfold scanWindow
  rw [if_neg (by simp [hrun, hseam])]

theorem exec_scanWindow_seam {s : State} (k : Fin 8) (drained : Nat) (reports : List (Nat × Bool × Nat)) (hseam : s.step.seam = true) :
    exec (.scanWindow k drained reports) s = .next s :=
  congrArg Host.Outcome.next (if_pos (.inr hseam))

/-- No burst is issued where no pass is due, or in the seam. -/
theorem exec_scanBurst_idle {s : State} (k : Fin 8) (b : Burst) (h : duePass s.ticks (nearUnit s k.val).queue = none ∨ s.step.seam = true) :
    exec (.scanBurst k b) s = .next s := by
  show Host.Outcome.next (scanBurst s k.val b) = _
  unfold scanBurst
  dsimp only
  split
  · rfl
  · next hdue =>
    obtain h | h := h
    · rw [h] at hdue
      cases hdue
    · rw [if_pos (.inr (.inl h))]

section
variable {s : State} {k : Fin 8} {before : List Pass} {q : Pass} {rest : List Pass} (hrun : nearRuns s k.val = true)
  (hdue : duePass s.ticks (nearUnit s k.val).queue = some (before, q, rest)) (hleft : (nearUnit s k.val).burstsLeft ≠ 0) (hseam : s.step.seam = false)
include hrun hdue hleft hseam

/-- Without credit the burst is withheld, and its slot goes by (R318; log entry 93). -/
theorem exec_scanBurst_withheld {b : Burst} (hfull : 16384 < (nearUnit s k.val).fill - b.drained + 104 * q.flights.length) :
    exec (.scanBurst k b) s = .next (updNear (count s (Reg.nb.CREDIT_STALL k.val)) k.val fun x =>
      { x with burstsLeft := x.burstsLeft - 1, fill := (nearUnit s k.val).fill - b.drained }) := by
  show Host.Outcome.next (scanBurst s k.val b) = _
  unfold scanBurst
  dsimp only
  rw [hdue]
  dsimp only
  rw [if_neg (by simp [hrun, hleft, hseam]), if_pos hfull]

/-- With credit the pass reads one block: some of its candidates enter the queue and the others are held back. -/
theorem exec_scanBurst_issued {drained : Nat} (hroom : (nearUnit s k.val).fill - drained + 104 * q.flights.length ≤ 16384) :
    ∃ held sent, exec (.scanBurst k ⟨false, drained⟩) s = .next
      (updNear (countBy (count s (Reg.nb.BURSTS k.val)) (Reg.nb.CAND_HELD k.val) held) k.val fun x => { x with
        burstsLeft := x.burstsLeft - 1, fill := (nearUnit s k.val).fill - drained + sent
        queue := before ++ (if q.done + 1 < q.bursts then [{ q with done := q.done + 1 }] else []) ++ rest }) := by
  rw [show exec (.scanBurst k ⟨false, drained⟩) s = .next (scanBurst s k.val ⟨false, drained⟩) from rfl]
  unfold scanBurst
  dsimp only
  rw [hdue]
  dsimp only
  rw [if_neg (by simp [hrun, hleft, hseam]), if_neg (Nat.not_lt.mpr hroom), if_neg (by simp)]
  exact ⟨_, _, rfl⟩

end

/-- Settles O32: what a window and a burst leave in the unit is what the equations above say of it. -/
theorem scan_windows_and_bursts : Obligations.Scan_windows_and_bursts := by
  intro s k hlen hrun
  have hunit : k.val / 2 < s.mem.near.length := by omega
  refine ⟨fun drained reports hseam => ?_, fun hseam => ⟨fun drained reports => exec_scanWindow_seam k drained reports hseam,
    fun b => exec_scanBurst_idle k b (.inr hseam)⟩, fun before q rest drained hqueue hlater hstep hleft hseam => ?_,
    fun hlater b => exec_scanBurst_idle k b (.inl (duePass_none hlater))⟩
  · refine ⟨_, exec_scanWindow_open drained reports hrun hseam, ?_⟩
    rw [nearUnit_updNear _ hunit]
    refine ⟨rfl, rfl, fun hbooked => by simp [hbooked], fun hdone => by simp [Nat.not_lt.mpr hdone], rfl⟩
  · have hdue : duePass s.ticks (nearUnit s k.val).queue = some (before, q, rest) := hqueue ▸ duePass_split hlater hstep
    intro fill
    refine ⟨fun hfull b => ?_, fun hroom => ?_⟩
    · refine ⟨_, exec_scanBurst_withheld hrun hdue hleft hseam hfull, ?_, ?_, ?_⟩
      · exact nearUnit_updNear _ hunit
      · rw [updNear_rd, rd_count, if_pos rfl]
      · exact ((RegsWithin.count (List.mem_singleton.mpr rfl)).updNear _ _).onlyRegs
    · obtain ⟨held, sent, e⟩ := exec_scanBurst_issued hrun hdue hleft hseam hroom
      have hunit' : k.val / 2 < (countBy (count s (Reg.nb.BURSTS k.val)) (Reg.nb.CAND_HELD k.val) held).mem.near.length := hunit
      refine ⟨_, e, ?_⟩
      rw [nearUnit_updNear _ hunit']
      refine ⟨rfl, Nat.le_add_right _ _, ?_, ?_, ?_⟩
      · dsimp only
        split <;> simp
      · rw [updNear_rd, rd_countBy_ne _ _ (by unfold Reg.nb.CAND_HELD Reg.nb.BURSTS; omega), rd_count, if_pos rfl]
      · have hregs : RegsWithin (· ∈ [Reg.nb.BURSTS k.val, Reg.nb.CAND_HELD k.val]) s
            (countBy (count s (Reg.nb.BURSTS k.val)) (Reg.nb.CAND_HELD k.val) held) := (RegsWithin.count (by simp)).trans (.countBy (by simp))
        exact (hregs.updNear _ _).onlyRegs

end Sys2Proof.Machine

/-! PROOFS. Runs of stages, and STAGE_COMPLETE (R62, R69, R179, R180, R209). -/
namespace Sys2Proof.Machine

/-! ## Lists of numbers -/

theorem mem_insertNat {l : List Nat} {x y : Nat} : y ∈ insertNat l x ↔ y = x ∨ y ∈ l := by
  induction l with
  | nil => simp [insertNat]
  | cons z r ih =>
    unfold insertNat
    split
    · simp
    · split
      · next h => simp [h]
      · simp only [List.mem_cons, ih]
        tauto

/-! ## The runs of a flight -/

theorem updAt_congr {α : Type} {l : List α} {i : Nat} {f g : α → α} (h : ∀ x, l[i]? = some x → f x = g x) : updAt l i f = updAt l i g := by
  refine List.ext_getElem? fun j => ?_
  rw [updAt_getElem?, updAt_getElem?]
  split
  · next e =>
    subst e
    cases hx : l[i]? with
    | none => rfl
    | some x => exact congrArg some (h x hx)
  · rfl

section
variable {f : Flight} {no : Nat}

theorem run_eq_of_getElem? {r : StageRun} (h : f.stages[no]? = some r) : f.run no = r := by
  rw [Flight.run, List.getD_eq_getElem?_getD, h]
  rfl

/-- What a stage's run becomes counts only as far as it acts on that run. -/
theorem setRun_congr {g h : StageRun → StageRun} (e : g (f.run no) = h (f.run no)) : f.setRun no g = f.setRun no h :=
  congrArg (fun l => { f with stages := l }) (updAt_congr fun _ hr => run_eq_of_getElem? hr ▸ e)

theorem run_setRun_self (g : StageRun → StageRun) (h : no < f.stages.length) : (f.setRun no g).run no = g (f.run no) :=
  getD_updAt g default h

theorem run_setRun_ne {k : Nat} (g : StageRun → StageRun) (h : k ≠ no) : (f.setRun no g).run k = f.run k := by
  unfold Flight.run Flight.setRun
  rw [List.getD_eq_getElem?_getD, List.getD_eq_getElem?_getD, updAt_getElem?, if_neg (Ne.symm h)]

end

/-! ## The work of a number -/

/-- The first flight or part of a number after every one of that number has changed. -/
theorem workOf_updWork {s : State} {id : Nat} {g : Flight → Flight} (hg : ∀ x : Flight, x.id = id → (g x).id = id) :
    workOf (updWork s id g) id = (workOf s id).map g := by
  have hfind (l : List Flight) : (l.map fun x => if x.id = id then g x else x).find? (·.id == id) = (l.find? (·.id == id)).map g := by
    induction l with
    | nil => rfl
    | cons x l ih => by_cases h : x.id = id <;> simp [h, hg, ih]
  show List.find? _ (List.map _ s.sched.flights ++ List.map _ s.sched.parts) = _
  rw [← List.map_append, hfind]
  rfl

/-! ## Trace packets, meters -/

/-- `t` is `s` but for registers and the chip. -/
def OnlyRegsChip (s t : State) : Prop := ∃ r c, t = { s with regs := r, chip := c }

theorem OnlyRegsChip.refl (s : State) : OnlyRegsChip s s := ⟨_, _, rfl⟩

theorem OnlyRegsChip.trans {s t u : State} : OnlyRegsChip s t → OnlyRegsChip t u → OnlyRegsChip s u := by
  rintro ⟨_, _, rfl⟩ ⟨_, _, rfl⟩
  exact ⟨_, _, rfl⟩

theorem addLoss_regsChip (s : State) (u reason n : Nat) : OnlyRegsChip s (addLoss s u reason n) := by
  unfold addLoss
  split
  · exact .refl s
  · exact ⟨_, _, rfl⟩

theorem emit_regsChip (s : State) (u typ : Nat) (payload : List Byte) : OnlyRegsChip s (emit s u typ payload) := by
  unfold emit
  extract_lets t bs es s1
  split
  · exact .refl s
  · split
    · exact ⟨_, _, rfl⟩
    · exact OnlyRegsChip.trans ⟨_, _, rfl⟩ (addLoss_regsChip s1 u 0 1)

theorem emitStage_regsChip (s : State) (u chan admitStep stage tile sflags kind : Nat) :
    OnlyRegsChip s (emitStage s u chan admitStep stage tile sflags kind) := by
  unfold emitStage
  split
  · exact emit_regsChip _ _ _ _
  · exact .refl s

theorem traceChan_regsChip (s : State) (f : Flight) : OnlyRegsChip s (traceChan s f).2 := by
  unfold traceChan
  split
  · exact .refl s
  · split
    · exact ⟨_, _, rfl⟩
    · exact .refl s

theorem traceStage_regsChip (s : State) (f : Flight) (d : StageDef) (gs : List Nat) (sflags : Nat) :
    OnlyRegsChip s (traceStage s f d gs sflags) := by
  unfold traceStage
  exact List.foldlRecOn _ _ (motive := OnlyRegsChip s) (.refl s) fun t ht tile _ =>
    ht.trans ((traceChan_regsChip t f).trans (emitStage_regsChip _ _ _ _ _ _ _ _))

theorem OnlyRegsChip.workOf {s t : State} (h : OnlyRegsChip s t) (id : Nat) : workOf t id = Machine.workOf s id := by
  obtain ⟨_, _, rfl⟩ := h
  rfl

/-- What metering leaves: tenants, registers and the chip's free words. -/
theorem meterHbm_frame (s : State) (f : Flight) :
    ∃ c tenants, meterHbm s f = { s with chip := c, store := { s.store with tenants := tenants } } := by
  unfold meterHbm meter
  dsimp only
  split <;> exact ⟨_, _, rfl⟩

/-! ## STAGE_COMPLETE -/

/-- A flight whose stage `no` has had gallery `g`'s signal, which completes it or not. -/
def Flight.signalled (f : Flight) (no g : Nat) (all : Bool) : Flight :=
  f.setRun no fun r => { r with done := insertNat (f.run no).done g, complete := all, yielding := r.yielding && !all }

/-- The galleries that a stage runs on have all signalled with `g`, and the stage has not overrun. -/
def allSignalled (f : Flight) (d : StageDef) (no g : Nat) : Bool :=
  (stageGalleries f.plan f.gmap d).all (insertNat (f.run no).done g).contains && !(f.run no).overrun

theorem allSignalled_eq_true {f : Flight} {d : StageDef} {no g : Nat} : allSignalled f d no g = true ↔
    (∀ h ∈ stageGalleries f.plan f.gmap d, h = g ∨ h ∈ (f.run no).done) ∧ (f.run no).overrun = false := by
  simp [allSignalled, mem_insertNat]

section
variable {s : State} {f : Flight} {d : StageDef} {no : Nat} {g : Fin 50} (hwork : workOf s f.id = some f) (hstage : f.plan.stages[no]? = some d)
  (hruns : (f.run no).runs = true) (hon : (stageGalleries f.plan f.gmap d).contains g.val = true) (hheld : stageHeld s f d = false)
include hwork hstage hruns hon hheld

/-- A signal is traced; the last one of a foreground stage that has not overrun finishes it (R62, R69). -/
theorem exec_stageComplete_cases : ∃ u, OnlyRegsChip (updWork s f.id fun _ => f.signalled no g.val (allSignalled f d no g.val)) u ∧
    (allSignalled f d no g.val = false → exec (.stageComplete f.id no g) s = .next u) ∧
    (allSignalled f d no g.val = true → f.background = false →
      exec (.stageComplete f.id no g) s = .next (finishStage u (f.signalled no g.val true) d)) := by
  refine ⟨_, traceStage_regsChip _ f d [g.val] (if (f.run no).overrun || decide (stageStep f d < s.ticks) then 3 else 1), fun hall => ?_,
    fun hall hbg => ?_⟩
  all_goals
    show Host.Outcome.next (stageComplete s f.id no g.val) = _
    unfold stageComplete
    rw [hwork]
    dsimp only
    rw [hstage]
    dsimp only
    rw [if_neg (by simp [hruns, hheld]; exact fun _ => by simpa using hon)]
  · exact congrArg Host.Outcome.next (if_neg (Bool.not_eq_true _ ▸ hall))
  · exact congrArg Host.Outcome.next ((if_pos hall).trans ((if_neg (by simp [hbg])).trans
      (congrArg (fun b => finishStage _ (f.signalled no g.val b) d) hall)))

/-- A signal that does not complete the stage is only noted. -/
theorem exec_stageComplete_noted (hall : allSignalled f d no g.val = false) :
    ∃ t, exec (.stageComplete f.id no g) s = .next t ∧
      workOf t f.id = some (f.setRun no fun r => { r with done := insertNat r.done g.val, complete := false }) ∧
      t.store = s.store ∧ t.mem = s.mem ∧ t.links = s.links ∧ t.step = s.step := by
  obtain ⟨u, hu, hexec, -⟩ := exec_stageComplete_cases hwork hstage hruns hon hheld
  refine ⟨u, hexec hall, ?_, ?_⟩
  · rw [hu.workOf, workOf_updWork fun _ h => h ▸ rfl, hwork, hall]
    exact congrArg some (setRun_congr (by simp))
  · obtain ⟨_, _, rfl⟩ := hu
    exact ⟨rfl, rfl, rfl, rfl⟩

end

/-- A flight whose candidates RAKE_MERGE has merged. -/
def Flight.rakeMerged (f : Flight) : Flight :=
  { setWork f fun w => { w with rake := dedupe w.rake, omitted := w.omitted + (w.rake.length - (dedupe w.rake).length) } with
    flags := if f.work.rake.length < f.params.depth then setBit f.flags 5 else f.flags }

theorem rakeMerge_search {s : State} {f : Flight} (h : f.kind = .search) : rakeMerge s f = updWork s f.id Flight.rakeMerged := by
  unfold rakeMerge
  rw [if_neg (by simp [Flight.isSearch, h])]
  rfl

/-- Only a PROJECT is forwarded to a shadow (R512). -/
theorem forwardShadow_of_ne {s : State} {f : Flight} {d : StageDef} (h : d.kind ≠ 0x02) : forwardShadow s f d = s := by
  unfold forwardShadow
  split
  · exact if_neg fun hd => h hd.1
  · rfl

theorem partFinished_none {s : State} {f : Flight} (h : f.part = none) : partFinished s f = s := by
  unfold partFinished
  rw [h]

/-- The end of a search's RAKE_MERGE: metering, and the candidates without second entries of an item (R62, R179, R209). -/
theorem finishStage_rakeMerge {s : State} {f : Flight} {d : StageDef} (hwork : workOf s f.id = some f) (hkind : d.kind = 0x07)
    (hsearch : f.kind = .search) (hpart : f.part = none) :
    finishStage s f d = updWork (meterHbm s f) f.id Flight.rakeMerged ∧
    workOf (finishStage s f d) f.id = some f.rakeMerged := by
  have heffect : stageEffect (meterHbm s f) f d = updWork (meterHbm s f) f.id Flight.rakeMerged := by
    unfold stageEffect
    rw [hkind]
    exact rakeMerge_search hsearch
  obtain ⟨c, tenants, hmeter⟩ := meterHbm_frame s f
  have hmerged : workOf (updWork (meterHbm s f) f.id Flight.rakeMerged) f.id = some f.rakeMerged := by
    have hmetered : workOf (meterHbm s f) f.id = some f := by rw [hmeter]; exact hwork
    rw [workOf_updWork (g := Flight.rakeMerged) fun _ h => h, hmetered]
    rfl
  have hfinish : finishStage s f d = updWork (meterHbm s f) f.id Flight.rakeMerged := by
    unfold finishStage
    dsimp only
    rw [heffect, hmerged]
    dsimp only
    rw [forwardShadow_of_ne (by simp [hkind])]
    exact partFinished_none hpart
  exact ⟨hfinish, hfinish ▸ hmerged⟩

/-- Settles O16: a signal is noted, and the last one of a RAKE_MERGE finishes the stage as `finishStage_rakeMerge` says. -/
theorem stageComplete_waits_for_every_gallery : Obligations.StageComplete_waits_for_every_gallery := by
  intro s f d no g hwork hpart hstage hruns hon hheld hlen
  refine ⟨fun ⟨h, hmem, hne, hnot⟩ => ?_, fun hlast hkind hsearch hbg hover => ?_, fun hover => ?_⟩
  · refine exec_stageComplete_noted hwork hstage hruns hon hheld ?_
    exact Bool.eq_false_iff.mpr fun hall => ((allSignalled_eq_true.mp hall).1 h hmem).elim hne hnot
  · have hall : allSignalled f d no g.val = true := allSignalled_eq_true.mpr ⟨hlast, hover⟩
    obtain ⟨u, hu, -, hexec⟩ := exec_stageComplete_cases hwork hstage hruns hon hheld
    have hsignalled : workOf u f.id = some (f.signalled no g.val true) := by
      rw [hu.workOf, workOf_updWork fun _ h => h ▸ rfl, hwork, hall]
      rfl
    obtain ⟨hfinish, hmerged⟩ := finishStage_rakeMerge (f := f.signalled no g.val true) hsignalled hkind hsearch hpart
    obtain ⟨c, tenants, hmeter⟩ := meterHbm_frame u (f.signalled no g.val true)
    refine ⟨_, _, hexec hall hbg, hmerged, ?_, rfl, fun k hk => run_setRun_ne _ hk, ?_⟩
    · exact congrArg StageRun.complete (run_setRun_self _ hlen)
    · obtain ⟨_, _, rfl⟩ := hu
      rw [hfinish, hmeter]
      exact ⟨rfl, rfl, rfl⟩
  · refine exec_stageComplete_noted hwork hstage hruns hon hheld ?_
    exact Bool.eq_false_iff.mpr fun hall => absurd hover (by simp [(allSignalled_eq_true.mp hall).2])

end Sys2Proof.Machine

/-! PROOFS. Pre-emption points of a number that two flights bear (R71 to R73). -/
namespace Sys2Proof.Machine

/-- A background flight of tenant `t` whose only stage runs and has been told to yield. -/
def yieldingFlight (t : Nat) : Flight :=
  { (default : Flight) with
    id := 3, tenant := t, plan := { (default : Plan) with flags := 4, stages := [default] }
    stages := [{ (default : StageRun) with started := true, yielding := true }] }

/-- Two of them with the same number. -/
def sharedNumber : State := { State.reset with sched := { Sched.reset with flights := [yieldingFlight 0, yieldingFlight 1] } }

/-- The tenants of the flights that a command leaves. -/
def tenantsLeft : Host.Outcome State Fault Refusal → List Nat
  | .next t => t.sched.flights.map (·.tenant)
  | _ => []

theorem tenantsLeft_preemptionPoint : tenantsLeft (exec (.preemptionPoint 3 0 0) sharedNumber) = [0, 1] := by decide

/-- Refutes O15, by its third clause. A stage is suspended in every flight of its number, each flight staying what it is (`suspendStage`); the clause
says that all of them become the first one's successor. The two differ where a state holds two flights of one number, which the clause does not
exclude: here the second flight keeps its tenant. -/
theorem not_flights_yield_and_stages_fail : ¬ Obligations.Flights_yield_and_stages_fail := by
  rintro ⟨hyield, -⟩
  obtain ⟨-, -, hpoint⟩ := hyield sharedNumber
  obtain ⟨t, hexec, hsched, -⟩ := hpoint (yieldingFlight 0) default 0 0 (by decide) (by decide) rfl rfl
    (by decide) (by decide) (by decide) (by decide) (by decide)
  have hleft : t.sched.flights.map (·.tenant) = [0, 1] := (congrArg tenantsLeft hexec).symm.trans tenantsLeft_preemptionPoint
  rw [hsched] at hleft
  exact absurd hleft (by decide)

end Sys2Proof.Machine

/-! PROOFS. The commit of an update batch (R79, R215, R320). -/
namespace Sys2Proof.Machine

/-! ## What sending and completing leave -/

/-- `t` is `s` but for registers, what the node issues, its streams and its channels. -/
def OnlyIssues (s t : State) : Prop :=
  ∃ r l f chans, t = { s with regs := r, links := l, faults := f, store := { s.store with chans := chans } }

theorem OnlyIssues.refl (s : State) : OnlyIssues s s := ⟨_, _, _, _, rfl⟩

theorem OnlyIssues.trans {s t u : State} : OnlyIssues s t → OnlyIssues t u → OnlyIssues s u := by
  rintro ⟨_, _, _, _, rfl⟩ ⟨_, _, _, _, rfl⟩
  exact ⟨_, _, _, _, rfl⟩

theorem startFrame_issues (s : State) (p : Nat) : OnlyIssues s (startFrame s p) := by
  unfold startFrame
  split
  · exact ⟨_, _, _, _, rfl⟩
  · exact .refl s

theorem pushEgress_issues (s : State) (p : Nat) (f : EgFrame) : OnlyIssues s (pushEgress s p f) := by
  unfold pushEgress
  extract_lets
  split
  · exact OnlyIssues.trans ⟨_, _, _, _, rfl⟩ (startFrame_issues _ p)
  · exact ⟨_, _, _, _, rfl⟩

theorem sendFrame_issues (s : State) (typ flags cls dst object flow : Nat) (payload : List Byte) :
    OnlyIssues s (sendFrame s typ flags cls dst object flow payload) := by
  unfold sendFrame
  extract_lets
  split
  · exact ⟨_, _, _, _, rfl⟩
  · exact pushEgress_issues s _ _

theorem sendUnit_issues (s : State) (i : Nat) (u : MUnit) : OnlyIssues s (sendUnit s i u) := by
  unfold sendUnit
  exact List.foldlRecOn _ _ (motive := OnlyIssues s) (.refl s) fun t ht _ _ => ht.trans (sendFrame_issues t _ _ _ _ _ _ _)

theorem updPair_issues (s : State) (i : Nat) (g : Pair → Pair) : OnlyIssues s (updPair s i g) := ⟨_, _, _, _, rfl⟩

theorem stream_issues (s : State) (i typ op epoch cls flight entries : Nat) (frags : Tbl (Nat × Nat × List Byte)) :
    OnlyIssues s (stream s i typ op epoch cls flight entries frags) :=
  (updPair_issues s i _).trans (sendUnit_issues _ i _)

theorem sendCommit_issues (s : State) (f : Flight) (ep first : Nat) (items : List UpdItem) : OnlyIssues s (sendCommit s f ep first items) := by
  unfold sendCommit
  split
  · exact .refl s
  · exact (updPair_issues s _ _).trans (stream_issues _ _ _ _ _ _ _ _ _)

theorem hostWrite_issues (s : State) (fn : PciFn) (a : Nat) (b : List Byte) : OnlyIssues s (hostWrite s fn a b) := ⟨_, _, _, _, rfl⟩

theorem updChan_issues (s : State) (c : Nat) (g : Chan → Chan) : OnlyIssues s (updChan s c g) := ⟨_, _, _, _, rfl⟩

theorem sendMsix_issues (s : State) (fn : PciFn) (v : Nat) : OnlyIssues s (sendMsix s fn v) := by
  unfold sendMsix
  extract_lets
  split
  · exact ⟨_, _, _, _, rfl⟩
  · cases fn <;> exact ⟨_, _, _, _, rfl⟩

theorem putCqe_issues (s : State) (c : Nat) (q : Cqe) : OnlyIssues s (putCqe s c q) := by
  unfold putCqe
  extract_lets ch t s1 s2
  have h2 : OnlyIssues s s2 := (hostWrite_issues s _ _ _).trans (updChan_issues s1 c _)
  split
  · exact h2.trans (sendMsix_issues s2 _ _)
  · exact h2

theorem complete_issues (s : State) (d : Desc) (status epoch cnt : Nat) (writes : List (Nat × List Byte)) (silent : Bool) :
    OnlyIssues s (complete s d status epoch cnt writes silent) := by
  unfold complete
  extract_lets hdr s1
  split
  · exact OnlyIssues.trans ⟨_, _, _, _, rfl⟩ (updChan_issues _ _ _)
  · have h1 : OnlyIssues s s1 :=
      List.foldlRecOn _ _ (motive := OnlyIssues s) (.refl s) fun t ht _ _ => ht.trans (hostWrite_issues t _ _ _)
    refine h1.trans ?_
    unfold postCqe
    extract_lets ch
    split
    · exact putCqe_issues s1 _ _
    · exact OnlyIssues.trans ⟨_, _, _, _, rfl⟩ (updChan_issues _ _ _)

theorem setSeedHigh_issues (s : State) : OnlyIssues s (setSeedHigh s) := ⟨_, _, _, _, setCond_regs s _ _ _⟩

/-! ## The commit -/

theorem flushCopy_regsChip (s : State) (f : Flight) : OnlyRegsChip s (flushCopy s f) := by
  unfold flushCopy
  refine List.foldlRecOn _ _ (motive := OnlyRegsChip s) (.refl s) fun t ht g _ => ht.trans ?_
  unfold writeLines
  split
  · exact ⟨_, _, rfl⟩
  · exact .refl t

theorem dirtyMap_hbm (s : State) (n : Nat) (old : Tbl (List KeyEntry)) : (dirtyMap s n old).mem.hbm = s.mem.hbm := by
  unfold dirtyMap
  split
  · rfl
  · unfold dirtyBuckets
    refine List.foldlRecOn _ _ (motive := fun t : State => t.mem.hbm = s.mem.hbm) rfl fun t ht _ _ => ?_
    dsimp only
    split <;> exact ht

theorem setUse_mem (s : State) (t : Nat) : (setUse s t).mem = s.mem := by
  unfold setUse
  rw [wr_mem, wr_mem]

theorem setDurable_mem (s : State) : (setDurable s).mem = s.mem := by
  unfold setDurable
  rw [wr64_mem]

/-- A commit leaves the bytes of HBM. -/
theorem commitTo_hbm {s u : State} {id : Option Nat} {n ep : Nat} {ins ifAbs : Bool} {seq : Option Nat} {given : Option (List Nat)}
    {items done : List UpdItem} {first : Nat} (h : (commitTo s id n ep ins ifAbs seq given items).1 = some (u, done, first)) :
    u.mem.hbm = s.mem.hbm := by
  unfold commitTo at h
  split at h
  · cases h
  · extract_lets c0 a c1 sched s1 tooMany new j s2 at h
    split at h
    · cases h
    · cases h
      rw [setDurable_mem, setUse_mem]
      exact dirtyMap_hbm s1 n _

/-- A batch whose commit succeeds is a flight no more; beside what the commit did, its completion and the COMMIT of its mirror stream only issue. -/
theorem commitFlight_frame {s u : State} {f : Flight} {items : List UpdItem} {first : Nat}
    (h : (commitTo (flushCopy s f) (some f.id) f.obj s.now f.desc.isInsert f.desc.ifAbsent none none f.work.items).1 = some (u, items, first)) :
    ∃ t, OnlyIssues u t ∧ OnlyIssues (dropFlight t f.id) (commitFlight s f) := by
  have hnow : (flushCopy s f).now = s.now := by
    obtain ⟨_, _, e⟩ := flushCopy_regsChip s f
    rw [e]
    rfl
  obtain ⟨full, hcommit⟩ : ∃ full, commitTo (flushCopy s f) (some f.id) f.obj (flushCopy s f).now f.desc.isInsert f.desc.ifAbsent none none
      f.work.items = (some (u, items, first), full) := by
    rw [hnow]
    generalize commitTo (flushCopy s f) (some f.id) f.obj s.now f.desc.isInsert f.desc.ifAbsent none none f.work.items = x at h ⊢
    exact ⟨x.2, Prod.ext h rfl⟩
  refine ⟨sendCommit u f (flushCopy s f).now first items, sendCommit_issues u f _ _ _, ?_⟩
  unfold commitFlight
  dsimp only
  rw [hcommit]
  exact (complete_issues _ _ _ _ _ _ _).trans (setSeedHigh_issues _)

theorem exec_updateCommit {s : State} {f : Flight} (hf : flightOf s f.id = some f) (hready : readyToCommit s f = true) :
    exec (.updateCommit f.id) s = .next (if s.step.seam then s else commitFlight s f) := by
  show Host.Outcome.next (updateCommit s f.id) = _
  unfold updateCommit
  rw [hf]
  cases s.step.seam <;> simp [hready]

theorem flightOf_dropFlight (s : State) (id : Nat) : flightOf (dropFlight s id) id = none := by
  simp [flightOf, dropFlight]

/-- Settles O17: outside the seam the batch leaves `commitFlight`, which `commitFlight_frame` describes. -/
theorem updateCommit_commits_outside_the_seam : Obligations.UpdateCommit_commits_outside_the_seam := by
  intro s f hf hready
  have hexec := exec_updateCommit hf hready
  refine ⟨fun hseam => hexec.trans (congrArg _ (if_pos hseam)), fun u items first hseam hcommit => ?_⟩
  obtain ⟨t, ⟨_, _, _, _, rfl⟩, r, l, g, chans, e⟩ := commitFlight_frame hcommit
  refine ⟨_, hexec.trans (congrArg _ ((if_neg (by simp [hseam])).trans e)), flightOf_dropFlight _ f.id, rfl, rfl, rfl, ?_⟩
  show u.mem.hbm = s.mem.hbm
  obtain ⟨_, _, hflush⟩ := flushCopy_regsChip s f
  rw [commitTo_hbm hcommit, hflush]

end Sys2Proof.Machine

/-! PROOFS. Transplants: their start, their seal and their publication (R41, R71, R229 to R233, R241). -/
namespace Sys2Proof.Machine

/-! ## A collection of the store -/

/-- The node with another content of collection `n`. -/
def withCollection (s : State) (n : Nat) (c : Coll) : State := { s with store := { s.store with colls := Tbl.set s.store.colls n c } }

theorem get_withCollection (s : State) (n : Nat) (c : Coll) : Tbl.get (withCollection s n c).store.colls n = some c := by
  show Tbl.get (Tbl.set _ _ _) _ = _
  rw [Tbl.get_set, if_pos rfl]

theorem updColl_eq_withCollection {s : State} {n : Nat} {c : Coll} (f : Coll → Coll) (h : Tbl.get s.store.colls n = some c) :
    updColl s n f = withCollection s n (f c) := by
  unfold updColl Tbl.upd
  rw [h]
  rfl

/-! ## The grid -/

/-- A transplant as TRANSPLANT_GRID starts it: with the step as its cut, and its publication TP_LAG steps later (R229). -/
def gridTransplant (s : State) (cs : List (Fin 50)) (p : Nat) : Transplant :=
  ⟨p, s.now, s.now + rdf s Reg.sched.TP_LAG 15 0, false, false, [], [], [], carrierOf s cs⟩

section
variable {s : State} {n p k : Nat} {c : Coll} (cs : List (Fin 50)) (l : List (Nat × Nat))

theorem startTps_missing (free : Nat) (h : Tbl.get s.store.colls n = none) : startTps s free cs ((n, p) :: l) = startTps s free cs l := by
  simp only [startTps, h]

theorem startTps_full (h : Tbl.get s.store.colls n = some c) : startTps s 0 cs ((n, p) :: l) = s := by
  simp only [startTps, h]

theorem startTps_room (h : Tbl.get s.store.colls n = some c) (hroom : tpRoom s c p = true) : startTps s (k + 1) cs ((n, p) :: l) =
    startTps (withCollection s n { c with tps := c.tps ++ [gridTransplant s cs p] }) k cs.tail l := by
  simp only [startTps, h]
  rw [if_pos hroom, startTp, updColl_eq_withCollection _ h]
  rfl

theorem startTps_noRoom (h : Tbl.get s.store.colls n = some c) (hroom : tpRoom s c p = false) :
    startTps s (k + 1) cs ((n, p) :: l) = startTps (count s Reg.ft.TP_NOCAP) (k + 1) cs l := by
  simp only [startTps, h]
  rw [if_neg (by simp [hroom])]

end

/-- `t` is `s` but for registers and for transplants added to collections. -/
structure TransplantsAdded (s t : State) : Prop where
  eq : ∃ r c, t = { s with regs := r, store := { s.store with colls := c } }
  coll : ∀ n c, Tbl.get s.store.colls n = some c → ∃ new, Tbl.get t.store.colls n = some { c with tps := c.tps ++ new }

theorem TransplantsAdded.refl (s : State) : TransplantsAdded s s := ⟨⟨_, _, rfl⟩, fun _ _ h => ⟨[], by simpa using h⟩⟩

theorem TransplantsAdded.trans {s t u : State} (h : TransplantsAdded s t) (k : TransplantsAdded t u) : TransplantsAdded s u := by
  refine ⟨?_, fun n c hc => ?_⟩
  · obtain ⟨_, _, rfl⟩ := h.eq
    obtain ⟨_, _, rfl⟩ := k.eq
    exact ⟨_, _, rfl⟩
  · obtain ⟨a, ha⟩ := h.coll n c hc
    obtain ⟨b, hb⟩ := k.coll n _ ha
    exact ⟨a ++ b, by simpa using hb⟩

theorem TransplantsAdded.one {s : State} {n : Nat} {c : Coll} (x : Transplant) (h : Tbl.get s.store.colls n = some c) :
    TransplantsAdded s (withCollection s n { c with tps := c.tps ++ [x] }) := by
  refine ⟨⟨_, _, rfl⟩, fun m d hd => ?_⟩
  show ∃ new, Tbl.get (Tbl.set _ n _) m = _
  rw [Tbl.get_set]
  split
  · next e =>
    subst e
    cases h.symm.trans hd
    exact ⟨[x], rfl⟩
  · exact ⟨[], by simpa using hd⟩

/-- Starts only add transplants. -/
theorem startTps_added (cs : List (Fin 50)) (l : List (Nat × Nat)) (s : State) (free : Nat) : TransplantsAdded s (startTps s free cs l) := by
  induction l generalizing s free cs with
  | nil => exact .refl s
  | cons x l ih =>
    obtain ⟨n, p⟩ := x
    cases hc : Tbl.get s.store.colls n with
    | none => exact startTps_missing cs l free hc ▸ ih cs s free
    | some c =>
      cases free with
      | zero =>
        rw [startTps_full cs l hc]
        exact .refl s
      | succ k =>
        cases hroom : tpRoom s c p with
        | true => exact startTps_room cs l hc hroom ▸ (TransplantsAdded.one _ hc).trans (ih _ _ _)
        | false =>
          have hcount : TransplantsAdded s (count s Reg.ft.TP_NOCAP) := ⟨⟨_, _, rfl⟩, (TransplantsAdded.refl s).coll⟩
          rw [startTps_noRoom cs l hc hroom]
          exact hcount.trans (ih _ _ _)

/-- The step is a grid step of a node that is aligned, with TP_EN set (R229). -/
def onGrid (s : State) : Prop :=
  s.step.valid = true ∧ s.now % max 1 (rdf s Reg.sched.TP_GRID 15 0) = 0 ∧ testBit (rd s Reg.sched.TP_CTRL) 0 = true

theorem transplantGrid_of_grid {s : State} (cs : List (Fin 50)) (h : onGrid s) :
    transplantGrid s cs = startTps s (max 1 (rdf s Reg.sched.TP_CTRL 4 1) - tpRunning s) cs (eligibleParts s) := by
  obtain ⟨hvalid, hnow, hen⟩ := h
  unfold transplantGrid
  dsimp only
  rw [if_pos (by simp [hvalid, hnow, hen])]

theorem transplantGrid_of_not_grid {s : State} (cs : List (Fin 50)) (h : ¬onGrid s) : transplantGrid s cs = s := by
  unfold transplantGrid
  dsimp only
  rw [if_neg (by simpa [onGrid, and_assoc] using h)]

/-- Where no CLOSE is due, the grid command is the starts alone. -/
theorem exec_transplantGrid {s : State} (cs : List (Fin 50)) (hdue : ∀ i, (pairAt s i).due = none) :
    exec (.transplantGrid cs) s = .next (transplantGrid s cs) := by
  have hadded : TransplantsAdded s (transplantGrid s cs) := by
    by_cases h : onGrid s
    · exact transplantGrid_of_grid cs h ▸ startTps_added _ _ _ _
    · rw [transplantGrid_of_not_grid cs h]
      exact .refl s
  obtain ⟨_, _, e⟩ := hadded.eq
  have hclose (i : Nat) : flushClose (transplantGrid s cs) i = transplantGrid s cs := by
    have hnone : (pairAt (transplantGrid s cs) i).due = none := by rw [e]; exact hdue i
    unfold flushClose
    rw [hnone]
  refine congrArg Host.Outcome.next ?_
  exact List.foldlRecOn (motive := (· = transplantGrid s cs)) _ _ rfl fun t ht i _ => ht ▸ hclose i

/-- The first eligible partition with room takes the first free place (R229). -/
theorem transplantGrid_first {s : State} {cs : List (Fin 50)} {n p : Nat} {c : Coll} {l : List (Nat × Nat)} (hgrid : onGrid s)
    (hfree : tpRunning s < max 1 (rdf s Reg.sched.TP_CTRL 4 1)) (hel : eligibleParts s = (n, p) :: l)
    (hc : Tbl.get s.store.colls n = some c) (hroom : tpRoom s c p = true) :
    ∃ k, transplantGrid s cs = startTps (withCollection s n { c with tps := c.tps ++ [gridTransplant s cs p] }) k cs.tail l := by
  obtain ⟨k, hk⟩ := Nat.exists_eq_add_one.2 (Nat.sub_pos_of_lt hfree)
  exact ⟨k, by rw [transplantGrid_of_grid cs hgrid, hel, hk, startTps_room cs l hc hroom]⟩

theorem carrierOf_of_head {s : State} {cs : List (Fin 50)} {g : Fin 50} (h : cs.head? = some g) : carrierOf s cs = g.val := by
  unfold carrierOf
  rw [h]

/-! ## The seal -/

section
variable {s : State} {n p : Nat} {c : Coll} {x : Transplant} {choices : List (Fin 8)}

theorem dropTp_only (hx : c.tps = [x]) (hp : x.part = p) : dropTp p c = { c with tps := [] } := by
  simp [dropTp, hx, hp]

theorem setTp_only (y : Transplant) (hx : c.tps = [x]) (hp : x.part = p) : setTp p y c = { c with tps := [y] } := by
  simp [setTp, hx, hp]

theorem transplantSeal_held (hhold : s.step.bgHold = true) : transplantSeal s n p choices = s := by
  unfold transplantSeal
  split
  · rfl
  · rw [if_pos hhold]

theorem transplantSeal_dropped (hc : Tbl.get s.store.colls n = some c) (hx : c.tps = [x]) (hp : x.part = p) (hopen : x.sealed = false)
    (hhold : s.step.bgHold = false) (hlife : c.life ≠ .serving) : transplantSeal s n p choices = withCollection s n { c with tps := [] } := by
  unfold transplantSeal
  simp only [hc, hhold, hx, List.find?_cons, hp, hopen, beq_self_eq_true, Bool.not_false, Bool.and_self, Bool.false_eq_true, if_false, if_pos hlife]
  rw [updColl_eq_withCollection _ hc, dropTp_only hx hp]

/-- Nodes whose two copies read good have no failing header. -/
theorem fails_of_ok {l : List NodeBlk} (h : ∀ m ∈ l, m.ok = (true, true)) : sumOf l NodeBlk.fails = 0 := by
  refine List.foldlRecOn (motive := (· = 0)) l _ rfl fun k hk m hm => ?_
  simp [hk, NodeBlk.fails, h m hm]

theorem readable_of_ok {l : List NodeBlk} (h : ∀ m ∈ l, m.ok = (true, true)) : l.all NodeBlk.readable = true :=
  List.all_eq_true.2 fun m hm => by simp [NodeBlk.readable, h m hm]

/-- The seal of a serving collection's transplant whose nodes read good: the rebuild and the places of its blocks decide (R230, R232). -/
theorem transplantSeal_good {v : Version} (hc : Tbl.get s.store.colls n = some c) (hx : c.tps = [x]) (hp : x.part = p) (hopen : x.sealed = false)
    (hhold : s.step.bgHold = false) (hlife : c.life = .serving) (hv : c.bind x.cut = some v) (hok : ∀ m ∈ partNodes v p, m.ok = (true, true)) :
    transplantSeal s n p choices =
      match rebuildPart s c v x with
      | none => raiseEvt (count (updColl s n fun c => { dropTp p c with blockNext := c.blockNext ++ [p] }) Reg.sched.TP_BLOCKED) (pageBase .sched 0) 10
      | some (y, cw) =>
        match placeNew s c.info x.pub choices y.nodes y.leaves with
        | none => s
        | some (ns, ls) => sealTp s n x y cw ns ls (placeCounts s c v x).2 (placeCounts s c v x).1 := by
  unfold transplantSeal
  simp only [hc, hhold, hx, List.find?_cons, hp, hopen, beq_self_eq_true, Bool.not_false, Bool.and_self, Bool.false_eq_true, if_false, hlife, ne_eq,
    not_true, hv, fails_of_ok hok, trellisFails, readable_of_ok hok]
  rfl

end

/-- The addresses of a gallery's SAT_TOTAL and NAN_TOTAL. -/
def tileTotal (g a : Nat) : Prop := ∃ k < 16, a = Reg.tile.SAT_TOTAL (16 * g + k) ∨ a = Reg.tile.NAN_TOTAL (16 * g + k)

theorem tpStats_regs (s : State) (n : Nat) (x : Transplant) (sat nan : Nat) : RegsWithin (tileTotal x.gallery) s (tpStats s n x sat nan) := by
  unfold tpStats
  refine List.foldlRecOn (motive := RegsWithin _ s) _ _ (.refl _ s) fun u hu k hk => hu.trans ?_
  have hk : k < 16 := List.mem_range.1 hk
  have hsat : RegsWithin (tileTotal x.gallery) u (if sat = 0 then u else
      countBy u (Reg.tile.SAT_TOTAL (16 * x.gallery + k)) (Config.tileShare (n * 256 + x.part) x.cut (16 * x.gallery + k) sat)) := by
    split
    · exact .refl _ u
    · exact .countBy ⟨k, hk, .inl rfl⟩
  dsimp only
  split
  · exact hsat
  · exact hsat.trans (.countBy ⟨k, hk, .inr rfl⟩)

section
variable {s : State} {n p : Nat} {c : Coll} {x : Transplant}

/-- The seal of a collection's only transplant stores its blocks, and besides counts in its gallery's FLUSH_LINES and in its tiles' totals (R230, R320). -/
theorem sealTp_frame (y : Piece) (cw : List Nat) (ns : List NodeBlk) (ls : List LeafBlk) (nan sat : Nat)
    (hc : Tbl.get s.store.colls n = some c) (hx : c.tps = [x]) :
    ∃ t, sealTp s n x y cw ns ls nan sat = t ∧
      t.store = (withCollection s n { c with tps := [{ x with sealed := true, nodes := ns, leaves := ls, carried := cw }] }).store ∧
      t = { s with regs := t.regs, store := t.store, chip := { s.chip with free := s.chip.free + 1 } } ∧
      ∀ a, a ≠ Reg.gallery.FLUSH_LINES x.gallery → ¬ tileTotal x.gallery a → rd t a = rd s a := by
  have hstats := tpStats_regs s n x (sat + y.sat) nan
  have hrd := hstats.rd
  unfold sealTp freshWord
  dsimp only
  generalize tpStats s n x _ _ = u at hstats hrd ⊢
  have heq := hstats.eq
  generalize u.regs = r at heq
  subst heq
  let u : State := { s with regs := r, chip := { s.chip with free := s.chip.free + 1 } }
  have hcoll : updColl u n (setTp x.part { x with sealed := true, nodes := ns, leaves := ls, carried := cw }) =
      withCollection u n { c with tps := [{ x with sealed := true, nodes := ns, leaves := ls, carried := cw }] } := by
    rw [updColl_eq_withCollection (s := u) _ hc, setTp_only _ hx rfl]
  rw [hcoll]
  exact ⟨_, rfl, rfl, rfl, fun a hflush htotal => (rd_countBy_ne _ _ hflush.symm).trans (hrd a htotal)⟩

/-- What TP_BLOCKED counts, and its event. -/
theorem blocked_regs (u : State) :
    RegsWithin (· ∈ [Reg.sched.TP_BLOCKED, pageBase .sched 0 + 0x28]) u (raiseEvt (count u Reg.sched.TP_BLOCKED) (pageBase .sched 0) 10) :=
  (RegsWithin.count (by simp)).trans (.raiseEvt (by simp))

/-- The end of a collection's only transplant that cannot split (R232). -/
theorem blockTp_frame (hc : Tbl.get s.store.colls n = some c) (hx : c.tps = [x]) (hp : x.part = p) :
    ∃ t, raiseEvt (count (updColl s n fun c => { dropTp p c with blockNext := c.blockNext ++ [p] }) Reg.sched.TP_BLOCKED) (pageBase .sched 0) 10 = t ∧
      t.store = (withCollection s n { c with tps := [], blockNext := c.blockNext ++ [p] }).store ∧
      rd t Reg.sched.TP_BLOCKED = counted Reg.sched.TP_BLOCKED (rd s Reg.sched.TP_BLOCKED) ∧
      OnlyRegs { s with store := t.store } t [Reg.sched.TP_BLOCKED, pageBase .sched 0 + 0x28] := by
  have hcoll : updColl s n (fun c => { dropTp p c with blockNext := c.blockNext ++ [p] }) =
      withCollection s n { c with tps := [], blockNext := c.blockNext ++ [p] } := by
    rw [updColl_eq_withCollection _ hc, dropTp_only hx hp]
  rw [hcoll]
  have hframe := blocked_regs (withCollection s n { c with tps := [], blockNext := c.blockNext ++ [p] })
  have hstore := congrArg State.store hframe.eq
  refine ⟨_, rfl, hstore, ?_, ?_⟩
  · rw [rd_raiseEvt_ne _ _ (by decide), rd_count]
    rfl
  · rw [hstore]
    exact hframe.onlyRegs

end

/-! ## The publication -/

section
variable {s : State} {n : Nat} {c : Coll} {x : Transplant}

theorem transplantPublish_dropped (hc : Tbl.get s.store.colls n = some c) (hx : c.tps = [x]) (hlife : c.life ≠ .serving) :
    transplantPublish s n = withCollection s n { c with tps := [] } := by
  unfold transplantPublish
  simp only [hc, hx, List.map_cons, if_pos hlife]
  exact updColl_eq_withCollection _ hc

/-- What a collection's publication of its only transplant makes of the collection, before its chains and arrays get their places (R231 to R233). -/
def published (c : Coll) (x : Transplant) (places : List RootPlace) : Coll :=
  { c with versions := publishInto [x] c.blockNext x.pub places c.versions, tps := [], blockNext := [], dying := c.dying ++ nowDying c x.pub x
           weeds := c.weeds ++ x.carried.map fun k => (⟨x.part, x.cut, true, k, none⟩ : WeedEntry) }

/-- TRANSPLANT_PUBLISH of a serving collection with one transplant. -/
theorem transplantPublish_serving (hc : Tbl.get s.store.colls n = some c) (hx : c.tps = [x]) (hlife : c.life = .serving) :
    transplantPublish s n =
      if s.now < x.pub ∨ x.sealed = false ∨ s.step.seam = true ∨ (s.hall = false ∧ s.step.run = false) then s
      else if (rootPlaces s (rootBytes c) (heapOf s) c.versions.length).length ≠ c.versions.length then s
      else
        let d := published c x (rootPlaces s (rootBytes c) (heapOf s) c.versions.length)
        setUse (setTrellisEpoch (count (putColl (withCollection s n d) n d) Reg.sched.TP_PUBLISHED)) c.tenant := by
  have hsort : sortBy (fun x y : Transplant => x.part < y.part) [x] = [x] := rfl
  unfold transplantPublish
  rw [hc]
  dsimp only
  rw [hx]
  simp only [List.map_cons, List.map_nil, List.foldl_nil, List.filter_cons, List.filter_nil, beq_self_eq_true, if_true, hsort, hlife, ne_eq, not_true,
    if_false, List.all_cons, List.all_nil, Bool.and_true]
  refine ite_congr rfl (fun _ => rfl) fun _ => ite_congr rfl (fun _ => rfl) fun _ => ?_
  rw [updColl_eq_withCollection _ hc, get_withCollection]
  simp only [published, hx, List.filter_cons, List.filter_nil, List.flatMap_cons, List.flatMap_nil, List.append_nil, not_true, decide_false,
    Bool.false_eq_true, if_false, Option.getD_some]
  rfl

theorem setUse_regs (s : State) (t : Nat) : RegsWithin (0x21000000 ≤ ·) s (setUse s t) := by
  unfold setUse
  generalize tenantUse s t = u
  exact RegsWithin.trans (.wr _ (by unfold ftBank; omega)) (.wr _ (by unfold ftBank; omega))

theorem setTrellisEpoch_eq (s : State) : ∃ r c, setTrellisEpoch s = { s with regs := r, chip := c } := ⟨_, _, rfl⟩

theorem rd_setTrellisEpoch_ne {s : State} {a : Nat} (hlo : Reg.atrium.TRELLIS_EPOCH ≠ a) (hhi : Reg.atrium.TRELLIS_EPOCH + 4 ≠ a) :
    rd (setTrellisEpoch s) a = rd s a := by
  show rd (wr64 s Reg.atrium.TRELLIS_EPOCH s.now) a = _
  rw [rd_wr64, if_neg hhi, if_neg hlo]

/-- A publication's copy of TRELLIS_EPOCH and of the tenant's use leaves the store as it is, and counts nothing in TP_PUBLISHED. -/
theorem publication_frame (s : State) (n t : Nat) (d : Coll) :
    ∃ u, setUse (setTrellisEpoch (count (putColl (withCollection s n d) n d) Reg.sched.TP_PUBLISHED)) t = u ∧
      u.store.colls = Tbl.set (Tbl.set s.store.colls n d) n (fitPlaces (withCollection s n d) (heapOf (withCollection s n d)) d) ∧
      rd u Reg.sched.TP_PUBLISHED = counted Reg.sched.TP_PUBLISHED (rd s Reg.sched.TP_PUBLISHED) ∧
      u.mem = s.mem ∧ u.sched = s.sched ∧ u.links = s.links := by
  have hput : ∃ v, putColl (withCollection s n d) n d = v ∧ rd v Reg.sched.TP_PUBLISHED = rd s Reg.sched.TP_PUBLISHED ∧
      v.store.colls = Tbl.set (Tbl.set s.store.colls n d) n (fitPlaces (withCollection s n d) (heapOf (withCollection s n d)) d) ∧
      v.mem = s.mem ∧ v.sched = s.sched ∧ v.links = s.links := ⟨_, rfl, rfl, rfl, rfl, rfl, rfl⟩
  obtain ⟨v, hv, hrd, hcolls, hmem, hsched, hlinks⟩ := hput
  rw [hv]
  have huse := setUse_regs (setTrellisEpoch (count v Reg.sched.TP_PUBLISHED)) t
  have hcount : rd (setUse (setTrellisEpoch (count v Reg.sched.TP_PUBLISHED)) t) Reg.sched.TP_PUBLISHED =
      counted Reg.sched.TP_PUBLISHED (rd s Reg.sched.TP_PUBLISHED) := by
    rw [huse.rd _ (by decide), rd_setTrellisEpoch_ne (by decide) (by decide), rd_count, if_pos rfl, hrd]
  obtain ⟨r, c, he⟩ := setTrellisEpoch_eq (count v Reg.sched.TP_PUBLISHED)
  have hu := huse.eq
  exact ⟨_, rfl, by rw [hu, he]; exact hcolls, hcount, by rw [hu, he]; exact hmem, by rw [hu, he]; exact hsched, by rw [hu, he]; exact hlinks⟩

theorem get_set_set_same {α : Type} (l : Tbl α) (n m : Nat) (x y : α) :
    Tbl.get (Tbl.set (Tbl.set l n x) n y) m = if n = m then some y else Tbl.get l m := by
  rw [Tbl.get_set, Tbl.get_set]
  split <;> rfl

end

/-! ## Transplants -/

/-- Settles O18. -/
theorem transplants_start_seal_and_publish : Obligations.Transplants_start_seal_and_publish := by
  unfold Obligations.Transplants_start_seal_and_publish
  refine ⟨fun s cs hdue => ?_, fun s n c x p hc hx hp => ?_⟩
  · rw [exec_transplantGrid cs hdue]
    refine ⟨fun h => by rw [transplantGrid_of_not_grid cs h], fun h hel => ?_, fun n p c rest h hfree hel hc hroom => ?_⟩
    · rw [transplantGrid_of_grid cs h, hel, startTps]
    · obtain ⟨k, hk⟩ := transplantGrid_first (cs := cs) h hfree hel hc hroom
      obtain ⟨new, hnew⟩ := (startTps_added cs.tail rest _ k).coll n _ (get_withCollection s n { c with tps := c.tps ++ [gridTransplant s cs p] })
      refine ⟨_, { c with tps := c.tps ++ [gridTransplant s cs p] ++ new }, gridTransplant s cs p, rfl, by rw [hk]; exact hnew, by simp,
        rfl, rfl, rfl, rfl, rfl, rfl, fun hrest => ?_⟩
      subst hrest
      exact ⟨hk, fun g hg => carrierOf_of_head hg⟩
  · refine ⟨fun hopen hhold => ⟨fun hlife choices => ?_, fun choices v hlife hv hok => ⟨fun y cw ns ls hpart hplaces => ?_, fun hpart => ?_⟩⟩,
      fun hhold choices => congrArg Host.Outcome.next (transplantSeal_held hhold),
      fun hlife => congrArg Host.Outcome.next (transplantPublish_dropped hc hx hlife),
      fun hlife hheld => ?_, fun places hplaces hlen hlife hsealed hpub hseam hrun => ?_⟩
    · exact congrArg Host.Outcome.next (transplantSeal_dropped hc hx hp hopen hhold hlife)
    · obtain ⟨t, ht, hstore, hframe, hrd⟩ := sealTp_frame y cw ns ls (placeCounts s c v x).2 (placeCounts s c v x).1 hc hx
      refine ⟨t, congrArg Host.Outcome.next ?_, hstore, hframe, fun a hflush htotals => hrd a hflush fun ⟨k, hk, h⟩ => ?_⟩
      · rw [transplantSeal_good hc hx hp hopen hhold hlife hv hok, hpart]
        dsimp only
        rw [hplaces]
        exact ht
      · exact h.elim (htotals k hk).1 (htotals k hk).2
    · obtain ⟨t, ht, hstore, hcount, honly⟩ := blockTp_frame hc hx hp
      refine ⟨t, congrArg Host.Outcome.next ?_, hstore, hcount, honly⟩
      rw [transplantSeal_good hc hx hp hopen hhold hlife hv hok, hpart]
      exact ht
    · refine congrArg Host.Outcome.next ?_
      rw [transplantPublish_serving hc hx hlife, if_pos]
      tauto
    · subst hplaces
      have hready : ¬(s.now < x.pub ∨ x.sealed = false ∨ s.step.seam = true ∨ (s.hall = false ∧ s.step.run = false)) := by
        simp only [hsealed, hseam, not_or, not_and, Nat.not_lt]
        refine ⟨hpub, by simp, by simp, fun hhall => ?_⟩
        simpa [hhall] using hrun
      obtain ⟨u, hu, hcolls, hcount, hmem, hsched, hlinks⟩ :=
        publication_frame s n.val c.tenant (published c x (rootPlaces s (rootBytes c) (heapOf s) c.versions.length))
      have hget (m : Nat) := hcolls ▸ get_set_set_same s.store.colls n.val m _ _
      refine ⟨u, _, congrArg Host.Outcome.next ?_, (hget n.val).trans (if_pos rfl), rfl, rfl, rfl, rfl,
        fun m hm => (hget m).trans (if_neg hm.symm), hcount, hmem, hsched, hlinks⟩
      rw [transplantPublish_serving hc hx hlife, if_neg hready, if_neg (not_not.2 hlen)]
      exact hu

end Sys2Proof.Machine

/-! PROOFS. What the open instant of a node in its C0 safe state leaves as it was: the step, the queues, the tables, the channels, the tenants, the
memory and the ports (R42, R484). -/
namespace Sys2Proof.Machine

/-- The step, the queues, the tables, the channels, the tenants, the memory and the ports. -/
def resting (s : State) : Step × (List Desc × List Nat) × (Tbl Table × Tbl Chan × Tbl Tenant) × Mem × List Port :=
  (s.step, (s.sched.queued, s.sched.ready), (s.store.tables, s.store.chans, s.store.tenants), s.mem, s.links.ports)

section
variable {s : State}

theorem foldl_resting {α : Type} {f : State → α → State} (hf : ∀ t x, resting (f t x) = resting t) (l : List α) :
    resting (l.foldl f s) = resting s :=
  List.foldlRecOn (motive := (resting · = resting s)) l f rfl fun t ht x _ => (hf t x).trans ht

/-! ## Registers, the host and the history -/

theorem wr_resting (a : Nat) (w : Word) : resting (wr s a w) = resting s := rfl

theorem wrf_resting (a hi lo v : Nat) : resting (wrf s a hi lo v) = resting s := rfl

theorem wr64_resting (a v : Nat) : resting (wr64 s a v) = resting s := rfl

theorem count_resting (a : Nat) : resting (count s a) = resting s := rfl

theorem countBy_resting (a n : Nat) : resting (countBy s a n) = resting s := rfl

theorem raiseEvt_resting (b k : Nat) : resting (raiseEvt s b k) = resting s := by
  unfold raiseEvt
  split <;> rfl

theorem freshWord_resting : resting (freshWord s).2 = resting s := rfl

theorem hostWrite_resting (fn : PciFn) (addr : Nat) (data : List Byte) : resting (hostWrite s fn addr data) = resting s := rfl

theorem pushHist_resting (e : HistEntry) : resting (pushHist s e) = resting s := by
  unfold pushHist
  split <;> rfl

theorem capture_resting (k : PageKind) (n bit : Nat) (c : FClass) : resting (capture s k n bit c) = resting s := by
  unfold capture
  extract_lets e s1
  have hs1 : resting s1 = resting s := by
    dsimp only [s1]
    repeat' split
    all_goals simp only [wr_resting, wr64_resting, pushHist_resting]
  split
  · rw [wr64_resting, wr64_resting, hs1]
  · exact hs1

/-! ## Trace units and the merger -/

theorem updTrace_resting (u : Nat) (f : TraceUnit → TraceUnit) : resting (updTrace s u f) = resting s := rfl

theorem addLoss_resting (u reason n : Nat) : resting (addLoss s u reason n) = resting s := by
  unfold addLoss
  split <;> rfl

theorem emit_resting (u typ : Nat) (payload : List Byte) : resting (emit s u typ payload) = resting s := by
  unfold emit
  dsimp only
  repeat' split
  all_goals simp only [wr_resting, count_resting, updTrace_resting, addLoss_resting]

theorem bufWrite_resting (bs : List Byte) : resting (bufWrite s bs) = resting s := rfl

theorem resting_withChip (c : Chip) : resting { s with chip := c } = resting s := rfl

theorem writeLoss_resting (u reason : Nat) : resting (writeLoss s u reason) = resting s := by
  unfold writeLoss
  dsimp only
  split
  · rfl
  · rw [updTrace_resting, resting_withChip, count_resting, bufWrite_resting, bufWrite_resting]

theorem writeLosses_resting : resting (writeLosses s) = resting s := by
  unfold writeLosses
  simp only [foldl_resting, implies_true, writeLoss_resting]

theorem popEntry_resting (u : Nat) (head : Bool) (bs : List Byte) : resting (popEntry s u head bs) = resting s := by
  unfold popEntry
  dsimp only
  repeat' split
  all_goals simp only [count_resting, updTrace_resting, addLoss_resting, bufWrite_resting]

theorem mergerPop_resting (u : Nat) (push : Bool) : resting (mergerPop s u push) = resting s := by
  unfold mergerPop
  repeat' split
  all_goals simp only [wr_resting, writeLosses_resting, popEntry_resting]

theorem drainUnit_resting (u n : Nat) : resting (drainUnit s u n) = resting s := by
  induction n generalizing s with
  | zero => rfl
  | succ n ih =>
    rw [drainUnit]
    split
    · rfl
    · rw [ih, mergerPop_resting]

/-! ## Galleries -/

theorem updGallery_resting (g : Nat) (f : Gallery → Gallery) : resting (updGallery s g f) = resting s := rfl

theorem startRelays_resting : resting (startRelays s) = resting s := rfl

theorem removeGallery_resting (g : Nat) : resting (removeGallery s g) = resting s := by
  unfold removeGallery
  split <;> rfl

theorem takeGallery_resting (g : Nat) : resting (takeGallery s g) = resting s :=
  (show resting (takeGallery s g) = resting (removeGallery s g) from rfl).trans (removeGallery_resting g)

theorem writeLines_resting (g : Nat) (which : Dirty → Bool) : resting (writeLines s g which) = resting s := by
  unfold writeLines
  split <;> rfl

theorem pushEnter_resting (g : Nat) : resting (pushEnter s g) = resting s := by
  unfold pushEnter
  dsimp only
  split <;> simp only [emit_resting, updGallery_resting, writeLines_resting]

theorem gate_resting (g : Nat) : resting (gate s g) = resting s := by
  unfold gate
  dsimp only
  split <;> simp only [wrf_resting, count_resting, raiseEvt_resting, updGallery_resting]

theorem dropFifo_resting (g : Nat) : resting (dropFifo s g) = resting s := by
  unfold dropFifo
  simp only [countBy_resting, updTrace_resting, addLoss_resting]

theorem fallowGate_resting (g : Nat) : resting (fallowGate s g) = resting s := by
  unfold fallowGate
  dsimp only
  repeat' split
  all_goals simp only [count_resting, raiseEvt_resting, drainUnit_resting, updGallery_resting, pushEnter_resting, gate_resting, dropFifo_resting]

theorem forceFallow_resting (g : Nat) : resting (forceFallow s g) = resting s := by
  unfold forceFallow
  dsimp only
  split <;> simp only [count_resting, raiseEvt_resting, updGallery_resting, takeGallery_resting, fallowGate_resting]

theorem wakeGallery_resting (g : Nat) : resting (wakeGallery s g) = resting s := by
  unfold wakeGallery
  dsimp only
  repeat' split
  all_goals simp only [wrf_resting, updGallery_resting]

theorem thermalRelease_resting (g : Nat) : resting (thermalRelease s g) = resting s := by
  unfold thermalRelease
  dsimp only
  split <;> simp only [updGallery_resting, wakeGallery_resting]

theorem openGallery_resting (g : Nat) : resting (openGallery s g) = resting s := by
  unfold openGallery
  dsimp only
  repeat' split
  all_goals simp only [updGallery_resting, startRelays_resting, removeGallery_resting, pushEnter_resting]

/-! ## Clocks and voltages -/

theorem updPower_resting (f : Power → Power) : resting (updPower s f) = resting s := rfl

theorem updAvs_resting (east : Bool) (f : Avs → Avs) : resting (updAvs s east f) = resting s := rfl

theorem setCeiling_resting (east : Bool) (c : Nat) : resting (setCeiling s east c) = resting s := rfl

theorem setWingFreq_resting (east : Bool) (f : Nat) : resting (setWingFreq s east f) = resting s := by
  unfold setWingFreq
  split <;> rfl

theorem avsWrite_resting (east : Bool) (f : Nat) : resting (avsWrite s east f) = resting s := by
  unfold avsWrite
  dsimp only
  split <;> simp only [wrf_resting, updAvs_resting]

theorem clockSet_resting (east : Bool) : resting (clockSet s east) = resting s := by
  unfold clockSet
  dsimp only
  repeat' split
  all_goals simp only [count_resting, setWingFreq_resting, avsWrite_resting]

/-! ## Sensors -/

/-- The error of a missing reading is of class C2: it stops nothing (R476). -/
theorem raiseErr_power_resting : resting (raiseErr s .power 0 3) = resting s := by
  have hclass : errClass .power 3 = .c2 := by decide
  unfold raiseErr collect
  dsimp only
  simp only [hclass]
  split
  · rfl
  · rw [capture_resting, raiseEvt_resting, count_resting]
    split <;> rfl

theorem takeReading_resting (r : Option Nat) : resting (takeReading s r).2 = resting s := by
  cases r with
  | some t => rfl
  | none => exact raiseErr_power_resting

theorem readSensors_resting (l : List (Option Nat)) : resting (readSensors s l).2 = resting s := by
  induction l generalizing s with
  | nil => rfl
  | cons r l ih =>
    rw [readSensors]
    exact (ih (s := (takeReading s r).2)).trans (takeReading_resting r)

theorem evalWing_resting (ts st : List Nat) (east : Bool) : resting (evalWing s ts st east) = resting s := by
  unfold evalWing
  dsimp only
  repeat' split
  all_goals simp only [raiseEvt_resting, setCeiling_resting, avsWrite_resting]

theorem galleryHeat_resting (gt : Nat × Nat) : resting (galleryHeat s gt) = resting s := by
  unfold galleryHeat
  dsimp only
  repeat' split
  all_goals simp only [forceFallow_resting, thermalRelease_resting]

theorem thermalEvaluate_resting (e : OpenEnv) : resting (thermalEvaluate s e) = resting s := by
  unfold thermalEvaluate
  dsimp only
  rw [foldl_resting fun _ _ => galleryHeat_resting _, evalWing_resting, evalWing_resting, wr_resting, updPower_resting,
    foldl_resting fun _ _ => wr_resting _ _, readSensors_resting]

theorem openPower_resting (e : OpenEnv) : resting (openPower s e) = resting s := by
  unfold openPower
  simp only [foldl_resting, implies_true, openGallery_resting, clockSet_resting, thermalEvaluate_resting]

end

end Sys2Proof.Machine

/-! PROOFS. What the work of an open instant leaves of the step's state: no flight, no frame and no fault of it moves the step counter or BG_HOLD. -/
namespace Sys2Proof.Machine

section
variable {s : State}

/-! ## Folds -/

theorem foldl_step {α : Type} {f : State → α → State} (hf : ∀ t x, (f t x).step = t.step) (l : List α) : (l.foldl f s).step = s.step :=
  List.foldlRecOn (motive := (·.step = s.step)) l f rfl fun t ht x _ => (hf t x).trans ht

/-! ## Free values, frames and the host -/

theorem freshWord_step : (freshWord s).2.step = s.step := rfl

theorem startFrame_step (p : Nat) : (startFrame s p).step = s.step := by
  unfold startFrame
  split <;> simp only [updPort_step]

theorem pushEgress_step (p : Nat) (f : EgFrame) : (pushEgress s p f).step = s.step := by
  unfold pushEgress
  dsimp only
  split <;> simp only [count_step, updPort_step, startFrame_step]

theorem sendFrame_step (typ flags cls dst object flow : Nat) (payload : List Byte) :
    (sendFrame s typ flags cls dst object flow payload).step = s.step := by
  unfold sendFrame
  dsimp only
  split <;> simp only [count_step, pushEgress_step]

theorem transmit_step (p : Nat) (f : EgFrame) : (transmit s p f).step = s.step := rfl

theorem leaveUp_step (p st : Nat) : (leaveUp s p st).step = s.step := by
  unfold leaveUp
  dsimp only
  split <;> simp only [countBy_step, raiseEvt_step, updPort_step]

theorem hostWrite_step (fn : PciFn) (addr : Nat) (data : List Byte) : (hostWrite s fn addr data).step = s.step := rfl

theorem hostMsix_step (fn : PciFn) (v : Nat) : (hostMsix s fn v).step = s.step := rfl

theorem setPciState_step (fn : PciFn) (x : PciState) : (setPciState s fn x).step = s.step := by
  unfold setPciState
  split <;> rfl

theorem sendMsix_step (fn : PciFn) (v : Nat) : (sendMsix s fn v).step = s.step := by
  unfold sendMsix
  dsimp only
  split <;> simp only [hostMsix_step, setPciState_step]

theorem setUse_step (t : Nat) : (setUse s t).step = s.step := by
  unfold setUse
  generalize tenantUse s t = u
  rw [wr_step, wr_step]

/-! ## Errors and the safe state -/

theorem pushHist_step (e : HistEntry) : (pushHist s e).step = s.step := by
  unfold pushHist
  split <;> simp only [wr_step, count_step]

theorem capture_step (k : PageKind) (n bit : Nat) (c : FClass) : (capture s k n bit c).step = s.step := by
  unfold capture
  extract_lets e s1
  have hs1 : s1.step = s.step := by
    dsimp only [s1]
    repeat' split
    all_goals simp only [wr_step, wr64_step, pushHist_step]
  split
  · rw [wr64_step, wr64_step, hs1]
  · exact hs1

theorem setFaultBit_step (g : Nat) : (setFaultBit s g).step = s.step := by
  unfold setFaultBit
  split <;> simp only [wr64_step]

theorem sendNow_step (typ dst : Nat) (payload : List Byte) : (sendNow s typ dst payload).step = s.step := by
  unfold sendNow
  dsimp only
  split <;> simp only [count_step, transmit_step]

theorem safeState_step : (safeState s).step = s.step := by
  unfold safeState
  split <;> simp only [foldl_step, implies_true, leaveUp_step, sendNow_step]

theorem releaseRange_step (range : Nat) : (releaseRange s range).step = s.step := rfl

theorem abortCollLoad_step : (abortCollLoad s).step = s.step := by
  unfold abortCollLoad
  dsimp only
  split <;> simp only [wr_step, setUse_step, releaseRange_step]

theorem abortTableLoad_step : (abortTableLoad s).step = s.step := by
  unfold abortTableLoad
  dsimp only
  split <;> simp only [wr_step, raiseEvt_step, setUse_step, releaseRange_step]

theorem abortLoads_step : (abortLoads s).step = s.step := by
  unfold abortLoads
  simp only [abortCollLoad_step, abortTableLoad_step]

theorem collect_step (k : PageKind) (n bit : Nat) : (collect s k n bit).step = s.step := by
  unfold collect
  repeat' split
  all_goals simp only [wr64_step, count_step, raiseEvt_step, capture_step, setFaultBit_step, safeState_step, abortLoads_step]

theorem raiseErr_step (k : PageKind) (n bit : Nat) : (raiseErr s k n bit).step = s.step := by
  unfold raiseErr
  dsimp only
  repeat' split
  all_goals simp only [wr_step, count_step, collect_step]

/-! ## Completions -/

theorem putCqe_step (c : Nat) (q : Cqe) : (putCqe s c q).step = s.step := by
  unfold putCqe
  dsimp only
  split <;> simp only [hostWrite_step, sendMsix_step, updChan_step]

theorem discardCompletion_step (c : Nat) (hdr : Bool) : (discardCompletion s c hdr).step = s.step := rfl

theorem postCqe_step (c : Nat) (q : Cqe) : (postCqe s c q).step = s.step := by
  unfold postCqe
  dsimp only
  split <;> simp only [count_step, updChan_step, putCqe_step]

theorem complete_step (d : Desc) (status epoch cnt : Nat) (writes : List (Nat × List Byte)) (silent : Bool) :
    (complete s d status epoch cnt writes silent).step = s.step := by
  unfold complete
  dsimp only
  split
  · rw [discardCompletion_step]
  · rw [postCqe_step, foldl_step fun _ _ => hostWrite_step _ _ _]

/-! ## Meters and trace packets -/

theorem meter_step (t i n : Nat) : (meter s t i n).step = s.step := by
  unfold meter
  split <;> simp only [updTenant_step]

theorem addLoss_step (u reason n : Nat) : (addLoss s u reason n).step = s.step := by
  unfold addLoss
  split <;> simp only [updTrace_step]

theorem emit_step (u typ : Nat) (payload : List Byte) : (emit s u typ payload).step = s.step := by
  unfold emit
  dsimp only
  repeat' split
  all_goals simp only [wr_step, count_step, updTrace_step, addLoss_step]

theorem emitStage_step (u chan admitStep stage tile sflags kind : Nat) :
    (emitStage s u chan admitStep stage tile sflags kind).step = s.step := by
  unfold emitStage
  split <;> simp only [emit_step]

theorem emitLanding_step (u chan admitStep landing outcome : Nat) : (emitLanding s u chan admitStep landing outcome).step = s.step := by
  unfold emitLanding
  split <;> simp only [emit_step]

/-! ## Tables and their rows -/

theorem installPage_step (range page : Nat) : (installPage s range page).step = s.step := rfl

theorem cacheHit_step (range off n : Nat) : (cacheHit s range off n).step = s.step := by
  unfold cacheHit
  simp only [foldl_step, implies_true, count_step, installPage_step, apply_ite State.step, ite_self]

theorem dirtyBuckets_step (range first : Nat) (old new : Tbl (List KeyEntry)) : (dirtyBuckets s range first old new).step = s.step := by
  unfold dirtyBuckets
  simp only [foldl_step, implies_true, updFlash_step, apply_ite State.step, ite_self]

theorem tableDone_step : (tableDone s).step = s.step := by
  unfold tableDone
  simp only [raiseEvt_step]

theorem settleTable_step (n : Nat) : (settleTable s n).step = s.step := by
  unfold settleTable
  dsimp only
  repeat' split
  all_goals simp only [setUse_step, releaseRange_step, tableDone_step]

theorem dirtyRow_step (n : Nat) (t : Table) (idx : Nat) : (dirtyRow s n t idx).step = s.step := by
  refine foldl_step (fun u i => ?_) _
  dsimp only
  split
  · rfl
  · rw [updFlash_step]

theorem countRowLost_step (n : Nat) (t : Table) (idx : Nat) : (countRowLost s n t idx).step = s.step := by
  unfold countRowLost
  dsimp only
  split <;> simp only [count_step, raiseEvt_step, setTable_step]

theorem scatterRow_step (n : Nat) (p : OptParams) (gradFmt : Nat) (key : Quad) (grad : List Byte) :
    (scatterRow s n p gradFmt key grad).1.step = s.step := by
  unfold scatterRow
  dsimp only
  repeat' split
  all_goals simp only [count_step, setUse_step, dirtyBuckets_step, setTable_step, dirtyRow_step, countRowLost_step]

theorem lookupRow_step (n : Nat) (withState : Bool) (key : Quad) : (lookupRow s n withState key).1.step = s.step := by
  unfold lookupRow
  repeat' split
  all_goals simp only [countRowLost_step]

/-! ## Collections -/

theorem trellisFails_step (n : Nat) : (trellisFails s n).step = s.step := by
  induction n generalizing s with
  | zero => rfl
  | succ n ih => rw [trellisFails, ih, count_step, raiseErr_step]

theorem putColl_step (n : Nat) (c : Coll) : (putColl s n c).step = s.step := rfl

theorem setSeedHigh_step : (setSeedHigh s).step = s.step := by
  unfold setSeedHigh
  simp only [setCond_step]

theorem countRefused_step (st : Nat) : (countRefused s st).step = s.step := by
  unfold countRefused
  repeat' split
  all_goals simp only [count_step, raiseEvt_step]

/-! ## Mirror streams and remote reads -/

theorem sendUnit_step (i : Nat) (u : MUnit) : (sendUnit s i u).step = s.step := by
  unfold sendUnit
  simp only [foldl_step, implies_true, sendFrame_step]

theorem stream_step (i typ op epoch cls flight entries : Nat) (frags : Tbl (Nat × Nat × List Byte)) :
    (stream s i typ op epoch cls flight entries frags).step = s.step := by
  unfold stream
  simp only [updPair_step, sendUnit_step]

theorem sendPrep_step (f : Flight) : (sendPrep s f).step = s.step := by
  unfold sendPrep
  split <;> simp only [stream_step]

theorem dropPrep_step (i flight : Nat) : (dropPrep s i flight).step = s.step := rfl

theorem runDeferred_step (a : Deferred) : (runDeferred s a).step = s.step := by
  unfold runDeferred
  split <;> simp only [sendFrame_step, complete_step]

theorem abortPrep_step (f : Flight) (act : Deferred) : (abortPrep s f act).step = s.step := by
  unfold abortPrep
  repeat' split
  all_goals simp only [stream_step, dropPrep_step, runDeferred_step]

theorem sendOwnerRead_step (dst cls object objKind off n : Nat) : (sendOwnerRead s dst cls object objKind off n).step = s.step := by
  unfold sendOwnerRead
  simp only [sendFrame_step]

theorem askRemote_step (cls : Nat) (r : RemoteRead) : (askRemote s cls r).step = s.step := by
  unfold askRemote
  simp only [sendOwnerRead_step]

theorem remoteRead_step (obj cls : Nat) (r : RemoteRead) : (remoteRead s obj cls r).step = s.step := by
  unfold remoteRead
  split <;> simp only [count_step, askRemote_step]

theorem mirrorRead_step (range cls : Nat) (r : RemoteRead) : (mirrorRead s range cls r).step = s.step := by
  unfold mirrorRead
  split <;> simp only [askRemote_step]

/-! ## Queries to other nodes -/

theorem meterFabric_step (t n : Nat) : (meterFabric s t n).step = s.step := by
  unfold meterFabric
  simp only [meter_step]

theorem sendRake_step (typ t cls dst object flow : Nat) (pay : List Byte) :
    (sendRake s typ t cls dst object flow pay).step = s.step := by
  unfold sendRake
  simp only [sendFrame_step, meterFabric_step]

theorem addPart_step (f : Flight) : (addPart s f).step = s.step := rfl

theorem takeQuery_step {q : Query} {t : State} (h : takeQuery s q = .ok t) : t.step = s.step := by
  unfold takeQuery at h
  dsimp only at h
  split at h
  · split at h
    · injection h with h
      rw [← h, addPart_step]
    · contradiction
  · contradiction

theorem sendShard_step (f : Flight) (shard node coll j : Nat) (replay : Bool) : (sendShard s f shard node coll j replay).1.step = s.step := by
  unfold sendShard
  split
  · dsimp only
    split
    · split
      · next h => rw [takeQuery_step h, updFlight_step]
      · rw [count_step, updFlight_step]
    · rw [sendRake_step, updFlight_step]
  · rfl

theorem tryReplay_step (id shard node : Nat) : (tryReplay s id shard node).step = s.step := by
  unfold tryReplay
  dsimp only
  repeat' split
  all_goals simp only [count_step, raiseEvt_step, sendShard_step]

theorem takeContrib_step (b : List Byte) : (takeContrib s b).step = s.step := by
  unfold takeContrib
  dsimp only
  repeat' split
  all_goals simp only [count_step, updFlight_step, tryReplay_step]

theorem toCoord_step (f : Flight) (p : PartInfo) (pay : List Byte) : (toCoord s f p pay).step = s.step := by
  unfold toCoord
  dsimp only
  split <;> simp only [sendRake_step, takeContrib_step]

theorem sendNone_step (f : Flight) (p : PartInfo) (reason : Nat) : (sendNone s f p reason).step = s.step := by
  unfold sendNone
  simp only [count_step, toCoord_step]

theorem sendShards_step (id : Nat) : (sendShards s id).step = s.step := by
  unfold sendShards
  split
  · rfl
  · split
    · rfl
    · refine foldl_step (fun t x => ?_) _
      dsimp only
      split
      · rfl
      · split <;> simp only [takeContrib_step, sendShard_step]

theorem countMerged_step (f : Flight) : (countMerged s f).step = s.step := by
  unfold countMerged
  simp only [countN_step]

theorem updWork_step (id : Nat) (g : Flight → Flight) : (updWork s id g).step = s.step := rfl

/-! ## Shadows -/

theorem skipShadow_step : (skipShadow s).step = s.step := rfl

theorem compareShadow_step (k : Nat) : (compareShadow s k).step = s.step := by
  unfold compareShadow
  dsimp only
  repeat' split
  all_goals simp only [wr_step, wr64_step, count_step, countBy_step, raiseEvt_step, skipShadow_step, setGraft_step]

theorem shadowOwn_step (f : Flight) (p : PartInfo) (ok : Bool) : (shadowOwn s f p ok).step = s.step := by
  unfold shadowOwn
  split <;> simp only [skipShadow_step, setGraft_step, compareShadow_step]

theorem sendShadowResult_step (f : Flight) : (sendShadowResult s f).step = s.step := by
  unfold sendShadowResult
  split <;> simp only [foldl_step, implies_true, sendFrame_step, updWork_step]

/-! ## The end of a flight -/

theorem dropFlight_step (id : Nat) : (dropFlight s id).step = s.step := rfl

theorem holdRows_step (f : Flight) (act : Deferred) : (holdRows s f act).step = s.step := by
  unfold holdRows
  dsimp only
  repeat' split
  all_goals simp only [runDeferred_step]

theorem updateEnded_step (f : Flight) (status : Nat) : (updateEnded s f status).2.step = s.step := rfl

theorem releaseCopy_step (f : Flight) : (releaseCopy s f).step = s.step := by
  unfold releaseCopy
  dsimp only
  split <;> simp only [putColl_step, setSeedHigh_step]

theorem endFlight_step (f : Flight) (status : Nat) : (endFlight s f status).step = s.step := by
  unfold endFlight
  repeat' split
  all_goals simp only [complete_step, settleTable_step, countRefused_step, abortPrep_step, sendNone_step, shadowOwn_step, dropFlight_step,
    holdRows_step, updateEnded_step, releaseCopy_step]

theorem failFlight_step (f : Flight) : (failFlight s f).step = s.step := by
  unfold failFlight
  simp only [endFlight_step]

/-! ## Row batches -/

theorem sendRows_step (f : Flight) (t : Table) (l : List (RowItem × Nat)) : (sendRows s f t l).step = s.step := by
  unfold sendRows
  simp only [foldl_step, implies_true, updFlight_step, sendRake_step]

theorem rowRead_step (n : Nat) (key : Quad) : (rowRead s n key).step = s.step := by
  unfold rowRead
  dsimp only
  repeat' split
  all_goals simp only [cacheHit_step]

theorem fetchRow_step (f : Flight) (r : RowItem) (i : Nat) : (fetchRow s f r i).step = s.step := by
  unfold fetchRow
  dsimp only
  repeat' split
  all_goals simp only [mirrorRead_step]

theorem fetchRows_step (f : Flight) : (fetchRows s f).step = s.step := by
  unfold fetchRows
  simp only [foldl_step, implies_true, fetchRow_step]

theorem gatherRows_step (f : Flight) : (gatherRows s f).step = s.step := by
  refine foldl_step (fun u r => ?_) _
  split
  · rw [remoteRead_step]
  · split
    · rw [fetchRow_step]
    · simp only [updWork_step, lookupRow_step, rowRead_step]

theorem exchangeRows_step (f : Flight) : (exchangeRows s f).step = s.step := by
  unfold exchangeRows
  split <;> simp only [sendRows_step]

theorem streamRows_step (n cls flight epoch : Nat) (params : List Byte) (es : List (List Byte)) :
    (streamRows s n cls flight epoch params es).step = s.step := by
  unfold streamRows
  repeat' split
  all_goals simp only [stream_step]

theorem putFetched_step (n : Nat) (key : Quad) (b : List Byte) : (putFetched s n key b).step = s.step := by
  unfold putFetched
  dsimp only
  split <;> simp only [setTable_step]

theorem applyRow_step (n tenant : Nat) (p : OptParams) (fmt : Nat) (key : Quad) (grad fetched : List Byte) :
    (applyRow s n tenant p fmt key grad fetched).1.step = s.step := by
  unfold applyRow
  dsimp only
  split <;> simp only [meter_step, scatterRow_step, putFetched_step]

theorem showBatch_step (f : Flight) : (showBatch s f).step = s.step := by
  unfold showBatch
  split <;> simp only [setTable_step]

theorem scatterTo_step (f : Flight) (upto : Nat) : (scatterTo s f upto).step = s.step := by
  unfold scatterTo
  split
  · rfl
  · simp only [setTable_step, updFlight_step, sendRows_step, streamRows_step]
    refine List.foldlRecOn (motive := fun (a : State × List (List Byte)) => a.1.step = s.step) _ _ rfl fun a ha r _ => ?_
    simp only [updFlight_step, applyRow_step, ha]

theorem showNext_step (n : Nat) : (showNext s n).step = s.step := by
  unfold showNext
  split <;> simp only [showBatch_step]

/-! ## What a stage counts and traces -/

theorem tileStats_step (f : Flight) (d : StageDef) (sat nan : Nat) : (tileStats s f d sat nan).step = s.step := by
  have hcounts (u : State) (a : Nat → Nat) (v : Nat → Nat) (ts : List Nat) : (ts.foldl (fun u t => countBy u (a t) (v t)) u).step = u.step :=
    foldl_step (fun _ _ => countBy_step _ _ _) _
  unfold tileStats
  split
  · rw [countBy_step, countBy_step]
  · simp only [apply_ite State.step, hcounts, ite_self]

theorem traceChan_step (f : Flight) : (traceChan s f).2.step = s.step := by
  unfold traceChan
  dsimp only
  repeat' split
  all_goals simp only [freshWord_step]

theorem traceStage_step (f : Flight) (d : StageDef) (gs : List Nat) (sflags : Nat) : (traceStage s f d gs sflags).step = s.step := by
  unfold traceStage
  simp only [foldl_step, implies_true, emitStage_step, traceChan_step]

theorem traceLanding_step (f : Flight) (no outcome : Nat) : (traceLanding s f no outcome).step = s.step := by
  unfold traceLanding
  split <;> simp only [emitLanding_step, traceChan_step]

theorem takeBack_step (f : Flight) (b : BackDef) (o : Nat) : (takeBack s f b o).step = s.step := by
  unfold takeBack
  simp only [count_step, meter_step, updWork_step]

/-! ## What each kind of stage does -/

theorem projectStage_step (f : Flight) (d : StageDef) : (projectStage s f d).step = s.step := by
  unfold projectStage
  repeat' split
  all_goals simp only [updWork_step, tileStats_step]

theorem descendStage_step (f : Flight) (d : StageDef) : (descendStage s f d).step = s.step := by
  unfold descendStage
  dsimp only
  repeat' split
  all_goals simp only [trellisFails_step, updWork_step, endFlight_step, tileStats_step]

theorem addPass_step (f : Flight) (i : CollInfo) (l : LeafBlk) : (addPass s f i l).step = s.step := by
  unfold addPass
  dsimp only
  split <;> rfl

theorem movePasses_step (f : Flight) : (movePasses s f).step = s.step := rfl

theorem leafSelect_step (f : Flight) : (leafSelect s f).step = s.step := by
  unfold leafSelect
  split
  · rfl
  · refine (foldl_step (fun u p => ?_) _).trans ((updWork_step _ _).trans (trellisFails_step _))
    split
    · rw [addPass_step]
    · rfl

theorem leafScan_step (f : Flight) (d : StageDef) : (leafScan s f d).step = s.step := by
  unfold leafScan
  split <;> simp only [meter_step, trellisFails_step, updWork_step]

theorem seedScan_step (f : Flight) (d : StageDef) : (seedScan s f d).step = s.step := by
  unfold seedScan
  split <;> simp only [trellisFails_step, updWork_step]

theorem rakeMerge_step (f : Flight) : (rakeMerge s f).step = s.step := by
  unfold rakeMerge
  split <;> simp only [updWork_step]

theorem refineIssue_step (f : Flight) : (refineIssue s f).step = s.step := by
  unfold refineIssue
  dsimp only
  split <;> simp only [foldl_step, implies_true, cacheHit_step, remoteRead_step, updWork_step]

theorem toSurvivors_step (f g : Flight) : (toSurvivors s f g).step = s.step := by
  unfold toSurvivors
  split <;> simp only [updWork_step, sendShadowResult_step]

theorem writeStats_step (f : Flight) (l : Layer) (lead : Nat) (recs : List (Nat × Nat × Word)) : (writeStats s f l lead recs).step = s.step := by
  unfold writeStats
  simp only [foldl_step, implies_true, count_step, raiseEvt_step, apply_ite State.step, ite_self]

theorem satEvent_step (lead : Nat) : (satEvent s lead).step = s.step := by
  unfold satEvent
  simp only [count_step, raiseEvt_step]

theorem layerStep_step (m : Model) (d : StageDef) (n : Nat) (p : Pass2) (layer : Nat) :
    (layerStep m d n p layer).state.step = p.state.step := by
  unfold layerStep
  split
  · dsimp only
    repeat' split
    all_goals
      simp only [tileStats_step, writeStats_step, satEvent_step, count_step, takeBack_step, updWork_step, raiseEvt_step]
  · rfl

theorem modelInput_step (m : Model) (f : Flight) : (modelInput s m f).1.step = s.step := by
  unfold modelInput
  split <;> simp only [countN_step]

theorem layers_step (m : Model) (d : StageDef) (n : Nat) (l : List Nat) (p : Pass2) :
    (l.foldl (layerStep m d n) p).state.step = p.state.step :=
  List.foldlRecOn (motive := (·.state.step = p.state.step)) l _ rfl fun q hq x _ => (layerStep_step m d n q x).trans hq

theorem modelStage_step (f : Flight) (d : StageDef) : (modelStage s f d).step = s.step := by
  unfold modelStage
  dsimp only
  repeat' split
  all_goals simp only [updWork_step, modelInput_step, layers_step]

theorem copyWrite_step (f : Flight) (d : StageDef) (g : Flight) : (copyWrite s f d g).step = s.step := by
  unfold copyWrite
  split <;> simp only [updGallery_step, putColl_step, updWork_step]

theorem copyStage_step (f : Flight) (d : StageDef) : (copyStage s f d).step = s.step := by
  unfold copyStage
  dsimp only
  repeat' split
  all_goals simp only [sendPrep_step, endFlight_step, copyWrite_step]

theorem contribute_step (f : Flight) (p : PartInfo) : (contribute s f p).step = s.step := by
  unfold contribute
  split <;> simp only [foldl_step, implies_true, toCoord_step, shadowOwn_step, dropFlight_step, toSurvivors_step]

theorem xnodeSend_step (f : Flight) (d : StageDef) : (xnodeSend s f d).step = s.step := by
  unfold xnodeSend
  repeat' split
  all_goals simp only [sendShards_step, contribute_step]

theorem xnodeMerge_step (f : Flight) : (xnodeMerge s f).step = s.step := by
  unfold xnodeMerge
  split <;> simp only [countMerged_step, updWork_step]

theorem resultWrite_step (f : Flight) : (resultWrite s f).step = s.step := by
  unfold resultWrite
  repeat' split
  all_goals simp only [endFlight_step, toSurvivors_step]

theorem stageEffect_step (f : Flight) (d : StageDef) : (stageEffect s f d).step = s.step := by
  unfold stageEffect
  repeat' split
  all_goals simp only [updWork_step, gatherRows_step, exchangeRows_step, scatterTo_step, showNext_step, projectStage_step, descendStage_step,
    leafSelect_step, leafScan_step, seedScan_step, rakeMerge_step, refineIssue_step, toSurvivors_step, modelStage_step, copyStage_step,
    xnodeSend_step, xnodeMerge_step, resultWrite_step]

/-! ## Stages end, start and resume -/

theorem meterHbm_step (f : Flight) : (meterHbm s f).step = s.step := by
  unfold meterHbm
  simp only [freshWord_step, meter_step]

theorem forwardShadow_step (f : Flight) (d : StageDef) : (forwardShadow s f d).step = s.step := by
  unfold forwardShadow
  repeat' split
  all_goals simp only [sendFrame_step]

theorem partFinished_step (f : Flight) : (partFinished s f).step = s.step := by
  unfold partFinished
  repeat' split
  all_goals simp only [contribute_step]

theorem finishStage_step (f : Flight) (d : StageDef) : (finishStage s f d).step = s.step := by
  unfold finishStage
  dsimp only
  split <;> simp only [stageEffect_step, meterHbm_step, forwardShadow_step, partFinished_step]

theorem wakeTile_step (t : Nat) : (wakeTile s t).step = s.step := rfl

theorem startScatter_step (f : Flight) (d : StageDef) : (startScatter s f d).step = s.step := by
  unfold startScatter
  split <;> simp only [fetchRows_step, showBatch_step]

theorem startStage_step (f : Flight) (d : StageDef) : (startStage s f d).step = s.step := by
  unfold startStage
  dsimp only
  split
  · split
    · rfl
    · rw [updWork_step]
  · split
    · rfl
    · rw [traceStage_step, meter_step, foldl_step fun _ _ => wakeTile_step _, startScatter_step, updWork_step]

theorem resumeStage_step (f : Flight) (d : StageDef) : (resumeStage s f d).step = s.step := by
  unfold resumeStage
  split
  · rfl
  · split
    · split
      · rfl
      · rw [updWork_step]
    · rw [foldl_step fun _ _ => wakeTile_step _, startScatter_step, updWork_step]

theorem endCancelled_step (f : Flight) : (endCancelled s f).step = s.step := by
  unfold endCancelled
  split <;> simp only [endFlight_step]

/-! ## Landings and waiting steps -/

theorem goOn_step (id : Nat) (d : StageDef) : (goOn s id d).step = s.step := by
  unfold goOn
  dsimp only
  repeat' split
  all_goals simp only [updWork_step, finishStage_step, startStage_step, resumeStage_step]

theorem waitStep_step (f : Flight) (o : Nat) : (waitStep s f o).step = s.step := by
  unfold waitStep
  dsimp only
  split <;> simp only [foldl_step, implies_true, count_step, updWork_step, movePasses_step, goOn_step]

theorem refineFirst_step (f : Flight) : (refineFirst s f).step = s.step := by
  unfold refineFirst
  split <;> simp only [updWork_step]

theorem stairAt_step (f : Flight) (b : BackDef) (l : LandingDef) : (stairAt s f b l).step = s.step := by
  unfold stairAt
  dsimp only
  repeat' split
  all_goals simp only [updWork_step, takeBack_step, xnodeMerge_step, refineFirst_step]

theorem atLandings_step (id : Nat) (l : List LandingDef) : (atLandings s id l).1.step = s.step := by
  induction l generalizing s with
  | nil => rfl
  | cons x l ih =>
    unfold atLandings
    split
    · rfl
    · split
      · rw [ih, traceLanding_step, updWork_step]
      · split
        · rw [traceLanding_step, waitStep_step]
        · split
          · rw [ih, traceLanding_step, stairAt_step]
          · rw [failFlight_step, traceLanding_step]

theorem startStages_step (id o : Nat) : (startStages s id o).step = s.step := by
  unfold startStages
  split <;> simp only [foldl_step, implies_true, startStage_step]

/-! ## Flights at the open instant -/

theorem cancelNow_step (f : Flight) : (cancelNow s f).step = s.step := by
  unfold cancelNow
  split <;> simp only [endFlight_step, endCancelled_step]

theorem openForeground_step (f : Flight) : (openForeground s f).step = s.step := by
  unfold openForeground
  dsimp only
  repeat' split
  all_goals simp only [failFlight_step, atLandings_step, startStages_step, cancelNow_step]

theorem openBackground_step (f : Flight) : (openBackground s f).step = s.step := by
  unfold openBackground
  dsimp only
  repeat' split
  all_goals simp only [foldl_step, implies_true, failFlight_step, resumeStage_step, startStages_step, cancelNow_step]

theorem openFlight_step (id : Nat) : (openFlight s id).step = s.step := by
  unfold openFlight
  repeat' split
  all_goals simp only [openForeground_step, openBackground_step]

/-! ## The rest of the open instant -/

theorem askImage_step (i o n : Nat) : (askImage s i o n).step = s.step := by
  induction n generalizing s o with
  | zero => rfl
  | succ n ih =>
    rw [askImage]
    split
    · rfl
    · rw [ih, setGraft_step, sendOwnerRead_step]

theorem readImages_step : (readImages s).step = s.step := by
  unfold readImages
  dsimp only
  repeat' split
  all_goals simp only [askImage_step]

theorem openQuiesce_step : (openQuiesce s).step = s.step := by
  unfold openQuiesce
  dsimp only
  repeat' split
  all_goals simp only [wrf_step, raiseEvt_step]

theorem openBackgrounds_step : (openBackgrounds s).step = s.step := by
  unfold openBackgrounds
  simp only [foldl_step, implies_true, openFlight_step]

theorem openCounts_step : (openCounts s).step = s.step := by
  unfold openCounts
  dsimp only
  repeat' split
  all_goals simp only [count_step]

end

end Sys2Proof.Machine

/-! PROOFS. The open instant, and STEP_RUN (R41 to R43, R71, R484). -/
namespace Sys2Proof.Machine

/-! ## The open instant -/

section
variable {s : State} {env : OpenEnv}

theorem exec_stepOpen_stopped (hhall : s.hall = false) (hrun : s.step.run = false) : exec (.stepOpen env) s = .next s :=
  congrArg Host.Outcome.next (if_neg fun h => by simp [hhall, hrun] at h)

theorem exec_stepOpen_seam (hseam : s.step.seam = true) (hrun : s.hall = true ∨ s.step.run = true) :
    exec (.stepOpen env) s = .next (openInstant s env) :=
  congrArg Host.Outcome.next (if_pos ⟨hseam, hrun⟩)

/-- In its C0 safe state the node does no more at the open instant than its power block does (R484). -/
theorem openInstant_c0 (hc0 : s.c0 = true) :
    openInstant s env = openPower (setStep s fun p => { p with seam := false, noToken := env.tokenMissing.map (·.val) }) env := by
  unfold openInstant
  dsimp only
  rw [if_pos hc0]

/-- The open instant ends the pause of background work, and nothing after that begins it again (R71). -/
theorem openInstant_bgHold (hc0 : s.c0 = false) : (openInstant s env).step.bgHold = false := by
  unfold openInstant
  dsimp only
  rw [if_neg (by simp [hc0]), openCounts_step, openQuiesce_step, openBackgrounds_step, readImages_step]
  rfl

end

/-! ## STEP_RUN -/

/-- The rates that follow the period stand above the atrium page. -/
theorem setStepRates_regs (s : State) : RegsWithin (0x1000 ≤ ·) s (setStepRates s) := by
  unfold setStepRates
  extract_lets p s1 s2 s3
  have h2 : RegsWithin (0x1000 ≤ ·) s s2 := RegsWithin.trans (.wr _ (by decide)) (.wr _ (by decide))
  have h3 : RegsWithin (0x1000 ≤ ·) s s3 := List.foldlRecOn (motive := RegsWithin _ s) _ _ h2 fun t ht n _ =>
    ht.trans (.wr _ (by unfold Reg.nb.WIN_PER_STEP; omega))
  exact List.foldlRecOn (motive := RegsWithin _ s) _ _ h3 fun t ht n _ =>
    ht.trans (.wr _ (by unfold Reg.flashCh.SLOTS_PER_STEP; omega))

theorem usePeriod_regs (s : State) : RegsWithin (0x104 ≤ ·) s (usePeriod s) :=
  (RegsWithin.wrf (by decide)).trans ((setStepRates_regs _).mono fun _ h => by omega)

/-- PERIOD_ACTIVE takes PERIOD_SEL. -/
theorem rdf_usePeriod (s : State) : rdf (usePeriod s) Reg.atrium.STEP_STATUS 5 4 = rdf s Reg.atrium.STEP_CTRL 2 1 := by
  have hsel : rdf s Reg.atrium.STEP_CTRL 2 1 < 2 ^ 2 := Nat.mod_lt _ (by decide)
  unfold usePeriod
  unfold rdf at hsel ⊢
  rw [(setStepRates_regs _).rd _ (by decide), rd_wrf, if_pos rfl, fld_withFld _ _ _ _ (by decide), Nat.mod_eq_of_lt hsel]

section
variable {s : State}

theorem stepRun_starts (hhall : s.hall = false) (hrun : s.step.run = false) :
    stepRun s true = usePeriod (setStep s fun p => { p with run := true, valid := true }) := by
  unfold stepRun
  simp [hhall, hrun]

theorem stepRun_stops (hhall : s.hall = false) (hflights : s.sched.flights = []) (hparts : ∀ f ∈ s.sched.parts, f.part.any (·.admitted) = false) :
    stepRun s false = setStep s fun p => { p with run := false } := by
  have hidle : (s.sched.parts.any fun f => f.part.any (·.admitted)) = false := List.any_eq_false.2 fun f hf => by simp [hparts f hf]
  unfold stepRun
  simp [hhall, hflights, hidle]

theorem stepRun_kept_by_flights (hflights : s.sched.flights ≠ []) : stepRun s false = s := by
  unfold stepRun
  dsimp only
  rw [if_pos (by simp [hflights])]

end

/-! ## Steps -/

/-- Settles O13. -/
theorem steps_open_and_stepping_stops : Obligations.Steps_open_and_stepping_stops := by
  unfold Obligations.Steps_open_and_stepping_stops
  refine ⟨fun s env hseam => ⟨exec_stepOpen_stopped, fun hrun hc0 => ?_, fun hrun hc0 => ?_⟩,
    fun s hhall => ⟨fun hrun => ?_, fun hflights hparts => ?_, fun hflights => ?_⟩⟩
  · rw [exec_stepOpen_seam hseam hrun, openInstant_c0 hc0]
    have hrest := openPower_resting (s := setStep s fun p => { p with seam := false, noToken := env.tokenMissing.map (·.val) }) env
    simp only [resting, Prod.mk.injEq] at hrest
    obtain ⟨hstep, ⟨hqueued, hready⟩, ⟨htables, hchans, htenants⟩, hmem, hports⟩ := hrest
    exact ⟨_, rfl, hstep, hqueued, hready, htables, hchans, htenants, hmem, hports⟩
  · have hkept := execStepOpen_kept env (exec_stepOpen_seam (env := env) hseam hrun) (.refl s)
    exact ⟨_, exec_stepOpen_seam hseam hrun, openInstant_bgHold hc0, hkept.pending, hkept.hall, hkept.out, hkept.wire⟩
  · have huse := usePeriod_regs (setStep s fun p => { p with run := true, valid := true })
    have hstep : (usePeriod (setStep s fun p => { p with run := true, valid := true })).step = { s.step with run := true, valid := true } := by
      rw [huse.eq]
      rfl
    refine ⟨_, congrArg Host.Outcome.next (stepRun_starts hhall hrun), hstep, rdf_usePeriod _, ?_⟩
    rw [hstep]
    exact huse.eq
  · exact congrArg Host.Outcome.next (stepRun_stops hhall hflights hparts)
  · exact congrArg Host.Outcome.next (stepRun_kept_by_flights hflights)

end Sys2Proof.Machine

/-! PROOFS. Loading arithmetic profiles (R107, R108). -/
namespace Sys2Proof.Machine

/-! ## The commands -/

theorem exec_profileLoad_free {s : State} (h : busyBit s Reg.sched.PROFILE_STATUS = false) :
    exec .profileLoad s = .next (setBusy s Reg.sched.PROFILE_STATUS true { s.sched with
      profileLoad := some (rd64 s Reg.sched.PROFILE_LOAD_ADDR) }) := by
  show Host.Outcome.next (profileLoad s) = _
  unfold profileLoad
  rw [if_neg (by simp [h])]
  rfl

/-- A load in progress ends when its image lies in HBM, and faults otherwise (R107, R313). -/
theorem exec_profileLoadDone {s : State} {a : Nat} (h : s.sched.profileLoad = some a) :
    exec .profileLoadDone s =
      if inHbm a 64 && inHbm a (profileImage s a).length then .next (profileLoadDone s (profileImage s a)) else .fault (.hbmAddress a) := by
  show execProfileLoadDone s = _
  unfold execProfileLoadDone
  rw [h]

/-! ## What the end of a load leaves -/

section
variable (s : State) (b : List Byte)

theorem profileLoadDone_profiles :
    (profileLoadDone s b).sched.profiles = if (profileResult s b).1 = 0 then addProfile s.sched.profiles b else s.sched.profiles := rfl

/-- PROFILE_COUNT is written after PROFILE_STATUS and leaves it. -/
theorem profileLoadDone_status :
    rd (profileLoadDone s b) Reg.sched.PROFILE_STATUS = BitVec.ofNat 32 ((profileResult s b).2 * 256 + (profileResult s b).1) :=
  (rd_wr_ne _ _ (by decide)).trans (rd_wr_self s _ _)

theorem profileLoadDone_count :
    rd (profileLoadDone s b) Reg.sched.PROFILE_COUNT = BitVec.ofNat 32 (profileLoadDone s b).sched.profiles.length :=
  rd_wr_self _ _ _

theorem profileLoadDone_onlyRegs :
    OnlyRegs { s with sched := (profileLoadDone s b).sched } (profileLoadDone s b) [Reg.sched.PROFILE_STATUS, Reg.sched.PROFILE_COUNT] :=
  (RegsWithin.withSched (.trans (.wr _ (by simp)) (.wr _ (by simp))) _).onlyRegs

end

/-- Settles O23: a free PROFILE_LOAD sets BUSY, and what the end of a load leaves is what the equations of `profileLoadDone` say. -/
theorem profiles_are_loaded : Obligations.Profiles_are_loaded := by
  refine fun s => ⟨fun hfree => ?_, fun a hload hin => ?_⟩
  · exact ⟨_, exec_profileLoad_free hfree, busyBit_setBusy _ _ _ _, rfl, setBusy_onlyRegs _ _ _ _⟩
  · have hprofiles := profileLoadDone_profiles s (profileImage s a)
    exact ⟨_, (exec_profileLoadDone hload).trans (if_pos hin), rfl, profileLoadDone_status _ _, profileLoadDone_count _ _,
      fun hok => hprofiles.trans (if_pos hok), fun hbad => hprofiles.trans (if_neg hbad), profileLoadDone_onlyRegs _ _⟩

end Sys2Proof.Machine

/-! PROOFS. The registers of a loader: STATUS and OFFSET, and how loads of collections and tables start and continue (R151, R152, R290). -/
namespace Sys2Proof.Machine

/-! ## Changes of registers alone leave the rest -/

namespace RegsWithin
variable {P : Nat → Prop} {s t : State}

theorem store (h : RegsWithin P s t) : t.store = s.store := by rw [h.eq]

theorem mem (h : RegsWithin P s t) : t.mem = s.mem := by rw [h.eq]

theorem sched (h : RegsWithin P s t) : t.sched = s.sched := by rw [h.eq]

end RegsWithin

/-! ## Finite tables -/

/-- The entries of a table beside a deleted one. -/
theorem Tbl.get_del_ne {α : Type} {t : Tbl α} {k j : Nat} (h : j ≠ k) : Tbl.get (Tbl.del t k) j = Tbl.get t j :=
  (Tbl.get_del _ _ _).trans (if_neg h.symm)

/-- The entries of a table beside one that is set. -/
theorem Tbl.get_set_ne {α : Type} {t : Tbl α} {k j : Nat} {v : α} (h : j ≠ k) : Tbl.get (Tbl.set t k v) j = Tbl.get t j :=
  (Tbl.get_set _ _ _ _).trans (if_neg h.symm)

/-! ## STATUS and OFFSET -/

/-- STATUS lies above the page's EVT_PENDING, OFFSET above STATUS, and both below the tenants' banks. -/
structure LoadRegs.InOrder (r : LoadRegs) : Prop where
  evt : pageBase .sched 0 + 0x28 < r.status
  offset : r.status < r.offset
  bank : r.offset + 4 < 0x21000000

theorem collRegs_inOrder : collRegs.InOrder := ⟨by decide, by decide, by decide⟩

theorem tableRegs_inOrder : tableRegs.InOrder := ⟨by decide, by decide, by decide⟩

section
variable (s : State) (r : LoadRegs) (busy need done : Bool) (result : Nat)

theorem loadStatus_regs : RegsWithin (· = r.status) s (loadStatus s r busy need done result) :=
  RegsWithin.trans (.wrf rfl) (.wrf rfl)

theorem rd_loadStatus : rd (loadStatus s r busy need done result) r.status =
    withFld (withFld (rd s r.status) 31 29 (busy.toNat * 4 + need.toNat * 2 + done.toNat)) 7 0 result := by
  unfold loadStatus
  rw [rd_wrf, if_pos rfl, rd_wrf, if_pos rfl]

end

/-- What a loader's STATUS reads once it was set and other registers changed. -/
theorem status_of_loadStatus {s t : State} {r : LoadRegs} {busy need done : Bool} {result : Nat}
    (h : rd t r.status = rd (loadStatus s r busy need done result) r.status) (hresult : result < 2 ^ 8) :
    busyBit t r.status = busy ∧ needData t r = need ∧ fld (rd t r.status) 7 0 = result := by
  have hrd := h.trans (rd_loadStatus s r busy need done result)
  refine ⟨?_, ?_, ?_⟩
  · rw [busyBit, hrd, testBit, getLsbD_withFld, getLsbD_withFld]
    cases busy <;> cases need <;> cases done <;> rfl
  · rw [needData, hrd, testBit, getLsbD_withFld, getLsbD_withFld]
    cases busy <;> cases need <;> cases done <;> rfl
  · rw [hrd, fld_withFld _ _ _ _ (by decide), Nat.mod_eq_of_lt hresult]

/-! ## START -/

/-- A loader with BUSY 1 and OFFSET 0, beside what START notes in the store. -/
def startLoad (s : State) (r : LoadRegs) (st : Store) : State :=
  { wr64 (wr s r.status 0x80000000) r.offset 0 with store := st }

section
variable {s : State} {r : LoadRegs} (st : Store)

theorem busyBit_startLoad (hr : r.InOrder) : busyBit (startLoad s r st) r.status = true := by
  have hlt := hr.offset
  have hrd : rd (startLoad s r st) r.status = 0x80000000 :=
    ((RegsWithin.wr64 (P := (· ≠ r.status)) (by omega) (by omega)).rd _ fun hne => hne rfl).trans (rd_wr_self s _ _)
  rw [busyBit, hrd]
  rfl

theorem rd64_startLoad : rd64 (startLoad s r st) r.offset = 0 := rd64_wr64 _ _ _ (by decide)

theorem startLoad_onlyRegs : OnlyRegs { s with store := st } (startLoad s r st) [r.status, r.offset, r.offset + 4] := by
  have h : RegsWithin (· ∈ [r.status, r.offset, r.offset + 4]) { s with store := st }
      (wr64 (wr { s with store := st } r.status 0x80000000) r.offset 0) := .trans (.wr _ (by simp)) (.wr64 (by simp) (by simp))
  exact h.onlyRegs

end

theorem collLoadStart_eq {s : State} (hidle : s.store.load = none) (hshape : chunkShape s collRegs = true) (hlen : 4096 ≤ chunkLen s collRegs)
    (hempty : Tbl.get s.store.colls (collTarget s) = none) (htenant : tenantState s (collTenant s) = 1) :
    collLoadStart s = startLoad s collRegs { s.store with
      load := some ⟨collTarget s, collTenant s, chunkLen s collRegs, [], [], false⟩
      colls := Tbl.set s.store.colls (collTarget s) (Coll.blank (collTenant s) .loading s.ticks ⟨0, 0, 0, 0, 0, 0, 0, 0, 0⟩) } := by
  unfold collLoadStart
  rw [if_neg (by simp [hidle]), if_neg (by simp [hshape, hlen]), if_neg (by simp [hempty, htenant])]
  rfl

theorem tableLoadStart_eq {s : State} (hidle : s.store.tload = none) (hshape : chunkShape s tableRegs = true) (hlen : 4096 ≤ chunkLen s tableRegs)
    (hempty : Tbl.get s.store.tables (tableTarget s) = none) (htenant : tenantState s (tableTenant s) = 1) :
    tableLoadStart s = startLoad s tableRegs { s.store with
      tload := some ⟨tableTarget s, tableTenant s, chunkLen s tableRegs, [], [], false⟩
      tables := Tbl.set s.store.tables (tableTarget s) (Table.blank (tableTenant s) .loading s.ticks) } := by
  unfold tableLoadStart
  rw [if_neg (by simp [hidle]), if_neg (by simp [hshape, hlen]), if_neg (by simp [hempty, htenant])]
  rfl

/-! ## CONTINUE -/

theorem collLoadContinue_eq {s : State} {l : Load} (hload : s.store.load = some l) (hneed : needData s collRegs = true)
    (hshape : chunkShape s collRegs = true)
    (hfits : chunkFits (chunkLen s collRegs) (l.bytes.length + chunkLen s collRegs) (leAt l.bytes 8 8) = true) :
    collLoadContinue s =
      loadStatus { s with store := { s.store with load := some { l with chunk := chunkLen s collRegs } } } collRegs true false false 0 := by
  unfold collLoadContinue
  rw [hload]
  simp only [hneed, hshape, hfits, Bool.and_self, Bool.true_eq_false, if_false, if_true]

theorem tableLoadContinue_eq {s : State} {l : Load} (hload : s.store.tload = some l) (hneed : needData s tableRegs = true)
    (hshape : chunkShape s tableRegs = true)
    (hfits : chunkFits (chunkLen s tableRegs) (l.bytes.length + chunkLen s tableRegs) (leAt l.bytes 8 8) = true) :
    tableLoadContinue s =
      loadStatus { s with store := { s.store with tload := some { l with chunk := chunkLen s tableRegs } } } tableRegs true false false 0 := by
  unfold tableLoadContinue
  rw [hload]
  simp only [hneed, hshape, hfits, Bool.and_self, Bool.true_eq_false, if_false, if_true]

/-- A loader that has taken a further chunk is BUSY and needs no data, and nothing but its STATUS has changed beside the store. -/
theorem loadStatus_continues (s : State) (r : LoadRegs) (st : Store) :
    let t := loadStatus { s with store := st } r true false false 0
    busyBit t r.status = true ∧ needData t r = false ∧ t.store = st ∧ OnlyRegs { s with store := t.store } t [r.status] := by
  obtain ⟨hbusy, hneed, -⟩ := status_of_loadStatus (Eq.refl (rd (loadStatus { s with store := st } r true false false 0) r.status)) (by decide)
  exact ⟨hbusy, hneed, rfl, ((loadStatus_regs _ r _ _ _ _).mono fun _ => List.mem_singleton.mpr).onlyRegs⟩

/-- Settles O24: START leaves `startLoad` of what it notes, CONTINUE a loader that is BUSY again. -/
theorem loads_start_and_continue : Obligations.Loads_start_and_continue := by
  refine fun s => ⟨fun hidle hshape hlen hempty htenant => ?_, fun hidle hshape hlen hempty htenant => ?_,
    fun l hload hneed hshape hfits => ?_, fun l hload hneed hshape hfits => ?_⟩
  · exact ⟨_, congrArg Host.Outcome.next (collLoadStart_eq hidle hshape hlen hempty htenant), rfl, ⟨_, Tbl.get_set_self _ _ _, rfl, rfl⟩,
      fun k hk => Tbl.get_set_ne hk, busyBit_startLoad _ collRegs_inOrder, rd64_startLoad _, startLoad_onlyRegs _⟩
  · exact ⟨_, congrArg Host.Outcome.next (tableLoadStart_eq hidle hshape hlen hempty htenant), rfl, ⟨_, Tbl.get_set_self _ _ _, rfl, rfl⟩,
      fun k hk => Tbl.get_set_ne hk, busyBit_startLoad _ tableRegs_inOrder, rd64_startLoad _, startLoad_onlyRegs _⟩
  · exact ⟨_, congrArg Host.Outcome.next (collLoadContinue_eq hload hneed hshape hfits), loadStatus_continues s collRegs _⟩
  · exact ⟨_, congrArg Host.Outcome.next (tableLoadContinue_eq hload hneed hshape hfits), loadStatus_continues s tableRegs _⟩

end Sys2Proof.Machine

/-! PROOFS. Loads that end without a commit, and dropped objects (R152, R154, R247, R290). -/
namespace Sys2Proof.Machine

/-! ## What is written after STATUS leaves it -/

section
variable {r : LoadRegs} (hr : r.InOrder) (s : State)
include hr

theorem wr64_offset_apart (v : Nat) : RegsWithin (· ≠ r.status) s (wr64 s r.offset v) := by
  have hlt := hr.offset
  exact .wr64 (by omega) (by omega)

theorem setUse_apart (tenant : Nat) : RegsWithin (· ≠ r.status) s (setUse s tenant) := by
  have hlt := hr.offset
  have hbank := hr.bank
  exact (setUse_regs s tenant).mono fun a ha => by omega

theorem tableDone_apart : RegsWithin (· ≠ r.status) s (tableDone s) :=
  .raiseEvt hr.evt.ne

end

/-! ## A load that fails -/

/-- The collection is EMPTY, STATUS reads the code with BUSY 0, and the tier range of what was placed is released. -/
theorem failLoad_ends {s : State} {l : Load} (h : s.store.load = some l) {code : Nat} (off : Nat) (hcode : code < 2 ^ 8) :
    let t := failLoad s code off
    t.store = { s.store with load := none, colls := Tbl.del s.store.colls l.target } ∧
    t.mem = { s.mem with flash := s.mem.flash.release l.target } ∧ t.sched = s.sched ∧
    busyBit t Reg.sched.COLL_STATUS = false ∧ fld (rd t Reg.sched.COLL_STATUS) 7 0 = code := by
  let u := releaseRange { s with store := { s.store with load := none, colls := Tbl.del s.store.colls l.target } } l.target
  have heq : failLoad s code off = setUse (wr64 (loadStatus u collRegs false false false code) collRegs.offset off) l.tenant := by
    unfold failLoad
    rw [h]
  have hregs : RegsWithin (· ≠ collRegs.status) (loadStatus u collRegs false false false code) (failLoad s code off) :=
    heq ▸ .trans (wr64_offset_apart collRegs_inOrder _ _) (setUse_apart collRegs_inOrder _ _)
  obtain ⟨hbusy, -, hresult⟩ := status_of_loadStatus (hregs.rd _ fun hne => hne rfl) hcode
  exact ⟨hregs.store, hregs.mem, hregs.sched, hbusy, hresult⟩

/-- As `failLoad_ends`, for the table. -/
theorem failTable_ends {s : State} {l : Load} (h : s.store.tload = some l) {code : Nat} (off : Nat) (hcode : code < 2 ^ 8) :
    let t := failTable s code off
    t.store = { s.store with tload := none, tables := Tbl.del s.store.tables l.target } ∧
    t.mem = { s.mem with flash := s.mem.flash.release (4096 + l.target) } ∧ t.sched = s.sched ∧
    busyBit t Reg.sched.TABLE_STATUS = false ∧ fld (rd t Reg.sched.TABLE_STATUS) 7 0 = code := by
  let u := releaseRange { s with store := { s.store with tload := none, tables := Tbl.del s.store.tables l.target } } (4096 + l.target)
  have heq : failTable s code off =
      tableDone (setUse (wr64 (loadStatus u tableRegs false false false code) tableRegs.offset off) l.tenant) := by
    unfold failTable
    rw [h]
  have hregs : RegsWithin (· ≠ tableRegs.status) (loadStatus u tableRegs false false false code) (failTable s code off) :=
    heq ▸ .trans (.trans (wr64_offset_apart tableRegs_inOrder _ _) (setUse_apart tableRegs_inOrder _ _)) (tableDone_apart tableRegs_inOrder _)
  obtain ⟨hbusy, -, hresult⟩ := status_of_loadStatus (hregs.rd _ fun hne => hne rfl) hcode
  exact ⟨hregs.store, hregs.mem, hregs.sched, hbusy, hresult⟩

/-! ## DROP -/

/-- A field of a register reads as it was set. -/
theorem fld_wrf_self (s : State) (a hi lo v : Nat) (hhi : hi < 32) : fld (rd (wrf s a hi lo v) a) hi lo = v % 2 ^ (hi + 1 - lo) := by
  rw [rd_wrf, if_pos rfl, fld_withFld _ _ _ _ hhi]

/-- TRELLIS_EPOCH takes the step, whose 48 bits it holds. -/
theorem rd64_setTrellisEpoch (s : State) : rd64 (setTrellisEpoch s) Reg.atrium.TRELLIS_EPOCH = s.now :=
  rd64_wr64 s _ _ (s.step.count.isLt.trans (by decide))

theorem collDrop_serving {s : State} {c : Coll} (hc : Tbl.get s.store.colls (collTarget s) = some c) (hlife : c.life = .serving) :
    collDrop s = setTrellisEpoch (wrf { s with store := { s.store with
      colls := Tbl.set s.store.colls (collTarget s)
        { c with life := .draining, since := s.ticks, mapNext := none, mapRetiring := some (s.ticks + 1) } } } collRegs.status 7 0 0) := by
  unfold collDrop
  dsimp only
  rw [hc]
  dsimp only
  rw [hlife]

/-- A table with work stays as it is (R154). -/
theorem settleTable_inUse {s : State} {n : Nat} (h : tableInUse s n = true) : settleTable s n = s := by
  unfold settleTable
  simp only [h, Bool.true_eq_false, and_false, if_false]
  split <;> rfl

theorem tableDrop_inUse {s : State} {x : Table} (hx : Tbl.get s.store.tables (tableTarget s) = some x) (hlife : x.life = .serving)
    (huse : tableInUse s (tableTarget s) = true) :
    tableDrop s = wrf { s with store := { s.store with
      tables := Tbl.set s.store.tables (tableTarget s) { x with life := .draining, since := s.ticks } } } tableRegs.status 7 0 0 := by
  unfold tableDrop
  dsimp only
  rw [hx]
  dsimp only
  rw [hlife]
  exact settleTable_inUse huse

/-- Settles O25: ABORT is a failure with RESULT ABORTED, and DROP marks the object DRAINING. -/
theorem loads_are_aborted_and_objects_dropped : Obligations.Loads_are_aborted_and_objects_dropped := by
  refine fun s => ⟨fun l hload => ?_, fun l hload => ?_, fun c hc hlife => ?_, fun x hx hlife huse => ?_⟩
  · obtain ⟨hstore, hmem, hsched, hbusy, hresult⟩ := failLoad_ends hload (code := 9) (rd64 s Reg.sched.COLL_LOAD_OFFSET) (by decide)
    refine ⟨_, rfl, by rw [hstore], ?_, fun k hk => ?_, hresult, hbusy, hmem, hsched⟩
    · rw [hstore, Tbl.get_del_self]
    · rw [hstore, Tbl.get_del_ne hk]
  · obtain ⟨hstore, hmem, hsched, hbusy, hresult⟩ := failTable_ends hload (code := 9) (rd64 s Reg.sched.TABLE_LOAD_OFFSET) (by decide)
    refine ⟨_, rfl, by rw [hstore], ?_, fun k hk => ?_, hresult, hbusy, hmem, hsched⟩
    · rw [hstore, Tbl.get_del_self]
    · rw [hstore, Tbl.get_del_ne hk]
  · exact ⟨_, _, congrArg Host.Outcome.next (collDrop_serving hc hlife), Tbl.get_set_self _ _ _, rfl, fun k hk => Tbl.get_set_ne hk,
      rd64_setTrellisEpoch _, rfl, rfl⟩
  · exact ⟨_, congrArg Host.Outcome.next (tableDrop_inUse hx hlife huse), rfl, fld_wrf_self _ _ _ _ _ (by decide),
      (RegsWithin.wrf (List.mem_singleton.mpr rfl)).onlyRegs⟩

end Sys2Proof.Machine

/-! PROOFS. Chunks, the commit of a load, and the end of a drop (R125, R152, R153, R154, R290). -/
namespace Sys2Proof.Machine

/-! ## Chunks -/

/-- A chunk of the length that was noted is taken whole. -/
theorem take_padTo {α : Type} {l : List α} {n : Nat} (x : α) (h : l.length = n) : (padTo l n x).take n = l := by
  subst h
  simp [padTo]

/-- After a chunk OFFSET reads what was consumed, and NEED_DATA is 1 unless it was the last. -/
theorem chunkTaken_regs {s u t : State} {r : LoadRegs} (hr : r.InOrder) {n : Nat} (hn : n < 2 ^ 64) {last : Bool}
    (hu : RegsWithin (· = r.status) (wr64 s r.offset n) u) (ht : RegsWithin (0x21000000 ≤ ·) (loadStatus u r last (!last) false 0) t) :
    rd64 t r.offset = n ∧ needData t r = !last := by
  have hstatus := hr.offset
  have hbank := hr.bank
  obtain ⟨-, hneed, -⟩ := status_of_loadStatus (ht.rd r.status (by omega)) (by decide)
  have hoff (a : Nat) (ha : a ≠ r.status) (hlow : a < 0x21000000) : rd t a = rd (wr64 s r.offset n) a := by
    rw [ht.rd _ (by omega), (loadStatus_regs _ _ _ _ _ _).rd _ ha, hu.rd _ ha]
  exact ⟨(rd64_congr (hoff _ (by omega) (by omega)) (hoff _ (by omega) (by omega))).trans (rd64_wr64 _ _ _ hn), hneed⟩

theorem collChunkDone_failed {s : State} {l : Load} (hload : s.store.load = some l) (hlast : l.last = false)
    (hbusy : busyBit s Reg.sched.COLL_STATUS = true) (choices : List (Fin 8)) : collChunkDone s none choices = failLoad s 9 l.bytes.length := by
  unfold collChunkDone
  rw [hload]
  exact if_neg (by simp [hlast, collRegs, hbusy])

theorem tableChunkDone_failed {s : State} {l : Load} (hload : s.store.tload = some l) (hlast : l.last = false)
    (hbusy : busyBit s Reg.sched.TABLE_STATUS = true) : tableChunkDone s none = failTable s 9 l.bytes.length := by
  unfold tableChunkDone
  rw [hload]
  exact if_neg (by simp [hlast, tableRegs, hbusy])

/-- A further chunk whose image fits so far is appended; OFFSET and NEED_DATA follow it (R152). -/
theorem collChunkDone_further {s : State} {l : Load} (hload : s.store.load = some l) (hlast : l.last = false)
    (hbusy : busyBit s Reg.sched.COLL_STATUS = true) {d : List Byte} {choices : List (Fin 8)} (hbytes : l.bytes ≠ []) (hlen : d.length = l.chunk)
    (hok : streamFail s none (l.bytes ++ d) (l.leafStacks ++ choices) = none) (hn : (l.bytes ++ d).length < 2 ^ 64) :
    let last := (l.bytes ++ d).length == leAt (l.bytes ++ d) 8 8
    let t := collChunkDone s (some d) choices
    t.store = { s.store with load := some { l with bytes := l.bytes ++ d, leafStacks := l.leafStacks ++ choices, last := last } } ∧
    rd64 t Reg.sched.COLL_LOAD_OFFSET = (l.bytes ++ d).length ∧ needData t collRegs = !last ∧ t.mem = s.mem := by
  intro last t
  let s1 := { s with store := { s.store with
    load := some { l with bytes := l.bytes ++ d, leafStacks := l.leafStacks ++ choices, last := last } } }
  let u := wrf (wr64 s1 collRegs.offset (l.bytes ++ d).length) collRegs.status 15 8 (sectionOf (l.bytes ++ d) (l.bytes ++ d).length)
  have heq : t = setUse (loadStatus u collRegs last (!last) false 0) l.tenant := by
    unfold t collChunkDone
    rw [hload]
    dsimp only
    rw [if_neg (by simp [hlast, collRegs, hbusy]), take_padTo 0 hlen, if_neg hbytes, if_neg (by simp), hok]
  have huse := heq ▸ setUse_regs (loadStatus u collRegs last (!last) false 0) l.tenant
  obtain ⟨hoffset, hneed⟩ := chunkTaken_regs collRegs_inOrder hn (.wrf rfl) huse
  exact ⟨huse.store, hoffset, hneed, huse.mem⟩

/-- As `collChunkDone_further`, for a table, whose header describes it from now on. -/
theorem tableChunkDone_further {s : State} {l : Load} (hload : s.store.tload = some l) (hlast : l.last = false)
    (hbusy : busyBit s Reg.sched.TABLE_STATUS = true) {d : List Byte} (hbytes : l.bytes ≠ []) (hlen : d.length = l.chunk)
    (hok : bucketFail (l.bytes ++ d) = none) (hn : (l.bytes ++ d).length < 2 ^ 64) :
    let last := (l.bytes ++ d).length == leAt (l.bytes ++ d) 8 8
    let t := tableChunkDone s (some d)
    t.store = { s.store with
      tload := some { l with bytes := l.bytes ++ d, last := last }
      tables := Tbl.set s.store.tables l.target { tableOfHdr l.tenant s.ticks (l.bytes ++ d) with life := .loading } } ∧
    rd64 t Reg.sched.TABLE_LOAD_OFFSET = (l.bytes ++ d).length ∧ needData t tableRegs = !last ∧ t.mem = s.mem := by
  intro last t
  let s1 := { s with store := { s.store with
    tload := some { l with bytes := l.bytes ++ d, last := last }
    tables := Tbl.set s.store.tables l.target { tableOfHdr l.tenant s.ticks (l.bytes ++ d) with life := .loading } } }
  let u := wr64 s1 tableRegs.offset (l.bytes ++ d).length
  have heq : t = setUse (loadStatus u tableRegs last (!last) false 0) l.tenant := by
    unfold t tableChunkDone
    rw [hload]
    dsimp only
    rw [if_neg (by simp [hlast, tableRegs, hbusy]), take_padTo 0 hlen, if_neg hbytes, if_neg (by simp), hok]
  have huse := heq ▸ setUse_regs (loadStatus u tableRegs last (!last) false 0) l.tenant
  obtain ⟨hoffset, hneed⟩ := chunkTaken_regs tableRegs_inOrder hn (.refl _ _) huse
  exact ⟨huse.store, hoffset, hneed, huse.mem⟩

/-! ## COMMIT of a collection -/

/-- A change of a key map touches the flash alone (R324). -/
theorem dirtyMap_eq (s : State) (n : Nat) (old : Tbl (List KeyEntry)) : ∃ f, dirtyMap s n old = updFlash s fun _ => f := by
  unfold dirtyMap
  split
  · exact ⟨s.mem.flash, rfl⟩
  · unfold dirtyBuckets
    refine List.foldlRecOn _ _ (motive := fun t => ∃ f, t = updFlash s fun _ => f) ⟨s.mem.flash, rfl⟩ fun t ⟨f, ht⟩ _ _ => ?_
    subst ht
    dsimp only
    split
    · exact ⟨f, rfl⟩
    · exact ⟨_, rfl⟩

/-- What a commit does last: pages of the key map are dirty, TRELLIS_EPOCH takes the step, and the tenant's use is counted anew. -/
def announceColl (s : State) (f : Flash) (tenant : Nat) : State := setUse (setTrellisEpoch (updFlash s fun _ => f)) tenant

section
variable (s : State) (f : Flash) (tenant : Nat)

theorem announceColl_store : (announceColl s f tenant).store = s.store := (setUse_regs _ _).store

theorem announceColl_hbm : (announceColl s f tenant).mem.hbm = s.mem.hbm := by
  rw [announceColl, (setUse_regs _ _).mem]
  rfl

theorem announceColl_sched : (announceColl s f tenant).sched = s.sched := (setUse_regs _ _).sched

theorem trellisEpoch_announceColl : rd64 (announceColl s f tenant) Reg.atrium.TRELLIS_EPOCH = s.now :=
  (rd64_congr ((setUse_regs _ _).rd _ (by decide)) ((setUse_regs _ _).rd _ (by decide))).trans (rd64_setTrellisEpoch _)

variable {s f tenant}

theorem rd_announceColl {a : Nat} (hlo : Reg.atrium.TRELLIS_EPOCH + 4 < a) (hhi : a < 0x21000000) : rd (announceColl s f tenant) a = rd s a := by
  unfold announceColl
  rw [(setUse_regs _ _).rd _ (by omega), rd_setTrellisEpoch_ne (by omega) (by omega), updFlash_rd]

theorem rd64_announceColl {a : Nat} (hlo : Reg.atrium.TRELLIS_EPOCH + 4 < a) (hhi : a + 4 < 0x21000000) :
    rd64 (announceColl s f tenant) a = rd64 s a :=
  rd64_congr (rd_announceColl hlo (by omega)) (rd_announceColl (by omega) hhi)

end

section
variable {s : State} {l : Load} (hload : s.store.load = some l)
include hload

theorem collLoadCommit_waits (h : l.last = false ∨ loadProgrammed s l = false) : collLoadCommit s = s := by
  unfold collLoadCommit
  rw [hload]
  exact if_pos h

theorem collLoadCommit_tooMany (hlast : l.last = true) (hprog : loadProgrammed s l = true) (hitems : 4000000000 < nodeItems s) :
    collLoadCommit s = failLoad s 8 l.bytes.length := by
  unfold collLoadCommit
  rw [hload]
  dsimp only
  rw [if_neg (by simp [hlast, hprog]), if_pos hitems]

/-- The collection is in its place with BUSY 0; COLL_LOAD_EPOCH and TRELLIS_EPOCH hold the step (R153). -/
theorem collLoadCommit_placed {p : Placed} (hlast : l.last = true) (hprog : loadProgrammed s l = true) (hitems : nodeItems s ≤ 4000000000)
    (hplace : placeImage s none l.bytes l.leafStacks = .ok p) :
    let t := collLoadCommit s
    t.store = { s.store with load := none, colls := Tbl.set s.store.colls l.target (buildColl s l p) } ∧
    t.mem.hbm = s.mem.hbm ∧ t.sched = s.sched ∧ busyBit t Reg.sched.COLL_STATUS = false ∧
    rd64 t Reg.sched.COLL_LOAD_EPOCH = s.now ∧ rd64 t Reg.atrium.TRELLIS_EPOCH = s.now := by
  intro t
  let u := loadStatus { s with store := { s.store with
    load := none
    colls := Tbl.set s.store.colls l.target (buildColl s l p) } } collRegs false false true 0
  let v := wr64 u Reg.sched.COLL_LOAD_EPOCH s.now
  obtain ⟨f, hf⟩ := dirtyMap_eq v l.target []
  have heq : t = announceColl v f l.tenant := by
    unfold t collLoadCommit announceColl
    rw [hload]
    dsimp only
    rw [if_neg (by simp [hlast, hprog]), if_neg (by omega), hplace, ← hf]
  have hstatus : rd t collRegs.status = rd u collRegs.status := by
    rw [heq, rd_announceColl (by decide) (by decide), rd_wr64, if_neg (by decide), if_neg (by decide)]
  refine ⟨(congrArg State.store heq).trans (announceColl_store v f l.tenant), ?_, (congrArg State.sched heq).trans (announceColl_sched v f l.tenant),
    (status_of_loadStatus hstatus (by decide)).1, ?_, ?_⟩
  · rw [heq, announceColl_hbm]
    rfl
  · rw [heq, rd64_announceColl (a := Reg.sched.COLL_LOAD_EPOCH) (by decide) (by decide)]
    exact rd64_wr64 _ _ _ (s.step.count.isLt.trans (by decide))
  · rw [heq, trellisEpoch_announceColl]
    rfl

end

/-! ## COMMIT of a table, and the end of a drop -/

theorem tableLoadCommit_eq {s : State} {l : Load} (hload : s.store.tload = some l) (hlast : l.last = true) :
    tableLoadCommit s = tableDone (setUse (loadStatus { s with store := { s.store with
      tload := none
      tables := Tbl.set s.store.tables l.target (buildTable l.tenant s.ticks l.bytes) } } tableRegs false false true 0) l.tenant) := by
  unfold tableLoadCommit
  rw [hload]
  exact if_neg (by simp [hlast])

/-- A committed table is in its place with BUSY 0. -/
theorem tableLoadCommit_ends {s : State} {l : Load} (hload : s.store.tload = some l) (hlast : l.last = true) :
    let t := tableLoadCommit s
    t.store = { s.store with tload := none, tables := Tbl.set s.store.tables l.target (buildTable l.tenant s.ticks l.bytes) } ∧
    busyBit t Reg.sched.TABLE_STATUS = false ∧ t.mem = s.mem := by
  intro t
  let u := loadStatus { s with store := { s.store with
    tload := none
    tables := Tbl.set s.store.tables l.target (buildTable l.tenant s.ticks l.bytes) } } tableRegs false false true 0
  have heq : t = tableDone (setUse u l.tenant) := tableLoadCommit_eq hload hlast
  have hregs : RegsWithin (· ≠ tableRegs.status) u t :=
    heq ▸ .trans (setUse_apart tableRegs_inOrder _ _) (tableDone_apart tableRegs_inOrder _)
  exact ⟨hregs.store, (status_of_loadStatus (hregs.rd _ fun hne => hne rfl) (by decide)).1, hregs.mem⟩

theorem collDrained_eq {s : State} {n : Nat} {c : Coll} (hc : Tbl.get s.store.colls n = some c) (hlife : c.life = .draining)
    (huse : collInUse s n = false) :
    collDrained s n = setUse (releaseRange { s with store := { s.store with colls := Tbl.del s.store.colls n } } n) c.tenant := by
  unfold collDrained
  rw [hc]
  exact if_pos ⟨hlife, huse⟩

/-! ## The statement -/

/-- Settles O26: a failed read and a commit without room are failures of the load; the other clauses follow the equations of each command. -/
theorem loads_take_chunks_and_commit : Obligations.Loads_take_chunks_and_commit := by
  refine fun s => ⟨fun l hload hlast hbusy => ⟨fun choices => ?_, fun d choices hbytes hlen hok hn => ?_⟩, fun l hload hwait => ?_,
    fun l p hload hlast hprog hitems hplace => ?_, fun l hload hlast hprog hitems => ?_,
    fun l hload hlast hbusy => ⟨?_, fun d hbytes hlen hok hn => ?_⟩, fun l hload hlast => ?_, fun n c hc hlife huse => ?_⟩
  · obtain ⟨hstore, -, -, -, hresult⟩ := failLoad_ends hload (code := 9) l.bytes.length (by decide)
    exact ⟨_, congrArg Host.Outcome.next (collChunkDone_failed hload hlast hbusy choices), by rw [hstore], by rw [hstore, Tbl.get_del_self], hresult⟩
  · obtain ⟨hstore, hoffset, hneed, hmem⟩ := collChunkDone_further hload hlast hbusy hbytes hlen hok (List.length_append ▸ hn)
    exact ⟨_, rfl, congrArg Store.load hstore, hoffset, hneed, by rw [hstore], hmem⟩
  · exact congrArg Host.Outcome.next (collLoadCommit_waits hload hwait)
  · obtain ⟨hstore, hhbm, hsched, hbusy, hepoch, htrellis⟩ := collLoadCommit_placed hload hlast hprog hitems hplace
    refine ⟨_, rfl, by rw [hstore], ?_, fun k hk => ?_, hbusy, hepoch, htrellis, hhbm, hsched⟩
    · rw [hstore, Tbl.get_set_self]
    · rw [hstore, Tbl.get_set_ne hk]
  · obtain ⟨hstore, -, -, -, hresult⟩ := failLoad_ends hload (code := 8) l.bytes.length (by decide)
    refine ⟨_, congrArg Host.Outcome.next (collLoadCommit_tooMany hload hlast hprog hitems), by rw [hstore], ?_, hresult⟩
    rw [hstore, Tbl.get_del_self]
  · obtain ⟨hstore, -, -, -, hresult⟩ := failTable_ends hload (code := 9) l.bytes.length (by decide)
    exact ⟨_, congrArg Host.Outcome.next (tableChunkDone_failed hload hlast hbusy), by rw [hstore], by rw [hstore, Tbl.get_del_self], hresult⟩
  · obtain ⟨hstore, hoffset, -, hmem⟩ := tableChunkDone_further hload hlast hbusy hbytes hlen hok (List.length_append ▸ hn)
    exact ⟨_, rfl, congrArg Store.tload hstore, hoffset, hmem⟩
  · obtain ⟨hstore, hbusy, hmem⟩ := tableLoadCommit_ends hload hlast
    refine ⟨_, rfl, by rw [hstore], ?_, fun k hk => ?_, hbusy, hmem⟩
    · rw [hstore, Tbl.get_set_self]
    · rw [hstore, Tbl.get_set_ne hk]
  · have hregs := collDrained_eq hc hlife huse ▸ setUse_regs (releaseRange { s with store := { s.store with
      colls := Tbl.del s.store.colls n.val } } n.val) c.tenant
    refine ⟨_, rfl, ?_, fun k hk => ?_, hregs.mem, hregs.sched⟩
    · rw [hregs.store]
      exact Tbl.get_del_self _ _
    · rw [hregs.store]
      exact Tbl.get_del_ne hk

end Sys2Proof.Machine

/-! PROOFS. Descriptors that arrive, and fetches that fail (R157, R160, R162, R388, R418 to R421). -/
namespace Sys2Proof.Machine

/-! ## The next slot of a ring -/

theorem chan_takeSlot (s : State) (c : Nat) : chan (takeSlot s c) c =
    { chan s c with sqHead := ((chan s c).sqHead + 1) % 2 ^ (chan s c).accepted.sqLog, outstanding := (chan s c).outstanding + 1 } :=
  chan_updChan s c _

theorem chan_takeSlot_ne (s : State) {c k : Nat} (h : k ≠ c) : chan (takeSlot s c) k = chan s k := chan_updChan_ne _ h

/-- A look-up of a channel's entry moves the cache and one of its two counters (R388). -/
theorem cacheLookup_frame (s : State) (c : Nat) : ∃ l, RegsWithin (· ∈ [Reg.sched.CHAN_HITS, Reg.sched.CHAN_MISSES])
    { s with sched := { s.sched with cache := l } } (cacheLookup s c) := by
  have hcount {a : Nat} (ha : a ∈ [Reg.sched.CHAN_HITS, Reg.sched.CHAN_MISSES]) (l : List Nat) :
      RegsWithin (· ∈ [Reg.sched.CHAN_HITS, Reg.sched.CHAN_MISSES]) { s with sched := { s.sched with cache := l } }
        { count s a with sched := { s.sched with cache := l } } := (RegsWithin.count ha).withSched _
  unfold cacheLookup
  split
  · exact ⟨_, hcount (by simp) _⟩
  · dsimp only
    split
    · exact ⟨_, hcount (by simp) _⟩
    · exact ⟨s.sched.cache, hcount (by simp) _⟩

/-! ## A descriptor that passes orders 1 to 3 -/

/-- Orders 1 to 3 read the versions of the tenant and the node's state (R160). -/
theorem earlyStatus_congr {s t : State} (d : Desc) (hrd : ∀ a, 0x10000 ≤ a → rd t a = rd s a) (hf : t.faults = s.faults) :
    earlyStatus t d = earlyStatus s d := by
  have hoffer : 0x10000 ≤ Reg.tstatus.OFFER_VER (d.chan / 16) := by unfold Reg.tstatus.OFFER_VER; omega
  have henable : 0x10000 ≤ Reg.tstatus.ENABLE_VER (d.chan / 16) := by unfold Reg.tstatus.ENABLE_VER; omega
  have hver : verNegotiated t d = verNegotiated s d := by
    simp only [verNegotiated, hrd _ hoffer, hrd _ henable]
  unfold earlyStatus
  rw [hver, hf]

/-- An attempt ends EXPIRED only where the plan of the descriptor's slot ends past its deadline (R162). -/
theorem admitCheckAt_ne_expired {s : State} {d : Desc} {a : Nat} (h : ∀ p, planOf s d.planSlot = some p → d.tooLate a p.span = false) :
    (admitCheckAt s d a).1 ≠ ST_EXPIRED := by
  cases hp : planOf s d.planSlot with
  | none =>
    unfold admitCheckAt
    rw [hp]
    split_ifs
    all_goals simp [ST_NOT_READY, ST_BAD_PARAM, ST_NO_FABRIC, ST_PLAN_MISMATCH, ST_EXPIRED]
  | some p =>
    unfold admitCheckAt
    simp only [hp, h p hp, Bool.false_eq_true, if_false]
    split_ifs
    all_goals simp [ST_NOT_READY, ST_BAD_PARAM, ST_NO_FABRIC, ST_PLAN_MISMATCH, ST_THROTTLED, ST_EXPIRED]

/-- A descriptor as it arrives from the next slot of a channel's ring, with the bytes of the buffers that its fields name (R157). -/
def arrivedDesc (s : State) (c : Nat) (desc buf keys : List Byte) : Desc :=
  let d0 : Desc := ⟨c, (chan s c).sqHead, fetched 256 desc, [], [], s.ticks, s.sched.nextOrder, (chan s c).accepted.backlog ≤ backlog s c⟩
  { d0 with buf := fetched d0.bufferBytes.1 buf, keys := fetched d0.bufferBytes.2 keys }

/-- One more descriptor waits for admission. -/
def enqueue (s : State) (d : Desc) : State :=
  { s with sched := { s.sched with queued := s.sched.queued ++ [d], nextOrder := s.sched.nextOrder + 1 } }

section
variable {s : State} {c : Nat} {desc buf keys : List Byte}

/-- A descriptor that waits has changed the ring, the queue, and the cache of channel entries with its counters. -/
theorem enqueued_frame (s : State) (c : Nat) (d : Desc) : ∃ l, RegsWithin (· ∈ [Reg.sched.CHAN_HITS, Reg.sched.CHAN_MISSES])
    { takeSlot s c with sched := { s.sched with cache := l, queued := s.sched.queued ++ [d], nextOrder := s.sched.nextOrder + 1 } }
    (enqueue (cacheLookup (takeSlot s c) c) d) := by
  obtain ⟨l, hlook⟩ := cacheLookup_frame (takeSlot s c) c
  refine ⟨l, ?_⟩
  unfold enqueue
  rw [hlook.sched]
  exact hlook.withSched _

/-- The look-up of the entry changes nothing that orders 1 to 3 read. -/
theorem arrive_queued (hc0 : s.c0 = false) (hearly : earlyStatus s (arrivedDesc s c desc buf keys) = 0) :
    arrive s c desc buf keys = enqueue (cacheLookup (takeSlot s c) c) (arrivedDesc s c desc buf keys) := by
  obtain ⟨l, hlook⟩ := cacheLookup_frame (takeSlot s c) c
  have hpass : earlyStatus (cacheLookup (takeSlot s c) c) (arrivedDesc s c desc buf keys) = 0 := by
    refine (earlyStatus_congr _ (fun a ha => ?_) (by rw [hlook.eq]; rfl)).trans hearly
    refine hlook.rd a ?_
    simp only [List.mem_cons, List.not_mem_nil, or_false, Reg.sched.CHAN_HITS, Reg.sched.CHAN_MISSES]
    omega
  have hstatus : (if s.c0 then ST_NODE_FAULT else earlyStatus (cacheLookup (takeSlot s c) c) (arrivedDesc s c desc buf keys)) = 0 := by
    rw [hc0, hpass]
    rfl
  exact if_neg (not_not.mpr hstatus)

/-- One that the next step is not too late for stays where it arrived. -/
theorem arrival_queued (hc0 : s.c0 = false) (hearly : earlyStatus s (arrivedDesc s c desc buf keys) = 0)
    (hnew : ∀ x ∈ s.sched.queued, x.order ≠ s.sched.nextOrder)
    (htime : ∀ p, planOf s (arrivedDesc s c desc buf keys).planSlot = some p →
      (arrivedDesc s c desc buf keys).tooLate (s.ticks + 1) p.span = false) :
    arrival s c desc buf keys = enqueue (cacheLookup (takeSlot s c) c) (arrivedDesc s c desc buf keys) := by
  unfold arrival
  rw [arrive_queued hc0 hearly]
  have horder : (arrivedDesc s c desc buf keys).order = s.sched.nextOrder := rfl
  generalize arrivedDesc s c desc buf keys = d at horder htime ⊢
  obtain ⟨l, hframe⟩ := enqueued_frame s c d
  generalize enqueue (cacheLookup (takeSlot s c) c) d = t at hframe ⊢
  have hfind : t.sched.queued.find? (·.order == s.sched.nextOrder) = some d := by
    rw [hframe.sched]
    have hold : s.sched.queued.find? (·.order == s.sched.nextOrder) = none := by simpa using hnew
    simp [hold, horder]
  have hticks : t.ticks = s.ticks := by
    rw [hframe.eq]
    rfl
  have hplan (k : Nat) : planOf t k = planOf s k := planOf_congr (by rw [hframe.sched])
  dsimp only
  rw [hfind]
  refine if_neg (admitCheckAt_ne_expired fun p hp => ?_)
  rw [hticks]
  exact htime p (hplan _ ▸ hp)

end

/-! ## A fetch that fails -/

/-- A completion that writes no result is its entry alone. -/
theorem complete_without_result {s : State} {d : Desc} (st ep n : Nat) (hbus : busOk s (vfOf d.chan) = true) :
    complete s d st ep n [] false = postCqe s d.chan ⟨d.tag, st, BitVec.ofNat 8 d.op, false, d.sqSlot, ep, 0⟩ := by
  simp [complete, hbus]

/-- The node after a fetch that found no descriptor, with FETCH_ERR masked: the slot is taken, FETCH_ERR is set and FETCH_ERRORS counts it (R420). -/
def fetchFailed (s : State) (c : Nat) : State := count (raiseErr (takeSlot s c) .pcie 0 4) Reg.pcie.FETCH_ERRORS

theorem fetchFailed_error (s : State) (c : Nat) : testBit (rd (fetchFailed s c) (pageBase .pcie 0 + 0x30)) 4 = true := by
  obtain ⟨hset, -⟩ := raiseErr_page (s := takeSlot s c) (n := 0) (by decide) (by decide) (errClass_pcie_ne_c0 4)
  rw [fetchFailed, rd_count, if_neg (by decide), hset, testBit_setBit]
  simp

section
variable {s : State} {c : Nat} (hmask : testBit (rd s (pageBase .pcie 0 + 0x34)) 4 = true)
include hmask

theorem raiseErr_takeSlot : RegsWithin (· ∈ [pageBase .pcie 0 + 0x30, pageBase .pcie 0 + 0x3C]) (takeSlot s c) (raiseErr (takeSlot s c) .pcie 0 4) := by
  rw [raiseErr_masked (takeSlot s c) .pcie 0 4 hmask (errClass_pcie_ne_c0 4)]
  exact (RegsWithin.wr _ (by simp)).trans (.count (by simp))

theorem fetchFailed_regs : fetchFailed s c = { takeSlot s c with regs := (fetchFailed s c).regs } :=
  (((raiseErr_takeSlot hmask).mono fun _ _ => trivial).trans (.count (P := fun _ => True) trivial)).eq

theorem fetchFailed_count : rd (fetchFailed s c) Reg.pcie.FETCH_ERRORS = counted Reg.pcie.FETCH_ERRORS (rd s Reg.pcie.FETCH_ERRORS) := by
  rw [fetchFailed, rd_count, if_pos rfl, (raiseErr_takeSlot hmask).rd _ (by decide)]
  rfl

theorem chan_fetchFailed : chan (fetchFailed s c) c = chan (takeSlot s c) c := by
  rw [fetchFailed_regs hmask]
  rfl

/-- The entry of a fetch that found no descriptor, without TAG and OPCODE (R420, R421). -/
theorem fetchError_unread (hmay : mayFetch s c = true) (hroom : cqFull (chan s c) = false) :
    fetchError s c none = putCqe (fetchFailed s c) c ⟨0, ST_FETCH_ERROR, 0, false, (chan s c).sqHead, 0, 0⟩ := by
  simp only [mayFetch, Bool.and_eq_true, List.isEmpty_iff] at hmay
  obtain ⟨⟨⟨⟨-, hbus⟩, -⟩, hwait⟩, -⟩ := hmay
  have hbus' : busOk (fetchFailed s c) (vfOf c) = true := by
    rw [fetchFailed_regs hmask]
    exact hbus
  have hch := (chan_fetchFailed hmask).trans (chan_takeSlot s c)
  refine (complete_without_result (d := ⟨c, (chan s c).sqHead, zeros 256, [], [], s.ticks, 0, false⟩) _ _ _ hbus').trans ?_
  exact postCqe_room _ (by rw [hch]; exact hwait) (by rw [hch]; exact hroom)

end

/-- Settles O19: the arrival is `arrival_queued` with the frame of what it enqueues; the failed fetch is one completion entry, `fetchError_unread`. -/
theorem descriptors_are_queued_or_fail : Obligations.Descriptors_are_queued_or_fail := by
  refine ⟨fun s c desc buf keys hmay hc0 => ?_, fun s c hmay hmask hroom harm => ?_⟩
  · intro ch d0 d hearly hnew htime
    obtain ⟨l, hframe⟩ := enqueued_frame s c.val d
    have harrival : arrival s c.val desc buf keys = enqueue (cacheLookup (takeSlot s c.val) c.val) d := arrival_queued hc0 hearly hnew htime
    refine ⟨_, (congrArg Host.Outcome.next (if_pos hmay)).trans (congrArg _ harrival), ?_⟩
    generalize enqueue (cacheLookup (takeSlot s c.val) c.val) d = t at hframe ⊢
    have hchan (k : Nat) : chan t k = chan (takeSlot s c.val) k := by
      rw [chan, hframe.store]
      rfl
    refine ⟨by rw [hframe.sched], by rw [hframe.sched], (hchan _).trans (chan_takeSlot s _), fun k hk => (hchan _).trans (chan_takeSlot_ne s hk),
      by rw [hframe.sched], by rw [hframe.store]; rfl, by rw [hframe.eq]; rfl, fun a hhits hmisses => ?_⟩
    exact hframe.rd a (by simp [hhits, hmisses])
  · refine ⟨_, (congrArg Host.Outcome.next (if_pos hmay)).trans (congrArg _ (fetchError_unread hmask hmay hroom)), ?_⟩
    have hregs := fetchFailed_regs (c := c.val) hmask
    have hch := (chan_fetchFailed (c := c.val) hmask).trans (chan_takeSlot s c.val)
    have herror := fetchFailed_error s c.val
    have hcount := fetchFailed_count (c := c.val) hmask
    generalize fetchFailed s c.val = u at hregs hch herror hcount ⊢
    rw [putCqe_unarmed _ (by rw [hch]; exact harm)]
    refine ⟨?_, ?_, ?_, herror, hcount, (congrArg State.sched hregs :), (congrArg State.mem hregs :), (congrArg State.chip hregs :)⟩
    · rw [hch, hregs]
      rfl
    · rw [chan_updChan]
      exact congrArg Chan.sqHead hch
    · rw [chan_updChan]
      exact congrArg (fun x => x.outstanding - 1) hch

end Sys2Proof.Machine

/-! PROOFS. Flash channels that train, and reads of the flash (R181, R340 to R342, R345 to R347, R353, R356, R362, R374, R379). -/
namespace Sys2Proof.Machine

/-! ## What training leaves in the registers -/

/-- A counter that grows by `n` without passing its word. -/
theorem toNat_countBy {s : State} {a n : Nat} (h : (rd s a).toNat + n < 2 ^ 32) : (rd (countBy s a n) a).toNat = (rd s a).toNat + n := by
  unfold countBy
  rw [rd_wr_self, if_pos (c := (rd s a).toNat + n < 0x100000000) h, BitVec.toNat_ofNat, Nat.mod_eq_of_lt h]

/-- CH_STATUS as training leaves it: CH_STATE, CH_RATE and TARGETS, each in its field (R379). -/
def trainedStatus (targets : Byte) (r : Nat) (on : Bool) : Word := BitVec.ofNat 32 (256 * targets.toNat + 4 * r + (if on then 2 else 0))

theorem fld_trainedStatus (targets : Byte) {r : Nat} (on : Bool) (hr : r < 8) :
    fld (trainedStatus targets r on) 1 0 = (if on then 2 else 0) ∧ fld (trainedStatus targets r on) 4 2 = r ∧
    fld (trainedStatus targets r on) 15 8 = targets.toNat := by
  have htargets := targets.isLt
  have hon : (if on then 2 else 0) ≤ 2 := by split <;> omega
  have hv : (trainedStatus targets r on).toNat = 256 * targets.toNat + 4 * r + (if on then 2 else 0) := by
    rw [trainedStatus, BitVec.toNat_ofNat]
    omega
  simp only [fld, bitsOf, hv, Nat.shiftRight_eq_div_pow]
  generalize (if on then 2 else 0) = x at hon ⊢
  omega

/-- The registers that follow the period, the lanes and the flash rates. -/
def isRateReg (a : Nat) : Prop :=
  a = Reg.sched.TILE_STEP_CYCLES ∨ a = Reg.sched.FABRIC_SLOTS_STEP ∨ ∃ n, a = Reg.nb.WIN_PER_STEP n ∨ a = Reg.flashCh.SLOTS_PER_STEP n

theorem setStepRates_rateRegs (s : State) : RegsWithin isRateReg s (setStepRates s) := by
  unfold setStepRates
  extract_lets p s1 s2 s3
  have h2 : RegsWithin isRateReg s s2 := RegsWithin.trans (.wr _ (.inl rfl)) (.wr _ (.inr (.inl rfl)))
  have h3 : RegsWithin isRateReg s s3 := List.foldlRecOn (motive := RegsWithin _ s) _ _ h2 fun t ht n _ =>
    ht.trans (.wr _ (.inr (.inr ⟨n, .inl rfl⟩)))
  exact List.foldlRecOn (motive := RegsWithin _ s) _ _ h3 fun t ht n _ => ht.trans (.wr _ (.inr (.inr ⟨n, .inr rfl⟩)))

theorem setOffer_frame (s : State) : ∃ c, RegsWithin (· = Reg.ft.FLASH_OFFER_GIB) { s with chip := c } (setOffer s) := by
  unfold setOffer
  split
  · exact ⟨_, .wr _ rfl⟩
  · exact ⟨s.chip, .refl _ _⟩

/-- The registers that the start of the flash sets. -/
def startRegs : List Nat := [Reg.ft.MAPPED_GIB, Reg.ft.LOST_MAP_ADDR, Reg.ft.LOST_MAP_ADDR + 4, Reg.ft.FLASH_OFFER_GIB]

/-- The node with its flash started or not, and its free words. -/
def withFlashRunning (s : State) (b : Bool) (c : Chip) : State := { updFlash s fun f => { f with running := b } with chip := c }

/-- The flash starts with MAPPED_GIB, LOST_MAP_ADDR and FLASH_OFFER_GIB (R342). -/
theorem startFlash_frame (s : State) : ∃ b c, RegsWithin (· ∈ startRegs) (withFlashRunning s b c) (startFlash s) := by
  unfold startFlash
  split
  · exact ⟨s.mem.flash.running, s.chip, .refl _ _⟩
  · extract_lets s1
    obtain ⟨c, hoffer⟩ := setOffer_frame (wr64 (freshWord s1).2 Reg.ft.LOST_MAP_ADDR ((freshWord s1).1.toNat % 2 ^ 27 * 4096))
    refine ⟨true, c, hoffer.eq, fun a ha => ?_⟩
    simp only [startRegs, List.mem_cons, List.not_mem_nil, or_false, not_or] at ha
    obtain ⟨hmapped, hlo, hhi, hgib⟩ := ha
    refine (hoffer.rd a hgib).trans ((rd_wr64 _ _ _ _).trans ?_)
    rw [if_neg (Ne.symm hhi), if_neg (Ne.symm hlo)]
    exact rd_wr_ne _ _ (Ne.symm hmapped)

/-- A channel comes ONLINE: the flash may start, and the rates follow. -/
theorem startRates_frame (s : State) : ∃ b c, RegsWithin (fun a => a ∈ startRegs ∨ isRateReg a) (withFlashRunning s b c)
    (setStepRates (startFlash s)) := by
  obtain ⟨b, c, hstart⟩ := startFlash_frame s
  exact ⟨b, c, (hstart.mono fun _ => .inl).trans ((setStepRates_rateRegs _).mono fun _ => .inr)⟩

/-- None of these registers is a CH_STATUS or RAW_GIB. -/
theorem startRates_place {a : Nat} (h : a ∈ startRegs ∨ isRateReg a) : a % 0x1000 ≠ 0x18 ∧ a ≠ Reg.ft.RAW_GIB := by
  simp only [startRegs, isRateReg, List.mem_cons, List.not_mem_nil, or_false] at h
  obtain (rfl | rfl | rfl | rfl) | rfl | rfl | ⟨n, rfl | rfl⟩ := h
  case inr.inr.inr.inl | inr.inr.inr.inr =>
    simp only [Reg.nb.WIN_PER_STEP, Reg.flashCh.SLOTS_PER_STEP, Reg.ft.RAW_GIB]
    omega
  all_goals decide

theorem chanStatusReg_mod (n : Nat) : chanStatusReg n % 0x1000 = 0x18 := by
  simp only [chanStatusReg, pageBase]
  omega

/-! ## Blocks that the factory marked bad (R356) -/

/-- A block's number, from its channel and an entry of the channel's list of bad blocks. -/
def badKey (ch : Nat) (x : Fin 32 × Fin 65536) : Nat := 65536 * (32 * ch + x.1.val) + x.2.val

/-- A factory-marked bad block is RETIRED unless the node knows the block already. -/
def retireBad (ch : Nat) (t : Tbl Block) (x : Fin 32 × Fin 65536) : Tbl Block :=
  if (Tbl.get t (badKey ch x)).isSome then t else Tbl.set t (badKey ch x) ⟨.retired, 0, false, 0, 0, 0, false, false, false⟩

theorem block_takeInventory (s : State) (ch : Nat) (targets : Byte) (inv : FlashInventory) (key : Nat) :
    block? (takeInventory s ch targets inv) key = Tbl.get (inv.bad.foldl (retireBad ch) s.mem.flash.blocks) key := rfl

section
variable {ch key : Nat} {t : Tbl Block} {x : Fin 32 × Fin 65536}

theorem get_retireBad_known {b : Block} (h : Tbl.get t key = some b) : Tbl.get (retireBad ch t x) key = some b := by
  unfold retireBad
  split
  · exact h
  · next hnew => rw [Tbl.get_set_ne (fun e => hnew (by rw [← e, h]; rfl)), h]

theorem get_retireBad_self (h : Tbl.get t (badKey ch x) = none) :
    (Tbl.get (retireBad ch t x) (badKey ch x)).map (·.st) = some .retired := by
  rw [retireBad, h, if_neg (by simp), Tbl.get_set_self]
  rfl

theorem get_retireBad_ne (h : key ≠ badKey ch x) : Tbl.get (retireBad ch t x) key = Tbl.get t key := by
  unfold retireBad
  split
  · rfl
  · exact Tbl.get_set_ne h

theorem get_foldl_retireBad_known {b : Block} (l : List (Fin 32 × Fin 65536)) (h : Tbl.get t key = some b) :
    Tbl.get (l.foldl (retireBad ch) t) key = some b :=
  List.foldlRecOn (motive := fun t => Tbl.get t key = some b) _ _ h fun _ ht _ _ => get_retireBad_known ht

/-- The first entry for a block retires it, and the later ones find it known. -/
theorem get_foldl_retireBad_bad {l : List (Fin 32 × Fin 65536)} (hx : x ∈ l) (h : Tbl.get t (badKey ch x) = none) :
    (Tbl.get (l.foldl (retireBad ch) t) (badKey ch x)).map (·.st) = some .retired := by
  induction l generalizing t with
  | nil => cases hx
  | cons y l ih =>
    by_cases hy : badKey ch x = badKey ch y
    · obtain ⟨b, hb, hst⟩ := Option.map_eq_some_iff.mp (get_retireBad_self (hy ▸ h))
      rw [List.foldl_cons, hy, get_foldl_retireBad_known l hb]
      exact congrArg some hst
    · have hxl : x ∈ l := (List.mem_cons.mp hx).resolve_left fun e => hy (e ▸ rfl)
      exact ih hxl ((get_retireBad_ne hy).trans h)

end

/-! ## FLASH_CHANNEL_TRAINED -/

/-- A channel has reached a rate: its STATUS, and an event where the rate lies below RATE_MAX. -/
def rateReached (s : State) (ch r : Nat) (targets : Byte) : State :=
  let s1 := wr s (chanStatusReg ch) (trainedStatus targets r true)
  if r ≠ 0 ∧ r < rateMax s ch then raiseEvt s1 (pageBase .flashCh ch) 0 else s1

theorem rateReached_regs (s : State) (ch r : Nat) (targets : Byte) :
    RegsWithin (· ∈ [chanStatusReg ch, pageBase .flashCh ch + 0x28]) s (rateReached s ch r targets) := by
  unfold rateReached
  extract_lets s1
  have h1 : RegsWithin (· ∈ [chanStatusReg ch, pageBase .flashCh ch + 0x28]) s s1 := .wr _ (by simp)
  split
  · exact h1.trans (.raiseEvt (by simp))
  · exact h1

theorem rd_rateReached (s : State) (ch r : Nat) (targets : Byte) :
    rd (rateReached s ch r targets) (chanStatusReg ch) = trainedStatus targets r true := by
  unfold rateReached
  dsimp only
  split
  · rw [rd_raiseEvt_ne _ _ (by unfold chanStatusReg; omega), rd_wr_self]
  · exact rd_wr_self _ _ _

theorem RegsWithin.takeInventory {P : Nat → Prop} {s t : State} (h : RegsWithin P s t) (ch : Nat) (targets : Byte) (inv : FlashInventory) :
    RegsWithin P (takeInventory s ch targets inv) (takeInventory t ch targets inv) :=
  ⟨by rw [h.eq]; rfl, h.rd⟩

theorem RegsWithin.withFlashRunning {P : Nat → Prop} {s t : State} (h : RegsWithin P s t) (b : Bool) (c : Chip) :
    RegsWithin P (withFlashRunning s b c) (withFlashRunning t b c) :=
  ⟨by rw [h.eq]; rfl, h.rd⟩

/-- The registers that a channel changes as it comes ONLINE. -/
def trainedRegs (ch a : Nat) : Prop :=
  a ∈ [chanStatusReg ch, pageBase .flashCh ch + 0x28, Reg.ft.RAW_GIB] ∨ a ∈ startRegs ∨ isRateReg a

theorem not_trainedRegs_chanStatus {ch j : Nat} (h : j ≠ ch) : ¬ trainedRegs ch (chanStatusReg j) := by
  have hmod := chanStatusReg_mod j
  rintro (hown | hrates)
  · simp only [chanStatusReg, pageBase, Reg.ft.RAW_GIB, List.mem_cons, List.not_mem_nil, or_false] at hown hmod
    omega
  · exact (startRates_place hrates).1 hmod

theorem channelTrained_failed {s : State} {ch : Nat} (targets : Byte) (inv : FlashInventory) (htraining : rdf s (chanStatusReg ch) 1 0 = 1)
    (hc0 : s.c0 = false) (hprod : s.chip.test.prod = false) :
    channelTrained s ch 0 targets true inv = raiseErr (wr s (chanStatusReg ch) (trainedStatus targets 0 false)) .flashCh ch 4 := by
  unfold channelTrained
  rw [if_neg (by simp [htraining, hc0, hprod])]
  dsimp only
  rw [Nat.zero_min]
  rfl

section
variable {s : State} {ch rate : Nat} {targets : Byte} {inv : FlashInventory} (htraining : rdf s (chanStatusReg ch) 1 0 = 1) (hc0 : s.c0 = false)
  (hprod : s.chip.test.prod = false) (hrate : min rate (rateMax s ch) ≠ 0) (hsame : sameAsFirst s targets inv = true)
include htraining hc0 hprod hrate hsame

theorem channelTrained_online : channelTrained s ch rate targets true inv = setStepRates (startFlash (takeInventory
    (countBy (rateReached s ch (min rate (rateMax s ch)) targets) Reg.ft.RAW_GIB inv.gib) ch targets inv)) := by
  unfold channelTrained
  rw [if_neg (by simp [htraining, hc0, hprod])]
  generalize min rate (rateMax s ch) = r at hrate ⊢
  have hon : (decide (r ≠ 0) && true && sameAsFirst s targets inv) = true := by simp [hrate, hsame]
  dsimp only
  rw [hon, if_pos rfl, if_pos rfl]
  rfl

/-- A channel that comes ONLINE brings its inventory, and the flash may start. -/
theorem channelTrained_frame : ∃ b c, RegsWithin (trainedRegs ch) (withFlashRunning (takeInventory s ch targets inv) b c)
    (channelTrained s ch rate targets true inv) := by
  rw [channelTrained_online htraining hc0 hprod hrate hsame]
  have hcounted : RegsWithin (trainedRegs ch) s (countBy (rateReached s ch (min rate (rateMax s ch)) targets) Reg.ft.RAW_GIB inv.gib) :=
    ((rateReached_regs s ch _ targets).mono fun _ ha => .inl (List.mem_append_left [Reg.ft.RAW_GIB] ha)).trans (.countBy (.inl (by simp)))
  obtain ⟨b, c, hstart⟩ := startRates_frame (takeInventory (countBy (rateReached s ch (min rate (rateMax s ch)) targets)
    Reg.ft.RAW_GIB inv.gib) ch targets inv)
  exact ⟨b, c, ((hcounted.takeInventory ch targets inv).withFlashRunning b c).trans (hstart.mono fun _ => .inr)⟩

/-- What stands beside the registers of the start is what STATUS and RAW_GIB were set to. -/
theorem rd_channelTrained {a : Nat} (ha : ¬ (a ∈ startRegs ∨ isRateReg a)) : rd (channelTrained s ch rate targets true inv) a =
    rd (countBy (rateReached s ch (min rate (rateMax s ch)) targets) Reg.ft.RAW_GIB inv.gib) a := by
  rw [channelTrained_online htraining hc0 hprod hrate hsame]
  obtain ⟨b, c, hstart⟩ := startRates_frame (takeInventory (countBy (rateReached s ch (min rate (rateMax s ch)) targets)
    Reg.ft.RAW_GIB inv.gib) ch targets inv)
  exact (hstart.rd a ha).trans (rd_congr rfl a)

theorem channelTrained_chanStatus :
    rd (channelTrained s ch rate targets true inv) (chanStatusReg ch) = trainedStatus targets (min rate (rateMax s ch)) true := by
  have hne : Reg.ft.RAW_GIB ≠ chanStatusReg ch := by
    simp only [chanStatusReg, pageBase, Reg.ft.RAW_GIB]
    omega
  rw [rd_channelTrained htraining hc0 hprod hrate hsame fun h => (startRates_place h).1 (chanStatusReg_mod ch), rd_countBy_ne _ _ hne,
    rd_rateReached]

theorem channelTrained_rawGib (hgib : (rd s Reg.ft.RAW_GIB).toNat + inv.gib < 2 ^ 32) :
    (rd (channelTrained s ch rate targets true inv) Reg.ft.RAW_GIB).toNat = (rd s Reg.ft.RAW_GIB).toNat + inv.gib := by
  have hraw : rd (rateReached s ch (min rate (rateMax s ch)) targets) Reg.ft.RAW_GIB = rd s Reg.ft.RAW_GIB :=
    (rateReached_regs s ch _ targets).rd _ (by
      simp only [chanStatusReg, pageBase, Reg.ft.RAW_GIB, List.mem_cons, List.not_mem_nil, or_false]
      omega)
  rw [rd_channelTrained htraining hc0 hprod hrate hsame fun h => (startRates_place h).2 rfl, ← hraw]
  exact toNat_countBy (hraw ▸ hgib)

end

/-- TRAIN_FAIL of a channel, masked: its STATUS and the error's own registers (R18, R379). -/
theorem channelTrained_failed_regs {s : State} {ch : Nat} {targets : Byte} (hch : ch < 32)
    (hmask : testBit (rd s (pageBase .flashCh ch + 0x34)) 4 = true) :
    let t := raiseErr (wr s (chanStatusReg ch) (trainedStatus targets 0 false)) .flashCh ch 4
    rdf t (chanStatusReg ch) 1 0 = 0 ∧ testBit (rd t (pageBase .flashCh ch + 0x30)) 4 = true ∧
    OnlyRegs s t [chanStatusReg ch, pageBase .flashCh ch + 0x30, pageBase .flashCh ch + 0x3C] := by
  have hstatus : chanStatusReg ch = pageBase .flashCh ch + 0x18 := rfl
  have hpage : pageBase .flashCh ch = 0x40000 + 0x1000 * ch := rfl
  obtain ⟨hset, -⟩ := raiseErr_page (s := wr s (chanStatusReg ch) (trainedStatus targets 0 false)) (k := .flashCh) (n := ch) (b := 4)
    (by omega) (by omega) (by decide)
  have hmask' : testBit (rd (wr s (chanStatusReg ch) (trainedStatus targets 0 false)) (pageBase .flashCh ch + 0x34)) 4 = true := by
    rw [rd_wr_ne _ _ (by omega)]
    exact hmask
  have hraised := raiseErr_masked (wr s (chanStatusReg ch) (trainedStatus targets 0 false)) .flashCh ch 4 hmask' (by decide)
  dsimp only
  refine ⟨?_, ?_, ?_⟩
  · rw [hraised, rdf, rd_count, if_neg (by omega), rd_wr_ne _ _ (by omega), rd_wr_self]
    exact (fld_trainedStatus targets false (by decide)).1
  · rw [hset, testBit_setBit]
    simp
  · rw [hraised]
    exact (((RegsWithin.wr _ (by simp)).trans (.wr _ (by simp))).trans (.count (by simp))).onlyRegs

/-! ## Reads -/

/-- The node but for its registers, its tenants' meters and its flash: what a read that counts may move. -/
def OnlyCounts (s t : State) : Prop :=
  ∃ regs tenants flash, t = { s with regs := regs, store := { s.store with tenants := tenants }, mem := { s.mem with flash := flash } }

theorem OnlyCounts.trans {s t u : State} : OnlyCounts s t → OnlyCounts t u → OnlyCounts s u := by
  rintro ⟨_, _, _, rfl⟩ ⟨_, _, _, rfl⟩
  exact ⟨_, _, _, rfl⟩

theorem meter_onlyCounts (s : State) (t i n : Nat) : OnlyCounts s (meter s t i n) := by
  unfold meter
  split
  · exact ⟨s.regs, s.store.tenants, s.mem.flash, rfl⟩
  · exact ⟨_, _, _, rfl⟩

theorem heatUnit_onlyCounts (s : State) (range off : Nat) : OnlyCounts s (heatUnit s range off) := by
  unfold heatUnit
  dsimp only
  split
  · exact List.foldlRecOn (motive := OnlyCounts s) _ _ ⟨_, _, _, rfl⟩ fun t ht i _ => ht.trans ⟨_, _, _, rfl⟩
  · exact ⟨_, _, _, rfl⟩

theorem OnlyCounts.workOf {s t : State} (h : OnlyCounts s t) (id : Nat) : workOf t id = Machine.workOf s id := by
  obtain ⟨_, _, _, rfl⟩ := h
  rfl

theorem OnlyCounts.colls {s t : State} (h : OnlyCounts s t) : t.store.colls = s.store.colls := by
  obtain ⟨_, _, _, rfl⟩ := h
  rfl

theorem OnlyCounts.hbm {s t : State} (h : OnlyCounts s t) : t.mem.hbm = s.mem.hbm := by
  obtain ⟨_, _, _, rfl⟩ := h
  rfl

/-- The same beside another memory. -/
theorem RegsWithin.withMem {P : Nat → Prop} {s t : State} (h : RegsWithin P s t) (m : Mem) : RegsWithin P { s with mem := m } { t with mem := m } :=
  ⟨by rw [h.eq], h.rd⟩

theorem servedRead_unsuspended {s : State} {die : Nat} (h : Tbl.get s.mem.flash.dies die = none) : servedRead s die = s := by
  unfold servedRead
  rw [h]

/-- The transfers of a read are counted, and its die has answered. -/
def readCounted (s : State) (die columns : Nat) : State := answered (countBy s (Reg.flashCh.READS (die / 32)) (ceilDiv columns 36)) die

section
variable {s : State} {die : Nat} (hruns : dieRuns s die = true) (hdies : Tbl.get s.mem.flash.dies die = none)
include hruns hdies

/-- A clean read of the media. -/
theorem flashRead_media {columns : Nat} (hcolumns : columns ≤ 512) (hwaits : readWaits s die .media = false) :
    flashRead s die .media columns .clean = readCounted s die columns := by
  have hserved : servedRead (readCounted s die columns) die = readCounted s die columns := servedRead_unsuspended hdies
  have hmapped : readUnmapped s .media = false := rfl
  unfold flashRead
  dsimp only [readDie, readColumns, readTenant]
  rw [if_neg (by simp [hruns, hmapped, hwaits]), Nat.min_eq_right hcolumns]
  exact hserved

/-- A clean read of a record for a flight. -/
theorem flashRead_refine {columns slot : Nat} {f : Flight} (hwork : workOf s f.id = some f) (hdie : readDie s (.refine f.id slot) die = die)
    (hwaits : readWaits s die (.refine f.id slot) = false) (hmapped : readUnmapped s (.refine f.id slot) = false) :
    ∃ u, OnlyCounts s u ∧ flashRead s die (.refine f.id slot) columns .clean = refineArrives u f.id slot := by
  obtain ⟨n, hn⟩ : ∃ n, n = readColumns s (.refine f.id slot) columns := ⟨_, rfl⟩
  have hserved : servedRead (readCounted s die n) die = readCounted s die n := servedRead_unsuspended hdies
  have htenant : readTenant s (.refine f.id slot) = some f.tenant := by simp [readTenant, hwork]
  have hread : flashRead s die (.refine f.id slot) columns .clean =
      refineRead (meter (readCounted s die n) f.tenant 3 (ceilDiv n 36)) f.id slot := by
    unfold flashRead
    dsimp only
    rw [hdie, if_neg (by simp [hruns, hmapped, hwaits]), htenant, ← hn]
    exact congrArg (fun x => refineRead (meter x f.tenant 3 (ceilDiv n 36)) f.id slot) hserved
  have hmetered : OnlyCounts s (meter (readCounted s die n) f.tenant 3 (ceilDiv n 36)) :=
    OnlyCounts.trans ⟨_, s.store.tenants, _, rfl⟩ (meter_onlyCounts _ _ _ _)
  rw [hread]
  generalize meter (readCounted s die n) f.tenant 3 (ceilDiv n 36) = u at hmetered
  unfold refineRead
  rw [hmetered.workOf, hwork]
  dsimp only
  split
  · exact ⟨_, (hmetered.trans (heatUnit_onlyCounts _ _ _)).trans ⟨_, _, _, rfl⟩, rfl⟩
  · exact ⟨_, hmetered.trans ⟨_, _, _, rfl⟩, rfl⟩

end

/-- A flight with the record of a slot. -/
def Flight.withRecord (f : Flight) (slot : Nat) (r : Refine) : Flight := setWork f fun w => { w with arrived := Tbl.set w.arrived slot r }

/-- A record that its flight still waits for reaches it (R63, R181). -/
theorem refineArrives_awaited {s : State} {f : Flight} {slot : Nat} {d : SlotData} (hwork : workOf s f.id = some f)
    (hslot : Tbl.get (collOf s f).slots slot = some d) (hheld : d.refine.missing = false)
    (hissued : (f.plan.stages.any fun x => x.kind == 8 && (f.run x.no).complete) = true) (hnarrow : f.work.narrowed = false)
    (hopen : landingOpen f 1 = true) (hlost : slot ∉ f.work.lost) (hboth : slot ∉ f.work.lostBoth) (hrake : ∃ e ∈ f.work.rake, e.slot = slot) :
    refineArrives s f.id slot = updWork s f.id (·.withRecord slot d.refine) := by
  have hany : (f.work.rake.any fun e => e.slot == slot) = true := by simpa using hrake
  unfold refineArrives
  rw [hwork]
  dsimp only [Option.bind]
  rw [hslot]
  dsimp only
  rw [if_neg (by simp [hheld])]
  unfold recordArrives
  rw [hwork]
  dsimp only
  rw [hissued, if_neg (by simp [hnarrow, hopen, hlost, hboth, hany])]
  rfl

/-! ## Erases that a read suspends (R362), and write protection (R374) -/

section
variable {s : State} {die key : Nat} {b : Block}
  (herasing : (s.mem.flash.blocks.find? fun p => p.1 / 65536 == die && p.2.st == .erasing) = some (key, b)) (hruns : dieRuns s die = true)
  (hactive : b.suspended = false)
include herasing hruns hactive

theorem eraseSuspend_suspends (hmax : b.suspends < rdf s Reg.ft.ERASE_SUSPEND_MAX 7 0) : eraseSuspend s die =
    updFlash (setBlock (count s (Reg.flashCh.SUSPENDS (die / 32))) key { b with suspended := true, suspends := b.suspends + 1 })
      fun f => { f with dies := Tbl.set f.dies die ((Tbl.get f.dies die).getD 0 + 1) } := by
  unfold eraseSuspend
  rw [herasing]
  dsimp only
  rw [if_neg (by simp [hruns]), if_neg (by simp [hactive]), if_pos hmax]

theorem eraseSuspend_denied (hmax : rdf s Reg.ft.ERASE_SUSPEND_MAX 7 0 ≤ b.suspends) :
    eraseSuspend s die = count s (Reg.flashCh.SUSPEND_DENIED (die / 32)) := by
  unfold eraseSuspend
  rw [herasing]
  dsimp only
  rw [if_neg (by simp [hruns]), if_neg (by simp [hactive]), if_neg (by omega)]

end

theorem exec_flashWriteProtect {s : State} {ch : Fin 32} (h : ch.val ∈ s.mem.flash.wpPending) : exec (.flashWriteProtect ch) s =
    .next (updFlash s fun f => { f with wpPending := f.wpPending.filter (· ≠ ch.val), wpLow := f.wpLow ++ [ch.val] }) :=
  congrArg Host.Outcome.next (if_pos (by simpa using h))

/-- Settles O33: training, reads, suspended erases and write protection each by the lemmas of their command. -/
theorem flash_channels_train_and_read : Obligations.Flash_channels_train_and_read := by
  refine fun s ch die => ⟨fun rate targets inv htraining hc0 hprod => ⟨fun hrate hmax hsame hgib => ?online, fun hmask => ?failed⟩,
    fun rdr columns o hwaits => ?waits, fun columns hruns hdies => ⟨fun hcolumns hwaits => ?media, ?record⟩,
    fun key b herasing hruns hactive => ⟨fun hmax => ?suspends, fun hmax => ?denied⟩, fun hpending => ?protects⟩
  case online =>
    have hreached : min rate.val (rateMax s ch.val) ≠ 0 := by omega
    have hcode : min rate.val (rateMax s ch.val) < 8 := by
      have := rate.isLt
      omega
    have hstatus := channelTrained_chanStatus htraining hc0 hprod hreached hsame
    have hraw := channelTrained_rawGib htraining hc0 hprod hreached hsame hgib
    obtain ⟨up, c, hframe⟩ := channelTrained_frame htraining hc0 hprod hreached hsame
    refine ⟨channelTrained s ch.val rate.val targets true inv, rfl, ?_⟩
    generalize channelTrained s ch.val rate.val targets true inv = t at hstatus hraw hframe ⊢
    obtain ⟨hstate, hrate', htargets⟩ := fld_trainedStatus targets true hcode
    rw [← hstatus] at hstate hrate' htargets
    have hblock (key : Nat) : block? t key = Tbl.get (inv.bad.foldl (retireBad ch.val) s.mem.flash.blocks) key := by
      rw [block?, hframe.mem]
      exact block_takeInventory s ch.val targets inv key
    refine ⟨beq_iff_eq.mpr hstate, hrate', htargets, hraw, ?_, fun key b hb => (hblock key).trans (get_foldl_retireBad_known _ hb),
      fun x hx hnew => ?_, fun j _ hj => hframe.rd _ (not_trainedRegs_chanStatus hj), hframe.sched, hframe.store, (congrArg State.links hframe.eq :), ?_⟩
    · rw [hframe.mem]
      exact Tbl.get_set_self _ _ _
    · exact (congrArg _ (hblock _)).trans (get_foldl_retireBad_bad hx hnew)
    · rw [hframe.mem]
      rfl
  case failed =>
    exact ⟨_, congrArg Host.Outcome.next (channelTrained_failed targets inv htraining hc0 hprod), channelTrained_failed_regs ch.isLt hmask⟩
  case waits => exact congrArg Host.Outcome.next (if_pos (.inr (.inr hwaits)))
  case media =>
    refine ⟨_, congrArg Host.Outcome.next (flashRead_media hruns hdies hcolumns hwaits), rfl, ?_, toNat_countBy⟩
    have hcounted : RegsWithin (· ∈ [Reg.flashCh.READS (die.val / 32)]) s (countBy s (Reg.flashCh.READS (die.val / 32)) (ceilDiv columns 36)) :=
      .countBy (by simp)
    exact (hcounted.withMem _).onlyRegs
  case record =>
    intro f slot d hwork hslot hheld hdie hwaits hmapped hissued hnarrow hopen hlost hboth hrake
    obtain ⟨u, hcounts, hread⟩ := flashRead_refine (columns := columns) hruns hdies hwork hdie hwaits hmapped
    have hslot' : Tbl.get (collOf u f).slots slot = some d := by
      rw [collOf, hcounts.colls]
      exact hslot
    rw [refineArrives_awaited ((hcounts.workOf _).trans hwork) hslot' hheld hissued hnarrow hopen hlost hboth hrake] at hread
    refine ⟨_, f.withRecord slot d.refine, congrArg Host.Outcome.next hread, ?_,
      Tbl.get_set_self f.work.arrived slot d.refine, rfl, hcounts.colls, hcounts.hbm⟩
    rw [workOf_updWork (g := (·.withRecord slot d.refine)) fun _ h => h, hcounts.workOf, hwork]
    rfl
  case suspends =>
    refine ⟨_, congrArg Host.Outcome.next (eraseSuspend_suspends herasing hruns hactive hmax), Tbl.get_set_self _ _ _, Tbl.get_set_self _ _ _, ?_, ?_⟩
    · exact rd_wr_self s _ _
    · have hcounted : RegsWithin (· ∈ [Reg.flashCh.SUSPENDS (die.val / 32)]) s (count s (Reg.flashCh.SUSPENDS (die.val / 32))) := .count (by simp)
      exact (hcounted.withMem _).onlyRegs
  case denied => exact congrArg Host.Outcome.next (eraseSuspend_denied herasing hruns hactive hmax)
  case protects =>
    refine ⟨_, exec_flashWriteProtect hpending, by simp [updFlash], by simp [updFlash], fun hrun => (if_pos hrun).trans ?_, rfl⟩
    simp [updFlash]

end Sys2Proof.Machine

/-! PROOFS. The handover of the boot ROM, and recovery (R236, R363, R365, R532, R568). -/
namespace Sys2Proof.Machine

/-! ## BOOT_ROM_HANDOVER -/

/-- A good image at HANDOVER, with the levels of its build. -/
def handedOver (s : State) (level levelMin : Byte) : State :=
  { wr (wrf s Reg.atrium.MC_BOOT 31 24 2) Reg.intc.TIER_WIDTH 8 with chip := { s.chip with intc := Intc.reset, bootLevel := (level, levelMin) } }

/-- STAGE reads FAILED, with the error code (R532). -/
def bootFailed (s : State) (error : Byte) : State := wrf (wrf s Reg.atrium.MC_BOOT 31 24 0x0F) Reg.atrium.MC_BOOT 7 0 error.toNat

section
variable {s : State}

theorem exec_bootRomHandover_good {copy0Ok copy1Ok : Bool} (error level levelMin : Byte) (hstage : bootStage s = 0)
    (hgood : (copy0Ok || copy1Ok) = true) (hir : s.chip.test.ir ≠ 0x10) :
    exec (.bootRomHandover copy0Ok copy1Ok error level levelMin) s = .next (handedOver s level levelMin) := by
  show Host.Outcome.next (romHandover s (copy0Ok || copy1Ok) error level levelMin) = _
  unfold romHandover
  rw [if_neg (by simp [hstage]), if_neg (by simp [hgood]), if_neg hir]
  rfl

theorem exec_bootRomHandover_bad {copy0Ok copy1Ok : Bool} (error level levelMin : Byte) (hstage : bootStage s = 0)
    (hbad : (copy0Ok || copy1Ok) = false) :
    exec (.bootRomHandover copy0Ok copy1Ok error level levelMin) s = .next (bootFailed s error) := by
  show Host.Outcome.next (romHandover s (copy0Ok || copy1Ok) error level levelMin) = _
  unfold romHandover
  rw [if_neg (by simp [hstage]), if_pos hbad]
  rfl

variable (s) (error level levelMin : Byte)

theorem rd_handedOver (a : Nat) : rd (handedOver s level levelMin) a =
    if Reg.intc.TIER_WIDTH = a then 8 else rd (wrf s Reg.atrium.MC_BOOT 31 24 2) a :=
  rd_wr (wrf s Reg.atrium.MC_BOOT 31 24 2) Reg.intc.TIER_WIDTH a 8

theorem bootStage_handedOver : bootStage (handedOver s level levelMin) = 2 := by
  rw [bootStage, rdf, rd_handedOver, if_neg (by decide)]
  exact fld_wrf_self _ _ _ _ _ (by decide)

theorem bootStage_bootFailed : bootStage (bootFailed s error) = 0x0F := by
  rw [bootStage, rdf, bootFailed, rd_wrf, if_pos rfl, fld_withFld_ne _ _ _ _ _ _ (.inr (by decide))]
  exact fld_wrf_self _ _ _ _ _ (by decide)

theorem errorCode_bootFailed : rdf (bootFailed s error) Reg.atrium.MC_BOOT 7 0 = error.toNat := by
  rw [rdf, bootFailed, fld_wrf_self _ _ _ _ _ (by decide), Nat.mod_eq_of_lt error.isLt]

theorem bootFailed_regs : RegsWithin (· ∈ [Reg.atrium.MC_BOOT]) s (bootFailed s error) := .trans (.wrf (by simp)) (.wrf (by simp))

end

/-! ## What RECOVERY does first and last -/

/-- The blocks as RECOVERY leaves them: those that were SUSPECT settled, those being programmed closed (R363, R365, log entry 99). -/
def recoverBlocks (failed : List Nat) (s : State) : State :=
  updFlash (s.mem.flash.blocks.foldl (settleSuspect failed) s) fun f => { f with blocks := f.blocks.map closeOpen }

/-- The collections and the tables that RECOVERY finds. -/
def recoverObjects (failed : List Nat) (s : State) : State :=
  s.mem.flash.tables.foldl recoverTable (s.mem.flash.ckpts.foldl (recoverOne failed) s)

/-- What RECOVERY does last: no table waits any more, and DURABLE_EPOCH and TRELLIS_EPOCH are set. -/
def endRecovery (s : State) : State := setTrellisEpoch (setDurable (updFlash s fun f => { f with tables := [] }))

theorem exec_recovery {s : State} (found : RecoveryFound) (hruns : flashRunning s = true) (hc0 : s.c0 = false) :
    exec (.recovery found) s = .next (endRecovery (recoverObjects found.ckptFailed (recoverBlocks found.suspectFailed s))) := by
  show Host.Outcome.next (recovery s found) = _
  unfold recovery
  rw [if_neg (by simp [hruns, hc0])]
  rfl

section
variable (s : State)

theorem endRecovery_flash : (endRecovery s).mem.flash = { s.mem.flash with tables := [] } :=
  congrArg Mem.flash (setDurable_mem _)

theorem endRecovery_store : (endRecovery s).store = s.store := rfl

theorem rd_endRecovery {a : Nat} (ha : a ∉ [Reg.atrium.TRELLIS_EPOCH, Reg.atrium.TRELLIS_EPOCH + 4, Reg.sched.DURABLE_EPOCH, Reg.sched.DURABLE_EPOCH + 4]) :
    rd (endRecovery s) a = rd s a := by
  simp only [List.mem_cons, List.not_mem_nil, or_false, not_or] at ha
  obtain ⟨htrellis, htrellis', hdurable, hdurable'⟩ := ha
  rw [endRecovery, rd_setTrellisEpoch_ne (Ne.symm htrellis) (Ne.symm htrellis'), setDurable, rd_wr64, if_neg (Ne.symm hdurable'),
    if_neg (Ne.symm hdurable), updFlash_rd]

end

/-! ## One block -/

/-- A block that was SUSPECT, erased again and blank (R363). -/
def Block.erasedAgain (b : Block) : Block :=
  { b with st := .erased, erases := b.erases + 1, pages := 0, spill := 0, suspends := 0, suspended := false, bad := false, sys := false }

/-- The node with this one block. -/
def withBlock (s : State) (key : Nat) (b : Block) : State := updFlash s fun f => { f with blocks := [(key, b)] }

section
variable {s : State} {key : Nat} {b : Block}

theorem recoverBlocks_nil (failed : List Nat) (h : s.mem.flash.blocks = []) : recoverBlocks failed s = s := by
  unfold recoverBlocks
  rw [h]
  show updFlash s _ = s
  rw [updFlash, h, List.map_nil, ← h]

theorem recoverBlocks_eq_withBlock {u : State} {failed : List Nat} (hsettled : s.mem.flash.blocks.foldl (settleSuspect failed) s = u)
    (hclosed : u.mem.flash.blocks.map closeOpen = [(key, b)]) : recoverBlocks failed s = withBlock u key b := by
  unfold recoverBlocks withBlock updFlash
  dsimp only
  rw [hsettled, hclosed]

theorem closeOpen_key (p : Nat × Block) : (closeOpen p).1 = p.1 := by
  unfold closeOpen
  split <;> rfl

variable (hone : s.mem.flash.blocks = [(key, b)])
include hone

theorem recoverBlocks_one (hst : b.st ≠ .suspect) : recoverBlocks [] s = withBlock s key (closeOpen (key, b)).2 := by
  have hsettle : settleSuspect [] s (key, b) = s := if_pos hst
  refine recoverBlocks_eq_withBlock (by rw [hone, List.foldl_cons, List.foldl_nil, hsettle]) ?_
  rw [hone, List.map_singleton]
  exact congrArg (fun n => [(n, (closeOpen (key, b)).2)]) (closeOpen_key (key, b))

theorem recoverBlocks_one_suspect (hst : b.st = .suspect) : recoverBlocks [] s = withBlock (count s Reg.ft.SUSPECT_COUNT) key b.erasedAgain := by
  have hsettle : settleSuspect [] s (key, b) = setBlock (count s Reg.ft.SUSPECT_COUNT) key b.erasedAgain := if_neg (not_not_intro hst)
  refine recoverBlocks_eq_withBlock (u := setBlock (count s Reg.ft.SUSPECT_COUNT) key b.erasedAgain)
    (by rw [hone, List.foldl_cons, List.foldl_nil, hsettle]) ?_
  show (Tbl.set s.mem.flash.blocks key b.erasedAgain).map closeOpen = _
  rw [hone]
  simp [Tbl.set, closeOpen, Block.erasedAgain]

end

/-- With no checkpoint and no table, there is nothing more to recover. -/
theorem recoverObjects_nothing {s : State} (failed : List Nat) (hckpts : s.mem.flash.ckpts = []) (htables : s.mem.flash.tables = []) :
    recoverObjects failed s = s := by
  unfold recoverObjects
  rw [hckpts, htables]
  rfl

/-- RECOVERY where one block is known and nothing else, once the block is settled. -/
theorem exec_recovery_one_block {s u : State} {key : Nat} {b : Block} (hruns : flashRunning s = true) (hc0 : s.c0 = false)
    (hckpts : u.mem.flash.ckpts = []) (htables : u.mem.flash.tables = []) (hsettled : recoverBlocks [] s = withBlock u key b) :
    exec (.recovery ⟨[], []⟩) s = .next (endRecovery (withBlock u key b)) := by
  rw [exec_recovery _ hruns hc0, hsettled, recoverObjects_nothing (s := withBlock u key b) _ hckpts htables]

theorem block_endRecovery_withBlock (s : State) (key : Nat) (b : Block) : block? (endRecovery (withBlock s key b)) key = some b := by
  rw [block?, endRecovery_flash]
  simp [withBlock, updFlash, Tbl.get]

/-! ## One collection -/

theorem fitPlaces_life (s : State) (h : Heap) (c : Coll) : (fitPlaces s h c).life = c.life := rfl

theorem fitPlaces_versions (s : State) (h : Heap) (c : Coll) : (fitPlaces s h c).versions = c.versions := rfl

section
variable (s : State) (k : Coll) (v : Version) (js : List Journal)

/-- What is recovered serves from the checkpoint's content in its new places. -/
theorem recoverColl_serves : (recoverColl s k v js).life = .serving ∧
    (recoverColl s k v js).versions = [(recoverPlaces s k.info v (projHeld k.proj)).2.1] := ⟨rfl, rfl⟩

theorem recoverPlaces_epoch (i : CollInfo) (proj : Nat) : (recoverPlaces s i v proj).2.1.epoch = 0 := rfl

end

/-- A collection whose newest checkpoint passes, and that has no journal, becomes what the checkpoint holds (R236). -/
theorem recoverOne_colls {s : State} {n : Nat} {k : Coll} {v : Version} (hjournal : s.mem.flash.journal = []) (hversions : k.versions = [v])
    (habsent : Tbl.get s.store.colls n = none) :
    (recoverOne [] s (n, [k])).store.colls = Tbl.set s.store.colls n (recoverColl s k v []) := by
  let u : State := { s with store := { s.store with colls := Tbl.set s.store.colls n (recoverColl s k v []) } }
  obtain ⟨f, hf⟩ := dirtyMap_eq u n []
  unfold recoverOne
  simp only [List.contains_nil, Bool.false_eq_true, if_false, hversions, habsent, Option.isSome_none, hjournal, List.filter_nil, List.map_nil]
  rw [(setUse_regs _ _).store]
  exact congrArg (·.store.colls) hf

theorem exec_recovery_one_checkpoint {s : State} {n : Nat} {k : Coll} (hruns : flashRunning s = true) (hc0 : s.c0 = false)
    (hblocks : s.mem.flash.blocks = []) (htables : s.mem.flash.tables = []) (hckpts : s.mem.flash.ckpts = [(n, [k])]) :
    exec (.recovery ⟨[], []⟩) s = .next (endRecovery (recoverOne [] s (n, [k]))) := by
  rw [exec_recovery _ hruns hc0, recoverBlocks_nil [] hblocks, recoverObjects, htables, hckpts]
  rfl

/-! ## The statement -/

/-- Settles O3: the handover by what it writes, recovery by what it does to one block and to one checkpoint, which its end leaves as they are. -/
theorem boot_and_recovery : Obligations.Boot_and_recovery := by
  refine ⟨fun s c0 c1 e l m hstage => ⟨fun hgood hir => ?good, fun hbad => ?bad⟩, fun s hruns hc0 => ⟨fun found => ?tables,
    fun hckpts htables key b hone => ?block, fun hblocks htables hjournal n k v hckpts hversions habsent => ?checkpoint⟩⟩
  case good =>
    refine ⟨_, exec_bootRomHandover_good e l m hstage hgood hir, bootStage_handedOver s l m, rfl, ?_, fun a hboot htier => ?_, rfl⟩
    · rw [rd_handedOver, if_pos rfl]
    · rw [rd_handedOver, if_neg (Ne.symm htier), rd_wrf, if_neg (Ne.symm hboot)]
  case bad =>
    exact ⟨_, exec_bootRomHandover_bad e l m hstage hbad, bootStage_bootFailed s e, errorCode_bootFailed s e, (bootFailed_regs s e).onlyRegs⟩
  case tables => exact ⟨_, exec_recovery found hruns hc0, congrArg Flash.tables (endRecovery_flash _)⟩
  case block =>
    by_cases hst : b.st = .suspect
    · have hrecovered := exec_recovery_one_block (u := count s Reg.ft.SUSPECT_COUNT) hruns hc0 hckpts htables (recoverBlocks_one_suspect hone hst)
      refine ⟨_, hrecovered, rfl, fun hopen => ?_, fun _ => ⟨block_endRecovery_withBlock _ _ _, ?_⟩⟩
      · exact absurd (hst.symm.trans hopen) (by decide)
      · rw [rd_endRecovery _ (by decide), withBlock, updFlash_rd, rd_count, if_pos rfl]
    · have hrecovered := exec_recovery_one_block hruns hc0 hckpts htables (recoverBlocks_one hone hst)
      refine ⟨_, hrecovered, rfl, fun hopen => ?_, fun hsuspect => absurd hsuspect hst⟩
      rw [block_endRecovery_withBlock, closeOpen, if_pos hopen]
  case checkpoint =>
    have hcolls := recoverOne_colls (k := k) hjournal hversions habsent
    obtain ⟨hlife, hversion⟩ := recoverColl_serves s k v []
    refine ⟨_, exec_recovery_one_checkpoint hruns hc0 hblocks htables hckpts, ?_, fun j hj => ?_, hlife, ?_⟩
    · rw [endRecovery_store, hcolls, Tbl.get_set_self]
    · rw [endRecovery_store, hcolls, Tbl.get_set_ne hj]
    · rw [hversion, List.map_singleton, recoverPlaces_epoch]

end Sys2Proof.Machine

/-! PROOFS. Shard maps that are loaded and retired (R245 to R247, R313). -/
namespace Sys2Proof.Machine

/-- A collection once a load has accepted a map for it (R246). -/
def Coll.takeMap (c : Coll) (m : ShardMap) : Coll := { c with mapNext := some m, mapRetiring := none }

section
variable (s : State) (b : List Byte)

/-- The store as SHARDMAP_LOAD of an image leaves it. -/
def mapLoadedStore : Store :=
  if mapResult s b = 0 then { s.store with colls := Tbl.upd s.store.colls (leAt b 6 2) (·.takeMap (parseMap b (s.ticks + 1))) } else s.store

theorem mapDone_regs : RegsWithin (· = pageBase .sched 0 + 0x28) s (mapDone s) := .raiseEvt rfl

theorem shardmapLoad_eq : shardmapLoad s b =
    mapDone (wr { s with store := mapLoadedStore s b } Reg.sched.SHARDMAP_STATUS (BitVec.ofNat 32 (mapResult s b))) := by
  unfold shardmapLoad mapLoadedStore
  dsimp only
  split <;> rfl

theorem shardmapLoad_store : (shardmapLoad s b).store = mapLoadedStore s b := by
  rw [shardmapLoad_eq, (mapDone_regs _).store, wr_store]

theorem shardmapLoad_status : rd (shardmapLoad s b) Reg.sched.SHARDMAP_STATUS = BitVec.ofNat 32 (mapResult s b) := by
  rw [shardmapLoad_eq, (mapDone_regs _).rd _ (by decide), rd_wr_self]

theorem shardmapLoad_onlyRegs : OnlyRegs { s with store := (shardmapLoad s b).store } (shardmapLoad s b)
    [Reg.sched.SHARDMAP_STATUS, pageBase .sched 0 + 0x28] := by
  rw [shardmapLoad_store, shardmapLoad_eq]
  exact (RegsWithin.trans (.wr _ (by simp)) ((mapDone_regs _).mono (by simp))).onlyRegs

/-- An accepted map belongs to the collection that the image names; every other collection stays. -/
theorem get_mapLoadedStore (h : mapResult s b = 0) (k : Nat) : Tbl.get (mapLoadedStore s b).colls k =
    if leAt b 6 2 = k then (Tbl.get s.store.colls k).map (·.takeMap (parseMap b (s.ticks + 1))) else Tbl.get s.store.colls k := by
  rw [mapLoadedStore, if_pos h, Tbl.get_upd]

theorem mapLoadedStore_refused (h : mapResult s b ≠ 0) : mapLoadedStore s b = s.store := if_neg h

end

/-- SHARDMAP_RETIRE of a collection that is in the store (R247). -/
theorem shardmapRetire_eq {s : State} {c : Coll} (h : Tbl.get s.store.colls (rdf s Reg.sched.SHARDMAP_SEL 11 0) = some c) :
    shardmapRetire s =
      mapDone (withCollection s (rdf s Reg.sched.SHARDMAP_SEL 11 0) { c with mapRetiring := some (s.ticks + 1), mapNext := none }) :=
  congrArg mapDone (updColl_eq_withCollection _ h)

/-- Settles O28: a load leaves `mapLoadedStore` and RESULT, a retirement marks the collection of SHARDMAP_SEL. -/
theorem shard_maps_change_at_the_next_step : Obligations.Shard_maps_change_at_the_next_step := by
  intro s a b
  refine ⟨fun hout => ?fault, fun hin => ?load, fun c hc => ?retire⟩
  case fault => exact if_neg (Bool.eq_false_iff.mp hout)
  case load =>
    refine ⟨_, if_pos hin, shardmapLoad_status s b, fun c hacc hc => ?_, fun k hk => ?_, fun href => ?_, shardmapLoad_onlyRegs s b⟩
    · rw [shardmapLoad_store, get_mapLoadedStore s b hacc, if_pos rfl, hc]
      rfl
    · rw [shardmapLoad_store]
      by_cases hacc : mapResult s b = 0
      · rw [get_mapLoadedStore s b hacc, if_neg hk.symm]
      · rw [mapLoadedStore_refused s b hacc]
    · rw [shardmapLoad_store, mapLoadedStore_refused s b href]
  case retire =>
    have hframe := mapDone_regs (withCollection s (rdf s Reg.sched.SHARDMAP_SEL 11 0) { c with mapRetiring := some (s.ticks + 1), mapNext := none })
    refine ⟨_, congrArg Host.Outcome.next (shardmapRetire_eq hc), hframe.store, ?_⟩
    rw [hframe.store]
    exact (hframe.mono (by simp)).onlyRegs

end Sys2Proof.Machine

/-! PROOFS. Queries, contributions and rows that come over the fabric (R250 to R255, R265, R267, R274, R295, R296, R301, R446). -/
namespace Sys2Proof.Machine

/-! ## Frames that are delivered -/

theorem receive_accepted {s : State} {f : Frame} {typ : Nat} (agent : State → State) (htyp : f.typ = typ) (h : accepts s f) :
    receive s f typ agent = agent (delivered s f) := by
  unfold accepts at h
  unfold receive delivered
  simp [htyp, h]

/-- Only a node in hall mode takes frames (R30). -/
theorem hall_of_accepts {s : State} {f : Frame} (h : accepts s f) : s.hall = true := by
  cases hcard : s.hall with
  | true => rfl
  | false => simp [accepts, ingress, hcard] at h

theorem rd_delivered {s : State} {f : Frame} (h : accepts s f) {a : Nat} (ha : a < 0x10000) : rd (delivered s f) a = rd s a :=
  (delivered_regs h).rd a (by omega)

theorem hall_delivered {s : State} {f : Frame} (h : accepts s f) : (delivered s f).hall = true := by
  have hhall := hall_of_accepts h
  rw [(delivered_regs h).eq]
  exact hhall

namespace RegsWithin
variable {P : Nat → Prop} {s t : State}

theorem links (h : RegsWithin P s t) : t.links = s.links := by rw [h.eq]

theorem colls (h : RegsWithin P s t) : t.store.colls = s.store.colls := by rw [h.eq]

theorem tables (h : RegsWithin P s t) : t.store.tables = s.store.tables := by rw [h.eq]

theorem faults (h : RegsWithin P s t) : t.faults = s.faults := by rw [h.eq]

theorem step (h : RegsWithin P s t) : t.step = s.step := by rw [h.eq]

end RegsWithin

theorem selfNode_congr {s t : State} (h : rd t Reg.atrium.NODE_ID = rd s Reg.atrium.NODE_ID) : selfNode t = selfNode s := by
  unfold selfNode nodeIdValid rdf
  rw [h]

/-! ## Metering changes the tenants alone -/

/-- The node with other tenants. -/
def withTenants (s : State) (ts : Tbl Tenant) : State := { s with store := { s.store with tenants := ts } }

theorem meterFabric_tenants (s : State) (t n : Nat) : ∃ ts, meterFabric s t n = withTenants s ts := by
  unfold meterFabric meter
  split <;> exact ⟨_, rfl⟩

/-! ## Flights by number -/

theorem id_of_flightOf {s : State} {id : Nat} {x : Flight} (h : flightOf s id = some x) : x.id = id := by
  simpa using List.find?_some h

/-- The first flight of a number after every one of that number has changed. -/
theorem flightOf_updFlight {s : State} {id : Nat} {g : Flight → Flight} (hg : ∀ x : Flight, x.id = id → (g x).id = id) :
    flightOf (updFlight s id g) id = (flightOf s id).map g := by
  have hsame : (fun x : Flight => x.id == id) ∘ (fun x => if x.id = id then g x else x) = (·.id == id) := by
    funext x
    by_cases h : x.id = id <;> simp [h, hg]
  unfold flightOf updFlight
  dsimp only
  rw [List.find?_map, hsame]
  exact Option.map_congr fun x hx => if_pos (id_of_flightOf hx)

theorem flightOf_congr {s t : State} (h : t.sched = s.sched) (id : Nat) : flightOf t id = flightOf s id := by
  unfold flightOf
  rw [h]

theorem addPart_sched {s t : State} (h : t.sched = s.sched) (x : Flight) :
    (addPart t x).sched = { s.sched with parts := s.sched.parts ++ [x], nextFlight := s.sched.nextFlight + 1 } := by
  rw [← h]
  rfl

theorem now_congr {s t : State} (h : t.step = s.step) : t.now = s.now := by
  unfold State.now
  rw [h]

theorem tickOf_congr {s t : State} (h : t.step = s.step) (e : Nat) : t.tickOf e = s.tickOf e := by
  unfold State.tickOf
  rw [h, now_congr h]

/-! ## What sending a frame leaves -/

section
variable {s : State} {a : Nat} (ha : a < 0x10000)

theorem startFrame_regs (p : Nat) : (startFrame s p).regs = s.regs := by
  unfold startFrame
  split <;> rfl

include ha

theorem rd_pushEgress (p : Nat) (f : EgFrame) : rd (pushEgress s p f) a = rd s a := by
  unfold pushEgress
  dsimp only
  split
  · exact rd_congr (startFrame_regs p) a
  · rw [updPort_rd, rd_count, if_neg (by unfold Reg.port.EGRESS_STALL; omega)]

/-- Sending counts in NO_ROUTE, or in its port's page. -/
theorem rd_sendFrame (hne : a ≠ Reg.atrium.NO_ROUTE) (typ flags cls dst object flow : Nat) (payload : List Byte) :
    rd (sendFrame s typ flags cls dst object flow payload) a = rd s a := by
  unfold sendFrame
  dsimp only
  split
  · rw [rd_count, if_neg hne.symm]
  · exact rd_pushEgress ha _ _

end

namespace OnlyIssues
variable {s t : State}

theorem sched (h : OnlyIssues s t) : t.sched = s.sched := by
  obtain ⟨_, _, _, _, rfl⟩ := h
  rfl

theorem mem (h : OnlyIssues s t) : t.mem = s.mem := by
  obtain ⟨_, _, _, _, rfl⟩ := h
  rfl

theorem colls (h : OnlyIssues s t) : t.store.colls = s.store.colls := by
  obtain ⟨_, _, _, _, rfl⟩ := h
  rfl

theorem tables (h : OnlyIssues s t) : t.store.tables = s.store.tables := by
  obtain ⟨_, _, _, _, rfl⟩ := h
  rfl

end OnlyIssues

/-! ## An error of class C2 in hall mode -/

/-- In hall mode no queue and no register captures an error of class C2 (R489, R490). -/
theorem capture_c2 {s : State} (hhall : s.hall = true) (k : PageKind) (n b : Nat) : capture s k n b .c2 = s := by
  unfold capture
  simp [hhall]

/-- The registers that an error of class C2 of a page may change in hall mode. -/
def c2Regs (k : PageKind) (n : Nat) : List Nat :=
  [pageBase k n + 0x30, pageBase k n + 0x3C, pageBase k n + 0x38, Reg.fault.C2_COUNT, pageBase .fault 0 + 0x28]

theorem raiseErr_c2_regs {s : State} (hhall : s.hall = true) {k : PageKind} {n b : Nat} (hc : errClass k b = .c2) :
    RegsWithin (· ∈ c2Regs k n) s (raiseErr s k n b) := by
  unfold raiseErr
  extract_lets p s1 s2
  have h1 : RegsWithin (· ∈ c2Regs k n) s s1 := .trans (.wr _ (by simp [c2Regs, p])) (.count (by simp [c2Regs, p]))
  have h2 : RegsWithin (· ∈ c2Regs k n) s s2 := by
    unfold s2
    split
    · exact h1
    · exact h1.trans (.wr _ (by simp [c2Regs, p]))
  have h3 : RegsWithin (· ∈ c2Regs k n) s (raiseEvt (count s2 Reg.fault.C2_COUNT) (pageBase .fault 0) 2) :=
    h2.trans (.trans (.count (by simp [c2Regs])) (.raiseEvt (by simp [c2Regs])))
  have hhall3 : (raiseEvt (count s2 Reg.fault.C2_COUNT) (pageBase .fault 0) 2).hall = true := by
    rw [h3.eq]
    exact hhall
  split
  · exact h1
  · unfold collect
    rw [hc]
    dsimp only
    rw [capture_c2 hhall3]
    exact h3

/-- A control part with a bad CRC (R255). -/
theorem ctlFail_counts {s : State} (hhall : s.hall = true) :
    rd (ctlFail s) Reg.sched.RAKE_CRC_FAIL = counted Reg.sched.RAKE_CRC_FAIL (rd s Reg.sched.RAKE_CRC_FAIL) ∧ (ctlFail s).store = s.store := by
  have herr : RegsWithin (· ∈ c2Regs .sched 0) s (raiseErr s .sched 0 3) := raiseErr_c2_regs hhall (by decide)
  constructor
  · rw [ctlFail, rd_count, if_pos rfl, herr.rd _ (by decide)]
  · rw [ctlFail, count_store, herr.store]

/-! ## RAKE_QUERY (R250 to R253) -/

/-- What the checks of a query look at. -/
theorem queryReason_congr {s t : State} (q : Query) (hstep : t.step = s.step) (hsched : t.sched = s.sched) (hfaults : t.faults = s.faults)
    (hcolls : t.store.colls = s.store.colls) (hquiesce : t.quiesce = s.quiesce) : queryReason t q = queryReason s q := by
  unfold queryReason queryStale kernelOf objDiverged followerOf pairAt planOf horizon State.now
  rw [hstep, hsched, hfaults, hcolls, hquiesce]

theorem takeQuery_part {s : State} {q : Query} {c : Coll} {p : Plan} (hc : Tbl.get s.store.colls q.coll = some c)
    (hp : planOf s (q.u 28 2) = some p) (hr : queryReason s q = 0) : takeQuery s q = .ok (addPart s (partOfQuery s c p q s.sched.nextFlight)) := by
  unfold takeQuery
  rw [hc, hp]
  exact if_pos hr

theorem takeQuery_refused {s : State} {q : Query} (hr : queryReason s q ≠ 0) : takeQuery s q = .error (queryReason s q) := by
  unfold takeQuery
  dsimp only
  split <;> rw [if_neg hr]

/-- The node once a query is counted in STALE_FRAMES (R495). -/
def staleCounted (s : State) (q : Query) : State := if s.now + 2 ≤ q.epoch then count s Reg.fault.STALE_FRAMES else s

theorem staleCounted_regs (s : State) (q : Query) : RegsWithin (· = Reg.fault.STALE_FRAMES) s (staleCounted s q) := by
  unfold staleCounted
  split
  · exact .count rfl
  · exact .refl _ s

theorem RegsWithin.withTenants {P : Nat → Prop} {s t : State} (h : RegsWithin P s t) (ts : Tbl Tenant) :
    RegsWithin P (withTenants s ts) (withTenants t ts) := ⟨by rw [h.eq]; rfl, h.rd⟩

/-- What a delivered query has changed before its node looks at it: registers of its port, STALE_FRAMES and the tenants. -/
def QueryMetered (s v : State) : Prop := ∃ ts, RegsWithin (fun a => a = Reg.fault.STALE_FRAMES ∨ 0x10000 ≤ a) (withTenants s ts) v

theorem queryMetered_of_accepts {s : State} {f : Frame} (h : accepts s f) (q : Query) (ts : Tbl Tenant) :
    QueryMetered s (withTenants (staleCounted (delivered s f) q) ts) :=
  ⟨ts, (((delivered_regs h).mono fun _ => .inr).trans ((staleCounted_regs _ q).mono fun _ => .inl)).withTenants ts⟩

theorem QueryMetered.queryReason {s v : State} (h : QueryMetered s v) (q : Query) : queryReason v q = Machine.queryReason s q := by
  obtain ⟨ts, hv⟩ := h
  refine queryReason_congr q hv.step hv.sched hv.faults hv.colls ?_
  unfold State.quiesce
  rw [hv.rd _ (by decide)]
  rfl

/-- What a node makes of a query: a part, or the NONE that is counted in PART_REFUSED (R250, R253); `v` is the node once the query is metered. -/
def answerQuery (s v : State) (q : Query) : State :=
  match takeQuery v q with
  | .ok t => t
  | .error r =>
    count (sendFrame v 0x21 0 (min 3 (q.u 3 1)) q.coord (q.u 16 4) q.flightNo (nonePayload s q.coord q.flightNo q.epoch q.shard r q.replay))
      Reg.sched.PART_REFUSED

theorem rakeQuery_eq {s : State} {f : Frame} (hok : queryCtlOk f.body = true) :
    ∃ ts, rakeQuery s f = answerQuery s (withTenants (staleCounted s ⟨f.body, false, false⟩) ts) ⟨f.body, false, false⟩ := by
  unfold rakeQuery answerQuery
  rw [if_neg (by simp [hok])]
  dsimp only
  cases Tbl.get s.store.colls (Query.coll ⟨f.body, false, false⟩) with
  | some c =>
    obtain ⟨ts, hts⟩ := meterFabric_tenants (staleCounted s ⟨f.body, false, false⟩) c.tenant f.body.length
    refine ⟨ts, ?_⟩
    rw [← hts]
    rfl
  | none => exact ⟨_, rfl⟩

theorem answerQuery_part {s v : State} {q : Query} {c : Coll} {p : Plan} (hc : Tbl.get v.store.colls q.coll = some c)
    (hp : planOf v (q.u 28 2) = some p) (hr : queryReason v q = 0) : answerQuery s v q = addPart v (partOfQuery v c p q v.sched.nextFlight) := by
  rw [answerQuery, takeQuery_part hc hp hr]

theorem answerQuery_refused (s : State) {v : State} {q : Query} (hr : queryReason v q ≠ 0) :
    (answerQuery s v q).sched = v.sched ∧ (answerQuery s v q).store.colls = v.store.colls ∧
    rd (answerQuery s v q) Reg.sched.PART_REFUSED = counted Reg.sched.PART_REFUSED (rd v Reg.sched.PART_REFUSED) := by
  rw [answerQuery, takeQuery_refused hr]
  have hissues := sendFrame_issues v 0x21 0 (min 3 (q.u 3 1)) q.coord (q.u 16 4) q.flightNo
    (nonePayload s q.coord q.flightNo q.epoch q.shard (queryReason v q) q.replay)
  refine ⟨hissues.sched, hissues.colls, ?_⟩
  rw [rd_count, if_pos rfl, rd_sendFrame (by decide) (by decide)]

theorem rakeQuery_badCrc {s : State} {f : Frame} (hbad : queryCtlOk f.body = false) : rakeQuery s f = ctlFail s := if_pos hbad

theorem exec_rakeQuery {s : State} {f : Frame} (htyp : f.typ = 0x20) (h : accepts s f) :
    exec (.rakeQuery f) s = .next (rakeQuery (delivered s f) f) :=
  congrArg Host.Outcome.next (receive_accepted _ htyp h)

/-! ## RAKE_CONTRIB (R265, R267, R274) -/

/-- A contribution that matches no running flight by FLIGHT_NO, EPOCH and COORD_NODE. -/
theorem takeContrib_discarded {s : State} {b : List Byte}
    (h : ¬∃ x, flightOf s (leAt b 4 4) = some x ∧ x.epoch = leAt b 8 6 ∧ leAt b 0 2 % 0x8000 = selfNode s) :
    takeContrib s b = count s Reg.sched.LATE_DISCARD := by
  unfold takeContrib
  dsimp only
  cases hx : flightOf s (leAt b 4 4) with
  | none => rfl
  | some x =>
    refine if_pos ?_
    by_contra hmatch
    simp only [not_or, not_not] at hmatch
    obtain ⟨_, hepoch, hcoord, _⟩ := hmatch
    exact h ⟨x, hx, hepoch, hcoord⟩

/-- The first contribution of a flight is no duplicate. -/
theorem addContrib_nil (b : List Byte) : (addContrib [] b).2 = false := by
  simp [addContrib]

/-- A contribution that its flight takes: not a NONE, of a shard of the flight's map, before the REMOTE_ARRIVED landing (R63, R265, R274). -/
structure Joins (s : State) (x : Flight) (b : List Byte) : Prop where
  map : x.map.isSome = true
  epoch : x.epoch = leAt b 8 6
  coord : leAt b 0 2 % 0x8000 = selfNode s
  shard : inMap x (leAt b 16 2) = true
  contrib : (leAt b 2 1).testBit 0 = false
  merged : x.merged = false
  inTime : landingOpen x 3 = true

theorem takeContrib_first {s : State} {b : List Byte} {x : Flight} (hx : flightOf s (leAt b 4 4) = some x) (hjoins : Joins s x b)
    (hnone : x.contribs = []) :
    takeContrib s b = updFlight s (leAt b 4 4) fun y => { y with contribs := (addContrib [] b).1 } := by
  obtain ⟨hmap, hepoch, hcoord, hshard, hcontrib, hmerged, hopen⟩ := hjoins
  unfold takeContrib
  dsimp only
  rw [hx]
  dsimp only
  rw [if_neg (by simp [hepoch, hcoord, hshard, Option.isSome_iff_ne_none.mp hmap]), if_neg (by simp [hcontrib]), if_neg (by simp [hmerged, hopen]),
    hnone, if_neg (by simp [addContrib_nil])]

/-- A contribution is metered where its flight runs, and then taken. -/
theorem rakeContrib_eq {s : State} {f : Frame} (hok : ctlOk f.body = true) :
    ∃ ts, rakeContrib s f = takeContrib (withTenants s ts) f.body ∧ (flightOf s (leAt f.body 4 4) = none → withTenants s ts = s) := by
  unfold rakeContrib
  rw [if_neg (by simp [hok])]
  dsimp only
  split
  · next x hx =>
    obtain ⟨ts, hts⟩ := meterFabric_tenants s x.tenant f.body.length
    exact ⟨ts, hts ▸ rfl, by simp [hx]⟩
  · exact ⟨_, rfl, fun _ => rfl⟩

theorem exec_rakeContrib {s : State} {f : Frame} (htyp : f.typ = 0x21) (h : accepts s f) :
    exec (.rakeContrib f) s = .next (rakeContrib (delivered s f) f) :=
  congrArg Host.Outcome.next (receive_accepted _ htyp h)

/-! ## ROW_REQ and ROW_REPLY (R295, R296, R301) -/

theorem reqServed_congr {s t : State} {b : List Byte} (hfaults : t.faults = s.faults) (hstore : t.store = s.store) :
    reqServed t b = reqServed s b := by
  unfold reqServed followerOf
  rw [hfaults, hstore]

theorem exec_rowReq {s : State} {f : Frame} (htyp : f.typ = 0x30) (h : accepts s f) : exec (.rowReq f) s = .next (rowReq (delivered s f) f) :=
  congrArg Host.Outcome.next (receive_accepted _ htyp h)

theorem exec_rowReply {s : State} {f : Frame} (htyp : f.typ = 0x31) (h : accepts s f) : exec (.rowReply f) s = .next (rowReply (delivered s f) f) :=
  congrArg Host.Outcome.next (receive_accepted _ htyp h)

section
variable {s : State} {f : Frame} (hok : ctlOk f.body = true)
include hok

theorem rowReq_served (h : reqServed s f.body = true) :
    ∃ ts, rowReq s f = addPart (withTenants s ts) (servePart (withTenants s ts) f.body (min 3 f.cls)) := by
  unfold rowReq
  dsimp only
  rw [if_neg (by simp [hok]), if_pos h]
  split
  · next t _ =>
    obtain ⟨ts, hts⟩ := meterFabric_tenants s t.tenant f.body.length
    exact ⟨ts, hts ▸ rfl⟩
  · exact ⟨_, rfl⟩

/-- A request that is not served is answered at once (R296). -/
theorem rowReq_unserved (h : reqServed s f.body = false) : ∃ ts es, rowReq s f = sendReply (withTenants s ts) f.body (min 3 f.cls) [] 0 es := by
  unfold rowReq
  dsimp only
  rw [if_neg (by simp [hok]), if_neg (by simp [h])]
  split
  · next t _ =>
    obtain ⟨ts, hts⟩ := meterFabric_tenants s t.tenant f.body.length
    exact ⟨ts, _, congrArg (sendReply · f.body _ _ _ _) hts⟩
  · exact ⟨_, _, rfl⟩

end

theorem sendReply_issues (s : State) (b : List Byte) (cls pair : Nat) (es : List (List Byte)) : OnlyIssues s (sendReply s b cls [] pair es) := by
  unfold sendReply
  exact List.foldlRecOn _ _ (motive := OnlyIssues s) (.refl s) fun t ht _ _ => ht.trans (sendFrame_issues t _ _ _ _ _ _ _)

/-- The rows of a batch with a reply's entries from node `src`. -/
def Flight.takeReply (x : Flight) (src size : Nat) (es : List (Nat × Nat × List Byte)) : Flight :=
  es.foldl (fun x e => setRow x e.1 fun r =>
    if r.remote = src + 1 ∧ r.done = false then
      { r with status := e.2.1, data := if x.kind = .lookup then padTo e.2.2 size 0 else [], done := true }
    else r) x

/-- A reply of one entry settles the row that it names, if its node was asked for it. -/
theorem takeReply_scatter {x : Flight} {src i st : Nat} {d : List Byte} {r : RowItem} (hkind : x.kind = .scatter) (hrow : x.work.rows[i]? = some r)
    (hremote : r.remote = src + 1) (hdone : r.done = false) :
    (x.takeReply src 0 [(i, st, d)]).stages = x.stages ∧
    (x.takeReply src 0 [(i, st, d)]).work.rows[i]? = some { r with status := st, data := [], done := true } ∧
    ∀ k, k ≠ i → (x.takeReply src 0 [(i, st, d)]).work.rows[k]? = x.work.rows[k]? := by
  unfold Flight.takeReply setRow
  refine ⟨rfl, ?_, fun k hk => ?_⟩
  · simp [updAt_getElem?, hrow, hremote, hdone, hkind]
  · simp [updAt_getElem?, hk.symm]

theorem rowReply_unknown {s : State} {f : Frame} (hok : ctlOk f.body = true) (h : flightOf s (leAt f.body 4 4) = none) :
    rowReply s f = count s Reg.sched.LATE_DISCARD := by
  unfold rowReply
  dsimp only
  rw [if_neg (by simp [hok]), h]

/-- A reply to a SCATTER batch carries no row data. -/
theorem rowReply_scatter {s : State} {f : Frame} {x : Flight} (hok : ctlOk f.body = true) (hx : flightOf s (leAt f.body 4 4) = some x)
    (hkind : x.kind = .scatter) (hepoch : x.epoch = leAt f.body 8 6) (hop : x.desc.op = leAt f.body 2 1) :
    rowReply s f = updFlight (meterFabric s x.tenant f.body.length) x.id (·.takeReply f.src 0 (replyEntries f.body 0)) := by
  unfold rowReply
  dsimp only
  rw [if_neg (by simp [hok]), hx]
  dsimp only
  rw [if_neg (by simp [hkind, hepoch, hop]), if_neg (by simp [hkind])]
  rfl

/-! ## The statement -/

/-- Settles O40: past the ingress checks a frame's agent does what the equations above say. -/
theorem rake_and_row_frames_are_taken : Obligations.Rake_and_row_frames_are_taken := by
  refine ⟨fun s f hacc => ?rake, fun s f hacc hok => ?row⟩
  case rake =>
    intro u q id
    have hu := delivered_regs hacc
    have hself : selfNode u = selfNode s := selfNode_congr (rd_delivered hacc (by decide))
    have hflight : flightOf u id = flightOf s id := flightOf_congr hu.sched id
    refine ⟨fun c p htyp hok hc hp hr => ?part, fun htyp hok hr => ?refused, fun htyp hbad => ?badCrc, fun htyp hok =>
      ⟨fun hnone => ?unknown, fun hunmatched => ?discarded, fun x hx hmap hepoch hcoord hshard hcontrib hmerged hopen hfirst => ?joined⟩⟩
    case part =>
      obtain ⟨ts, hquery⟩ := rakeQuery_eq (s := u) hok
      have hmetered := queryMetered_of_accepts hacc q ts
      have hreason := hmetered.queryReason q
      obtain ⟨ts', hv⟩ := hmetered
      have hpart := answerQuery_part (s := u) ((congrArg (Tbl.get · q.coll) hv.colls).trans hc) ((planOf_congr (by rw [hv.sched]; rfl)).trans hp)
        (hreason.trans hr)
      exact ⟨_, _, (exec_rakeQuery htyp hacc).trans (congrArg _ (hquery.trans hpart)), addPart_sched hv.sched _, congrArg Sched.nextFlight hv.sched,
        rfl, rfl, rfl, rfl, tickOf_congr hv.step _, hv.colls, hv.mem, hv.links.trans hu.links.symm⟩
    case refused =>
      obtain ⟨ts, hquery⟩ := rakeQuery_eq (s := u) hok
      have hmetered := queryMetered_of_accepts hacc q ts
      obtain ⟨hsched, hcolls, hcount⟩ := answerQuery_refused u ((hmetered.queryReason q).trans_ne hr)
      obtain ⟨ts', hv⟩ := hmetered
      refine ⟨_, (exec_rakeQuery htyp hacc).trans (congrArg _ hquery), hsched.trans hv.sched, hcount.trans ?_, hcolls.trans hv.colls⟩
      rw [hv.rd _ (by decide)]
      rfl
    case badCrc =>
      obtain ⟨hcount, hstore⟩ := ctlFail_counts (hall_delivered hacc)
      refine ⟨_, (exec_rakeQuery htyp hacc).trans (congrArg _ (rakeQuery_badCrc hbad)), ?_, congrArg Store.tables (hstore.trans hu.store)⟩
      rw [hcount, rd_delivered hacc (by decide)]
    case unknown =>
      obtain ⟨ts, hcontrib, hsame⟩ := rakeContrib_eq (s := u) hok
      rw [exec_rakeContrib htyp hacc, hcontrib, hsame (hflight.trans hnone), takeContrib_discarded]
      rw [show flightOf u _ = none from hflight.trans hnone]
      simp
    case discarded =>
      obtain ⟨ts, hcontrib, -⟩ := rakeContrib_eq (s := u) hok
      have hdiscard : takeContrib (withTenants u ts) f.body = count (withTenants u ts) Reg.sched.LATE_DISCARD := by
        refine takeContrib_discarded ?_
        rw [show flightOf (withTenants u ts) _ = flightOf s id from hflight, show selfNode (withTenants u ts) = selfNode s from hself]
        exact hunmatched
      refine ⟨_, (exec_rakeContrib htyp hacc).trans (congrArg _ (hcontrib.trans hdiscard)), ?_, hu.sched, hu.mem, hu.colls, rfl⟩
      rw [rd_count, if_pos rfl]
      rfl
    case joined =>
      obtain ⟨ts, hcontribs, -⟩ := rakeContrib_eq (s := u) hok
      have hx' : flightOf (withTenants u ts) id = some x := hflight.trans hx
      have htake := takeContrib_first hx' ⟨hmap, hepoch, hcoord.trans hself.symm, hshard, hcontrib, hmerged, hopen⟩ hfirst
      refine ⟨_, (exec_rakeContrib htyp hacc).trans (congrArg _ (hcontribs.trans htake)), (flightOf_updFlight ?_).trans (congrArg _ hx'), rfl, rfl,
        hu.mem, hu.colls⟩
      exact fun _ h => h
  case row =>
    intro u b
    have hu := delivered_regs hacc
    have hserved : reqServed u b = reqServed s b := reqServed_congr hu.faults hu.store
    have hflight : flightOf u (leAt b 4 4) = flightOf s (leAt b 4 4) := flightOf_congr hu.sched _
    refine ⟨fun htyp hreq => ?served, fun htyp hreq => ?unserved, fun htyp hnone => ?unknown,
      fun x i st d r htyp hx hkind hepoch hop hentries hrow hremote hdone => ?reply⟩
    case served =>
      obtain ⟨ts, hpart⟩ := rowReq_served hok (hserved.trans hreq)
      exact ⟨_, _, (exec_rowReq htyp hacc).trans (congrArg _ hpart), addPart_sched hu.sched _, rfl, rfl, now_congr hu.step,
        congrArg (fun x : Step => x.ticks + 1) hu.step, hu.tables, hu.mem, rfl, rfl⟩
    case unserved =>
      obtain ⟨ts, es, hreply⟩ := rowReq_unserved hok (hserved.trans hreq)
      have hissues := sendReply_issues (withTenants u ts) b (min 3 f.cls) 0 es
      exact ⟨_, (exec_rowReq htyp hacc).trans (congrArg _ hreply), hissues.sched.trans hu.sched, hissues.tables.trans hu.tables,
        hissues.mem.trans hu.mem⟩
    case unknown => exact (exec_rowReply htyp hacc).trans (congrArg _ (rowReply_unknown hok (hflight.trans hnone)))
    case reply =>
      obtain ⟨ts, hts⟩ := meterFabric_tenants u x.tenant b.length
      have hid := id_of_flightOf hx
      have hreply := rowReply_scatter hok (hflight.trans hx) hkind hepoch hop
      rw [show meterFabric u x.tenant f.body.length = withTenants u ts from hts, hentries] at hreply
      obtain ⟨hstages, hrows, hothers⟩ := takeReply_scatter (d := d) (st := st) hkind hrow hremote hdone
      refine ⟨_, _, (exec_rowReply htyp hacc).trans (congrArg _ hreply), (flightOf_updFlight ?_).trans (congrArg (Option.map _) (?_ : _ = some x)), hrows,
        hothers, hstages, hu.tables, rfl, hu.mem⟩
      · exact fun _ h => h
      · rw [hid]
        exact hflight.trans hx

end Sys2Proof.Machine

/-! PROOFS. Model slots, the relay of pinned weights, and stage-ins of staged ones (R278, R279, R288, R289, R312, R544). -/
namespace Sys2Proof.Machine

/-! ## What a change of the model slots leaves beside them -/

/-- PIN_EPOCH takes the step, whose 48 bits it holds. -/
theorem rd64_setPinEpoch (s : State) : rd64 (setPinEpoch s) Reg.atrium.PIN_EPOCH = s.now := by
  have h := rd64_wr64 s Reg.atrium.PIN_EPOCH s.now (s.step.count.isLt.trans (by decide))
  unfold setPinEpoch
  dsimp only
  split <;> exact h

/-- A change of registers alone, beside another chip. -/
theorem RegsWithin.withChip {P : Nat → Prop} {s t : State} (h : RegsWithin P s t) (c : Chip) :
    RegsWithin P { s with chip := c } { t with chip := c } :=
  ⟨by rw [h.eq], h.rd⟩

/-- Beside PIN_EPOCH only tags of the galleries change. -/
theorem setPinEpoch_frame (s : State) :
    ∃ c, RegsWithin (fun a => a = Reg.atrium.PIN_EPOCH ∨ a = Reg.atrium.PIN_EPOCH + 4) { s with chip := c } (setPinEpoch s) := by
  have h : RegsWithin (fun a => a = Reg.atrium.PIN_EPOCH ∨ a = Reg.atrium.PIN_EPOCH + 4) s (wr64 s Reg.atrium.PIN_EPOCH s.now) :=
    .wr64 (.inl rfl) (.inr rfl)
  unfold setPinEpoch
  dsimp only
  split
  · exact ⟨_, h.withChip _⟩
  · exact ⟨s.chip, h⟩

/-- What a slot that is filled or emptied leads to: the tenant's use is counted anew, PIN_EPOCH takes the step, and the event rises. -/
def announceModel (s : State) (tenant : Nat) : State := modelDone (setPinEpoch (setUse s tenant))

section
variable (s : State) (tenant : Nat)

theorem modelDone_regs : RegsWithin (· = pageBase .sched 0 + 0x28) s (modelDone s) := .raiseEvt rfl

theorem announceModel_frame :
    ∃ c, RegsWithin (· ≠ Reg.sched.MODEL_STATUS) { s with chip := c } (announceModel s tenant) := by
  obtain ⟨c, hpin⟩ := setPinEpoch_frame (setUse s tenant)
  have huse := ((setUse_regs s tenant).withChip c).mono (Q := (· ≠ Reg.sched.MODEL_STATUS)) fun a ha => (Nat.lt_of_lt_of_le (by decide) ha).ne'
  have hpin := hpin.mono (Q := (· ≠ Reg.sched.MODEL_STATUS)) (by rintro a (rfl | rfl) <;> decide)
  exact ⟨c, (huse.trans hpin).trans ((modelDone_regs _).mono (by rintro a rfl; decide))⟩

theorem pinEpoch_announceModel : rd64 (announceModel s tenant) Reg.atrium.PIN_EPOCH = s.now := by
  have hdone := modelDone_regs (setPinEpoch (setUse s tenant))
  have huse : (setUse s tenant).now = s.now := now_congr (setUse_regs s tenant).step
  exact (rd64_congr (hdone.rd _ (by decide)) (hdone.rd _ (by decide))).trans ((rd64_setPinEpoch _).trans huse)

theorem announceModel_store : (announceModel s tenant).store = s.store := by
  obtain ⟨c, h⟩ := announceModel_frame s tenant
  exact h.store

theorem announceModel_sched : (announceModel s tenant).sched = s.sched := by
  obtain ⟨c, h⟩ := announceModel_frame s tenant
  exact h.sched

theorem announceModel_mem : (announceModel s tenant).mem = s.mem := by
  obtain ⟨c, h⟩ := announceModel_frame s tenant
  exact h.mem

theorem rd_announceModel_status : rd (announceModel s tenant) Reg.sched.MODEL_STATUS = rd s Reg.sched.MODEL_STATUS := by
  obtain ⟨c, h⟩ := announceModel_frame s tenant
  exact h.rd _ fun hne => hne rfl

end

/-! ## MODEL_LOAD and MODEL_RETIRE -/

theorem exec_modelLoad_free {s : State} (h : busyBit s Reg.sched.MODEL_STATUS = false) :
    exec .modelLoad s = .next (setBusy s Reg.sched.MODEL_STATUS true { s.sched with
      modelLoad := some (rd64 s Reg.sched.MODEL_LOAD_ADDR, rdf s Reg.sched.MODEL_TARGET 5 0, rdf s Reg.sched.MODEL_TARGET 31 24) }) := by
  show Host.Outcome.next (modelLoad s) = _
  unfold modelLoad
  rw [if_neg (by simp [h])]
  rfl

/-- The store in which a model's slot is being retired. -/
def retiringStore (s : State) (slot : Nat) : Store :=
  { s.store with models := Tbl.upd s.store.models slot fun m => { m with retiring := true } }

theorem exec_modelRetire_free {s : State} (h : busyBit s Reg.sched.MODEL_STATUS = false) :
    exec .modelRetire s = .next (setBusy { s with store := retiringStore s (rdf s Reg.sched.MODEL_TARGET 5 0) } Reg.sched.MODEL_STATUS true
      { s.sched with modelRetire := some (rdf s Reg.sched.MODEL_TARGET 5 0) }) := by
  show Host.Outcome.next (modelRetire s) = _
  unfold modelRetire
  rw [if_neg (by simp [h])]
  rfl

theorem get_retiringStore {s : State} {slot : Nat} {m : Model} (h : Tbl.get s.store.models slot = some m) :
    Tbl.get (retiringStore s slot).models slot = some { m with retiring := true } := by
  rw [retiringStore, Tbl.get_upd, if_pos rfl, h]
  rfl

/-! ## How a load ends -/

/-- A load in progress ends when its image lies in HBM (R279, R313). -/
theorem exec_modelLoadDone {s : State} {a slot tenant : Nat} (hload : s.sched.modelLoad = some (a, slot, tenant))
    (hin : (inHbm a 64 && inHbm a (modelImage s a).length) = true) :
    exec .modelLoadDone s = .next (modelLoadDone s slot tenant (modelImage s a)) := by
  show execModelLoadDone s = _
  unfold execModelLoadDone
  rw [hload]
  exact if_pos hin

/-- Beside MODEL_STATUS, the end of a load leaves no load in hand. -/
theorem modelLoadEnd_regs (s : State) (r l : Nat) :
    RegsWithin (· = Reg.sched.MODEL_STATUS) { s with sched := { s.sched with modelLoad := none } } (modelLoadEnd s r l) := by
  have h (w : Word) : RegsWithin (· = Reg.sched.MODEL_STATUS) s (wr s Reg.sched.MODEL_STATUS w) := .wr w rfl
  exact (h _).withSched _

/-- For any word: that of MODEL_STATUS, with its 2 ^ 31, is costly to unfold. -/
theorem rd_wr_withSched (s : State) (a : Nat) (w : Word) (x : Sched) : rd { wr s a w with sched := x } a = w := rd_wr_self s a w

theorem rd_modelLoadEnd_status (s : State) (r l : Nat) : rd (modelLoadEnd s r l) Reg.sched.MODEL_STATUS =
    BitVec.ofNat 32 (s.sched.modelRetire.isSome.toNat * 2 ^ 31 + l * 256 + r) :=
  rd_wr_withSched _ _ _ _

/-- The state with this model in its slot. -/
def withModelIn (s : State) (slot : Nat) (m : Model) : State := { s with store := { s.store with models := Tbl.set s.store.models slot m } }

section
variable (s : State) (slot : Nat) (m : Model)

@[simp] theorem withModelIn_models : (withModelIn s slot m).store.models = Tbl.set s.store.models slot m := rfl

@[simp] theorem withModelIn_sched : (withModelIn s slot m).sched = s.sched := rfl

@[simp] theorem withModelIn_mem : (withModelIn s slot m).mem = s.mem := rfl

@[simp] theorem withModelIn_now : (withModelIn s slot m).now = s.now := rfl

@[simp] theorem withModelIn_rd (a : Nat) : rd (withModelIn s slot m) a = rd s a := rfl

end

section
variable {s : State} {slot tenant : Nat} {b : List Byte}

/-- The load in hand ends with RESULT and FAIL_LAYER of its image. -/
def modelChecked (s : State) (slot tenant : Nat) (b : List Byte) : State :=
  modelLoadEnd s (modelResult s slot tenant b).1 (modelResult s slot tenant b).2

theorem modelChecked_regs (s : State) (slot tenant : Nat) (b : List Byte) :
    RegsWithin (· = Reg.sched.MODEL_STATUS) { s with sched := { s.sched with modelLoad := none } } (modelChecked s slot tenant b) :=
  modelLoadEnd_regs _ _ _

theorem modelLoadDone_accepted (h : (modelResult s slot tenant b).1 = 0) : modelLoadDone s slot tenant b =
    announceModel (withModelIn (modelChecked s slot tenant b) slot (parseModel s tenant b)) tenant := by
  unfold modelLoadDone modelChecked
  generalize modelResult s slot tenant b = p at h ⊢
  exact if_pos h

theorem modelLoadDone_refused (h : (modelResult s slot tenant b).1 ≠ 0) :
    modelLoadDone s slot tenant b = modelDone (modelChecked s slot tenant b) := by
  unfold modelLoadDone modelChecked
  generalize modelResult s slot tenant b = p at h ⊢
  exact if_neg h

/-- MODEL_STATUS and what the load leaves as it is are the same for an accepted and a refused image. -/
theorem modelLoadDone_ends (s : State) (slot tenant : Nat) (b : List Byte) :
    (modelLoadDone s slot tenant b).sched = { s.sched with modelLoad := none } ∧
    rd (modelLoadDone s slot tenant b) Reg.sched.MODEL_STATUS = BitVec.ofNat 32 (s.sched.modelRetire.isSome.toNat * 2 ^ 31 +
      (modelResult s slot tenant b).2 * 256 + (modelResult s slot tenant b).1) ∧
    (modelLoadDone s slot tenant b).mem = s.mem := by
  have hend := modelChecked_regs s slot tenant b
  have hstatus : rd (modelChecked s slot tenant b) Reg.sched.MODEL_STATUS = _ := rd_modelLoadEnd_status _ _ _
  by_cases h : (modelResult s slot tenant b).1 = 0
  · rw [modelLoadDone_accepted h, announceModel_sched, rd_announceModel_status, announceModel_mem, withModelIn_sched, withModelIn_rd,
      withModelIn_mem]
    exact ⟨hend.sched, hstatus, hend.mem⟩
  · have hdone := modelDone_regs (modelChecked s slot tenant b)
    rw [modelLoadDone_refused h, hdone.sched, hdone.rd _ (by decide), hdone.mem]
    exact ⟨hend.sched, hstatus, hend.mem⟩

/-- An accepted image fills its slot and no other. -/
theorem modelLoadDone_accepted_models (h : (modelResult s slot tenant b).1 = 0) :
    (modelLoadDone s slot tenant b).store.models = Tbl.set s.store.models slot (parseModel s tenant b) := by
  rw [modelLoadDone_accepted h, announceModel_store, withModelIn_models, (modelChecked_regs s slot tenant b).store]

theorem pinEpoch_modelLoadDone (h : (modelResult s slot tenant b).1 = 0) : rd64 (modelLoadDone s slot tenant b) Reg.atrium.PIN_EPOCH = s.now := by
  rw [modelLoadDone_accepted h, pinEpoch_announceModel, withModelIn_now]
  exact now_congr (modelChecked_regs s slot tenant b).step

theorem modelLoadDone_refused_store (h : (modelResult s slot tenant b).1 ≠ 0) : (modelLoadDone s slot tenant b).store = s.store := by
  rw [modelLoadDone_refused h, (modelDone_regs _).store]
  exact (modelChecked_regs s slot tenant b).store

end

/-! ## How a retired slot is emptied -/

/-- The model in a retired slot is gone and its tier range is released; BUSY stays for a load in hand. -/
def slotEmptied (s : State) (slot : Nat) : State :=
  setBusy (releaseRange { s with store := { s.store with models := Tbl.del s.store.models slot } } (5120 + slot)) Reg.sched.MODEL_STATUS
    s.sched.modelLoad.isSome { s.sched with modelRetire := none }

theorem exec_modelSlotEmptied {s : State} {slot : Nat} (hret : s.sched.modelRetire = some slot) (hfree : modelUsed s slot = false) :
    ∃ tenant, exec .modelSlotEmptied s = .next (announceModel (slotEmptied s slot) tenant) := by
  show ∃ _, Host.Outcome.next (modelSlotEmptied s) = _
  unfold modelSlotEmptied
  rw [hret]
  dsimp only
  rw [if_neg (by simp [hfree])]
  exact ⟨_, rfl⟩

/-! ## PIN_RELAY_DONE -/

section
variable {s : State} {slot : Fin 64} {m : Model} (hm : Tbl.get s.store.models slot.val = some m) (hrelay : m.relay = true)
include hm hrelay

/-- The relay ends as done where the weights fit beside those laid out and none is lost, and as failed elsewhere (R289). -/
theorem exec_pinRelayDone_fits (hfits : pinsLaid s slot.val + m.weights.length ≤ pinnedArea s) (hlost : m.lost = false) :
    exec (.pinRelayDone slot) s =
      .next (setPinEpoch (withModelIn s slot.val { m with relay := false, relayFail := false })) := by
  show Host.Outcome.next (pinRelayDone s slot.val) = _
  unfold pinRelayDone
  simp [hm, hrelay, hfits, hlost, withModelIn]

theorem exec_pinRelayDone_fails (hfails : pinnedArea s < pinsLaid s slot.val + m.weights.length ∨ m.lost = true) :
    exec (.pinRelayDone slot) s =
      .next (raiseEvt (withModelIn s slot.val { m with relay := false, relayFail := true }) (pageBase .sched 0) 18) := by
  have hok : (decide (pinsLaid s slot.val + m.weights.length ≤ pinnedArea s) && !m.lost) = false := by
    rcases hfails with hroom | hlost
    · simp [hroom]
    · simp [hlost]
  show Host.Outcome.next (pinRelayDone s slot.val) = _
  unfold pinRelayDone
  simp only [hm, hrelay, hok]
  rfl

end

/-! ## Stage-ins -/

/-- The flight once the layer's weights are in the stores of these stages. -/
def Flight.stagedIn (f : Flight) (layer : Nat) (ds : List StageDef) : Flight :=
  ds.foldl (fun g d => g.setRun d.no fun r => { r with staged := insertNat r.staged layer }) f

section
variable {layer : Nat}

theorem stagedIn_id (ds : List StageDef) (f : Flight) : (f.stagedIn layer ds).id = f.id := by
  induction ds generalizing f with
  | nil => rfl
  | cons d ds ih => exact ih _

/-- A stage has the layer after its own stage-in, and keeps it over those of others. -/
theorem mem_staged_stagedIn {no : Nat} (ds : List StageDef) {f : Flight} (hno : no < f.stages.length)
    (h : no ∈ ds.map (·.no) ∨ layer ∈ (f.run no).staged) : layer ∈ ((f.stagedIn layer ds).run no).staged := by
  induction ds generalizing f with
  | nil => exact h.resolve_left List.not_mem_nil
  | cons d ds ih =>
    refine ih ((updAt_length _ _ _).symm ▸ hno) ?_
    by_cases hd : no = d.no
    · subst hd
      rw [run_setRun_self _ hno]
      exact .inr (mem_insertNat.mpr (.inl rfl))
    · rw [run_setRun_ne _ hd]
      exact h.imp_left fun hmem => (List.mem_cons.mp hmem).resolve_left hd

end

section
variable {s : State} {slot layer : Nat}

/-- The steps of the stages for which a stage-in of the layer is under way. -/
def stageInSteps (s : State) (slot layer : Nat) : List Nat :=
  s.sched.flights.flatMap fun f => (stageIns s slot layer f).map (stageStep f)

theorem mem_stageInSteps {t : Nat} : t ∈ stageInSteps s slot layer ↔
    ∃ f ∈ s.sched.flights, ∃ d ∈ stageIns s slot layer f, stageStep f d = t := by
  simp [stageInSteps]

/-- The earliest of them, if there is one. -/
def stageInStep (s : State) (slot layer : Nat) : Nat := (stageInSteps s slot layer).min?.getD 0

/-- A stage that no other one precedes is of the earliest step. -/
theorem stageInStep_eq {f : Flight} {d : StageDef} (hf : f ∈ s.sched.flights) (hd : d ∈ stageIns s slot layer f)
    (hfirst : ∀ g ∈ s.sched.flights, ∀ e ∈ stageIns s slot layer g, stageStep f d ≤ stageStep g e) :
    stageInStep s slot layer = stageStep f d := by
  have hmin : (stageInSteps s slot layer).min? = some (stageStep f d) := by
    refine List.min?_eq_some_iff.mpr ⟨mem_stageInSteps.mpr ⟨f, hf, d, hd, rfl⟩, fun t ht => ?_⟩
    obtain ⟨g, hg, e, he, rfl⟩ := mem_stageInSteps.mp ht
    exact hfirst g hg e he
  rw [stageInStep, hmin]
  rfl

/-- The flight once the stage-ins of step `t` have ended (R288; log entry 140). -/
def Flight.takeLayer (s : State) (slot layer t : Nat) (f : Flight) : Flight :=
  f.stagedIn layer ((stageIns s slot layer f).filter fun d => stageStep f d == t)

/-- A flight for which no stage-in is under way stays. -/
theorem takeLayer_nil {f : Flight} (t : Nat) (h : stageIns s slot layer f = []) : f.takeLayer s slot layer t = f := by
  rw [Flight.takeLayer, h]
  rfl

/-- The state in which the stage-ins of the earliest step have ended; without any, it is `s`. -/
def stagedInState (s : State) (slot layer : Nat) : State :=
  { s with sched := { s.sched with flights := s.sched.flights.map (Flight.takeLayer s slot layer (stageInStep s slot layer)) } }

theorem stagedInState_nil (h : stageInSteps s slot layer = []) : stagedInState s slot layer = s := by
  have hmap : s.sched.flights.map (Flight.takeLayer s slot layer (stageInStep s slot layer)) = s.sched.flights :=
    (List.map_congr_left fun f hf => takeLayer_nil _ (List.map_eq_nil_iff.mp (List.flatMap_eq_nil_iff.mp h f hf))).trans (List.map_id _)
  rw [stagedInState, hmap]

end

section
variable {s : State} {slot : Fin 64} {layer : Nat} {m : Model} (hm : Tbl.get s.store.models slot.val = some m)
include hm

/-- A stage-in ends only for a staged model whose weights HBM holds (R278, R288). -/
theorem exec_weightStageInDone_unready (h : m.staged = false ∨ m.lost = true ∨ weightsInHbm s slot.val m layer = false) :
    exec (.weightStageInDone slot layer) s = .next s := by
  show Host.Outcome.next (weightStageIn s slot.val layer) = _
  unfold weightStageIn
  rw [hm]
  exact congrArg _ (if_pos (h.imp_right .inr))

theorem exec_weightStageInDone_ready (hstaged : m.staged = true) (hlayer : layer < m.layers.length) (hlost : m.lost = false)
    (hheld : weightsInHbm s slot.val m layer = true) :
    exec (.weightStageInDone slot layer) s = .next (stagedInState s slot.val layer) := by
  show Host.Outcome.next (weightStageIn s slot.val layer) = _
  unfold weightStageIn
  rw [hm]
  dsimp only
  rw [if_neg (by simp [hstaged, hlost, hheld, hlayer])]
  split
  · next hnil => rw [stagedInState_nil hnil]
  · next a r hcons =>
    have hstep : stageInStep s slot.val layer = r.foldl min a := by rw [stageInStep, stageInSteps, hcons]; rfl
    rw [stagedInState, hstep]
    rfl

end

/-! ## The statement -/

/-- Settles O27: the commands note their slot, the end of a load or of a retirement leads to `announceModel`, and stage-ins and
relays go by `stagedInState` and `setPinEpoch`. -/
theorem models_are_loaded_and_their_weights_placed : Obligations.Models_are_loaded_and_their_weights_placed := by
  refine ⟨fun s => ⟨fun hfree => ⟨?load, ?retire⟩, fun a slot tenant hload hin => ?loadDone, fun slot hret hfree => ?emptied⟩,
    fun s slot m hm => ⟨fun layer hstaged hlayer hlost hheld hruns => ?stageIn, fun layer h => exec_weightStageInDone_unready hm h,
      fun hrelay hfits hlost => ?relay, fun hrelay hfails => ?relayFails⟩⟩
  case load => exact ⟨_, exec_modelLoad_free hfree, busyBit_setBusy _ _ _ _, rfl, setBusy_onlyRegs _ _ _ _⟩
  case retire =>
    exact ⟨_, exec_modelRetire_free hfree, busyBit_setBusy _ _ _ _, rfl, fun m hm => get_retiringStore hm, setBusy_onlyRegs _ _ _ _⟩
  case loadDone =>
    obtain ⟨hsched, hstatus, hmem⟩ := modelLoadDone_ends s slot tenant (modelImage s a)
    refine ⟨_, exec_modelLoadDone hload hin, hsched, hstatus, fun hacc => ?accepted, fun href => ?refused, hmem⟩
    case accepted =>
      rw [modelLoadDone_accepted_models hacc]
      exact ⟨Tbl.get_set_self _ _ _, fun k hk => Tbl.get_set_ne hk, pinEpoch_modelLoadDone hacc⟩
    case refused => exact modelLoadDone_refused_store href
  case emptied =>
    obtain ⟨tenant, hexec⟩ := exec_modelSlotEmptied hret hfree
    refine ⟨_, hexec, ?_, fun k hk => ?_, announceModel_sched _ _, ?_, announceModel_mem _ _⟩
    · rw [announceModel_store]
      exact Tbl.get_del_self _ _
    · rw [announceModel_store]
      exact Tbl.get_del_ne hk
    · rw [busyBit, rd_announceModel_status]
      exact busyBit_setBusy _ _ _ _
  case stageIn =>
    refine ⟨_, exec_weightStageInDone_ready hm hstaged hlayer hlost hheld, rfl, fun f hf hnone => ?untouched, fun f hf d hd hfirst => ?earliest⟩
    case untouched => exact List.mem_map.mpr ⟨f, hf, takeLayer_nil _ hnone⟩
    case earliest =>
      refine ⟨_, List.mem_map_of_mem hf, stagedIn_id _ f, mem_staged_stagedIn _ (hruns f hf d (List.mem_of_mem_filter hd)) (.inl ?_)⟩
      rw [stageInStep_eq hf hd hfirst]
      exact List.mem_map_of_mem (List.mem_filter.mpr ⟨hd, beq_self_eq_true _⟩)
  case relay =>
    obtain ⟨c, hframe⟩ := setPinEpoch_frame (withModelIn s slot.val { m with relay := false, relayFail := false })
    refine ⟨_, exec_pinRelayDone_fits hm hrelay hfits hlost, ?_, rd64_setPinEpoch _, hframe.colls, hframe.mem⟩
    rw [hframe.store]
    exact Tbl.get_set_self _ _ _
  case relayFails =>
    have hframe : RegsWithin (· ∈ [pageBase .sched 0 + 0x28])
        (withModelIn s slot.val { m with relay := false, relayFail := true }) _ := .raiseEvt (b := pageBase .sched 0) (k := 18) (by simp)
    refine ⟨_, exec_pinRelayDone_fails hm hrelay hfails, hframe.store, ?_⟩
    rw [hframe.store]
    exact hframe.onlyRegs

end Sys2Proof.Machine

/-! PROOFS. Tenants and their reservations (R328, R382 to R384, R390, R405). -/
namespace Sys2Proof.Machine

/-! ## Fields and single words -/

theorem fld_ofNat {n : Nat} (hi lo : Nat) (h : n < 2 ^ 32) : fld (BitVec.ofNat 32 n) hi lo = n / 2 ^ lo % 2 ^ (hi + 1 - lo) := by
  rw [fld, bitsOf, BitVec.toNat_ofNat, Nat.mod_eq_of_lt h, Nat.shiftRight_eq_div_pow]

theorem fld_lt (w : Word) (hi lo : Nat) : fld w hi lo < 2 ^ (hi + 1 - lo) := Nat.mod_lt _ (Nat.two_pow_pos _)

/-- A number that a low field holds reads back from that field. -/
theorem fld_ofNat_of_lt {n hi : Nat} (hhi : hi < 32) (h : n < 2 ^ (hi + 1)) : fld (BitVec.ofNat 32 n) hi 0 = n := by
  rw [fld_ofNat hi 0 (h.trans_le (Nat.pow_le_pow_right (by decide) hhi)), Nat.sub_zero, Nat.pow_zero, Nat.div_one, Nat.mod_eq_of_lt h]

theorem rdf_wr_self (s : State) (a : Nat) (w : Word) (hi lo : Nat) : rdf (wr s a w) a hi lo = fld w hi lo := by rw [rdf, rd_wr_self]

theorem onlyRegs_wr (s : State) (a : Nat) (w : Word) : OnlyRegs s (wr s a w) [a] := (RegsWithin.wr w (List.mem_singleton.mpr rfl)).onlyRegs

/-! ## One tenant -/

theorem tenantState_eq (s : State) (n : Nat) : tenantState s n = (tenant s n).tstate := by
  unfold tenantState tenant
  cases Tbl.get s.store.tenants n <;> rfl

/-- What another record of one tenant, and changes of registers beside it, leave. -/
theorem updTenant_then_regs {P : Nat → Prop} {s t : State} {n : Nat} {f : Tenant → Tenant} (h : RegsWithin P (updTenant s n f) t) :
    tenant t n = f (tenant s n) ∧ (∀ k, k ≠ n → tenant t k = tenant s k) ∧ t.store = { s.store with tenants := t.store.tenants } ∧
    t = { s with regs := t.regs, store := t.store } := by
  have hstore := h.store
  refine ⟨?_, fun k hk => ?_, by rw [hstore]; rfl, by rw [h.eq]; rfl⟩
  · rw [tenant, hstore, updTenant_store, Tbl.get_set_self]
    rfl
  · rw [tenant, hstore, updTenant_store, Tbl.get_set_ne hk]
    rfl

section
variable (s : State) (n : Nat)

theorem tenantDone_regs (r : Nat) : RegsWithin (· ∈ [schedBank n 0x348, pageBase .sched 0 + 0x28]) s (tenantDone s n r) :=
  (RegsWithin.wrf (by simp)).trans (.raiseEvt (by simp))

/-- A tenant command leaves its RESULT. -/
theorem result_tenantDone {r : Nat} (hr : r < 2 ^ 8) : fld (rd (tenantDone s n r) (schedBank n 0x348)) 7 0 = r := by
  have hne : pageBase .sched 0 + 0x28 ≠ schedBank n 0x348 := by simp only [pageBase, schedBank]; omega
  rw [tenantDone, rd_raiseEvt_ne _ _ hne, fld_wrf_self _ _ _ _ _ (by decide), Nat.mod_eq_of_lt hr]

end

/-- A tenant as TENANT_ADMIT leaves it (R382, R399, R404). -/
def Tenant.admitted (x : Tenant) : Tenant := { x with tstate := 1, meters := List.replicate 9 0, c0Kept := true, capKept := true }

/-- The words that an accepted TENANT_ADMIT writes: both counts of breached steps, and RESULT. -/
def admitWords (s : State) (n : Nat) : State := tenantDone (wr (wr s (schedBank n 0x36C) 0) (Reg.tstatus.GUAR_BREACH_STEPS n) 0) n 0

theorem admitWords_regs (s : State) (n : Nat) : RegsWithin (fun _ => True) s (admitWords s n) :=
  ((RegsWithin.wr 0 trivial).trans (.wr 0 trivial)).trans ((tenantDone_regs _ _ _).mono fun _ _ => trivial)

section
variable {s : State} {n : Nat}

theorem tenantAdmit_free (hfree : tenantState s n = 0) (hrank : rankTaken s n (rankReg s n) = false) :
    tenantAdmit s n = admitWords (updTenant s n Tenant.admitted) n := by
  rw [tenantAdmit, if_neg (not_not_intro hfree), if_neg (by simp [hrank])]
  rfl

theorem tenantAdmit_taken (h : tenantState s n ≠ 0) : tenantAdmit s n = tenantDone s n 1 := if_pos h

theorem tenantRelease_idle (hadm : tenantState s n = 1) (hidle : tenantIdle s n = true) :
    tenantRelease s n = tenantDone (updTenant s n fun x => { x with tstate := 2 }) n 0 := by
  rw [tenantRelease, if_neg (not_not_intro hadm), if_neg (by simp [hidle])]

theorem tenantRelease_busy (hadm : tenantState s n = 1) (hidle : tenantIdle s n = false) : tenantRelease s n = tenantDone s n 3 := by
  rw [tenantRelease, if_neg (not_not_intro hadm), if_pos hidle]

end

/-! ## Class-0 reservations (R390) -/

section
variable {s : State} {n : Nat} {kind : C0Kind} {w : Word}

/-- A field of the tenant's bank is written where the tenant is known and the sum fits. -/
theorem c0ReservationWrite_bank (hkind : kind ≠ .seatsPerStep) : c0ReservationWrite s n kind w =
    if tenantState s n ≠ 0 ∧ sumWith s n (fld w (c0Field kind).2 0) kind ≤ fullHealth s kind then
      wr s (schedBank n (c0Field kind).1) (BitVec.ofNat 32 (fld w (c0Field kind).2 0)) else s := by
  cases kind
  case seatsPerStep => exact absurd rfl hkind
  all_goals rfl

theorem c0Field_width (kind : C0Kind) : (c0Field kind).2 < 32 := by cases kind <;> decide

end

theorem exec_seatsPerStep (s : State) (w : Word) : exec (.c0ReservationWrite .seatsPerStep w) s =
    .next (if 1 ≤ fld w 15 0 ∧ fld w 15 0 ≤ 4096 ∧ sumWith s 256 0 .seats ≤ fld w 15 0 then
      wr s Reg.sched.SEATS_PER_STEP (BitVec.ofNat 32 (fld w 15 0)) else s) := rfl

/-! ## The HBM that can be reserved (R328, R337) -/

theorem setHbmCapacity_regs (s : State) : RegsWithin (· ∈ [Reg.ft.HBM_RESERVABLE_MIB, Reg.ft.CACHE_MIB]) s (setHbmCapacity s) :=
  (RegsWithin.wr _ (by simp)).trans (.wr _ (by simp))

/-! ## The statement -/

/-- Settles O29: a command of a tenant leaves its RESULT beside at most one other record, and a reservation is one word where its rule allows it. -/
theorem tenants_and_their_reservations : Obligations.Tenants_and_their_reservations := by
  refine ⟨fun s => ⟨fun hfree hrank => ?accepted, fun htaken => ?taken, fun hadm hidle => ?release, fun hadm hidle => ?busy, rfl⟩,
    fun s rank kind w => ⟨fun hmay => ?rank, fun hadm hrank => ?rankTaken, fun hkind hknown hsum => ?field, fun hkind hsum => ?fieldFull,
      ⟨fun hrange => ?seats, fun hrange => ?seatsOut⟩, fun hknown huse hsum => ?flash, fun hrange => ?floorOut,
      fun hlo hhi hsum => ?floor, fun hknown huse hsum => ?hbm, fun huse => ?hbmUsed⟩⟩
  case accepted =>
    obtain ⟨hself, hother, hstore, hframe⟩ := updTenant_then_regs (admitWords_regs (updTenant s (tenantSel s) Tenant.admitted) (tenantSel s))
    refine ⟨_, congrArg Host.Outcome.next (tenantAdmit_free hfree hrank), (tenantState_eq _ _).trans (congrArg Tenant.tstate hself),
      congrArg Tenant.meters hself, result_tenantDone _ _ (by decide), hother, hstore, hframe⟩
  case taken =>
    exact ⟨_, congrArg Host.Outcome.next (tenantAdmit_taken htaken), (tenantDone_regs _ _ _).store, result_tenantDone _ _ (by decide)⟩
  case release => exact ⟨_, congrArg Host.Outcome.next (tenantRelease_idle hadm hidle), updTenant_then_regs (tenantDone_regs (updTenant s _ _) _ _)⟩
  case busy =>
    exact ⟨_, congrArg Host.Outcome.next (tenantRelease_busy hadm hidle), (tenantDone_regs _ _ _).store, result_tenantDone _ _ (by decide)⟩
  case rank =>
    exact ⟨_, congrArg Host.Outcome.next (if_neg hmay), (rdf_wr_self _ _ _ _ _).trans (fld_ofNat_of_lt (by decide) rank.isLt), onlyRegs_wr _ _ _⟩
  case rankTaken => exact congrArg Host.Outcome.next (if_pos ⟨hadm, hrank⟩)
  case field =>
    refine ⟨_, congrArg Host.Outcome.next ((c0ReservationWrite_bank hkind).trans (if_pos ⟨hknown, hsum⟩)), ?_, onlyRegs_wr _ _ _⟩
    exact (rdf_wr_self _ _ _ _ _).trans (fld_ofNat_of_lt (c0Field_width kind) (fld_lt w _ _))
  case fieldFull =>
    exact congrArg Host.Outcome.next ((c0ReservationWrite_bank hkind).trans (if_neg fun h => Nat.not_lt.mpr h.2 hsum))
  case seats =>
    exact ⟨_, (exec_seatsPerStep s w).trans (congrArg _ (if_pos hrange)),
      (rdf_wr_self _ _ _ _ _).trans (fld_ofNat_of_lt (by decide) (fld_lt w _ _)), onlyRegs_wr _ _ _⟩
  case seatsOut => exact (exec_seatsPerStep s w).trans (congrArg _ (if_neg (by omega)))
  case flash => exact ⟨_, congrArg Host.Outcome.next (if_pos ⟨hknown, huse, hsum⟩), rd_wr_self _ _ _, onlyRegs_wr _ _ _⟩
  case floorOut => exact congrArg Host.Outcome.next (if_neg (by omega))
  case floor =>
    have hcap := setHbmCapacity_regs (wr s Reg.ft.CACHE_FLOOR_MIB w)
    refine ⟨_, congrArg Host.Outcome.next (if_pos ⟨hlo, hhi, hsum⟩), (hcap.rd _ (by decide)).trans (rd_wr_self _ _ _), ?_⟩
    exact ((RegsWithin.wr w (by simp)).trans (hcap.mono fun a ha => List.mem_cons_of_mem _ ha)).onlyRegs
  case hbm => exact ⟨_, congrArg Host.Outcome.next (if_pos ⟨hknown, huse, hsum⟩), rd_wr_self _ _ _, onlyRegs_wr _ _ _⟩
  case hbmUsed => exact congrArg Host.Outcome.next (if_neg fun h => Nat.not_lt.mpr h.2.1 huse)

end Sys2Proof.Machine

/-! PROOFS. A stack that fails while a collection load is in hand (R152, R225, R336). -/
namespace Sys2Proof.Machine

/-- A collection whose epoch record reads in one copy alone, which lies in stack 0. -/
def oneRecordCopy : Coll := { (default : Coll) with versions := [{ (default : Version) with ok := (true, false), addrs := (0, 2 ^ 36) }] }

/-- Collection 9 is this one and also the target of the load in hand; STACK_FAIL's own error is masked in stack 0's page. -/
def loadingOverRecord : State :=
  wr { State.reset with store := { Store.reset with colls := [(9, oneRecordCopy)], load := some { (default : Load) with target := 9 } } }
    (pageBase .hbm 0 + 0x34) 8

/-- The numbers of the collections that a command leaves. -/
def collsLeft : Host.Outcome State Fault Refusal → List Nat
  | .next t => t.store.colls.map (·.1)
  | _ => []

/-- With the last copy of the record gone a C1 error is raised, and that aborts the load: what stands at its target is dropped. -/
theorem collsLeft_stackFail : collsLeft (exec (.stackFail 0 []) loadingOverRecord) = [] := by decide +kernel

/-- Refutes O30, by its clause that a stack failure leaves every collection with `collHit`. Where the failed stack held the last copy of an epoch record
that read, both copies have failed: a C1 error (R225), which aborts the load in hand and drops the collection at its target (R152). The clause does not
exclude that state; here collection 9 is gone. -/
theorem not_hbm_stacks_train_and_fail : ¬ Obligations.Hbm_stacks_train_and_fail := by
  intro h
  obtain ⟨-, -, hfail, -⟩ := h loadingOverRecord 0 rfl rfl
  obtain ⟨t, hexec, -, -, -, hcolls, -⟩ := hfail (by decide +kernel) (by decide +kernel)
  have hleft : t.store.colls.map (·.1) = [] := (congrArg collsLeft hexec).symm.trans collsLeft_stackFail
  have hgone : t.store.colls = [] := List.map_eq_nil_iff.mp hleft
  have hheld : Tbl.get loadingOverRecord.store.colls 9 = some oneRecordCopy := rfl
  have hnine := hcolls 9
  rw [hgone, hheld] at hnine
  cases hnine

end Sys2Proof.Machine

/-! PROOFS. Reads of HBM that meet an error, pseudo-channels that retire, rewritten copies, and write-backs (R313 to R315, R325, R331, R335). -/
namespace Sys2Proof.Machine

/-! ## Tables and lists by position -/

theorem getD_updAt_ne {α : Type} {l : List α} {n j : Nat} (f : α → α) (d : α) (h : j ≠ n) : (updAt l n f).getD j d = l.getD j d := by
  rw [List.getD_eq_getElem?_getD, List.getD_eq_getElem?_getD, updAt_getElem?, if_neg h.symm]

theorem updAt_updAt {α : Type} (l : List α) (n : Nat) (f g : α → α) : updAt (updAt l n f) n g = updAt l n (g ∘ f) := by
  refine List.ext_getElem? fun i => ?_
  rw [updAt_getElem?, updAt_getElem?, updAt_getElem?]
  split
  · rw [Option.map_map]
  · rfl

/-- What the change of one place leaves as it is stays at every place. -/
theorem map_updAt {α β : Type} {g : α → β} {f : α → α} (h : ∀ x, g (f x) = g x) (l : List α) (n : Nat) : (updAt l n f).map g = l.map g := by
  refine List.ext_getElem? fun i => ?_
  rw [List.getElem?_map, List.getElem?_map, updAt_getElem?]
  split
  · rw [Option.map_map, show g ∘ f = g from funext h]
  · rfl

theorem Tbl.get_map {α β : Type} (t : Tbl α) (f : α → β) (k : Nat) : Tbl.get (t.map fun p => (p.1, f p.2)) k = (Tbl.get t k).map f := by
  induction t with
  | nil => rfl
  | cons p t ih => by_cases h : p.1 = k <;> simp [Tbl.get, h, ih]

/-! ## A stack -/

theorem stack_updStack {s : State} {k : Nat} (f : Stack → Stack) (h : k < s.mem.stackSt.length) :
    (updStack s k f).mem.stackSt.getD k Stack.reset = f (s.mem.stackSt.getD k Stack.reset) := getD_updAt f Stack.reset h

theorem updStack_updStack (s : State) (k : Nat) (f g : Stack → Stack) : updStack (updStack s k f) k g = updStack s k (g ∘ f) := by
  unfold updStack
  rw [updAt_updAt]

/-- A change of registers alone, beside another record of a stack. -/
theorem RegsWithin.updStack {P : Nat → Prop} {s t : State} (h : RegsWithin P s t) (k : Nat) (f : Stack → Stack) :
    RegsWithin P (Machine.updStack s k f) (Machine.updStack t k f) :=
  ⟨by rw [Machine.updStack, h.eq]; rfl, h.rd⟩

/-- What another record of one stack, and changes of registers beside it, leave. -/
theorem updStack_then_regs {P : Nat → Prop} {s t : State} {k : Nat} {f : Stack → Stack} (h : RegsWithin P (updStack s k f) t)
    (hk : k < s.mem.stackSt.length) :
    t.mem.stackSt.getD k Stack.reset = f (s.mem.stackSt.getD k Stack.reset) ∧
    t = { s with regs := t.regs, mem := { s.mem with stackSt := t.mem.stackSt } } := by
  refine ⟨by rw [h.mem, stack_updStack f hk], ?_⟩
  rw [h.eq]
  rfl

/-- Where the registers of a stack lie in its page. -/
theorem hbm_offsets (k : Nat) : stackStatusReg k = pageBase .hbm k + 0x18 ∧ Reg.hbm.PC_RETIRED_MASK k = pageBase .hbm k + 0x40 ∧
    Reg.hbm.UE_RETIRE k = pageBase .hbm k + 0x48 ∧ Reg.hbm.CE_COUNT k = pageBase .hbm k + 0x4C ∧ Reg.hbm.UE_COUNT k = pageBase .hbm k + 0x50 := by
  simp only [stackStatusReg, pageBase, Reg.hbm.PC_RETIRED_MASK, Reg.hbm.UE_RETIRE, Reg.hbm.CE_COUNT, Reg.hbm.UE_COUNT,
    true_and]
  omega

/-! ## Masked errors of an HBM page (R18, R315) -/

section
variable {s : State} {k bit : Nat}

theorem raiseErr_masked_regs {p : PageKind} {n : Nat} (hmask : testBit (rd s (pageBase p n + 0x34)) bit = true) (hc : errClass p bit ≠ .c0) :
    RegsWithin (· ∈ [pageBase p n + 0x30, pageBase p n + 0x3C]) s (raiseErr s p n bit) := by
  rw [raiseErr_masked s p n bit hmask hc]
  exact (RegsWithin.wr _ (by simp)).trans (.count (by simp))

theorem errClass_hbm_ne_c0 (bit : Nat) : errClass .hbm bit ≠ .c0 := by
  unfold errClass
  dsimp only
  split <;> nofun

theorem errBit_raiseErr_hbm (hk : k < 8) (hbit : bit < 32) : testBit (rd (raiseErr s .hbm k bit) (pageBase .hbm k + 0x30)) bit = true := by
  rw [(raiseErr_page (by simp only [pageBase]; omega) (by simp only [pageBase]; omega) (errClass_hbm_ne_c0 bit)).1, testBit_setBit]
  simp [hbit]

/-- An error of the page that a counter `c` of the page counts too. -/
theorem count_then_raiseErr_hbm {c : Nat} (hc : pageBase .hbm k + 0x3C < c) (hmask : testBit (rd s (pageBase .hbm k + 0x34)) bit = true) :
    RegsWithin (· ∈ [c, pageBase .hbm k + 0x30, pageBase .hbm k + 0x3C]) s (raiseErr (count s c) .hbm k bit) ∧
    rd (raiseErr (count s c) .hbm k bit) c = counted c (rd s c) := by
  have hmask' : testBit (rd (count s c) (pageBase .hbm k + 0x34)) bit = true := by
    rw [rd_count, if_neg (by omega)]
    exact hmask
  have herr := raiseErr_masked_regs hmask' (errClass_hbm_ne_c0 bit)
  refine ⟨(RegsWithin.count (by simp)).trans (herr.mono fun a ha => List.mem_cons_of_mem _ ha), ?_⟩
  rw [herr.rd c (by simp; omega), rd_count, if_pos rfl]

end

/-! ## The pseudo-channel that serves a block (R313, R335) -/

theorem servingPc_lt (s : State) (k off : Nat) : servingPc s k off < 64 := by
  have hown : off / 4096 % 64 < 64 := Nat.mod_lt _ (by decide)
  unfold servingPc
  extract_lets pc out live
  split
  · cases hx : live[(off / 2 ^ 18 * out.length + out.idxOf pc) % live.length]? with
    | none => exact hown
    | some i => exact List.mem_range.mp (List.mem_of_mem_filter (List.mem_of_getElem? hx))
  · exact hown

/-! ## Retirement (R335) -/

/-- A bit that a word of `n` bits does not have can be added to it. -/
theorem add_two_pow_bit {v i n : Nat} (hv : v < 2 ^ n) (hi : i < n) (hclear : v / 2 ^ i % 2 ≠ 1) :
    v + 2 ^ i < 2 ^ n ∧ (v + 2 ^ i) / 2 ^ i % 2 = 1 := by
  have hpos : 0 < 2 ^ i := Nat.two_pow_pos i
  have hdiv : (v + 2 ^ i) / 2 ^ i = v / 2 ^ i + 1 := Nat.add_div_right v hpos
  refine ⟨?_, by omega⟩
  obtain ⟨m, rfl⟩ : ∃ m, n = m + 1 + i := ⟨n - 1 - i, by omega⟩
  have hsplit : 2 ^ (m + 1 + i) = 2 * 2 ^ m * 2 ^ i := by rw [Nat.pow_add, Nat.pow_succ']
  rw [hsplit] at hv ⊢
  have hhigh := Nat.div_lt_of_lt_mul (Nat.mul_comm _ (2 ^ i) ▸ hv)
  rw [← Nat.div_lt_iff_lt_mul hpos, hdiv]
  omega

section
variable (s : State) (k pc : Nat)

/-- The two registers that retirement writes first: the mask takes the pseudo-channel, and the stack is DEGRADED with one active less. -/
def retireWords : State :=
  wr (wr64 s (Reg.hbm.PC_RETIRED_MASK k) (rd64 s (Reg.hbm.PC_RETIRED_MASK k) + 2 ^ pc)) (stackStatusReg k)
    (BitVec.ofNat 32 (4 * (rdf s (stackStatusReg k) 8 2 - 1) + 1))

/-- The pseudo-channel waits for its mapping. -/
def Stack.retire (pc : Nat) (x : Stack) : Stack := { x with remapping := x.remapping ++ [pc] }

/-- What retirement writes after them: the stack's event, the bursts of its near-bank unit, and what HBM can hold. -/
def retireRegs : List Nat := [pageBase .hbm k + 0x28, Reg.nb.BURSTS_PER_WIN k, Reg.ft.HBM_RESERVABLE_MIB, Reg.ft.CACHE_MIB]

/-- Of the stack's page that is the event's word alone. -/
theorem not_mem_retireRegs {k a : Nat} (hlo : pageBase .hbm k ≤ a) (hhi : a < pageBase .hbm k + 0x1000) (hne : a ≠ pageBase .hbm k + 0x28) :
    a ∉ retireRegs k := by
  simp only [pageBase] at hlo hhi hne
  simp only [retireRegs, pageBase, Reg.nb.BURSTS_PER_WIN, Reg.ft.HBM_RESERVABLE_MIB, Reg.ft.CACHE_MIB, List.mem_cons, List.not_mem_nil,
    or_false]
  omega

theorem retirePc_regs : RegsWithin (· ∈ retireRegs k) (updStack (retireWords s k pc) k (Stack.retire pc)) (retirePc s k pc) := by
  have hcap (t : State) : RegsWithin (· ∈ retireRegs k) t (setHbmCapacity t) :=
    (setHbmCapacity_regs t).mono fun a ha => List.mem_cons_of_mem _ (List.mem_cons_of_mem _ ha)
  have hevent (t : State) : RegsWithin (· ∈ retireRegs k) t (raiseEvt t (pageBase .hbm k) 0) := .raiseEvt List.mem_cons_self
  refine .trans (.trans (hevent _) ?_) (hcap _)
  split
  · exact .wr _ (by simp [retireRegs])
  · exact .refl _ _

end

section
variable {s : State} {k pc : Nat}

theorem rd_retirePc {a : Nat} (hlo : pageBase .hbm k ≤ a) (hhi : a < pageBase .hbm k + 0x1000) (hne : a ≠ pageBase .hbm k + 0x28) :
    rd (retirePc s k pc) a = rd (retireWords s k pc) a := (retirePc_regs s k pc).rd a (not_mem_retireRegs hlo hhi hne)

/-- A stack that loses a pseudo-channel is DEGRADED with one active less. -/
theorem status_retirePc : stackState (retirePc s k pc) k = 1 ∧
    rdf (retirePc s k pc) (stackStatusReg k) 8 2 = rdf s (stackStatusReg k) 8 2 - 1 := by
  obtain ⟨hstatus, -⟩ := hbm_offsets k
  have hword : rd (retirePc s k pc) (stackStatusReg k) = BitVec.ofNat 32 (4 * (rdf s (stackStatusReg k) 8 2 - 1) + 1) :=
    (rd_retirePc (by omega) (by omega) (by omega)).trans (rd_wr_self _ _ _)
  have hn : rdf s (stackStatusReg k) 8 2 < 2 ^ 7 := fld_lt _ 8 2
  rw [stackState]
  generalize rdf s (stackStatusReg k) 8 2 = n at hword hn ⊢
  rw [rdf, rdf, hword, fld_ofNat _ _ (by omega), fld_ofNat _ _ (by omega)]
  omega

theorem pcRetired_retirePc (hpc : pc < 64) (hlive : pcRetired s k pc = false) : pcRetired (retirePc s k pc) k pc = true := by
  have hclear : rd64 s (Reg.hbm.PC_RETIRED_MASK k) / 2 ^ pc % 2 ≠ 1 := by simpa [pcRetired] using hlive
  obtain ⟨hlt, hbit⟩ := add_two_pow_bit (rd64_lt s (Reg.hbm.PC_RETIRED_MASK k)) hpc hclear
  obtain ⟨hstatus, hmask, -⟩ := hbm_offsets k
  have hwords : rd64 (retireWords s k pc) (Reg.hbm.PC_RETIRED_MASK k) = rd64 s (Reg.hbm.PC_RETIRED_MASK k) + 2 ^ pc :=
    (rd64_congr (rd_wr_ne _ _ (by omega)) (rd_wr_ne _ _ (by omega))).trans (rd64_wr64 _ _ _ hlt)
  have hread : rd64 (retirePc s k pc) (Reg.hbm.PC_RETIRED_MASK k) = rd64 s (Reg.hbm.PC_RETIRED_MASK k) + 2 ^ pc :=
    (rd64_congr (rd_retirePc (by omega) (by omega) (by omega)) (rd_retirePc (by omega) (by omega) (by omega))).trans hwords
  rw [pcRetired, hread, hbit]
  rfl

end

/-! ## An uncorrectable read (R315, R335) -/

section
variable (s : State) (k pc : Nat)

/-- The uncorrectable reads of a pseudo-channel, this one included. -/
def ueReads : Nat := (Tbl.get (s.mem.stackSt.getD k Stack.reset).ue pc).getD 0 + 1

def Stack.noteUe (pc n : Nat) (x : Stack) : Stack := { x with ue := Tbl.set x.ue pc n }

/-- The read in UE_COUNT, with its error and the pseudo-channel's own count. -/
def ueCounted : State := updStack (raiseErr (count s (Reg.hbm.UE_COUNT k)) .hbm k 1) k (Stack.noteUe pc (ueReads s k pc))

theorem uncorrectableRead_eq : uncorrectableRead s k pc =
    if max 1 (rdf s (Reg.hbm.UE_RETIRE k) 7 0) ≤ ueReads s k pc ∧ pcRetired s k pc = false then retirePc (ueCounted s k pc) k pc
    else ueCounted s k pc := rfl

theorem retireWords_regs :
    RegsWithin (· ∈ [Reg.hbm.PC_RETIRED_MASK k, Reg.hbm.PC_RETIRED_MASK k + 4, stackStatusReg k]) s (retireWords s k pc) :=
  (RegsWithin.wr64 (by simp) (by simp)).trans (.wr _ (by simp))

/-- A page's words but those of the mask, the status and the event outlive a retirement. -/
theorem rd_retirePc_ne {a : Nat} (hlo : pageBase .hbm k ≤ a) (hhi : a < pageBase .hbm k + 0x1000) (hne : a ≠ pageBase .hbm k + 0x28)
    (hwords : a ∉ [Reg.hbm.PC_RETIRED_MASK k, Reg.hbm.PC_RETIRED_MASK k + 4, stackStatusReg k]) : rd (retirePc s k pc) a = rd s a :=
  (rd_retirePc hlo hhi hne).trans ((retireWords_regs s k pc).rd a hwords)

end

section
variable {s : State} {k pc : Nat} (hmask : testBit (rd s (pageBase .hbm k + 0x34)) 1 = true)
include hmask

theorem ueCounted_regs : RegsWithin (· ∈ [Reg.hbm.UE_COUNT k, pageBase .hbm k + 0x30, pageBase .hbm k + 0x3C])
    (updStack s k (Stack.noteUe pc (ueReads s k pc))) (ueCounted s k pc) := by
  obtain ⟨-, -, -, -, hue⟩ := hbm_offsets k
  exact (count_then_raiseErr_hbm (by omega) hmask).1.updStack k _

/-- The read and the retirement that it leads to change registers and the record of one stack. -/
theorem ueRetired_regs : RegsWithin (fun _ => True) (updStack s k (Stack.retire pc ∘ Stack.noteUe pc (ueReads s k pc)))
    (retirePc (ueCounted s k pc) k pc) := by
  have hcounted := ((ueCounted_regs (pc := pc) hmask).updStack k (Stack.retire pc)).mono (Q := fun _ => True) fun _ _ => trivial
  rw [updStack_updStack] at hcounted
  exact (hcounted.trans (((retireWords_regs _ k pc).updStack k _).mono fun _ _ => trivial)).trans ((retirePc_regs _ k pc).mono fun _ _ => trivial)

theorem rd_ueCounted (hk : k < 8) : rd (ueCounted s k pc) (Reg.hbm.UE_COUNT k) = counted (Reg.hbm.UE_COUNT k) (rd s (Reg.hbm.UE_COUNT k)) ∧
    testBit (rd (ueCounted s k pc) (pageBase .hbm k + 0x30)) 1 = true := by
  obtain ⟨-, -, -, -, hue⟩ := hbm_offsets k
  exact ⟨(count_then_raiseErr_hbm (by omega) hmask).2, errBit_raiseErr_hbm hk (by decide)⟩

/-- Whether or not the pseudo-channel is retired, the read is counted, and only registers and stacks change. -/
theorem uncorrectableRead_counts (hk : k < 8) (hlen : k < s.mem.stackSt.length) :
    Tbl.get ((uncorrectableRead s k pc).mem.stackSt.getD k Stack.reset).ue pc = some (ueReads s k pc) ∧
    rd (uncorrectableRead s k pc) (Reg.hbm.UE_COUNT k) = counted (Reg.hbm.UE_COUNT k) (rd s (Reg.hbm.UE_COUNT k)) ∧
    testBit (rd (uncorrectableRead s k pc) (pageBase .hbm k + 0x30)) 1 = true ∧
    uncorrectableRead s k pc = { s with
      regs := (uncorrectableRead s k pc).regs, mem := { s.mem with stackSt := (uncorrectableRead s k pc).mem.stackSt } } := by
  obtain ⟨hcount, hbit⟩ := rd_ueCounted (pc := pc) hmask hk
  obtain ⟨hst, hpm, -, -, hue⟩ := hbm_offsets k
  rw [uncorrectableRead_eq]
  split
  · obtain ⟨hstack, hframe⟩ := updStack_then_regs (ueRetired_regs (pc := pc) hmask) hlen
    refine ⟨by rw [hstack]; exact Tbl.get_set_self _ _ _, ?_, ?_, hframe⟩
    · rw [rd_retirePc_ne _ _ _ (by omega) (by omega) (by omega) (by simp; omega), hcount]
    · rw [rd_retirePc_ne _ _ _ (by omega) (by omega) (by omega) (by simp; omega), hbit]
  · obtain ⟨hstack, hframe⟩ := updStack_then_regs (ueCounted_regs (pc := pc) hmask) hlen
    exact ⟨by rw [hstack]; exact Tbl.get_set_self _ _ _, hcount, hbit, hframe⟩

/-- Short of UE_RETIRE no pseudo-channel is retired. -/
theorem uncorrectableRead_below (h : ueReads s k pc < rdf s (Reg.hbm.UE_RETIRE k) 7 0) :
    (uncorrectableRead s k pc).mem.stackSt.map (·.remapping) = s.mem.stackSt.map (·.remapping) ∧
    ∀ a, a ∉ [Reg.hbm.UE_COUNT k, pageBase .hbm k + 0x30, pageBase .hbm k + 0x3C] → rd (uncorrectableRead s k pc) a = rd s a := by
  have hregs := ueCounted_regs (pc := pc) hmask
  rw [uncorrectableRead_eq, if_neg (by omega)]
  refine ⟨?_, hregs.rd⟩
  rw [hregs.mem]
  exact map_updAt (f := Stack.noteUe pc (ueReads s k pc)) (fun _ => rfl) _ _

/-- The read that reaches it retires the pseudo-channel. -/
theorem uncorrectableRead_reaches (hlen : k < s.mem.stackSt.length) (hpc : pc < 64)
    (h : max 1 (rdf s (Reg.hbm.UE_RETIRE k) 7 0) ≤ ueReads s k pc) (hlive : pcRetired s k pc = false) :
    let t := uncorrectableRead s k pc
    pcRetired t k pc = true ∧ stackState t k = 1 ∧ rdf t (stackStatusReg k) 8 2 = rdf s (stackStatusReg k) 8 2 - 1 ∧
      (t.mem.stackSt.getD k Stack.reset).remapping = (s.mem.stackSt.getD k Stack.reset).remapping ++ [pc] := by
  have hregs := ueCounted_regs (pc := pc) hmask
  obtain ⟨hst, hpm, -, -, hue⟩ := hbm_offsets k
  have hkept {a : Nat} (ha : a = stackStatusReg k ∨ a = Reg.hbm.PC_RETIRED_MASK k ∨ a = Reg.hbm.PC_RETIRED_MASK k + 4) :
      rd (ueCounted s k pc) a = rd s a := (hregs.rd a (by simp; omega)).trans (updStack_rd _ _ _ _)
  have hlive' : pcRetired (ueCounted s k pc) k pc = false := by
    rw [pcRetired, rd64_congr (hkept (.inr (.inl rfl))) (hkept (.inr (.inr rfl)))]
    exact hlive
  obtain ⟨hstack, -⟩ := updStack_then_regs (ueRetired_regs (pc := pc) hmask) hlen
  obtain ⟨hdegraded, hactive⟩ := status_retirePc (s := ueCounted s k pc) (k := k) (pc := pc)
  intro t
  have ht : t = retirePc (ueCounted s k pc) k pc := (uncorrectableRead_eq s k pc).trans (if_pos ⟨h, hlive⟩)
  rw [ht]
  refine ⟨pcRetired_retirePc hpc hlive', hdegraded, ?_, by rw [hstack]; rfl⟩
  rw [hactive, rdf, hkept (.inl rfl)]
  rfl

end

/-! ## HBM_READ_COMPLETE -/

section
variable {s : State} {a : Nat} (what : HbmStruct) (other : Bool)

theorem exec_hbmReadComplete (o : HbmOutcome) (h : inHbm a 1 = true) :
    exec (.hbmReadComplete a o what other) s = .next (readComplete s a o what other) := if_pos h

theorem exec_hbmReadComplete_outside (o : HbmOutcome) (h : inHbm a 1 = false) :
    exec (.hbmReadComplete a o what other) s = .fault (.hbmAddress a) := if_neg (by simp [h])

/-- A stack that is FAILED or UNTRAINED serves no read. -/
theorem readComplete_dead (o : HbmOutcome) (h : 2 ≤ stackState s (a / 2 ^ 36)) : readComplete s a o what other = s := if_pos h

variable (h : stackState s (a / 2 ^ 36) ≤ 1)
include h

theorem readComplete_corrected : readComplete s a .corrected what other =
    raiseErr (count s (Reg.hbm.CE_COUNT (a / 2 ^ 36))) .hbm (a / 2 ^ 36) 0 := if_neg (by omega)

theorem readComplete_caParity : readComplete s a .caParity what other = raiseErr s .hbm (a / 2 ^ 36) 2 := if_neg (by omega)

theorem readComplete_bulk : readComplete s a .uncorrectable .other other =
    uncorrectableRead s (a / 2 ^ 36) (servingPc s (a / 2 ^ 36) (a % 2 ^ 36)) := if_neg (by omega)

end

theorem readComplete_clean (s : State) (a : Nat) (what : HbmStruct) (other : Bool) : readComplete s a .clean what other = s := by
  unfold readComplete
  exact ite_self _

theorem stack_lt_of_inHbm {a : Nat} (h : inHbm a 1 = true) : a / 2 ^ 36 < 8 := by
  have hle : a + 1 ≤ 2 ^ 39 := of_decide_eq_true h
  omega

/-! ## Moved blocks (R335, R338) -/

/-- The state with every address of the collections' blocks through `g`. -/
def movedBy (s : State) (g : Nat → Nat) : State :=
  { s with store := { s.store with colls := s.store.colls.map fun p => (p.1, p.2.mapAddrs g) } }

/-- Only addresses of collections' blocks change, and none where nothing is to be moved. -/
theorem moveBlocks_eq (s : State) (groups : Nat → List (List Nat)) (out : Heap) :
    ∃ g : Nat → Nat, (out = [] → ∀ a, g a = a) ∧ moveBlocks s groups out = movedBy s g := by
  refine ⟨_, ?_, rfl⟩
  rintro rfl a
  rfl

/-- A pseudo-channel's mapping is in force: it waits no more. -/
def Stack.mapped (pc : Nat) (x : Stack) : Stack := { x with remapping := x.remapping.filter (· ≠ pc) }

/-- What lies in the stack's usable part stays where it is. -/
theorem pcRemapDone_eq (s : State) (k pc : Nat) : ∃ g : Nat → Nat,
    ((∀ x ∈ heapOf s, x.1 / 2 ^ 36 = k → x.1 + x.2 ≤ stackEnd s k) → ∀ a, g a = a) ∧
    pcRemapDone s k pc = movedBy (updStack s k (Stack.mapped pc)) g := by
  obtain ⟨g, hstay, hmoved⟩ := moveBlocks_eq (updStack s k (Stack.mapped pc)) (fun k => [[k], [twinStack k]])
    ((heapOf s).filter fun x => x.1 / 2 ^ 36 == k && stackEnd s k < x.1 + x.2)
  refine ⟨g, fun hfit => hstay (List.filter_eq_nil_iff.mpr fun x hx => ?_), hmoved⟩
  simpa using hfit x hx

theorem not_mem_mapped (pc : Nat) (x : Stack) : pc ∉ (x.mapped pc).remapping := fun h => of_decide_eq_true (List.mem_filter.mp h).2 rfl

/-! ## MIRROR_COPY_REWRITTEN (R331, R223, R225) -/

/-- A collection whose mirrored structures have two copies again and whose segments are restored. -/
def Coll.rewritten (c : Coll) : Coll :=
  { c with
    versions := c.versions.map fun v => { v with ok := (true, true), nodes := v.nodes.map fun n => { n with ok := bothOk n.ok } }
    tps := c.tps.map fun t => { t with nodes := t.nodes.map fun n => { n with ok := bothOk n.ok } }
    badSegs := [] }

/-- The state with two copies of every mirrored structure again, but for MIRROR_SINGLE. -/
def withCopies (s : State) : State :=
  { s with
    store := { s.store with
      colls := s.store.colls.map fun p => (p.1, p.2.rewritten)
      chans := s.store.chans.map fun p => (p.1, { p.2 with ok := bothOk p.2.ok }) }
    mem := { s.mem with flash := { s.mem.flash with plots := s.mem.flash.plots.map fun p => (p.1, { p.2 with ok := bothOk p.2.ok }) } } }

/-- Of these ranges those in FAILED stacks. -/
def inFailedStacks (s : State) (h : Heap) : Heap := h.filter fun x => stackState s (x.1 / 2 ^ 36) == 2

/-- Copies and segments are given new places, and then they read. -/
theorem copyRewritten_eq (s : State) :
    ∃ g h, copyRewritten s = wrf (withCopies (movedBy (movedBy s g) h)) Reg.ft.MIRROR_SINGLE 0 0 0 := by
  obtain ⟨g, -, hg⟩ := moveBlocks_eq s (fun k => [[twinStack k], [k ^^^ 1, k ^^^ 3]]) (inFailedStacks s (s.store.colls.flatMap fun p => pairsOf p.2))
  obtain ⟨h, -, hh⟩ := moveBlocks_eq (movedBy s g) (fun _ => oddStacks)
    (inFailedStacks s (s.store.colls.flatMap fun p => p.2.segs.map fun x => (x.addr, 65536)))
  refine ⟨g, h, ?_⟩
  rw [← hh, ← hg]
  unfold copyRewritten withCopies updFlash
  rfl

theorem get_colls_withCopies {s : State} {n : Nat} {c : Coll} (g h : Nat → Nat) (hc : Tbl.get s.store.colls n = some c) :
    Tbl.get (withCopies (movedBy (movedBy s g) h)).store.colls n = some ((c.mapAddrs g).mapAddrs h).rewritten := by
  simp only [withCopies, movedBy, Tbl.get_map, hc, Option.map_some]

/-- A collection loses no slot and no key by it, and every version and node has the copies that the rule restores. -/
theorem rewritten_mapAddrs (c : Coll) (g h : Nat → Nat) :
    let d := ((c.mapAddrs g).mapAddrs h).rewritten
    d.slots = c.slots ∧ d.keymap = c.keymap ∧ d.badSegs = [] ∧ d.versions.map (·.ok) = c.versions.map (fun _ => (true, true)) ∧
    d.versions.map (·.nodes.map (·.ok)) = c.versions.map (·.nodes.map (fun x => bothOk x.ok)) := by
  refine ⟨rfl, rfl, rfl, ?_, ?_⟩ <;> simp [Coll.rewritten, Coll.mapAddrs, Function.comp_def]

/-! ## WRITEBACK_DUE (R325) -/

section
variable {s : State} {range page : Nat}

/-- The rows whose last dirty page this is, with their values. -/
def writebackRows (s : State) (range page : Nat) : List (Nat × Row) :=
  match rangeTable s range with
  | some (_, t) => t.rows.filterMap fun p =>
      if (rowPages t p.1).contains page && (rowPages t p.1).all fun x => x == page || !pageDirty s range x then some (p.1, p.2.cur) else none
  | none => []

/-- The buckets being written back, once the write-back of a page starts. -/
def writebackBuckets (s : State) (range page : Nat) : Tbl (List KeyEntry) :=
  match pageBucket s range page with
  | some (_, es) => Tbl.set s.mem.flash.mapWb (dirtyKey range page) es
  | none => s.mem.flash.mapWb

theorem mem_writebackRows {r : Nat × Row} (h : r ∈ writebackRows s range page) :
    ∃ n x v, rangeTable s range = some (n, x) ∧ (r.1, v) ∈ x.rows ∧ r.2 = v.cur ∧ page ∈ rowPages x r.1 := by
  unfold writebackRows at h
  split at h
  · next n x hx =>
    obtain ⟨p, hp, hr⟩ := List.mem_filterMap.mp h
    split at hr
    · next hlast =>
      obtain rfl := Option.some.inj hr
      exact ⟨n, x, p.2, hx, hp, rfl, by simpa using (Bool.and_eq_true_iff.mp hlast).1⟩
    · cases hr
  · cases h

theorem writebackBuckets_bucket {b : Nat} {es : List KeyEntry} (h : pageBucket s range page = some (b, es)) :
    Tbl.get (writebackBuckets s range page) (dirtyKey range page) = some es := by
  rw [writebackBuckets, h]
  exact Tbl.get_set_self _ _ _

theorem writebackDue_clean (h : pageDirty s range page = false) : writebackDue s range page = s := by
  obtain ⟨hdirty, -⟩ := Bool.or_eq_false_iff.mp h
  unfold writebackDue
  dsimp only
  rw [Option.isNone_iff_eq_none.mp (Option.isSome_eq_false_iff.mp hdirty)]

theorem writebackDue_dirty (hdirty : (Tbl.get s.mem.flash.dirty (dirtyKey range page)).isSome = true)
    (hidle : Tbl.get s.mem.flash.wb (dirtyKey range page) = none) (hruns : flashRunning s = true) :
    writebackDue s range page = updFlash s fun f => { f with
      dirty := Tbl.del f.dirty (dirtyKey range page), wb := Tbl.set f.wb (dirtyKey range page) (writebackRows s range page)
      mapWb := writebackBuckets s range page } := by
  obtain ⟨v, hv⟩ := Option.isSome_iff_exists.mp hdirty
  unfold writebackDue
  dsimp only
  rw [hv, hidle]
  exact if_neg (by simp [hruns])

end

/-! ## The statement -/

/-- Settles O31: reads by what each outcome leaves (`uncorrectableRead_counts` and its branches), the mapping by `pcRemapDone_eq`, the copies by
`withCopies`, and the write-back by the rows and buckets that it takes. -/
theorem hbm_reads_retire_and_copies_return : Obligations.Hbm_reads_retire_and_copies_return := by
  refine ⟨fun s a other what hlen => ⟨fun hout o => exec_hbmReadComplete_outside what other o hout, fun hin => ?reads, fun st c => ?remap⟩,
    fun s => ⟨?copies, fun range page hclean => congrArg Host.Outcome.next (writebackDue_clean hclean), fun range page hdirty hidle hruns => ?due⟩⟩
  case reads =>
    have hk := stack_lt_of_inHbm hin
    obtain ⟨-, -, -, hce, -⟩ := hbm_offsets (a / 2 ^ 36)
    have hexec (o : HbmOutcome) (w : HbmStruct) := exec_hbmReadComplete (s := s) w other o hin
    refine ⟨(hexec _ _).trans (congrArg _ (readComplete_clean _ _ _ _)), fun hdead o => (hexec _ _).trans (congrArg _ (readComplete_dead _ _ _ hdead)),
      fun hlive hmask => ?corrected, fun hlive hmask => ?parity, fun hlive hmask => ?uncorrectable⟩
    case corrected =>
      obtain ⟨hregs, hcount⟩ := count_then_raiseErr_hbm (c := Reg.hbm.CE_COUNT (a / 2 ^ 36)) (by omega) hmask
      exact ⟨_, (hexec _ _).trans (congrArg _ (readComplete_corrected _ _ hlive)), hcount, errBit_raiseErr_hbm hk (by decide), hregs.onlyRegs⟩
    case parity =>
      exact ⟨_, (hexec _ _).trans (congrArg _ (readComplete_caParity _ _ hlive)), errBit_raiseErr_hbm hk (by decide),
        (raiseErr_masked_regs hmask (errClass_hbm_ne_c0 2)).onlyRegs⟩
    case uncorrectable =>
      have hstack : a / 2 ^ 36 < s.mem.stackSt.length := by omega
      obtain ⟨hue, hcount, hbit, hframe⟩ := uncorrectableRead_counts (pc := servingPc s (a / 2 ^ 36) (a % 2 ^ 36)) hmask hk hstack
      exact ⟨_, (hexec _ _).trans (congrArg _ (readComplete_bulk _ hlive)), hue, hcount, hbit, uncorrectableRead_below hmask,
        uncorrectableRead_reaches hmask hstack (servingPc_lt _ _ _), hframe⟩
  case remap =>
    obtain ⟨g, hstay, hmoved⟩ := pcRemapDone_eq s st.val c.val
    refine ⟨_, g, congrArg Host.Outcome.next hmoved, ?_, fun j hj => getD_updAt_ne _ _ hj, hstay, rfl⟩
    show c.val ∉ ((updStack s st.val (Stack.mapped c.val)).mem.stackSt.getD st.val Stack.reset).remapping
    rw [stack_updStack _ (by omega)]
    exact not_mem_mapped _ _
  case copies =>
    obtain ⟨g, h, hcopies⟩ := copyRewritten_eq s
    refine ⟨_, congrArg Host.Outcome.next hcopies, fld_wrf_self _ _ _ _ _ (by decide), fun a ha => rd_wr_ne _ _ ha.symm,
      fun c e hc => ?_, fun k q hq => ?_, fun n c hc => ⟨_, get_colls_withCopies g h hc, rewritten_mapAddrs c g h⟩, rfl, rfl, rfl, rfl⟩
    · exact (Tbl.get_map _ (fun x : Chan => { x with ok := bothOk x.ok }) c).trans (congrArg _ hc)
    · exact (Tbl.get_map _ (fun x : Plot => { x with ok := bothOk x.ok }) k).trans (congrArg _ hq)
  case due =>
    exact ⟨_, _, congrArg Host.Outcome.next (writebackDue_dirty hdirty hidle hruns), rfl, fun b es hb => writebackBuckets_bucket hb,
      fun r hr => mem_writebackRows hr⟩

end Sys2Proof.Machine

/-! PROOFS. Owner reads, and the data that answers them: repairs and graft images (R333, R334, R369, R510). -/
namespace Sys2Proof.Machine

/-! ## What a frame that leaves keeps of the reads accepted -/

section
variable (s : State)

theorem startFrame_ownerReads (p : Nat) : (startFrame s p).links.ownerReads = s.links.ownerReads := by
  unfold startFrame
  split <;> rfl

theorem pushEgress_ownerReads (p : Nat) (f : EgFrame) : (pushEgress s p f).links.ownerReads = s.links.ownerReads := by
  unfold pushEgress
  dsimp only
  split
  · exact startFrame_ownerReads _ _
  · rfl

theorem sendFrame_ownerReads (typ flags cls dst object flow : Nat) (payload : List Byte) :
    (sendFrame s typ flags cls dst object flow payload).links.ownerReads = s.links.ownerReads := by
  unfold sendFrame
  dsimp only
  split
  · rfl
  · exact pushEgress_ownerReads _ _ _

end

/-! ## OWNER_READ (R333, R334) -/

section
variable {s : State} {b : List Byte}

/-- An answer is one frame, metered for the tenant that owns the object. -/
theorem ownerAnswer_frame (s : State) (b : List Byte) (st : Nat) : ∃ u ts, OnlyIssues s u ∧ u.links.ownerReads = s.links.ownerReads ∧
    ownerAnswer s b st = withTenants u ts := by
  unfold ownerAnswer
  extract_lets h hdr n x dat s1
  have hissues : OnlyIssues s s1 := sendFrame_issues _ _ _ _ _ _ _ _
  have hreads : s1.links.ownerReads = s.links.ownerReads := sendFrame_ownerReads _ _ _ _ _ _ _ _
  cases x with
  | none => exact ⟨s1, s1.store.tenants, hissues, hreads, rfl⟩
  | some o =>
    obtain ⟨ts, hts⟩ := meterFabric_tenants s1 o.tenant (64 + dat.length)
    exact ⟨s1, ts, hissues, hreads, hts⟩

/-- A read from a later step than this node's counts as a stale frame. -/
def staleRead (s : State) (b : List Byte) : State := if s.now + 2 ≤ leAt b 8 6 then count s Reg.fault.STALE_FRAMES else s

theorem staleRead_regs (s : State) (b : List Byte) : RegsWithin (· = Reg.fault.STALE_FRAMES) s (staleRead s b) := by
  unfold staleRead
  split
  · exact .count rfl
  · exact .refl _ _

theorem ownerStatus_regs {P : Nat → Prop} {t : State} (h : RegsWithin P s t) (b : List Byte) : ownerStatus t b = ownerStatus s b := by
  rw [h.eq]
  rfl

/-- A read from a later step does not pass. -/
theorem staleRead_of_status (h : ownerStatus s b = some 0) : staleRead s b = s := by
  refine if_neg fun hlate => ?_
  unfold ownerStatus at h
  rw [if_pos (.inr hlate)] at h
  cases h

end

section
variable {s : State} {f : Frame} (hok : ctlOk f.body = true)
include hok

theorem ownerRead_passes (h : ownerStatus s f.body = some 0) :
    ownerRead s f = { s with links := { s.links with ownerReads := s.links.ownerReads ++ [f.body.take 64] } } := by
  unfold ownerRead
  dsimp only
  rw [if_neg (by simp [hok]), show (if s.now + 2 ≤ leAt f.body 8 6 then count s Reg.fault.STALE_FRAMES else s) = s from staleRead_of_status h, h]
  rfl

theorem ownerRead_refused {st : Nat} (h : ownerStatus s f.body = some st) (hst : st ≠ 0) :
    ownerRead s f = ownerAnswer (staleRead s f.body) f.body st := by
  have hstatus := (ownerStatus_regs (staleRead_regs s f.body) f.body).trans h
  unfold ownerRead
  dsimp only
  rw [if_neg (by simp [hok]), show (if s.now + 2 ≤ leAt f.body 8 6 then count s Reg.fault.STALE_FRAMES else s) = staleRead s f.body from rfl, hstatus]
  cases st with
  | zero => exact absurd rfl hst
  | succ n => rfl

end

/-! ## OWNER_DATA that no graft and no flight asked for (R369) -/

section
variable {s : State} {f : Frame} (hok : ctlOk f.body = true) (hreqs : Tbl.get s.faults.graft.reqs (leAt f.body 4 4) = none)
  (hreads : Tbl.get s.faults.graft.reads (leAt f.body 4 4) = none)
include hok hreqs hreads

theorem ownerData_late (h : ∀ l ∈ s.mem.flash.lost, l.req ≠ leAt f.body 4 4) : ownerData s f = count s Reg.sched.LATE_DISCARD := by
  have hnone : s.mem.flash.lost.findIdx? (fun l => l.req == leAt f.body 4 4 && l.peer == f.src + 1 && !l.both) = none :=
    List.findIdx?_eq_none_iff.mpr fun l hl => by simp [h l hl]
  unfold ownerData
  dsimp only
  rw [if_neg (by simp [hok]), hreqs, hreads]
  dsimp only
  rw [hnone]

/-- The last bytes of the only LOST range repair it. -/
theorem ownerData_repairs {l : Lost} (hlost : s.mem.flash.lost = [l]) (hreq : l.req = leAt f.body 4 4) (hpeer : l.peer = f.src + 1)
    (hboth : l.both = false) (hst : leAt f.body 21 1 = 0) (hlast : 4096 * l.pages ≤ l.got + leAt f.body 32 4) :
    ownerData s f = count (setLost s []) Reg.ft.REPAIRED_RANGES := by
  have hfirst : s.mem.flash.lost.findIdx? (fun l => l.req == leAt f.body 4 4 && l.peer == f.src + 1 && !l.both) = some 0 := by
    simp [hlost, hreq, hpeer, hboth]
  unfold ownerData
  dsimp only
  rw [if_neg (by simp [hok]), hreqs, hreads]
  dsimp only
  rw [hfirst]
  unfold repairData
  simp [hlost, hst, Nat.not_lt.mpr hlast]

end

/-! ## OWNER_DATA of a graft image (R510) -/

theorem rd64_wr64_mod (s : State) (a v : Nat) : rd64 (wr64 s a v) a = v % 2 ^ 64 := by
  unfold rd64
  rw [rd_wr64, rd_wr64, if_neg (by omega), if_pos rfl, if_pos rfl, BitVec.toNat_ofNat, BitVec.toNat_ofNat]
  omega

/-- While a follower's image has not its first 4 KiB, no object is placed. -/
theorem graftProgress_waits {s : State} {i : Nat} (hi : i ∈ followerPairs s) (hshort : (imageOf s i).length < 4096)
    (hdone : s.faults.graft.hbmDone = false) : graftProgress s i = s := by
  have hplaced : (followerPairs s).all (hbmPlaced s) = false := by
    refine List.all_eq_false.mpr ⟨i, hi, ?_⟩
    simp [hbmPlaced, Nat.not_le.mpr hshort]
  unfold graftProgress
  rw [if_neg (by omega)]
  simp [hplaced, hdone]

/-- The node once these bytes of image `i` have come. -/
def withImageBytes (s : State) (i : Nat) (dat : List Byte) : State :=
  wr64 (setGraft s fun g => { g with lastData := s.now, images := Tbl.set g.images i (imageOf s i ++ dat) })
    Reg.fault.GRAFT_BYTES (rd64 s Reg.fault.GRAFT_BYTES + dat.length)

theorem imageOf_withImageBytes (s : State) (i : Nat) (dat : List Byte) : imageOf (withImageBytes s i dat) i = imageOf s i ++ dat :=
  congrArg (Option.getD · []) (Tbl.get_set_self _ _ _)

theorem graftData_next {s : State} {i : Nat} {b : List Byte} (hst : leAt b 21 1 = 0) (hactive : s.faults.graft.active = true)
    (hdone : s.faults.graft.hbmDone = false) (hi : i ∈ followerPairs s) (hoff : leAt b 24 8 = (imageOf s i).length)
    (hshort : (imageOf s i).length + ((b.drop 64).take (leAt b 32 4)).length < 4096) :
    graftData s i b = withImageBytes s i ((b.drop 64).take (leAt b 32 4)) := by
  unfold graftData
  rw [if_neg (by simp [hst, hactive])]
  dsimp only
  rw [if_neg (not_not_intro hoff)]
  refine graftProgress_waits (s := withImageBytes s i ((b.drop 64).take (leAt b 32 4))) hi ?_ hdone
  rw [imageOf_withImageBytes, List.length_append]
  exact hshort

/-- A request that has been answered waits no more. -/
def graftAnswered (s : State) (req : Nat) : State := setGraft s fun g => { g with reqs := Tbl.del g.reqs req }

theorem ownerData_image {s : State} {f : Frame} {i : Nat} (hok : ctlOk f.body = true) (hreq : Tbl.get s.faults.graft.reqs (leAt f.body 4 4) = some i) :
    ownerData s f = graftData (graftAnswered s (leAt f.body 4 4)) i f.body := by
  unfold ownerData
  dsimp only
  rw [if_neg (by simp [hok]), hreq]
  rfl

/-! ## The statement -/

/-- Settles O41: past the ingress checks a read is kept or answered, and data goes by the equations of `ownerData`. -/
theorem owner_frames_are_served_and_taken : Obligations.Owner_frames_are_served_and_taken := by
  intro s f hacc hok u b req g
  have hu : RegsWithin (0x10000 ≤ ·) s u := delivered_regs hacc
  have hread (htyp : f.typ = 0x40) : exec (.ownerRead f) s = .next (ownerRead u f) := congrArg Host.Outcome.next (receive_accepted _ htyp hacc)
  have hdata (htyp : f.typ = 0x41) : exec (.ownerData f) s = .next (ownerData u f) := congrArg Host.Outcome.next (receive_accepted _ htyp hacc)
  have hg : u.faults.graft = g := congrArg Faults.graft hu.faults
  refine ⟨fun htyp h0 => ?passes, fun st htyp hst hne => ?refused, fun htyp hreqs hreads => ⟨fun hlate => ?late,
    fun l hlost hreq hpeer hboth hst hlast => ?repairs⟩, fun i htyp hreq hst hactive hdone hi hoff hshort => ?image⟩
  case passes => exact (hread htyp).trans (congrArg _ (ownerRead_passes hok ((ownerStatus_regs hu b).trans h0)))
  case refused =>
    obtain ⟨v, ts, hissues, hreads, hanswer⟩ := ownerAnswer_frame (staleRead u b) b st
    have hstale := (hu.mono (Q := fun _ => True) fun _ _ => trivial).trans ((staleRead_regs u b).mono fun _ _ => trivial)
    refine ⟨_, (hread htyp).trans (congrArg _ ((ownerRead_refused hok ((ownerStatus_regs hu b).trans hst) hne).trans hanswer)), ?_, ?_, ?_, ?_, ?_⟩
    · exact hreads.trans (congrArg _ hstale.links)
    · exact hissues.sched.trans hstale.sched
    · exact hissues.mem.trans hstale.mem
    · exact hissues.colls.trans hstale.colls
    · exact hissues.tables.trans hstale.tables
  case late =>
    exact (hdata htyp).trans (congrArg _ (ownerData_late hok (hg ▸ hreqs) (hg ▸ hreads) (hu.mem ▸ hlate)))
  case repairs =>
    refine ⟨_, (hdata htyp).trans (congrArg _ (ownerData_repairs hok (hg ▸ hreqs) (hg ▸ hreads) (hu.mem ▸ hlost) hreq hpeer hboth hst hlast)),
      rfl, ?_, (RegsWithin.count (by simp)).onlyRegs⟩
    rw [rd_count, if_pos rfl]
    exact congrArg _ (rd_delivered hacc (by decide))
  case image =>
    have hsame : imageOf u i = imageOf s i := by rw [imageOf, hg, imageOf]
    have hfollow : followerPairs u = followerPairs s := by rw [followerPairs, hu.faults, followerPairs]
    have hbytes : rd64 u Reg.fault.GRAFT_BYTES = rd64 s Reg.fault.GRAFT_BYTES := rd64_congr (rd_delivered hacc (by decide)) (rd_delivered hacc (by decide))
    have hactive' : u.faults.graft.active = true := hg ▸ hactive
    have hdone' : u.faults.graft.hbmDone = false := hg ▸ hdone
    let v := withImageBytes (graftAnswered u req) i ((b.drop 64).take (leAt b 32 4))
    have hexec : ownerData u f = v := (ownerData_image hok (hg ▸ hreq)).trans
      (graftData_next hst hactive' hdone' (hfollow ▸ hi) (hsame ▸ hoff) (hsame ▸ hshort))
    refine ⟨v, (hdata htyp).trans (congrArg _ hexec), ?_, now_congr hu.step, ?_, (RegsWithin.wr64 (by simp) (by simp)).onlyRegs⟩
    · exact (imageOf_withImageBytes _ _ _).trans (congrArg (· ++ _) hsame)
    · rw [← hbytes]
      exact rd64_wr64_mod _ _ _

end Sys2Proof.Machine

/-! PROOFS. Flushes of gallery stores, doze, droop, and galleries that fail (R321, R323, R483, R540, R562). -/
namespace Sys2Proof.Machine

/-! ## One gallery -/

section
variable {s : State} {g k : Nat}

theorem gallery_updGallery (f : Gallery → Gallery) (h : g < s.chip.galleries.length) : gallery (updGallery s g f) g = f (gallery s g) :=
  getD_updAt f Gallery.reset h

theorem gallery_updGallery_ne (f : Gallery → Gallery) (h : k ≠ g) : gallery (updGallery s g f) k = gallery s k :=
  getD_updAt_ne f Gallery.reset h

theorem gallery_congr {t : State} (h : t.chip.galleries = s.chip.galleries) (k : Nat) : gallery t k = gallery s k := by
  unfold gallery
  rw [h]

/-- A change of registers alone, beside another record of a gallery. -/
theorem RegsWithin.updGallery {P : Nat → Prop} {t : State} (h : RegsWithin P s t) (g : Nat) (f : Gallery → Gallery) :
    RegsWithin P { s with chip := { s.chip with galleries := (updGallery t g f).chip.galleries } } (Machine.updGallery t g f) :=
  ⟨by rw [Machine.updGallery, h.eq], h.rd⟩

end

/-! ## FLUSH commands (R321, R323) -/

section
variable {s : State} {g op : Nat} {b : Bool}

theorem exec_flush {g : Fin 50} {c : Instr} (s : State)
    (h : (c, op) ∈ [(Instr.flushWriteback g b, 0), (.flushWbInval g b, 1), (.flushInval g b, 2)]) : exec c s = .next (startFlush s g.val op b) := by
  simp only [List.mem_cons, Prod.mk.injEq, List.not_mem_nil, or_false] at h
  obtain ⟨rfl, rfl⟩ | ⟨rfl, rfl⟩ | ⟨rfl, rfl⟩ := h <;> rfl

/-- The range that GAL_FLUSH_BASE and GAL_FLUSH_BYTES name. -/
def flushAsked (s : State) (g : Nat) : Nat × Nat := (rd64 s (Reg.gallery.GAL_FLUSH_BASE g), (rd s (Reg.gallery.GAL_FLUSH_BYTES g)).toNat)

/-- The two words that a flush command leaves: CTRL as written, and STATUS. -/
def flushWords (s : State) (g op : Nat) (b : Bool) (w : Word) : State :=
  wr (wr s (Reg.gallery.GAL_FLUSH_CTRL g) (BitVec.ofNat 32 (b.toNat * 8 + op * 2))) (Reg.gallery.GAL_FLUSH_STATUS g) w

theorem flushWords_regs (s : State) (g op : Nat) (b : Bool) (w : Word) :
    RegsWithin (· ∈ [Reg.gallery.GAL_FLUSH_CTRL g, Reg.gallery.GAL_FLUSH_STATUS g]) s (flushWords s g op b w) :=
  (RegsWithin.wr _ (by simp)).trans (.wr _ (by simp))

theorem rd_flushWords (w : Word) : rd (flushWords s g op b w) (Reg.gallery.GAL_FLUSH_STATUS g) = w := rd_wr_self _ _ _

/-- A gallery whose flush has started, and the galleries that it waits for. -/
def Gallery.flushing (range : Nat × Nat) (left : List Nat) (inv : Bool) (x : Gallery) : Gallery :=
  { x with flushRange := range, flushLeft := some left, flushInv := inv }

theorem startFlush_busy (h : testBit (rd s (Reg.gallery.GAL_FLUSH_STATUS g)) 31 = true) : startFlush s g op b = s := if_pos h

variable (hidle : testBit (rd s (Reg.gallery.GAL_FLUSH_STATUS g)) 31 = false)
include hidle

theorem startFlush_badRange (h : flushRangeOk (flushAsked s g).1 (flushAsked s g).2 = false) : startFlush s g op b = flushWords s g op b 1 := by
  rw [startFlush, if_neg (by simp [hidle])]
  exact if_neg (by simpa [flushAsked] using h)

theorem startFlush_goes (h : flushRangeOk (flushAsked s g).1 (flushAsked s g).2 = true) : startFlush s g op b =
    updGallery (flushWords s g op b (setBit 0 31)) g (Gallery.flushing (flushAsked s g) (if b then inServiceList s else [g]) (op == 2)) := by
  rw [startFlush, if_neg (by simp [hidle])]
  exact if_pos h

end

/-! ## FLUSH_COMPLETE -/

section
variable {s : State} {g : Nat}

/-- A dirty line lies in the range of the flush that gallery `g` has started. -/
def flushHit (s : State) (g : Nat) (d : Dirty) : Bool := meets d.addr d.bytes (gallery s g).flushRange

/-- The gallery's own share of that flush. -/
def shareFlushed (s : State) (g : Nat) : State :=
  if (gallery s g).flushInv then dropLines s g (flushHit s g) else writeLines s g (flushHit s g)

/-- A line that is dropped changes stored objects alone. -/
theorem foldl_dropLine (l : List Dirty) (s : State) : ∃ st, l.foldl dropLine s = { s with store := st } ∧ (l = [] → st = s.store) := by
  induction l generalizing s with
  | nil => exact ⟨_, rfl, fun _ => rfl⟩
  | cons d l ih =>
    obtain ⟨st, hst, -⟩ := ih (dropLine s d)
    exact ⟨st, hst, nofun⟩

/-- The gallery without the lines that a share of a flush wrote back or dropped. -/
def Gallery.without (hit : Dirty → Bool) (x : Gallery) : Gallery := { x with lines := x.lines.filter fun d => !hit d }

theorem without_of_none {hit : Dirty → Bool} {x : Gallery} (h : x.lines.any hit = false) : x.without hit = x := by
  have hall : x.lines.filter (fun d => !hit d) = x.lines := List.filter_eq_self.mpr fun d hd => by simpa using List.any_eq_false.mp h d hd
  rw [Gallery.without, hall]

/-- What a share leaves: galleries of which only this one's lines differ, stored objects, and FLUSH_LINES. -/
theorem shareFlushed_frame (hg : g < s.chip.galleries.length) : ∃ gs n st,
    RegsWithin (· = Reg.gallery.FLUSH_LINES g) { s with chip := { s.chip with galleries := gs, free := n }, store := st } (shareFlushed s g) ∧
    gs.length = s.chip.galleries.length ∧ gs.getD g Gallery.reset = (gallery s g).without (flushHit s g) ∧
    (∀ k, k ≠ g → gs.getD k Gallery.reset = gallery s k) ∧
    ((gallery s g).flushInv = false ∨ (gallery s g).lines.any (flushHit s g) = false → st = s.store) ∧
    ((gallery s g).lines.any (flushHit s g) = false → rd (shareFlushed s g) (Reg.gallery.FLUSH_LINES g) = rd s (Reg.gallery.FLUSH_LINES g)) := by
  have hself : (updAt s.chip.galleries g (Gallery.without (flushHit s g))).getD g Gallery.reset = (gallery s g).without (flushHit s g) :=
    gallery_updGallery _ hg
  have hother (k : Nat) (hk : k ≠ g) : (updAt s.chip.galleries g (Gallery.without (flushHit s g))).getD k Gallery.reset = gallery s k :=
    gallery_updGallery_ne _ hk
  unfold shareFlushed
  split
  · next hinv =>
    obtain ⟨st, hst, hnone⟩ := foldl_dropLine ((gallery s g).lines.filter (flushHit s g)) (updGallery s g (Gallery.without (flushHit s g)))
    have hdrop : dropLines s g (flushHit s g) = { updGallery s g (Gallery.without (flushHit s g)) with store := st } := hst
    rw [hdrop]
    refine ⟨_, s.chip.free, st, .refl _ _, updAt_length _ _ _, hself, hother, fun h => hnone (List.filter_eq_nil_iff.mpr ?_), fun _ => rfl⟩
    exact List.any_eq_false.mp (h.resolve_left (by simp [hinv]))
  · unfold writeLines
    split
    · next hhit => exact ⟨_, s.chip.free + 1, s.store, .countBy rfl, updAt_length _ _ _, hself, hother, fun _ => rfl, fun h => by simp [h] at hhit⟩
    · next hnone =>
      have hkept : (gallery s g).without (flushHit s g) = gallery s g := without_of_none (by simpa using hnone)
      exact ⟨s.chip.galleries, s.chip.free, s.store, .refl _ _, rfl, hkept.symm, fun _ _ => rfl, fun _ => rfl, fun _ => rfl⟩

/-- Galleries that no flush waits for share in none. -/
theorem foldl_flushShareDone_idle {l : List Nat} (h : ∀ p ∈ l, (gallery s p).flushLeft = none) : l.foldl (flushShareDone g) s = s := by
  induction l with
  | nil => rfl
  | cons p l ih =>
    have hp : flushShareDone g s p = s := by
      unfold flushShareDone
      rw [h p List.mem_cons_self]
    rw [List.foldl_cons, hp]
    exact ih fun q hq => h q (List.mem_cons_of_mem _ hq)

/-- The state at the end of a flush for which gallery `g` was the last. -/
def flushEnded (s : State) (g : Nat) : State :=
  wr (updGallery (shareFlushed s g) g fun x => { x with flushLeft := none }) (Reg.gallery.GAL_FLUSH_STATUS g) 0

theorem flushShareDone_last (h : (gallery s g).flushLeft = some [g]) : flushShareDone g s g = flushEnded s g := by
  unfold flushShareDone
  rw [h]
  simp only [List.contains_cons, beq_self_eq_true, Bool.true_or, if_true, ne_eq, not_true_eq_false, decide_false, Bool.false_eq_true,
    not_false_eq_true, List.filter_cons_of_neg, List.filter_nil, List.isEmpty_nil]
  rfl

theorem gallery_flushEnded (hg : g < s.chip.galleries.length) :
    gallery (flushEnded s g) g = { (gallery s g).without (flushHit s g) with flushLeft := none } ∧
    ∀ k, k ≠ g → gallery (flushEnded s g) k = gallery s k := by
  obtain ⟨gs, n, st, hregs, hlen, hself, hother, -, -⟩ := shareFlushed_frame hg
  have hgs : (shareFlushed s g).chip.galleries = gs := by rw [hregs.eq]
  have hgal (k : Nat) : gallery (shareFlushed s g) k = gs.getD k Gallery.reset := by rw [gallery, hgs]
  refine ⟨?_, fun k hk => ?_⟩
  · exact (gallery_updGallery _ (by rw [hgs, hlen]; exact hg)).trans (by rw [hgal, hself])
  · exact (gallery_updGallery_ne _ hk).trans ((hgal k).trans (hother k hk))

theorem exec_flushComplete {g : Fin 50} (hlen : s.chip.galleries.length = 50) (hlast : (gallery s g.val).flushLeft = some [g.val])
    (hidle : ∀ k, k ≠ g.val → (gallery s k).flushLeft = none) : exec (.flushComplete g) s = .next (flushEnded s g.val) := by
  obtain ⟨l, r, hsplit⟩ := List.append_of_mem (List.mem_range.mpr g.isLt)
  have hnodup := hsplit ▸ List.nodup_range (n := 50)
  obtain ⟨-, hright, hleft⟩ := List.nodup_append.mp hnodup
  have hl (p : Nat) (hp : p ∈ l) : p ≠ g.val := hleft p hp g.val List.mem_cons_self
  have hr (p : Nat) (hp : p ∈ r) : p ≠ g.val := fun h => (List.nodup_cons.mp hright).1 (h ▸ hp)
  have hothers := (gallery_flushEnded (s := s) (g := g.val) (hlen.symm ▸ g.isLt)).2
  show Host.Outcome.next ((List.range 50).foldl (flushShareDone g.val) s) = _
  rw [hsplit, List.foldl_append, foldl_flushShareDone_idle fun p hp => hidle p (hl p hp), List.foldl_cons, flushShareDone_last hlast,
    foldl_flushShareDone_idle fun p hp => (congrArg Gallery.flushLeft (hothers p (hr p hp))).trans (hidle p (hr p hp))]

end

/-! ## DOZE (R540) -/

/-- A tile of the gallery stops its clock. -/
def Gallery.doze (i : Nat) (x : Gallery) : Gallery := { x with dozing := x.dozing ||| (1 <<< i) }

theorem doze_dozing {i : Nat} (hi : i < 16) (x : Gallery) : (x.doze i).dozing.getLsbD i = true := by
  rw [Gallery.doze, BitVec.getLsbD_or, Bool.or_eq_true]
  refine .inr (?_ : (BitVec.ofNat 16 (1 <<< i)).getLsbD i = true)
  rw [BitVec.getLsbD_ofNat, Nat.one_shiftLeft, Nat.testBit_two_pow_self, Bool.and_true]
  exact decide_eq_true hi

theorem dozeTile_sleeps {s : State} {t : Nat} (hawake : (gallery s (t / 16)).dozing.getLsbD (t % 16) = false) (hfree : tileBusy s t = false)
    (hactive : (gallery s (t / 16)).fstate = 0) :
    dozeTile s t = updTrace (updGallery (count s (Reg.gallery.DOZE_ENTRIES (t / 16))) (t / 16) (Gallery.doze (t % 16))) (t / 16)
      fun u => { u with dozeN := u.dozeN + 1, dozeTiles := u.dozeTiles ||| (1 <<< (t % 16)) } :=
  if_neg (by simp [hawake, hfree, hactive])

/-! ## Errors that take a gallery out of service (R483) -/

section
variable {s : State} {g : Nat}

theorem removeGallery_frame (s : State) (g : Nat) :
    ∃ c st, RegsWithin (· = Reg.sched.PIN_RELAY) { s with chip := c, store := st } (removeGallery s g) := by
  unfold removeGallery
  split
  · exact ⟨_, _, .countBy rfl⟩
  · exact ⟨s.chip, s.store, .refl _ _⟩

theorem gallery_removeGallery_ne {k : Nat} (h : k ≠ g) : gallery (removeGallery s g) k = gallery s k := by
  unfold removeGallery
  split
  · exact gallery_updGallery_ne _ h
  · rfl

theorem inService_removeGallery (hg : g < s.chip.galleries.length) : (gallery (removeGallery s g) g).inService = false := by
  unfold removeGallery
  split
  · exact congrArg Gallery.inService (gallery_updGallery (fun x => { x with inService := false, leave := false }) hg)
  · next h => simpa using h

theorem length_removeGallery : (removeGallery s g).chip.galleries.length = s.chip.galleries.length := by
  unfold removeGallery
  split
  · exact updAt_length _ _ _
  · rfl

/-- A gallery that an error takes out of service, and the stages booked on it. -/
theorem faultGallery_frame (hg : g < s.chip.galleries.length) :
    (gallery (faultGallery s g) g).inService = false ∧ (gallery (faultGallery s g) g).faulted = true ∧
    (∀ k, k ≠ g → gallery (faultGallery s g) k = gallery s k) ∧ (faultGallery s g).sched.flights = s.sched.flights.map (failStages s.ticks g) ∧
    (faultGallery s g).mem = s.mem ∧ (faultGallery s g).links = s.links ∧ ∀ a, a ≠ Reg.sched.PIN_RELAY → rd (faultGallery s g) a = rd s a := by
  obtain ⟨c, st, hregs⟩ := removeGallery_frame s g
  have hself : gallery (faultGallery s g) g = { gallery (removeGallery s g) g with faulted := true, ret := false } :=
    gallery_updGallery (s := takeGallery s g) _ (length_removeGallery (s := s) ▸ hg)
  have hflights : (faultGallery s g).sched.flights = (removeGallery s g).sched.flights.map (failStages (removeGallery s g).ticks g) := rfl
  refine ⟨by rw [hself]; exact inService_removeGallery hg, by rw [hself],
    fun k hk => (gallery_updGallery_ne (s := takeGallery s g) _ hk).trans (gallery_removeGallery_ne hk), ?_, hregs.mem, hregs.links, hregs.rd⟩
  rw [hflights, hregs.eq]
  rfl

end

/-! ## The statement -/

/-- Settles O48: a flush by what `startFlush` and the share of the last gallery leave, doze and droop by one record of the gallery, and LS_UE by
`faultGallery_frame`. -/
theorem galleries_flush_doze_and_fail : Obligations.Galleries_flush_doze_and_fail := by
  intro s g hlen st ct range
  have hg : g.val < s.chip.galleries.length := hlen.symm ▸ g.isLt
  refine ⟨fun b c op hc => ⟨fun hbusy => ?busy, fun hidle hrange => ?badRange, fun hidle hrange => ?goes⟩, fun hlast hothers => ?complete,
    fun tile htile hawake hfree hactive => ?doze, fun hfast => ?stretch, ?release, fun tile htile hmask => ?lsUe⟩
  case busy => exact (exec_flush s hc).trans (congrArg _ (startFlush_busy hbusy))
  case badRange =>
    exact ⟨_, (exec_flush s hc).trans (congrArg _ (startFlush_badRange hidle hrange)), rd_flushWords _, (flushWords_regs _ _ _ _ _).onlyRegs⟩
  case goes =>
    refine ⟨_, (exec_flush s hc).trans (congrArg _ (startFlush_goes hidle hrange)), ?_, gallery_updGallery _ hg,
      fun k hk => gallery_updGallery_ne _ hk, ((flushWords_regs _ _ _ _ _).updGallery _ _).onlyRegs⟩
    rw [updGallery_rd, rd_flushWords]
    decide
  case complete =>
    obtain ⟨hself, hother⟩ := gallery_flushEnded hg
    obtain ⟨gs, n, sto, hregs, -, -, -, hstore, hlines⟩ := shareFlushed_frame hg
    have hne : Reg.gallery.GAL_FLUSH_STATUS g.val ≠ Reg.gallery.FLUSH_LINES g.val := by
      unfold Reg.gallery.GAL_FLUSH_STATUS Reg.gallery.FLUSH_LINES
      omega
    refine ⟨_, exec_flushComplete hlen hlast hothers, rd_wr_self _ _ _, hself, hother, fun h => ?_, fun h => ?_, ?_, fun a ha => ?_⟩
    · exact hregs.store.trans (hstore h)
    · exact (rd_wr_ne _ _ hne).trans (hlines h)
    · unfold flushEnded
      rw [hregs.eq]
      rfl
    · simp only [List.mem_cons, List.not_mem_nil, or_false, not_or] at ha
      exact (rd_wr_ne _ _ (Ne.symm ha.1)).trans (hregs.rd a ha.2)
  case doze =>
    rw [← htile] at hawake hactive hg ⊢
    refine ⟨_, congrArg Host.Outcome.next (dozeTile_sleeps hawake hfree hactive), ?_, ?_, ?_⟩
    · exact (congrArg (fun x : Gallery => x.dozing.getLsbD _) (gallery_updGallery _ hg)).trans (doze_dozing (Nat.mod_lt _ (by decide)) _)
    · exact (rd_count _ _ _).trans (if_pos rfl)
    · exact ⟨rfl, fun a ha => rd_wr_ne _ _ fun h => ha (List.mem_singleton.mpr h.symm)⟩
  case stretch =>
    have hregs : RegsWithin (· ∈ [Reg.power.DROOP_EVENTS, pageBase .power 0 + 0x28]) s
        (raiseEvt (count s Reg.power.DROOP_EVENTS) (pageBase .power 0) 0) := (RegsWithin.count (by simp)).trans (.raiseEvt (by simp))
    have hchip : (raiseEvt (count s Reg.power.DROOP_EVENTS) (pageBase .power 0) 0).chip = s.chip := by rw [hregs.eq]
    refine ⟨_, congrArg Host.Outcome.next (if_neg (by simp [hfast])), ?_, ?_, (hregs.updGallery _ _).onlyRegs⟩
    · exact (gallery_updGallery _ (by rw [hregs.eq]; exact hg)).trans 
        (congrArg (fun x : Gallery => { x with stretched := true }) (gallery_congr (congrArg _ hchip) _))
    · rw [updGallery_rd, rd_raiseEvt_ne _ _ (by decide), rd_count, if_pos rfl]
  case release =>
    exact ⟨_, rfl, gallery_updGallery _ hg, fun k hk => gallery_updGallery_ne _ hk, rfl⟩
  case lsUe =>
    have hregs := raiseErr_masked_regs hmask (by decide)
    have hchip : (raiseErr s .tile tile.val 1).chip = s.chip := by rw [hregs.eq]
    have hpage : 0x6000 ≤ pageBase .tile tile.val ∧ pageBase .tile tile.val < 0x20000000 := by
      have htiles := tile.isLt
      simp only [pageBase]
      omega
    obtain ⟨hout, hfault, hother, hflights, hmem, hlinks, hrd⟩ := faultGallery_frame (s := raiseErr s .tile tile.val 1) (g := g.val) (hchip ▸ hg)
    refine ⟨faultGallery (raiseErr s .tile tile.val 1) g.val, by rw [← htile]; rfl, hout, hfault, ?_, ?_,
      fun k hk => (hother k hk).trans (gallery_congr (congrArg _ hchip) k), hmem.trans hregs.mem, hlinks.trans hregs.links⟩
    · rw [hrd _ (by unfold Reg.sched.PIN_RELAY; omega), (raiseErr_page hpage.1 hpage.2 (by decide)).1, testBit_setBit]
      rfl
    · rw [hflights, hregs.eq]
      rfl

end Sys2Proof.Machine

/-! PROOFS. The mapping's image and its rebuild, repairs of lost ranges, and data-loss reports (R354, R355, R369, R467). -/
namespace Sys2Proof.Machine

/-! ## What sending leaves beside registers and ports -/

/-- `t` is `s` but for registers and ports: what a frame that the node sends may move (R448, R449). -/
def OnlySends (s t : State) : Prop := ∃ regs ports, t = { s with regs := regs, links := { s.links with ports := ports } }

theorem startFrame_sends (s : State) (p : Nat) : OnlySends s (startFrame s p) := by
  unfold startFrame
  split <;> exact ⟨_, _, rfl⟩

theorem pushEgress_sends (s : State) (p : Nat) (f : EgFrame) : OnlySends s (pushEgress s p f) := by
  unfold pushEgress
  dsimp only
  split
  · obtain ⟨_, _, hstart⟩ := startFrame_sends (updPort s p fun t => { t with queues := updAt t.queues (egressQueue f) (· ++ [f]) }) p
    exact ⟨_, _, hstart⟩
  · exact ⟨_, _, rfl⟩

theorem sendFrame_sends (s : State) (typ flags cls dst object flow : Nat) (payload : List Byte) :
    OnlySends s (sendFrame s typ flags cls dst object flow payload) := by
  unfold sendFrame
  dsimp only
  split
  · exact ⟨_, _, rfl⟩
  · exact pushEgress_sends s _ _

/-- Two changes of the flash agree where they make the same flash of this one. -/
theorem updFlash_congr {s : State} {f g : Flash → Flash} (h : f s.mem.flash = g s.mem.flash) : updFlash s f = updFlash s g := by
  unfold updFlash
  rw [h]

/-! ## The mapping (R354, R355) -/

section
variable {s : State}

theorem mapCheckpoint_due (hruns : flashRunning s = true) (hdue : s.mem.flash.mapCkpt + max 1 (rd s Reg.ft.MAP_CKPT_STEPS).toNat ≤ s.now) :
    mapCheckpoint s = updFlash s fun f => { f with mapCkpt := s.now } := if_pos ⟨hruns, hdue⟩

theorem mapCheckpoint_early (h : s.now < s.mem.flash.mapCkpt + (rd s Reg.ft.MAP_CKPT_STEPS).toNat) : mapCheckpoint s = s :=
  if_neg fun ⟨_, hdue⟩ => by omega

/-- Both copies of a plot's mapping structure failed, and it covers some of these pages. -/
def plotFailed (range page pages : Nat) (p : Nat × Plot) : Bool :=
  p.2.ok == (false, false) && p.1 / 2 ^ 32 == range && page / 64 ≤ p.1 % 2 ^ 32 && p.1 % 2 ^ 32 ≤ (page + pages - 1) / 64

/-- A plot after the rebuild: its mapping structure reads again where it had failed. -/
def rebuiltPlot (range page pages : Nat) (p : Nat × Plot) : Nat × Plot :=
  if plotFailed range page pages p then (p.1, { p.2 with ok := (true, true) }) else p

theorem mapRebuild_rebuilds {range page pages : Nat} {p : Nat × Plot} (hp : p ∈ s.mem.flash.plots) (h : plotFailed range page pages p = true) :
    mapRebuild s range page pages true = updFlash s fun f => { f with plots := f.plots.map (rebuiltPlot range page pages) } :=
  if_pos (List.any_eq_true.mpr ⟨p, hp, h⟩)

/-! ## Repairs (R369) -/

/-- A lost range of which the next piece has been asked for, by request `req` to node `node`. -/
def Lost.askedOf (l : Lost) (now req node : Nat) : Lost := { l with asked := now, req := req, peer := node + 1 }

section
variable {i : Nat} {l : Lost} (hl : s.mem.flash.lost[i]? = some l)
include hl

theorem repairRetry_due (hboth : l.both = false) (hdue : l.asked + max 1 (rd s Reg.ft.REPAIR_STEPS).toNat ≤ s.now) :
    repairRetry s i = askRepair s i := by
  unfold repairRetry
  rw [hl]
  exact if_pos ⟨hboth, hdue⟩

theorem repairRetry_early (hearly : s.now < l.asked + (rd s Reg.ft.REPAIR_STEPS).toNat) : repairRetry s i = s := by
  unfold repairRetry
  rw [hl]
  exact if_neg fun ⟨_, hdue⟩ => by omega

/-- The next piece is asked for under the next request number, by one frame to the mirror's node. -/
theorem askRepair_asks {node : Nat} (hboth : l.both = false) (hhall : s.hall = true) (hmirror : mirrorNode s l.range = some node) :
    ∃ u, OnlySends { s with links := { s.links with reqNo := (s.links.reqNo + 1) % 2 ^ 32 } } u ∧
      askRepair s i = updFlash u fun f => { f with lost := updAt f.lost i (·.askedOf s.now u.links.reqNo node) } := by
  refine ⟨sendOwnerRead s node 3 l.object.toNat (rangeKind l.range) (4096 * l.page + l.got) (min 8128 (4096 * l.pages - l.got)),
    sendFrame_sends _ _ _ _ _ _ _ _, ?_⟩
  unfold askRepair
  rw [hl]
  dsimp only
  rw [hmirror, hboth, hhall]
  rfl

end

/-! ## Data-loss reports (R467) -/

theorem sendReport_sends (s : State) (r : Report) : OnlySends s (sendReport s r) := sendFrame_sends _ _ _ _ _ _ _ _

section
variable {r : Report}

theorem resendReport_early (h : s.now < r.sentAt + 16) : resendReport s r = s := if_neg (by simp [h])

variable (hone : s.mem.flash.reports = [r]) (hwaiting : r.waiting = true)
include hone hwaiting

/-- The only report goes out again, sent at this step. -/
theorem resendReport_only (hold : r.sentAt + 16 ≤ s.now) :
    resendReport s r = updFlash (sendReport s r) fun f => { f with reports := [{ r with sentAt := s.now }] } := by
  obtain ⟨_, _, hsent⟩ := sendReport_sends s r
  refine (if_pos (by simp [hwaiting, hold])).trans (updFlash_congr ?_)
  rw [hsent]
  simp [hone]

/-- The acknowledgement of the only report leaves none. -/
theorem dataLossAck_only {f : Frame} (hno : leAt f.body 0 4 = r.no) : dataLossAck s f = updFlash s fun x => { x with reports := [] } := by
  unfold dataLossAck
  simp [hone, hwaiting, hno, updFlash, advanceReports]

end

theorem exec_dataLossResend_only {r : Report} (hone : s.mem.flash.reports = [r]) : exec .dataLossResend s = .next (resendReport s r) := by
  show Host.Outcome.next (s.mem.flash.reports.foldl resendReport s) = _
  rw [hone]
  rfl

theorem exec_dataLossAck {f : Frame} (htyp : f.typ = 0x06) (h : accepts s f) : exec (.dataLossAck f) s = .next (dataLossAck (delivered s f) f) :=
  congrArg Host.Outcome.next (receive_accepted (fun t => dataLossAck t f) htyp h)

end

/-- Settles O35: what is due does what the equations above say, and what is not leaves the node as it is. -/
theorem flash_maps_and_losses_are_kept : Obligations.Flash_maps_and_losses_are_kept := by
  refine fun s => ⟨fun hruns hdue => ?checkpoint, fun hearly => ?noCheckpoint, fun range page pages k q hq hok hrange hlo hhi => ?rebuild,
    fun i node l hl hboth => ⟨fun hearly => ?noRetry, fun hdue hhall hmirror => ?retry⟩,
    fun r hone hwaiting => ⟨fun hearly => ?noResend, fun hold => ?resend, fun f htyp hacc hno => ?ack⟩⟩
  case checkpoint => exact congrArg Host.Outcome.next (mapCheckpoint_due hruns hdue)
  case noCheckpoint => exact congrArg Host.Outcome.next (mapCheckpoint_early hearly)
  case rebuild =>
    have hfailed : plotFailed range page pages (k, q) = true := by
      simp only [plotFailed, hok, hrange, hlo, hhi, beq_self_eq_true, decide_true, Bool.and_self]
    exact ⟨_, congrArg Host.Outcome.next (mapRebuild_rebuilds hq hfailed), List.mem_map.mpr ⟨_, hq, if_pos hfailed⟩, rfl, rfl⟩
  case noRetry => exact congrArg Host.Outcome.next (repairRetry_early hl hearly)
  case retry =>
    obtain ⟨_, ⟨_, _, rfl⟩, hasked⟩ := askRepair_asks hl hboth hhall hmirror
    refine ⟨_, l.askedOf s.now _ node, congrArg Host.Outcome.next ((repairRetry_due hl hboth hdue).trans hasked), ?_,
      rfl, rfl, rfl, rfl, rfl, rfl, rfl, rfl⟩
    exact (updAt_getElem? _ _ _ _).trans ((if_pos rfl).trans (congrArg (Option.map _) hl))
  case noResend => exact (exec_dataLossResend_only hone).trans (congrArg Host.Outcome.next (resendReport_early hearly))
  case resend =>
    refine ⟨_, (exec_dataLossResend_only hone).trans (congrArg Host.Outcome.next (resendReport_only hone hwaiting hold)), rfl, rfl, ?_, ?_⟩
    all_goals
      obtain ⟨_, _, hsent⟩ := sendReport_sends s r
      rw [hsent]
      rfl
  case ack =>
    have hreports : (delivered s f).mem.flash.reports = [r] := by rw [(delivered_regs hacc).mem, hone]
    exact ⟨_, (exec_dataLossAck htyp hacc).trans (congrArg Host.Outcome.next (dataLossAck_only hreports hwaiting hno)), rfl, rfl⟩

end Sys2Proof.Machine

/-! PROOFS. A block row over a die of more than 65,536 blocks, which R342 does not accept (R342, R343, R358). -/
namespace Sys2Proof.Machine

/-! ## Block tables in which every listed block is RETIRED -/

def retiredBlock : Block := ⟨.retired, 0, false, 0, 0, 0, false, false, false⟩

/-- The blocks numbered below `n`, each RETIRED. -/
def retiredBelow (n : Nat) : Tbl Block := (List.range n).map fun k => (k, retiredBlock)

theorem retiredBelow_wf (n : Nat) : Tbl.wf (retiredBelow n) := List.pairwise_map.mpr List.pairwise_lt_range

theorem get_map_retiredBlock {l : List Nat} {k : Nat} (hk : k ∈ l) : Tbl.get (l.map fun j => (j, retiredBlock)) k = some retiredBlock := by
  induction l with
  | nil => cases hk
  | cons j l ih =>
    simp only [List.map_cons, Tbl.get]
    split
    · rfl
    · next hne => exact ih ((List.mem_cons.mp hk).resolve_left (Ne.symm hne))

/-- The blocks of a die that the block table lists. -/
def listedBlocks (s : State) (die : Nat) : List Nat := (s.mem.flash.blocks.filter fun p => p.1 / 65536 == die).map (·.1)

section
variable {s : State} {n : Nat} (hblocks : s.mem.flash.blocks = retiredBelow n)
include hblocks

theorem mem_listedBlocks {die k : Nat} : k ∈ listedBlocks s die ↔ k < n ∧ k / 65536 = die := by
  simp [listedBlocks, hblocks, retiredBelow]

theorem block_retiredBelow {k : Nat} (h : k < n) : block? s k = some retiredBlock := by
  rw [block?, hblocks]
  exact get_map_retiredBlock (List.mem_range.mpr h)

theorem blockErased_retiredBelow {k : Nat} (h : k < n) : blockErased s k = false := by
  rw [blockErased, block_retiredBelow hblocks h]
  rfl

variable (hn : 65536 < n)
include hn

theorem length_listedBlocks : 65536 ≤ (listedBlocks s 0).length := by
  have hsub : List.range 65536 ⊆ listedBlocks s 0 := fun k hk => by
    have hk := List.mem_range.mp hk
    exact (mem_listedBlocks hblocks).mpr ⟨by omega, by omega⟩
  have hle := (List.nodup_range.subperm hsub).length_le
  rwa [List.length_range] at hle

/-- Die 0 lists its blocks 0 to 65,535, none of them ERASED. Where its inventory has a block 65,536, that one is chosen next, and it bears the
number of die 1's block 0 (R343). -/
theorem chosenBlock_beyond_die {dies : List Nat} (hinv : Tbl.get s.mem.flash.inventory 0 = some (dies, n)) : chosenBlock s 0 = some 65536 := by
  have hlength := length_listedBlocks hblocks hn
  have hfresh : ((List.range (min n ((listedBlocks s 0).length + 1))).map (65536 * 0 + ·)).find? (fun k => !(listedBlocks s 0).contains k) =
      some 65536 := by
    have hid : (fun k => 65536 * 0 + k) = id := funext fun k => by simp
    rw [hid, List.map_id]
    refine List.find?_range_eq_some.mpr ⟨?_, List.mem_range.mpr (by omega), fun j hj => ?_⟩
    · simp [mem_listedBlocks hblocks]
    · simp only [List.contains_eq_mem, mem_listedBlocks hblocks, Bool.not_not, decide_eq_true_eq]
      omega
  have hnone : (listedBlocks s 0).filter (blockErased s) = [] :=
    List.filter_eq_nil_iff.mpr fun k hk => by
      rw [blockErased_retiredBelow hblocks ((mem_listedBlocks hblocks).mp hk).1]
      decide
  unfold chosenBlock
  rw [show (s.mem.flash.blocks.filter fun p => p.1 / 65536 == 0).map (·.1) = listedBlocks s 0 from rfl]
  dsimp only
  rw [show (0 : Nat) / 32 = 0 from rfl, hinv]
  dsimp only [Option.map, Option.getD]
  rw [hfresh, hnone]
  rfl

end

/-! ## A program of a block that the row does not open -/

/-- A program into a block that is listed and neither ERASED nor OPEN changes nothing: no row opens for it (R358). -/
theorem programDone_unissued {s : State} {pa : Nat} {b : Block} (k : ProgramKind) (bytes : Nat) (ok last : Bool)
    (hb : block? s (paBlock pa) = some b) (herased : b.st ≠ .erased) (hopen : b.st ≠ .open_) : programDone s pa k bytes ok last = s := by
  have hnot : blockErased s (paBlock pa) = false := by simp [blockErased, hb, herased]
  have hissued : programIssued s (paBlock pa) k = none := by
    unfold programIssued
    simp [hnot, hb, hopen]
  unfold programDone
  simp [hissued]

/-- Channel 0 is ONLINE with one die of `n` blocks; every block numbered below `n` is known and RETIRED. -/
def retiredDie (n : Nat) : State :=
  updFlash (wr State.reset (chanStatusReg 0) 2) fun f => { f with blocks := retiredBelow n, inventory := [(0, ([0], n))] }

theorem groupDies_retiredDie (n : Nat) : (groupDies (retiredDie n) 0).filter (fun d => dieRuns (retiredDie n) d && dieMapped (retiredDie n) d) = [0] :=
  rfl

section
variable {n : Nat} (hn : 65536 < n)
include hn

theorem chosenBlock_retiredDie : chosenBlock (retiredDie n) 0 = some 65536 := chosenBlock_beyond_die rfl hn rfl

theorem groupBlocks_retiredDie : groupBlocks (retiredDie n) 0 = [65536] := by
  unfold groupBlocks
  rw [groupDies_retiredDie, List.filterMap_cons, chosenBlock_retiredDie hn]
  rfl

theorem turnGroup_retiredDie : turnGroup (retiredDie n) = some 0 := by
  have hopens : groupOpens (retiredDie n) 0 = true := by
    unfold groupOpens
    rw [groupDies_retiredDie]
    simp [chosenBlock_retiredDie hn]
  exact List.find?_cons_of_pos hopens

end

/-- Refutes O34, by the clause on the group whose turn it is. The clause does not bound the blocks of a die, which R342 does (65,536 per LUN), and
neither does FLASH_CHANNEL_TRAINED. Where an inventory has 65,537 blocks per LUN and die 0 has no ERASED block among its first 65,536, the block that
opens next on die 0 has the number of die 1's block 0 (`chosenBlock_beyond_die`). That block is RETIRED here, so its program changes nothing,
where the clause says that it is then OPEN. -/
theorem not_flash_blocks_go_round : ¬ Obligations.Flash_blocks_go_round := by
  intro h
  -- A name for the number keeps it from being unfolded as a list.
  obtain ⟨n, hn⟩ : ∃ n, 65536 < n := ⟨65537, by decide⟩
  have hblock : block? (retiredDie n) 65536 = some retiredBlock := block_retiredBelow rfl hn
  have hstates : ∀ x ∈ (retiredDie n).mem.flash.blocks, x.2.st ≠ .suspect := fun x hx => by
    obtain ⟨k, -, rfl⟩ := List.mem_map.mp hx
    exact BlkState.noConfusion
  have hchosen : 65536 ∈ groupBlocks (retiredDie n) 0 := by
    rw [groupBlocks_retiredDie hn]
    exact List.mem_singleton_self _
  have hsame : exec (.flashProgramComplete 0x40000000#40 .other 0 true false) (retiredDie n) = .next (retiredDie n) :=
    congrArg Host.Outcome.next (programDone_unissued .other 0 true false hblock (by decide) (by decide))
  obtain ⟨hprograms, -⟩ := h (retiredDie n) 1 0 (retiredBelow_wf n)
  obtain ⟨-, -, hrow⟩ := hprograms 0x40000000#40 .other 0 false (by decide) (by decide) rfl
  obtain ⟨t, hexec, hopened, -⟩ := hrow 0 rfl (turnGroup_retiredDie hn) hstates hchosen
  obtain rfl : retiredDie n = t := by
    rw [hexec] at hsame
    injection hsame with ht
    exact ht.symm
  have hst : BlkState.retired = .open_ := congrArg Block.st (Option.some.inj (hblock.symm.trans hopened))
  exact BlkState.noConfusion hst

end Sys2Proof.Machine

/-! PROOFS. The node as a whole: the front command, the state at reset, the waiting commands, and what was sent (R29, R447, R534, R567). -/
namespace Sys2Proof.Machine

/-- What an idle period writes: TIMESTAMP, while the node runs (R534). -/
theorem idleTick_onlyRegs (s : State) : OnlyRegs s (idleTick s) [Reg.atrium.TIMESTAMP, Reg.atrium.TIMESTAMP + 4] := by
  unfold idleTick
  split
  · exact (RegsWithin.wr64 (by simp) (by simp)).onlyRegs
  · exact (RegsWithin.refl _ s).onlyRegs

/-- Settles O56: the front command is run by definition, and an idle period is `idleTick`. -/
theorem a_step_runs_the_front_command : Obligations.A_step_runs_the_front_command := by
  refine ⟨fun s c rest => rfl, fun s hempty => ⟨idleTick s, ?_, idleTick_onlyRegs s, fun hrun => ?_⟩⟩
  · unfold step
    rw [hempty]
  · unfold idleTick
    rw [if_pos hrun, rd64_wr64 _ _ _ (Nat.mod_lt _ (by decide))]

/-- Settles O57: the register file at reset lists nothing, so that every word reads as its table says. -/
theorem reset_leaves_the_node_empty : Obligations.Reset_leaves_the_node_empty :=
  ⟨fun _ => rfl, rfl, rfl, rfl, rfl, rfl, rfl, rfl, rfl, rfl, rfl, rfl, rfl, rfl,
   ⟨List.Pairwise.nil, List.forall_mem_nil _⟩, Memory.nil_wf, rfl⟩

/-- A reset keeps the waiting commands and the record of what was sent, whether or not the node leaves it. -/
theorem nodeReset_keeps_sent (s : State) (m : Bool) (slot : Nat) :
    (nodeReset s m slot).pending = s.pending ∧ (nodeReset s m slot).links.out = s.links.out ∧
    (nodeReset s m slot).links.wire = s.links.wire := by
  unfold nodeReset
  split
  · exact ⟨rfl, rfl, rfl⟩
  · split <;> exact ⟨rfl, rfl, rfl⟩

/-- Settles O60: a rail acts in the VDD_AUX domain, the two resets carry the queue and what was sent over, and every other command keeps them. -/
theorem commands_leave_the_queue_and_what_was_sent : Obligations.Commands_leave_the_queue_and_what_was_sent := by
  intro c s t e
  obtain hkept | ⟨rail, cross, us, -, rfl⟩ | ⟨m, slot, -, rfl⟩ | rfl := exec_latch_cases e
  · exact ⟨hkept.pending, hkept.out, hkept.wire⟩
  · exact ⟨rfl, List.prefix_rfl, List.prefix_rfl⟩
  · obtain ⟨hpending, hout, hwire⟩ := nodeReset_keeps_sent s m slot.val
    exact ⟨hpending, hout ▸ List.prefix_rfl, hwire ▸ List.prefix_rfl⟩
  · cases e
    exact ⟨rfl, List.prefix_rfl, List.prefix_rfl⟩

end Sys2Proof.Machine

/-! PROOFS. Rails, pins, and the errors of class C0 (R475, R482, R484, R486, R556 to R560, R564 to R570, R578). -/
namespace Sys2Proof.Machine

/-! ## Rails (R558, R559) -/

section
variable {x : Aux} {r us : Nat}

theorem railMove_valid (h : railOffends x.rails r us = false) :
    railMove x r .valid us = { x with rails := updAt x.rails r fun _ => ⟨true, true, us⟩ } := by
  unfold railMove
  simp [h]

theorem logRail_rail (hseq : x.seqViolation = false) (huv : x.uvSeen = false) : (logRail x r).rail = BitVec.ofNat 4 r := by
  simp [logRail, hseq, huv]

/-- A rail that becomes valid out of order is logged, and the violation is latched. -/
theorem railMove_offends (h : railOffends x.rails r us = true) :
    (railMove x r .valid us).seqViolation = true ∧ (railMove x r .valid us).rail = (logRail x r).rail := by
  unfold railMove
  simp [h]

theorem railMove_off (h : r ≠ 0) : railMove x r .off us = { x with
    rails := updAt x.rails r fun _ => Rail.off, c0 := x.c0 && (updAt x.rails r fun _ => Rail.off).any (·.above) } := by
  unfold railMove
  exact if_pos h

end

theorem exec_railTransition (s : State) (rail : Fin 12) (cross : RailCross) (us : Nat) :
    exec (.railTransition rail cross us) s = .next (updAux s fun x => railMove x rail.val cross us) := rfl

/-- Two changes of the VDD_AUX domain that agree on it as it stands are one. -/
theorem updAux_congr {s : State} {f g : Aux → Aux} (h : f s.chip.aux = g s.chip.aux) : updAux s f = updAux s g := by
  unfold updAux
  rw [h]

/-- Settles O1: a crossing is `railMove` on the VDD_AUX domain, and each of the other commands sets one field. -/
theorem rails_and_pins_take_their_level : Obligations.Rails_and_pins_take_their_level := by
  refine ⟨fun s rail us => ⟨rfl, rfl, fun hok => ?_, fun hoff => ?_, fun hne => ?_⟩, fun s addr => ⟨rfl, rfl, rfl, rfl⟩⟩
  · exact congrArg Host.Outcome.next (updAux_congr (railMove_valid hok))
  · obtain ⟨hseq, hrail⟩ := railMove_offends hoff
    exact ⟨_, exec_railTransition s rail .valid us, rfl, hseq, fun ⟨hs, hu⟩ => hrail.trans (logRail_rail hs hu)⟩
  · exact congrArg Host.Outcome.next (updAux_congr (railMove_off hne))

/-! ## The registers that the collector and the safe state write (R477, R484) -/

/-- The registers of `t` outside `P` read as those of `s`; the rest of the state may differ. -/
def RdWithin (P : Nat → Prop) (s t : State) : Prop := ∀ a, ¬P a → rd t a = rd s a

namespace RdWithin
variable {P : Nat → Prop} {s t u : State}

theorem refl (P : Nat → Prop) (s : State) : RdWithin P s s := fun _ _ => rfl

/-- One change after another. -/
theorem after (k : RdWithin P t u) (h : RdWithin P s t) : RdWithin P s u := fun a ha => (k a ha).trans (h a ha)

theorem regs (k : RegsWithin P t u) (h : RdWithin P s t) : RdWithin P s u := .after k.rd h

/-- A change beside the register file. -/
theorem beside (h : RdWithin P s t) (e : u.regs = t.regs) : RdWithin P s u := fun a ha => (rd_congr e a).trans (h a ha)

theorem foldl {α : Type} {f : State → α → State} (hf : ∀ t x, RdWithin P t (f t x)) : ∀ (l : List α) (s : State), RdWithin P s (l.foldl f s)
  | [], s => refl P s
  | x :: l, s => .after (foldl hf l (f s x)) (hf s x)

end RdWithin

/-- The pages below the interrupt controller's, and everything from the fabric ports on. -/
def collectorReg (a : Nat) : Prop := a < 0x3000 ∨ 0x10000 ≤ a

theorem collectorReg_low {a : Nat} (h : a < 0x3000 := by decide) : collectorReg a := .inl h

section
variable (s : State)

theorem pushHist_rdWithin (e : HistEntry) : RdWithin collectorReg s (pushHist s e) := by
  unfold pushHist
  split
  · exact (RdWithin.refl _ s).beside rfl
  · exact .regs (.trans (.count collectorReg_low) (.wr _ collectorReg_low)) (.refl _ s)

theorem wr64_collectorReg {b : Nat} (v : Nat) (h : b + 4 < 0x3000 := by decide) : RegsWithin collectorReg s (wr64 s b v) :=
  .wr64 (.inl (by omega)) (.inl h)

theorem capture_rdWithin (k : PageKind) (n b : Nat) (c : FClass) : RdWithin collectorReg s (capture s k n b c) := by
  unfold capture
  extract_lets e s1
  have h1 : RdWithin collectorReg s s1 := by
    unfold s1
    split
    · split
      · exact .refl _ s
      · split
        · exact .regs (.trans (wr64_collectorReg s _) (wr64_collectorReg _ _)) (.refl _ s)
        · exact .regs (.wr _ collectorReg_low) (.refl _ s)
    · split
      · exact .refl _ s
      · exact pushHist_rdWithin s _
  split
  · exact .regs (.trans (wr64_collectorReg s1 _) (wr64_collectorReg _ _)) h1
  · exact h1

theorem setFaultBit_rdWithin (g : Nat) : RdWithin collectorReg s (setFaultBit s g) := by
  have h : RdWithin collectorReg s (wr64 s Reg.fault.FAULT_STATUS (rd64 s Reg.fault.FAULT_STATUS ||| 1 <<< g)) := (wr64_collectorReg s _).rd
  unfold setFaultBit
  dsimp only
  split
  · exact h
  · exact h.beside rfl

theorem setUse_rdWithin (t : Nat) : RdWithin collectorReg s (setUse s t) :=
  ((setUse_regs s t).mono fun _ (h : 0x21000000 ≤ _) => .inr (by omega)).rd

theorem abortCollLoad_rdWithin : RdWithin collectorReg s (abortCollLoad s) := by
  unfold abortCollLoad
  split
  · exact .refl _ s
  · have h : RdWithin collectorReg s (wr s Reg.sched.COLL_STATUS 9) := .regs (.wr _ collectorReg_low) (.refl _ s)
    exact .after (setUse_rdWithin _ _) (h.beside rfl)

theorem abortTableLoad_rdWithin : RdWithin collectorReg s (abortTableLoad s) := by
  unfold abortTableLoad
  split
  · exact .refl _ s
  · have h : RdWithin collectorReg s (wr s Reg.sched.TABLE_STATUS 9) := .regs (.wr _ collectorReg_low) (.refl _ s)
    exact .after (setUse_rdWithin _ _) (.regs (.raiseEvt collectorReg_low) (h.beside rfl))

theorem abortLoads_rdWithin : RdWithin collectorReg s (abortLoads s) := .after (abortTableLoad_rdWithin _) (abortCollLoad_rdWithin s)

theorem sendNow_rdWithin (typ dst : Nat) (payload : List Byte) : RdWithin collectorReg s (sendNow s typ dst payload) := by
  unfold sendNow
  dsimp only
  split
  · exact .regs (.count collectorReg_low) (.refl _ s)
  · next p _ =>
    have hport : 0x10000 ≤ Reg.port.TX_FRAMES p := by unfold Reg.port.TX_FRAMES; omega
    have h : RdWithin collectorReg s (count64 s (Reg.port.TX_FRAMES p)) := .regs (.count64 (.inr hport) (.inr (by omega))) (.refl _ s)
    exact h.beside rfl

theorem leaveUp_rdWithin (p st : Nat) : RdWithin collectorReg s (leaveUp s p st) := by
  have hport : 0x10000 ≤ Reg.port.TX_DISCARD p ∧ 0x10000 ≤ pageBase .port p := by exact ⟨by unfold Reg.port.TX_DISCARD; omega, Nat.le_add_right _ _⟩
  unfold leaveUp
  extract_lets t s1 n s2
  have h1 : RdWithin collectorReg s s1 := (RdWithin.refl _ s).beside rfl
  have h2 : RdWithin collectorReg s s2 := (RdWithin.regs (.countBy (.inr hport.1)) h1).beside rfl
  split
  · exact .regs (.raiseEvt (.inr (by omega))) h2
  · exact h1

theorem safeState_rdWithin : RdWithin collectorReg s (safeState s) := by
  unfold safeState
  extract_lets pay s1 s2 flights
  have h1 : RdWithin collectorReg s s1 := by
    unfold s1
    split
    · exact .foldl (fun t d => sendNow_rdWithin t _ d _) _ s
    · exact .refl _ s
  have h2 : RdWithin collectorReg s s2 := .after (.foldl (fun t p => leaveUp_rdWithin t p 0) _ s1) h1
  exact h2.beside rfl

/-- Collecting an error, of class C0 too, leaves the registers from the interrupt controller's page to the fabric ports as they stood. -/
theorem collect_rdWithin (k : PageKind) (n b : Nat) : RdWithin collectorReg s (collect s k n b) := by
  have hevt (t : State) (j : Nat) : RegsWithin collectorReg t (raiseEvt t (pageBase .fault 0) j) := .raiseEvt collectorReg_low
  have hset (c : FClass) : RdWithin collectorReg s (setFaultBit (capture (abortLoads s) k n b c) (faultGroup k n)) :=
    .after (setFaultBit_rdWithin _ _) (.after (capture_rdWithin _ k n b c) (abortLoads_rdWithin s))
  unfold collect
  split
  case h_1 =>
    have hcount : RdWithin collectorReg s (count s Reg.fault.C2_COUNT) := .regs (.count collectorReg_low) (.refl _ s)
    exact .after (capture_rdWithin _ k n b .c2) (.regs (hevt _ 2) hcount)
  case h_2 => exact .regs (hevt _ 1) (hset .c1)
  case h_3 =>
    extract_lets g s1 s2
    have h2 : RdWithin collectorReg s s2 := .regs (wr64_collectorReg s1 _) (.regs (hevt _ 0) (hset .c0))
    split
    · exact h2.beside rfl
    · exact .after (safeState_rdWithin _) (h2.beside rfl)

end

/-- An error of a page between the collector's registers and the ports sets its bit of ERR_STAT, whatever its class (R18, R19). -/
theorem raiseErr_between {s : State} {k : PageKind} {n b : Nat} (hlo : 0x3000 ≤ pageBase k n) (hhi : pageBase k n + 0x3C < 0x10000) :
    rd (raiseErr s k n b) (pageBase k n + 0x30) = setBit (rd s (pageBase k n + 0x30)) b ∧
    RdWithin (fun a => collectorReg a ∨ a ∈ [pageBase k n + 0x30, pageBase k n + 0x38, pageBase k n + 0x3C]) s (raiseErr s k n b) := by
  generalize hp : pageBase k n = p at *
  let s1 := count (wr s (p + 0x30) (setBit (rd s (p + 0x30)) b)) (p + 0x3C)
  let P := fun a => collectorReg a ∨ a ∈ [p + 0x30, p + 0x38, p + 0x3C]
  have hbit : rd s1 (p + 0x30) = setBit (rd s (p + 0x30)) b := by rw [rd_count, if_neg (by omega), rd_wr_self]
  have h1 : RdWithin P s s1 := (RegsWithin.trans (.wr _ (.inr (by simp))) (.count (.inr (by simp)))).rd
  have hstat : ¬collectorReg (p + 0x30) := by unfold collectorReg; omega
  have hcollect (t : State) : RdWithin P t (collect t k n b) := fun a ha => collect_rdWithin t k n b a fun h => ha (.inl h)
  unfold raiseErr
  rw [hp]
  dsimp only
  split
  · exact ⟨hbit, h1⟩
  · rw [collect_rdWithin _ k n b _ hstat]
    split
    · exact ⟨hbit, .after (hcollect _) h1⟩
    · exact ⟨by rw [rd_wr_ne _ _ (by omega), hbit], .after (hcollect _) (.regs (.wr _ (.inr (by simp))) h1)⟩

/-! ## Errors of class C0 (R482, R484, R486) -/

/-- An error of class C0 latches FAULT_N in the VDD_AUX domain and changes nothing else of it but the in-band interrupts owed; the rest of the chip
stays. -/
theorem raiseErr_c0 {s : State} {k : PageKind} {n b : Nat} (h : errClass k b = .c0) :
    ∃ owed, (raiseErr s k n b).chip = { s.chip with aux := { s.chip.aux with c0 := true, ibi := owed } } :=
  ⟨_, (raiseErr_chip s k n b).trans (if_pos h)⟩

theorem raiseErr_latches {s : State} {k : PageKind} {n b : Nat} (h : errClass k b = .c0) :
    (raiseErr s k n b).c0 = true ∧ faultN (raiseErr s k n b) = false := by
  obtain ⟨owed, hchip⟩ := raiseErr_c0 (s := s) (n := n) h
  have hc0 : (raiseErr s k n b).chip.aux.c0 = true := by rw [hchip]
  exact ⟨hc0, congrArg (!·) hc0⟩

/-- The state in which THERM_TRIP is raised: THERM_TRIP_N is latched already (R564). -/
def tripped (s : State) : State := updAux s fun x => { x with thermTrip := true, ibi := x.ibi + 1 }

/-- Settles O47: each of the five is an error of class C0, and what the VDD_AUX domain recorded before it stands. -/
theorem c0_errors_latch : Obligations.C0_errors_latch := by
  intro s
  refine ⟨fun rail hrun => ?_, fun rail hreset => ?_, fun x => ?_, ?_, ?_, ?_⟩
  · have hraise : railUv s rail.val = raiseErr (updAux s fun x => { logRail x rail.val with uvSeen := true }) .power 0 1 := if_pos hrun
    obtain ⟨owed, hchip⟩ := raiseErr_c0 (s := updAux s fun x => { logRail x rail.val with uvSeen := true }) (k := .power) (n := 0) (b := 1) rfl
    obtain ⟨hc0, hfault⟩ := raiseErr_latches (s := updAux s fun x => { logRail x rail.val with uvSeen := true }) (k := .power) (n := 0) (b := 1) rfl
    refine ⟨_, congrArg Host.Outcome.next hraise, hc0, hfault, ?_⟩
    rw [hchip]
    rfl
  · exact congrArg Host.Outcome.next (if_neg (by simp [hreset]))
  · obtain ⟨owed, hchip⟩ := raiseErr_c0 (s := tripped s) (k := .power) (n := 0) (b := 0) rfl
    obtain ⟨hc0, hfault⟩ := raiseErr_latches (s := tripped s) (k := .power) (n := 0) (b := 0) rfl
    obtain ⟨hstat, -⟩ := raiseErr_between (s := tripped s) (k := .power) (n := 0) (b := 0) (by decide) (by decide)
    have hbit : testBit (rd (raiseErr (tripped s) .power 0 0) (pageBase .power 0 + 0x30)) 0 = true := by
      rw [hstat, testBit_setBit]
      rfl
    have htrip : (raiseErr (tripped s) .power 0 0).chip.aux.thermTrip = true := by rw [hchip]; rfl
    refine ⟨_, rfl, hc0, hfault, htrip, hbit, congrArg (!·) htrip, ?_⟩
    show (raiseErr (tripped s) .power 0 0).chip.pins = _
    rw [hchip]
    rfl
  · exact ⟨_, rfl, raiseErr_latches rfl⟩
  · obtain ⟨owed, hchip⟩ := raiseErr_c0 (s := s) (k := .atrium) (n := 0) (b := 4) rfl
    obtain ⟨hc0, hfault⟩ := raiseErr_latches (s := s) (k := .atrium) (n := 0) (b := 4) rfl
    refine ⟨_, rfl, hc0, hfault, fun c hc => ?_, ?_⟩
    · obtain ⟨d, -, rfl⟩ := List.mem_map.mp hc
      rfl
    · dsimp only
      rw [hchip, List.map_map]
      rfl
  · exact ⟨_, rfl, raiseErr_latches rfl⟩

end Sys2Proof.Machine

/-! PROOFS. The head of every page, the gaps between pages, and the tile pages of a gallery in fallow (R598, R599, R602). -/
namespace Sys2Proof.Machine

/-! ## Which page holds an address -/

/-- The page and its index depend on the number of the 4 KiB alone. -/
theorem pageAt_congr {a b : Nat} (h : a / 0x1000 = b / 0x1000) :
    (pageAt a).map (fun x => (x.1, x.2.1)) = (pageAt b).map (fun x => (x.1, x.2.1)) := by
  have hlow : (a < 0x8000) = (b < 0x8000) := propext (by omega)
  unfold pageAt
  simp only [h, hlow, apply_ite (Option.map fun x : PageKind × Nat × Nat => (x.1, x.2.1)), Option.map_some, Option.map_none]

theorem pageAt_none_add {a : Nat} (ha : a % 8 = 0) (h : pageAt a = none) : pageAt (a + 4) = none := by
  have hmap := pageAt_congr (show (a + 4) / 0x1000 = a / 0x1000 by omega)
  rw [h] at hmap
  exact Option.map_eq_none_iff.mp hmap

/-- The odd near-bank instances have no page (R598). -/
theorem pageAt_odd_nearBank {n o : Nat} (hn : n < 8) (hodd : n % 2 = 1) (ho : o < 0x1000) : pageAt (0x30000 + 0x1000 * n + o) = none := by
  have hpage : (0x30000 + 0x1000 * n + o) / 0x1000 = 0x30 + n := by omega
  unfold pageAt
  dsimp only
  rw [hpage, if_neg (by omega), if_neg (by omega), if_neg (by omega), if_pos (by omega), if_neg (by omega)]

/-- A page that the BAR0 of a function other than a VF holds is no VF page, and its index is small. -/
theorem pageAt_bar0_cases {P : Option (PageKind × Nat × Nat) → Prop} {a : Nat} (ha : a < 2 ^ 28) (hn : P none)
    (hs : ∀ k n o, n < 0x8000 ∧ isVfPage k = false → P (some (k, n, o))) : P (pageAt a) := by
  unfold pageAt
  dsimp only
  refine iteInduction (fun h => hs _ _ _ ⟨by decide, by split <;> rfl⟩) (fun h => ?_)
  refine iteInduction (fun h => hs _ _ _ ⟨by omega, rfl⟩) (fun h => ?_)
  refine iteInduction (fun h => hs _ _ _ ⟨by omega, rfl⟩) (fun h => ?_)
  refine iteInduction (fun h => iteInduction (fun _ => hs _ _ _ ⟨by omega, rfl⟩) fun _ => hn) (fun h => ?_)
  refine iteInduction (fun h => hs _ _ _ ⟨by omega, rfl⟩) (fun h => ?_)
  refine iteInduction (fun h => hs _ _ _ ⟨by omega, rfl⟩) (fun h => ?_)
  refine iteInduction (fun h => ?_) (fun h => ?_)
  · exact iteInduction (fun _ => hs _ _ _ ⟨by omega, rfl⟩) fun _ => iteInduction (fun _ => hs _ _ _ ⟨by omega, rfl⟩) fun _ => hn
  rw [if_neg (by omega), if_neg (by omega), if_neg (by omega)]
  exact hn

theorem pageAt_bar0 {a n o : Nat} {k : PageKind} (ha : a < 2 ^ 28) : pageAt a = some (k, n, o) → n < 0x8000 ∧ isVfPage k = false :=
  pageAt_bar0_cases (P := (· = some (k, n, o) → _)) ha nofun fun _ _ _ hr h => by cases h; exact hr

/-- No table lists a word of the page's head (R15). -/
theorem regs_above_head (k : PageKind) : ∀ r ∈ k.regs, 0x10 ≤ r.off := by
  cases k <;> decide +kernel

theorem regDefAt_head {a n o : Nat} {k : PageKind} (hp : pageAt a = some (k, n, o)) (ho : o < 0x10) : regDefAt a = none := by
  have hnone : k.regs.find? (fun r => r.off == o) = none := List.find?_eq_none.mpr fun r hr => by
    have := regs_above_head k r hr
    simp only [beq_iff_eq]
    omega
  unfold regDefAt
  rw [hp]
  dsimp only
  rw [hnone]
  split <;> rfl

theorem regDefAt_gap {a : Nat} (hp : pageAt a = none) : regDefAt a = none := by
  unfold regDefAt
  rw [hp]

/-- Every register of a tile page is one word. -/
theorem tileRegs_one : ∀ r ∈ PageKind.tile.regs, r.wide = .one := by decide +kernel

theorem wideAt_tile {a n o : Nat} (hp : pageAt a = some (.tile, n, o)) : wideAt a = .one := by
  have hone : ∀ r, regDefAt a = some r → r.wide = .one := by
    intro r hr
    unfold regDefAt at hr
    rw [hp] at hr
    dsimp only at hr
    rw [if_neg (by simp)] at hr
    split at hr
    · cases hr
    · next q hq =>
      rw [if_neg (by simp)] at hr
      cases hr
      exact tileRegs_one r (List.mem_of_find?_eq_some hq)
  unfold wideAt
  split
  · next r hr => exact hone r hr
  · rfl

/-! ## Reads that change nothing -/

/-- A read of a register that it does not change answers the word. -/
theorem exec_rcRead_plain {s : State} {req : Requester} {a r same : Nat} {v : Word} (hr : reaches s req = true) (ha : a % 4 = 0)
    (hne : a ≠ Reg.atrium.STEP_LOW) (hloc : locate req .bar0 a = .reg r) (h : readReg s r same = (v, s)) :
    exec (.rcRead req .bar0 a 4 same) s = .next { s with links := { s.links with answer := some (v.setWidth 64), abort := false } } := by
  refine (congrArg Host.Outcome.next (readSpan_word same hr ha (readbackWaits_of_ne ha hne))).trans ?_
  rw [hloc]
  simp only [readLoc, h]
  rfl

theorem readReg_gap {s : State} {a : Nat} (same : Nat) (hp : pageAt a = none) (hpop : popAt a = none) : readReg s a same = (0, s) := by
  have hword : readWord s a = 0 := by
    unfold readWord
    rw [hp]
  unfold readReg
  rw [hp, if_neg (by simp), hpop]
  simp only [wideAt, clearsOnRead, regDefAt_gap hp, hword]
  rfl

/-- The words below the common registers show the page's head and are not changed by a read. -/
theorem readReg_head {s : State} {a n o : Nat} {k : PageKind} (same : Nat) (hp : pageAt a = some (k, n, o)) (ho : o < 0x10) :
    readReg s a same = (readWord s a, s) := by
  have hpop : popAt a = none := by
    have := pageAt_offset hp
    unfold popAt
    rw [if_neg (by omega), if_neg (by omega)]
  unfold readReg
  rw [hpop]
  split
  · rfl
  · simp only [wideAt, clearsOnRead, regDefAt_head hp ho]
    rfl

theorem readWord_pageId {s : State} {a n : Nat} {k : PageKind} (hp : pageAt a = some (k, n, 0)) (hboot : bootStage s ≠ 0x0F) :
    readWord s a = pageId k n := by
  unfold readWord
  rw [hp]
  simp [unreadable, hboot]

theorem readWord_pageVer {s : State} {a n : Nat} {k : PageKind} (hp : pageAt a = some (k, n, 4)) (hboot : bootStage s ≠ 0x0F) :
    readWord s a = pageVer k := by
  unfold readWord
  rw [hp]
  simp [unreadable, hboot]

theorem tileAsleep_kind {s : State} {k : PageKind} {n : Nat} (h : tileAsleep s k n = true) : k = .tile := by
  unfold tileAsleep at h
  simp only [Bool.and_eq_true, beq_iff_eq] at h
  exact h.1

/-- Of a sleeping tile nothing but the head's first two words is shown. -/
theorem readReg_asleep {s : State} {a n o : Nat} {k : PageKind} (same : Nat) (hp : pageAt a = some (k, n, o)) (ho : 8 ≤ o)
    (hsleep : tileAsleep s k n = true) : readReg s a same = (0, s) := by
  have hword : readWord s a = 0 := by
    unfold readWord
    rw [hp]
    dsimp only
    by_cases hu : unreadable s k = true
    · exact if_pos hu
    · rw [if_neg hu, if_neg (show ¬o = 0 by omega), if_neg (show ¬o = 4 by omega), if_pos hsleep]
  unfold readReg
  rw [if_pos (by simp [hp, hsleep]), hword]

/-! ## Writes that change nothing -/

theorem writeReg_gap {s : State} {a : Nat} (req : Requester) (v : Word) (hp : pageAt a = none) : writeReg s req a v = s := by
  unfold writeReg
  rw [show wideAt a = .one by simp [wideAt, regDefAt_gap hp]]
  dsimp only
  unfold writeOne
  rw [hp]

theorem writeReg_asleep {s : State} {a n o : Nat} {k : PageKind} (req : Requester) (v : Word) (hp : pageAt a = some (k, n, o))
    (hsleep : tileAsleep s k n = true) : writeReg s req a v = s := by
  obtain rfl := tileAsleep_kind hsleep
  unfold writeReg
  rw [wideAt_tile hp]
  dsimp only
  unfold writeOne
  rw [hp]
  exact if_pos hsleep

/-- What a write of a whole word meets in its cycle leaves it a whole word. -/
theorem metBytes_isWord (s : State) (req : Requester) (bar : Bar) (a : Nat) (v : Word) (c : Quad) :
    ∃ x : Word, metBytes s req bar a ⟨toLe 4 v.toNat, c⟩ = toLe 4 x.toNat := by
  unfold metBytes
  dsimp only
  split
  · exact ⟨v, rfl⟩
  · rw [if_pos (toLe_length 4 _)]
    exact ⟨_, rfl⟩

/-- A write of a word whose register takes nothing leaves the node as it is. -/
theorem exec_registerWrite_ignored {s : State} {req : Requester} {a r : Nat} (v : Word) (c : Quad) (hr : reaches s req = true) (ha : a % 4 = 0)
    (hloc : locate req .bar0 a = .reg r) (hcmd : r ≠ Reg.sched.SHARDMAP_CMD) (h : ∀ x, writeReg s req r x = s) :
    exec (.registerWrite req .bar0 a ⟨toLe 4 v.toNat, c⟩) s = .next s := by
  obtain ⟨x, hx⟩ := metBytes_isWord s req .bar0 a v c
  rw [exec_registerWrite (mapFault_eq_false fun _ => by rw [hloc]; exact fun e => hcmd (Loc.reg.inj e)), hx, writeSpan_word hr ha, hloc]
  exact congrArg Host.Outcome.next (h x)

/-- An 8-byte write of two words outside every page leaves the node as it is. -/
theorem exec_registerWrite_eight_gap {s : State} {req : Requester} {a : Nat} (v c : Quad) (hr : reaches s req = true) (ha : a % 8 = 0)
    (hlo : locate req .bar0 a = .reg a) (hhi : locate req .bar0 (a + 4) = .reg (a + 4)) (hp : pageAt a = none) :
    exec (.registerWrite req .bar0 a ⟨toLe 8 v.toNat, c⟩) s = .next s := by
  have hcmd : a ≠ Reg.sched.SHARDMAP_CMD := by rintro rfl; exact absurd hp (by decide +kernel)
  have hlen : (metBytes s req .bar0 a ⟨toLe 8 v.toNat, c⟩).length = 8 := by rw [metBytes_length]; exact toLe_length 8 _
  rw [exec_registerWrite (mapFault_eq_false fun _ => by rw [hlo]; exact fun e => hcmd (Loc.reg.inj e))]
  refine congrArg Host.Outcome.next ?_
  unfold writeSpan
  rw [if_neg (by simp [hr]), hlen, if_neg (by simp [badSpan, ha]), if_neg (by omega), if_pos rfl]
  unfold writeEight
  rw [hlo, hhi]
  simp only [show wideAt a = .one by simp [wideAt, regDefAt_gap hp], writeLoc, writeReg_gap _ _ hp, writeReg_gap _ _ (pageAt_none_add ha hp)]
  rfl

/-! ## The head's words -/

theorem blockType_pos (k : PageKind) : 0 < blockType k ∧ blockType k < 0x100 := by
  cases k <;> decide

theorem pageInstance_bar0 {k : PageKind} (n : Nat) (h : isVfPage k = false) : pageInstance k n = n := by
  unfold pageInstance
  split
  · cases h
  · cases h
  · rfl

/-- PAGE_ID holds the block type above the page's index (R20). -/
theorem pageId_fields {k : PageKind} {n : Nat} (hn : pageInstance k n < 2 ^ 16) : fld (pageId k n) 31 16 = blockType k ∧ pageId k n ≠ 0 := by
  obtain ⟨hpos, hlt⟩ := blockType_pos k
  have htype : fld (pageId k n) 31 16 = blockType k := by
    unfold pageId word
    rw [fld_ofNat 31 16 (by omega)]
    omega
  refine ⟨htype, fun h => ?_⟩
  rw [h] at htype
  exact absurd (htype.symm.trans (show fld (0 : Word) 31 16 = 0 by decide)) (by omega)

/-- PAGE_VER holds MAJOR 1 and MINOR 0 above the build (R599). -/
theorem pageVer_fields (k : PageKind) : fld (pageVer k) 31 24 = 1 ∧ fld (pageVer k) 23 16 = 0 := by
  have hbuild := (Config.pageBuild (blockType k)).isLt
  unfold pageVer word
  constructor
  · rw [fld_ofNat 31 24 (by omega)]
    omega
  · rw [fld_ofNat 23 16 (by omega)]
    omega

theorem locate_bar0 {req : Requester} {a : Nat} (hvf : ∀ i, req ≠ .vf i) (ha : a < 2 ^ 28) : locate req .bar0 a = .reg a := by
  cases req with
  | vf i => exact absurd rfl (hvf i)
  | _ => exact if_pos ha

/-- The PAGE_VER words of a virtual function's two pages. -/
theorem pageAt_vf_pageVer : ∀ i : Fin 256, pageAt (vfBase i.val + 4) = some (.doorbell, i.val, 4) ∧
    pageAt (vfBase i.val + 0x1004) = some (.tstatus, i.val, 4) := by
  decide +kernel

/-- A virtual function reads PAGE_VER at the head of each of its two pages. -/
theorem vf_pageVer {s : State} {i : Fin 256} {a : Nat} (same : Nat) (hboot : bootStage s ≠ 0x0F) (ha : a = 4 ∨ a = 0x1004) :
    ∃ k, readReg s (vfBase i.val + a) same = (pageVer k, s) := by
  obtain ⟨hdoor, hstat⟩ := pageAt_vf_pageVer i
  obtain rfl | rfl := ha
  · exact ⟨.doorbell, by rw [readReg_head same hdoor (by decide), readWord_pageVer hdoor hboot]⟩
  · exact ⟨.tstatus, by rw [readReg_head same hstat (by decide), readWord_pageVer hstat hboot]⟩

/-- Settles O9: the head of a page and what lies outside every page or behind a sleeping tile's head are read and written without effect. -/
theorem pages_identify_themselves : Obligations.Pages_identify_themselves := by
  intro s req a same hr ha answers
  refine ⟨fun hvf hlt => ?_, fun i hi hboot hat => ?_⟩
  · have hloc := locate_bar0 hvf hlt
    refine ⟨fun hp => ?_, fun n o hn hodd ho hat => hat ▸ pageAt_odd_nearBank hn hodd ho, fun k n o hp hboot => ?_⟩
    · have hpop : popAt a = none := popAt_of_range (by by_contra h; exact absurd hp (by unfold pageAt; rw [if_pos (by omega)]; nofun))
      have hstep : a ≠ Reg.atrium.STEP_LOW := by rintro rfl; exact absurd hp (by decide +kernel)
      have hcmd : a ≠ Reg.sched.SHARDMAP_CMD := by rintro rfl; exact absurd hp (by decide +kernel)
      refine ⟨exec_rcRead_plain hr ha hstep hloc (readReg_gap same hp hpop), fun v c => ?_, fun h8 v c => ?_⟩
      · exact exec_registerWrite_ignored v c hr ha hloc hcmd fun x => writeReg_gap req x hp
      · exact exec_registerWrite_eight_gap v c hr h8 hloc (locate_bar0 hvf (by omega)) hp
    · have hoff := pageAt_offset hp
      obtain ⟨hn, hkind⟩ := pageAt_bar0 hlt hp
      have hinst : pageInstance k n < 2 ^ 16 := by
        rw [pageInstance_bar0 n hkind]
        omega
      refine ⟨?_, ?_, fun ho hsleep => ?_⟩
      · rintro rfl
        refine ⟨pageId k n, exec_rcRead_plain hr ha (by unfold Reg.atrium.STEP_LOW; omega) hloc ?_, pageId_fields hinst⟩
        rw [readReg_head same hp (by decide), readWord_pageId hp hboot]
      · rintro rfl
        refine ⟨pageVer k, exec_rcRead_plain hr ha (by unfold Reg.atrium.STEP_LOW; omega) hloc ?_, pageVer_fields k⟩
        rw [readReg_head same hp (by decide), readWord_pageVer hp hboot]
      · have htile : pageAt a ≠ some (.atrium, 0, 0x120) ∧ pageAt a ≠ some (.sched, 0, 0x188) := by
          rw [hp, tileAsleep_kind hsleep]
          exact ⟨nofun, nofun⟩
        refine ⟨exec_rcRead_plain hr ha ?_ hloc (readReg_asleep same hp ho hsleep), fun v c => ?_⟩
        · rintro rfl
          exact htile.1 (by decide +kernel)
        · refine exec_registerWrite_ignored v c hr ha hloc ?_ fun x => writeReg_asleep req x hp hsleep
          rintro rfl
          exact htile.2 (by decide +kernel)
  · subst hi
    obtain ⟨k, hread⟩ := vf_pageVer (i := i) same hboot hat
    refine ⟨pageVer k, exec_rcRead_plain hr ha (by unfold Reg.atrium.STEP_LOW; omega) (if_pos (by omega)) hread, pageVer_fields k⟩

end Sys2Proof.Machine

/-! PROOFS. The test access port: its instructions and its register access (R587, R588, R590). -/
namespace Sys2Proof.Machine

/-! ## Instructions (R587, R588) -/

/-- An instruction that needs the node in reset, loaded outside it: BYPASS acts, and the refusal is counted. -/
theorem tapLoad_refused (s : State) (op : Byte) :
    (tapLoad s op false).chip = { s.chip with test := { s.chip.test with ir := 0xFF } } ∧
    rd (tapLoad s op false) Reg.test.TAP_REFUSED = counted Reg.test.TAP_REFUSED (rd s Reg.test.TAP_REFUSED) ∧
    OnlyRegs { s with chip := (tapLoad s op false).chip } (tapLoad s op false) [Reg.test.TAP_REFUSED] :=
  ⟨rfl, rd_wr_self s _ _, ((RegsWithin.count (s := s) (List.mem_singleton.mpr rfl)).withChip _).onlyRegs⟩

/-- The instructions that need the node in reset. -/
theorem exec_tapInReset {c : Instr} {op : Byte} (s : State)
    (h : (c, op) ∈ [(Instr.extest, (0x03 : Byte)), (.clamp, 0x04), (.highz, 0x05), (.extestPulse, 0x06), (.extestTrain, 0x07), (.prodTest, 0x10)]) :
    exec c s = .next (tapLoad s op (inReset s)) := by
  simp only [List.mem_cons, Prod.mk.injEq, List.not_mem_nil, or_false] at h
  rcases h with ⟨rfl, rfl⟩ | ⟨rfl, rfl⟩ | ⟨rfl, rfl⟩ | ⟨rfl, rfl⟩ | ⟨rfl, rfl⟩ | ⟨rfl, rfl⟩ <;> rfl

/-- The instructions that are loaded in every state. -/
theorem exec_tapAlways {c : Instr} {op : Byte} (s : State)
    (h : (c, op) ∈ [(Instr.trstN, (0x01 : Byte)), (.samplePreload, 0x02), (.bypass, 0xFF)]) : exec c s = .next (tapLoad s op true) := by
  simp only [List.mem_cons, Prod.mk.injEq, List.not_mem_nil, or_false] at h
  rcases h with ⟨rfl, rfl⟩ | ⟨rfl, rfl⟩ | ⟨rfl, rfl⟩ <;> rfl

/-- Settles O55: every instruction is `tapLoad` of its code. -/
theorem tap_instructions_are_loaded : Obligations.Tap_instructions_are_loaded := by
  refine fun s => ⟨fun c op h => exec_tapAlways s h, ⟨_, rfl, rfl, rfl, rfl⟩, fun c op h => ⟨fun hreset => ?_, fun hrun => ?_⟩⟩
  · rw [exec_tapInReset s h, inReset, hreset]
    rfl
  · obtain ⟨hchip, hcount, honly⟩ := tapLoad_refused s op
    refine ⟨tapLoad s op false, ?_, hchip, hcount, hchip ▸ honly⟩
    rw [exec_tapInReset s h, inReset, hrun]
    rfl

/-! ## Register access (R590) -/

/-- Bytes of a number above their count do not show in them. -/
theorem toLe_mod : ∀ (n v : Nat), toLe n (v % 256 ^ n) = toLe n v
  | 0, _ => rfl
  | n + 1, v => by
    have hhead : v % 256 ^ (n + 1) % 256 = v % 256 := Nat.mod_mod_of_dvd _ (Dvd.intro_left (256 ^ n) rfl)
    have htail : v % 256 ^ (n + 1) / 256 = v / 256 % 256 ^ n := by rw [Nat.pow_succ', Nat.mod_mul_right_div_self]
    rw [toLe, toLe, htail, toLe_mod n]
    refine congrArg (· :: _) (BitVec.eq_of_toNat_eq ?_)
    rw [BitVec.toNat_ofNat, BitVec.toNat_ofNat]
    exact hhead

/-- The data of a 4-byte access are the low word of the data register. -/
theorem toLe_dataRegister (w : BitVec 98) : toLe 4 w.toNat = toLe 4 (w.setWidth 32).toNat := by
  rw [← toLe_mod, BitVec.toNat_setWidth]
  rfl

theorem pageAt_hbm_offset (n : Fin 8) {o : Nat} (ho : o < 0x1000) : pageAt (pageBase .hbm n.val + o) = some (.hbm, n.val, o) := by
  have hn := n.isLt
  have hbase : pageBase .hbm n.val = 0x20000 + 0x1000 * n.val := rfl
  have hpage : (0x20000 + 0x1000 * n.val + o) / 0x1000 = 0x20 + n.val := by omega
  have hoff : (0x20000 + 0x1000 * n.val + o) % 0x1000 = o := by omega
  rw [hbase]
  unfold pageAt
  dsimp only
  rw [hpage, hoff, if_neg (by omega), if_neg (by omega), if_pos (by omega), Nat.add_sub_cancel_left]

section
variable {s : State} {w : BitVec 98} {a : Nat} (hprod : s.chip.test.prod = true) (hwidth : w.getLsbD 96 = false)
  (haddr : (w.toNat / 2 ^ 64) % 2 ^ 32 = a)
include hprod hwidth haddr

/-- In the production test state a 4-byte write reaches the registers. -/
theorem exec_regAccess_write (hop : w.getLsbD 97 = true) (hcmd : a ≠ Reg.sched.SHARDMAP_CMD) (hrun : s.running = true) (ha : a % 4 = 0)
    (hlt : a < 2 ^ 28) : exec (.regAccess w) s = .next (writeReg (tapLoad s 0x11 true) .tap a (w.setWidth 32)) := by
  have hloc : locate .tap .bar0 a = .reg a := if_pos hlt
  have hfault : mapFault s .tap .bar0 a (toLe 4 w.toNat) = false :=
    mapFault_eq_false fun _ => by rw [hloc]; exact fun e => hcmd (Loc.reg.inj e)
  have hreach : reaches (tapLoad s 0x11 true) .tap = true := by
    show (s.running && true) = true
    rw [hrun]
    rfl
  show execRegAccess w s = _
  unfold execRegAccess regAccess
  simp only [hwidth, haddr, hprod, hop, hfault, Bool.false_eq_true, if_false, Bool.and_false, Bool.true_eq_false, if_true]
  rw [toLe_dataRegister, writeSpan_word hreach ha, hloc]
  rfl

/-- A 4-byte read of a register that it does not change leaves its value for the next Capture-DR. -/
theorem exec_regAccess_read {v : Word} (hop : w.getLsbD 97 = false) (ha : a % 4 = 0) (hlt : a < 2 ^ 28)
    (hread : readReg (tapLoad s 0x11 true) a 0 = (v, tapLoad s 0x11 true)) :
    exec (.regAccess w) s = .next (updTest (tapLoad s 0x11 true) fun x => { x with readOut := v.setWidth 64 }) := by
  have hv : sub (toLe 4 v.toNat ++ []) 0 4 = toLe 4 v.toNat := by simp [sub, toLe_length]
  show execRegAccess w s = _
  unfold execRegAccess regAccess
  simp only [hwidth, haddr, hprod, hop, Bool.false_eq_true, if_false, Bool.and_false, Bool.false_and, Bool.true_eq_false]
  rw [if_neg (by simp [badSpan_word ha]), spanWords_word ha]
  simp only [readWords, show locate .tap .bar0 a = .reg a from if_pos hlt, readLoc, hread, ha, hv, leNat_toLe_word, BitVec.ofNat_toNat]

end

/-- Settles O11. -/
theorem regAccess_needs_the_production_test_state : Obligations.RegAccess_needs_the_production_test_state := by
  refine fun s w => ⟨fun hprod => ?_, fun n r o hprod hrun hboot ho hlt h30 hwidth haddr hr hone hrc => ?_⟩
  · obtain ⟨hchip, hcount, honly⟩ := tapLoad_refused s 0x11
    refine ⟨tapLoad s 0x11 false, ?_, rfl, rfl, honly, rfl, hcount⟩
    show execRegAccess w s = _
    unfold execRegAccess regAccess
    simp [hprod]
  · have hp := pageAt_hbm_offset n hlt
    obtain ⟨hlow, hhigh⟩ := pageAt_range (by simp) hp
    have ha := regDefAt_aligned hr
    have hbase : pageBase .hbm n.val = 0x20000 + 0x1000 * n.val := rfl
    have hstat : (pageBase .hbm n.val + o) % 0x1000 ≠ 0x30 := by omega
    cases hop : w.getLsbD 97 with
    | true =>
      refine ⟨_, exec_regAccess_write hprod hwidth haddr hop (by unfold Reg.sched.SHARDMAP_CMD; omega) hrun ha (by omega), ?_⟩
      rw [writeReg_plain _ (by simp) hp hr hone, softWrite_eq _ hr, if_neg hstat]
      exact ⟨rfl, fun _ => rd_wr_self _ _ _, nofun, fun b hb => rd_wr_ne _ _ (Ne.symm hb), rfl, rfl⟩
    | false =>
      have hread := readReg_pcie_hbm (s := tapLoad s 0x11 true) 0 (by simp) hp ho hr hone hboot
      rw [hrc, if_neg (by simp)] at hread
      exact ⟨_, exec_regAccess_read hprod hwidth haddr hop ha (by omega) hread, rfl, nofun, fun _ => ⟨rfl, rfl⟩, fun b _ => rfl, rfl, rfl⟩

end Sys2Proof.Machine

/-! PROOFS. Pattern tests, eye capture and the memory self-test (R581 to R586, R592 to R594). -/
namespace Sys2Proof.Machine

/-! ## RUNNING, LOCKED and RESULT of PAT_STATUS -/

/-- A bit of a word beside the field that is set. -/
theorem testBit_withFld_ne (w : Word) {hi lo i : Nat} (v : Nat) (h : i < lo ∨ hi < i) : testBit (withFld w hi lo v) i = testBit w i := by
  rw [testBit, getLsbD_withFld, if_neg (by omega)]
  rfl

/-- A bit of the field that is set. -/
theorem testBit_withFld (w : Word) {hi lo i : Nat} (v : Nat) (hlo : lo ≤ i) (hhi : i ≤ hi) (h : i < 32) :
    testBit (withFld w hi lo v) i = v.testBit (i - lo) := by
  rw [testBit, getLsbD_withFld, if_pos ⟨hlo, hhi, h⟩]

section
variable {s : State}

theorem rdf_wrf_self (s : State) (a : Nat) {hi lo v : Nat} (hhi : hi < 32) (hv : v < 2 ^ (hi + 1 - lo)) : rdf (wrf s a hi lo v) a hi lo = v := by
  rw [rdf, rd_wrf, if_pos rfl, fld_withFld _ _ _ _ hhi, Nat.mod_eq_of_lt hv]

theorem patRunning_wrf (s : State) {hi : Nat} (lo v : Nat) (h : hi < 31) : patRunning (wrf s Reg.test.PAT_STATUS hi lo v) = patRunning s := by
  rw [patRunning, rd_wrf, if_pos rfl, testBit_withFld_ne _ _ (.inr h)]
  rfl

/-- RESULT of a test that does not start. -/
theorem resultOnly (r : Nat) (hr : r < 256) (hidle : patRunning s = false) :
    let t := wrf s Reg.test.PAT_STATUS 7 0 r
    rdf t Reg.test.PAT_STATUS 7 0 = r ∧ patRunning t = false ∧ OnlyRegs s t [Reg.test.PAT_STATUS] :=
  ⟨rdf_wrf_self s _ (by decide) hr, (patRunning_wrf s 0 r (by decide)).trans hidle, onlyRegs_wr s _ _⟩

/-! ## PAT_START (R583, R592) -/

theorem patStart_target (hidle : patRunning s = false) (htarget : patTargetOk s = false) : patStart s = wrf s Reg.test.PAT_STATUS 7 0 2 := by
  simp [patStart, hidle, htarget]

theorem patStart_busy (hidle : patRunning s = false) (htarget : patTargetOk s = true) (hstate : patTargetIdle s = false) :
    patStart s = wrf s Reg.test.PAT_STATUS 7 0 1 := by
  simp [patStart, hidle, htarget, hstate]

theorem patStart_pattern (hidle : patRunning s = false) (htarget : patTargetOk s = true) (hstate : patTargetIdle s = true)
    (hpattern : patPatternOk (patKind s) (rdf s Reg.test.PAT_CTRL 11 8) (rdf s Reg.test.PAT_CTRL 3 2) = false) :
    patStart s = wrf s Reg.test.PAT_STATUS 7 0 3 := by
  simp [patStart, hidle, htarget, hstate, hpattern]

/-- The state in which an accepted test runs: counts at 0, RUNNING alone set. -/
def testStarted (s : State) : State :=
  wr (wr (wr64 (wr64 s Reg.test.PAT_BITS 0) Reg.test.PAT_ERRORS 0) Reg.test.PAT_LOCK_LOSS 0) Reg.test.PAT_STATUS 0x80000000

theorem patStart_runs (hidle : patRunning s = false) (htarget : patTargetOk s = true) (hstate : patTargetIdle s = true)
    (hpattern : patPatternOk (patKind s) (rdf s Reg.test.PAT_CTRL 11 8) (rdf s Reg.test.PAT_CTRL 3 2) = true) : patStart s = testStarted s := by
  simp [patStart, testStarted, hidle, htarget, hstate, hpattern]

theorem testStarted_reads (s : State) : patRunning (testStarted s) = true ∧ patLocked (testStarted s) = false ∧
    rd64 (testStarted s) Reg.test.PAT_BITS = 0 ∧ rd64 (testStarted s) Reg.test.PAT_ERRORS = 0 ∧ rd (testStarted s) Reg.test.PAT_LOCK_LOSS = 0 ∧
    OnlyRegs s (testStarted s) [Reg.test.PAT_STATUS, Reg.test.PAT_BITS, Reg.test.PAT_BITS + 4, Reg.test.PAT_ERRORS, Reg.test.PAT_ERRORS + 4,
      Reg.test.PAT_LOCK_LOSS] := by
  refine ⟨?_, ?_, ?_, ?_, ?_, ?_⟩
  · simp only [patRunning, testStarted, rd_wr_self]
    decide
  · simp only [patLocked, testStarted, rd_wr_self]
    decide
  · simp only [rd64, testStarted, rd_wr, rd_wr64]
    rfl
  · simp only [rd64, testStarted, rd_wr, rd_wr64]
    rfl
  · simp only [testStarted, rd_wr]
    rfl
  · exact (((RegsWithin.wr64 (by simp) (by simp)).trans (.wr64 (by simp) (by simp))).trans (.trans (.wr _ (by simp)) (.wr _ (by simp)))).onlyRegs

/-! ## The end of a test (R583, R584, R595) -/

theorem patCounted_unlocked (h : patLocked s = false) : patCounted s = s := if_neg (by simp [h])

/-- The checker's counts are all that its end leaves beside the free values. -/
def isPatCount (a : Nat) : Prop := Reg.test.PAT_BITS ≤ a ∧ a ≤ Reg.test.PAT_ERRORS + 4

theorem patCounted_frame (s : State) : ∃ c, RegsWithin isPatCount { s with chip := c } (patCounted s) := by
  have hin : isPatCount Reg.test.PAT_BITS ∧ isPatCount (Reg.test.PAT_BITS + 4) ∧ isPatCount Reg.test.PAT_ERRORS ∧
      isPatCount (Reg.test.PAT_ERRORS + 4) := by unfold isPatCount; decide
  obtain ⟨h1, h2, h3, h4⟩ := hin
  unfold patCounted
  split
  · exact ⟨_, .trans (.trans (.wr _ h1) (.wr _ h2)) (.trans (.wr _ h3) (.wr _ h4))⟩
  · exact ⟨s.chip, .refl _ s⟩

theorem rd_patCounted (s : State) {a : Nat} (h : a < Reg.test.PAT_BITS ∨ Reg.test.PAT_ERRORS + 4 < a) : rd (patCounted s) a = rd s a := by
  obtain ⟨c, hframe⟩ := patCounted_frame s
  exact hframe.rd a (by unfold isPatCount; omega)

/-- RUNNING and LOCKED read 0 once a test has ended. -/
theorem patEnd_status (s : State) : rd (patEnd s) Reg.test.PAT_STATUS = withFld (rd s Reg.test.PAT_STATUS) 31 30 0 := by
  unfold patEnd
  rw [rd_raiseEvt_ne _ _ (by decide), rd_wrf, if_pos rfl, rd_patCounted s (.inl (by decide))]

theorem patRunning_patEnd (s : State) : patRunning (patEnd s) = false := by
  rw [patRunning, patEnd_status, testBit_withFld _ _ (by decide) (by decide) (by decide)]
  rfl

theorem patEnd_regs (h : patLocked s = false) : RegsWithin (· ∈ [Reg.test.PAT_STATUS, pageBase .test 0 + 0x28]) s (patEnd s) := by
  unfold patEnd
  rw [patCounted_unlocked h]
  exact .trans (.wrf (by simp)) (.raiseEvt (by simp))

/-- A test that is aborted ends with RESULT ABORTED, whether or not PAT_ABORT is masked. -/
theorem patAborted_status (s : State) : rd (patAborted s) Reg.test.PAT_STATUS = withFld (rd (patEnd s) Reg.test.PAT_STATUS) 7 0 4 := by
  obtain ⟨-, hother⟩ := raiseErr_between (s := wrf (patEnd s) Reg.test.PAT_STATUS 7 0 4) (k := .test) (n := 0) (b := 0) (by decide) (by decide)
  refine (hother _ ?_).trans (by rw [rd_wrf, if_pos rfl])
  unfold collectorReg
  decide

theorem patAborted_ends (s : State) : patRunning (patAborted s) = false ∧ rdf (patAborted s) Reg.test.PAT_STATUS 7 0 = 4 := by
  rw [patRunning, rdf, patAborted_status]
  exact ⟨(testBit_withFld_ne _ _ (.inr (by decide))).trans (patRunning_patEnd s), fld_withFld _ _ _ _ (by decide)⟩

theorem patAborted_masked (hlocked : patLocked s = false) (hmask : testBit (rd s (pageBase .test 0 + 0x34)) 0 = true) :
    testBit (rd (patAborted s) (pageBase .test 0 + 0x30)) 0 = true ∧
    OnlyRegs s (patAborted s) [Reg.test.PAT_STATUS, pageBase .test 0 + 0x28, pageBase .test 0 + 0x30, pageBase .test 0 + 0x3C] := by
  have hend : RegsWithin (· ∈ [Reg.test.PAT_STATUS, pageBase .test 0 + 0x28]) s (wrf (patEnd s) Reg.test.PAT_STATUS 7 0 4) :=
    (patEnd_regs hlocked).trans (.wrf (by simp))
  have hmask' : testBit (rd (wrf (patEnd s) Reg.test.PAT_STATUS 7 0 4) (pageBase .test 0 + 0x34)) 0 = true := by
    rw [hend.rd _ (by decide), hmask]
  obtain ⟨hbit, -⟩ := raiseErr_between (s := wrf (patEnd s) Reg.test.PAT_STATUS 7 0 4) (k := .test) (n := 0) (b := 0) (by decide) (by decide)
  refine ⟨?_, RegsWithin.onlyRegs ((hend.mono ?_).trans ((raiseErr_masked_regs hmask' (by decide)).mono ?_))⟩
  · unfold patAborted
    rw [hbit, testBit_setBit]
    rfl
  · simp +contextual
  · simp +contextual

theorem exec_patAbort {c : PatAbort} (hrun : patRunning s = true) (h : abortApplies s c = true) : exec (.patAbort c) s = .next (patAborted s) :=
  congrArg Host.Outcome.next (if_pos (by rw [hrun, h]; rfl))

/-! ## The checker's lock (R584) -/

theorem exec_checkerLock (hrun : patRunning s = true) (hmode : rdf s Reg.test.PAT_CTRL 3 2 ≠ 1) :
    exec .checkerLock s = .next (wrf s Reg.test.PAT_STATUS 30 30 1) := congrArg Host.Outcome.next (if_pos ⟨hrun, hmode⟩)

theorem patLocked_wrf (s : State) (v : Nat) : patLocked (wrf s Reg.test.PAT_STATUS 30 30 v) = v.testBit 0 := by
  rw [patLocked, rd_wrf, if_pos rfl, testBit_withFld _ _ (by decide) (by decide) (by decide)]

/-- The state after a locked checker has lost its lock. -/
def lockLost (s : State) : State := count (wrf (patCounted s) Reg.test.PAT_STATUS 30 30 0) Reg.test.PAT_LOCK_LOSS

theorem exec_checkerLockLoss (hrun : patRunning s = true) (hlocked : patLocked s = true) : exec .checkerLockLoss s = .next (lockLost s) :=
  congrArg Host.Outcome.next (if_pos ⟨hrun, hlocked⟩)

theorem rd_lockLost_status (s : State) : rd (lockLost s) Reg.test.PAT_STATUS = withFld (rd s Reg.test.PAT_STATUS) 30 30 0 := by
  unfold lockLost
  rw [rd_count, if_neg (by decide), rd_wrf, if_pos rfl, rd_patCounted s (.inl (by decide))]

theorem lockLost_frame (s : State) : patLocked (lockLost s) = false ∧ patRunning (lockLost s) = patRunning s ∧
    rd (lockLost s) Reg.test.PAT_LOCK_LOSS = counted Reg.test.PAT_LOCK_LOSS (rd s Reg.test.PAT_LOCK_LOSS) ∧
    (lockLost s).sched = s.sched ∧ (lockLost s).store = s.store ∧ (lockLost s).mem = s.mem := by
  obtain ⟨c, hframe⟩ := patCounted_frame s
  have hregs : RegsWithin (fun _ => True) { s with chip := c } (lockLost s) :=
    (hframe.mono fun _ _ => trivial).trans (.trans (.wrf trivial) (.count trivial))
  refine ⟨?_, ?_, ?_, by rw [hregs.eq], by rw [hregs.eq], by rw [hregs.eq]⟩
  · rw [patLocked, rd_lockLost_status, testBit_withFld _ _ (by decide) (by decide) (by decide)]
    rfl
  · rw [patRunning, rd_lockLost_status, testBit_withFld_ne _ _ (.inr (by decide))]
    rfl
  · unfold lockLost
    rw [rd_count, if_pos rfl, rd_wrf, if_neg (by decide), rd_patCounted s (.inr (by decide))]

end

/-- The first part of O54: the pattern tests. -/
theorem pattern_tests_run_and_end (s : State) :
    let st := Reg.test.PAT_STATUS
    let ev := pageBase .test 0 + 0x28
    let good := patPatternOk (patKind s) (rdf s Reg.test.PAT_CTRL 11 8) (rdf s Reg.test.PAT_CTRL 3 2)
    (patRunning s = false →
      (∀ r, (patTargetOk s = false ∧ r = 2) ∨ (patTargetOk s = true ∧ patTargetIdle s = false ∧ r = 1) ∨
          (patTargetOk s = true ∧ patTargetIdle s = true ∧ good = false ∧ r = 3) →
        ∃ t, exec .patStart s = .next t ∧ rdf t st 7 0 = r ∧ patRunning t = false ∧ OnlyRegs s t [st]) ∧
      (patTargetOk s = true → patTargetIdle s = true → good = true → ∃ t, exec .patStart s = .next t ∧ patRunning t = true ∧ patLocked t = false ∧
        rd64 t Reg.test.PAT_BITS = 0 ∧ rd64 t Reg.test.PAT_ERRORS = 0 ∧ rd t Reg.test.PAT_LOCK_LOSS = 0 ∧
        OnlyRegs s t [st, Reg.test.PAT_BITS, Reg.test.PAT_BITS + 4, Reg.test.PAT_ERRORS, Reg.test.PAT_ERRORS + 4, Reg.test.PAT_LOCK_LOSS]) ∧
      exec .patStop s = .next s ∧ exec .checkerLock s = .next s ∧ exec .checkerLockLoss s = .next s) ∧
    (patRunning s = true →
      exec .patStart s = .next s ∧
      (patLocked s = false → (∃ t, exec .patStop s = .next t ∧ patRunning t = false ∧ OnlyRegs s t [st, ev]) ∧
        (rd s Reg.test.PAT_LIMIT_MS ≠ 0 → ∃ t, exec .patLimitExpired s = .next t ∧ patRunning t = false ∧ OnlyRegs s t [st, ev]) ∧
        (s.c0 = true → testBit (rd s (pageBase .test 0 + 0x34)) 0 = true → ∃ t, exec (.patAbort .c0) s = .next t ∧ patRunning t = false ∧
          rdf t st 7 0 = 4 ∧ testBit (rd t (pageBase .test 0 + 0x30)) 0 = true ∧
          OnlyRegs s t [st, ev, pageBase .test 0 + 0x30, pageBase .test 0 + 0x3C])) ∧
      (patKind s = 2 → s.chip.pins.perstN = false → ∃ t, exec (.patAbort .perstN) s = .next t ∧ patRunning t = false ∧ rdf t st 7 0 = 4) ∧
      (rd s Reg.test.PAT_LIMIT_MS = 0 → exec .patLimitExpired s = .next s) ∧
      (rdf s Reg.test.PAT_CTRL 3 2 ≠ 1 → ∃ t, exec .checkerLock s = .next t ∧ patLocked t = true ∧ patRunning t = true ∧ OnlyRegs s t [st]) ∧
      (patLocked s = true → ∃ t, exec .checkerLockLoss s = .next t ∧ patLocked t = false ∧ patRunning t = true ∧
        rd t Reg.test.PAT_LOCK_LOSS = counted Reg.test.PAT_LOCK_LOSS (rd s Reg.test.PAT_LOCK_LOSS) ∧ t.sched = s.sched ∧ t.store = s.store ∧
        t.mem = s.mem)) := by
  intro st ev good
  refine ⟨fun hidle => ⟨fun r hr => ?_, fun htarget hstate hgood => ?_, ?_, ?_, ?_⟩, fun hrun => ⟨?_, fun hopen => ⟨?_, fun hlimit => ?_, fun hc0 hmask => ?_⟩,
    fun hkind hperst => ?_, fun hlimit => ?_, fun hmode => ?_, fun hlocked => ?_⟩⟩
  · obtain ⟨htarget, rfl⟩ | ⟨htarget, hstate, rfl⟩ | ⟨htarget, hstate, hbad, rfl⟩ := hr
    · exact ⟨_, congrArg Host.Outcome.next (patStart_target hidle htarget), resultOnly 2 (by decide) hidle⟩
    · exact ⟨_, congrArg Host.Outcome.next (patStart_busy hidle htarget hstate), resultOnly 1 (by decide) hidle⟩
    · exact ⟨_, congrArg Host.Outcome.next (patStart_pattern hidle htarget hstate hbad), resultOnly 3 (by decide) hidle⟩
  · exact ⟨_, congrArg Host.Outcome.next (patStart_runs hidle htarget hstate hgood), testStarted_reads s⟩
  · exact congrArg Host.Outcome.next (if_neg (by simp [hidle]))
  · exact congrArg Host.Outcome.next (if_neg (by simp [hidle]))
  · exact congrArg Host.Outcome.next (if_neg (by simp [hidle]))
  · exact congrArg Host.Outcome.next (if_pos hrun)
  · exact ⟨_, congrArg Host.Outcome.next (if_pos hrun), patRunning_patEnd s, (patEnd_regs hopen).onlyRegs⟩
  · exact ⟨_, congrArg Host.Outcome.next (if_pos ⟨hrun, hlimit⟩), patRunning_patEnd s, (patEnd_regs hopen).onlyRegs⟩
  · obtain ⟨hend, hresult⟩ := patAborted_ends s
    obtain ⟨hbit, honly⟩ := patAborted_masked hopen hmask
    exact ⟨_, exec_patAbort (c := .c0) hrun hc0, hend, hresult, hbit, honly⟩
  · exact ⟨_, exec_patAbort (c := .perstN) hrun (by simp [abortApplies, hkind, hperst]), patAborted_ends s⟩
  · exact congrArg Host.Outcome.next (if_neg (by simp [hlimit]))
  · exact ⟨_, exec_checkerLock hrun hmode, patLocked_wrf s 1, (patRunning_wrf s 30 1 (by decide)).trans hrun, onlyRegs_wr s _ _⟩
  · obtain ⟨hopen, hrun', hloss, hsched, hstore, hmem⟩ := lockLost_frame s
    exact ⟨_, exec_checkerLockLoss hrun hlocked, hopen, hrun'.trans hrun, hloss, hsched, hstore, hmem⟩

/-! ## Eye capture (R585) -/

/-- What a capture of an untrained link, or of one link of a trained one, leaves in the three registers of the eye. -/
def eyeShown (s : State) (b : Bool) (h w : BitVec 30) : State :=
  let e := fun v => if b then eyeField (testBit (rd s Reg.test.EYE_SEL) 4) v else 0
  wr (wr (wr (updTest s fun t => { t with eyeRun := false }) Reg.test.EYE_H (e h)) Reg.test.EYE_W (e w)) Reg.test.EYE_CTRL (if b then 0x80000000 else 0)

theorem exec_eyeCaptureDone {s : State} (b : Bool) (h w : BitVec 30) (hrun : s.chip.test.eyeRun = true) :
    exec (.eyeCaptureDone b h w) s = .next (eyeShown s b h w) := by
  refine congrArg Host.Outcome.next ?_
  unfold eyeDone
  rw [if_neg (by simp [hrun])]
  cases b <;> rfl

theorem rd_eyeShown (s : State) (b : Bool) (h w : BitVec 30) :
    testBit (rd (eyeShown s b h w) Reg.test.EYE_CTRL) 31 = b ∧
    rd (eyeShown s b h w) Reg.test.EYE_H = (if b then eyeField (testBit (rd s Reg.test.EYE_SEL) 4) h else 0) ∧
    rd (eyeShown s b h w) Reg.test.EYE_W = (if b then eyeField (testBit (rd s Reg.test.EYE_SEL) 4) w else 0) := by
  unfold eyeShown
  refine ⟨?_, ?_, ?_⟩
  · rw [rd_wr_self]
    cases b <;> decide
  · rw [rd_wr_ne _ _ (by decide), rd_wr_ne _ _ (by decide), rd_wr_self]
  · rw [rd_wr_ne _ _ (by decide), rd_wr_self]

/-! ## The memory self-test (R586, R593) -/

section
variable {s : State} {g : Nat}

/-- Lines dropped from a gallery's store change stored objects alone. -/
theorem dropLines_eq (s : State) (g : Nat) (hit : Dirty → Bool) :
    ∃ st, dropLines s g hit = { updGallery s g (Gallery.without hit) with store := st } ∧ ((gallery s g).lines = [] → st = s.store) := by
  obtain ⟨st, hst, hnone⟩ := foldl_dropLine ((gallery s g).lines.filter hit) (updGallery s g (Gallery.without hit))
  exact ⟨st, hst, fun h => hnone (by rw [h]; rfl)⟩

/-- A gallery under test: its store is emptied. -/
def Gallery.underTest (x : Gallery) : Gallery := { x.without (fun _ => true) with mbist := true }

/-- The state in which the accepted self-test runs. -/
theorem mbistStart_runs (hidle : testBit (rd s Reg.test.MBIST_STATUS) 31 = false) (hacc : mbistAccepts s (rdf s Reg.test.MBIST_SEL 7 0) = true) :
    ∃ st, ((gallery s (rdf s Reg.test.MBIST_SEL 7 0)).lines = [] → st = s.store) ∧
      mbistStart s = { wr (updGallery (updTest s fun x => { x with mbistAt := some (rdf s Reg.test.MBIST_SEL 7 0) })
        (rdf s Reg.test.MBIST_SEL 7 0) Gallery.underTest) Reg.test.MBIST_STATUS 0x80000000 with store := st } := by
  obtain ⟨st, hdrop, hnone⟩ := dropLines_eq s (rdf s Reg.test.MBIST_SEL 7 0) fun _ => true
  refine ⟨st, hnone, ?_⟩
  unfold mbistStart
  rw [if_neg (by simp [hidle]), if_pos hacc, hdrop]
  unfold updGallery updTest wr
  dsimp only
  rw [updAt_updAt]
  rfl

/-- What a self-test that ends leaves of its gallery (R483, R593). -/
def Gallery.tested (pass : Bool) (x : Gallery) : Gallery := { x with
  mbist := false, invalid := true, tags := List.replicate 16 0, faulted := x.faulted && !pass, failed := x.failed || !pass
  ret := x.ret || (x.faulted && pass && x.fstate == 0) }

theorem mbistGallery_awake (pass : Bool) (hg : g < s.chip.galleries.length) (hwake : (gallery s g).wakeAsked = false) :
    mbistGallery s g pass = updGallery s g (Gallery.tested pass) := by
  have hgal : gallery (updGallery s g (Gallery.tested pass)) g = (gallery s g).tested pass := gallery_updGallery _ hg
  unfold mbistGallery
  exact if_neg (by
    show ¬(gallery (updGallery s g (Gallery.tested pass)) g).wakeAsked = true
    rw [hgal]
    simpa [Gallery.tested] using hwake)

/-- No retained region of a gallery whose regions are invalid is kept. -/
theorem keptRegion_invalid {x : Gallery} (h : x.invalid = true) (i : Nat) : keptRegion s x i = false := by
  simp [keptRegion, h]

/-- The state after the report of a self-test that ends; `w` tells where a failed one ended. -/
def mbistReported (s : State) (pass : Bool) (w : Word) : State :=
  let s1 := updTest s fun x => { x with mbistAt := none }
  if pass then wr s1 Reg.test.MBIST_STATUS 0 else raiseErr (wr (wr s1 Reg.test.MBIST_STATUS 1) Reg.test.MBIST_FAIL_AT w) .test 0 1

theorem mbistReported_chip (s : State) (pass : Bool) (w : Word) :
    (mbistReported s pass w).chip = { s.chip with test := { s.chip.test with mbistAt := none } } := by
  cases pass with
  | true => rfl
  | false => exact (raiseErr_chip _ _ _ _).trans (if_neg (by decide))

theorem mbistReported_fail (s : State) (w : Word) :
    rd (mbistReported s false w) Reg.test.MBIST_STATUS = 1 ∧ rd (mbistReported s false w) Reg.test.MBIST_FAIL_AT = w ∧
    testBit (rd (mbistReported s false w) (pageBase .test 0 + 0x30)) 1 = true := by
  let s1 := wr (wr (updTest s fun x => { x with mbistAt := none }) Reg.test.MBIST_STATUS 1) Reg.test.MBIST_FAIL_AT w
  obtain ⟨hbit, hother⟩ := raiseErr_between (k := .test) (n := 0) (b := 1) (s := s1) (by decide) (by decide)
  refine ⟨?_, ?_, ?_⟩
  · exact (hother _ (by unfold collectorReg; decide)).trans (by rw [rd_wr_ne _ _ (by decide), rd_wr_self])
  · exact (hother _ (by unfold collectorReg; decide)).trans (rd_wr_self _ _ _)
  · show testBit (rd (raiseErr s1 .test 0 1) _) 1 = true
    rw [hbit, testBit_setBit]
    rfl

/-- A self-test of a gallery ends. -/
def mbistEnded (s : State) (g : Nat) (pass : Bool) (w : Word) : State :=
  raiseEvt (updGallery (mbistReported s pass w) g (Gallery.tested pass)) (pageBase .test 0) 1

section
variable (hg : g < s.chip.galleries.length)
include hg

theorem exec_mbistDone (hat : s.chip.test.mbistAt = some g) (hlt : g < 50) (hwake : (gallery s g).wakeAsked = false) (pass : Bool) {arr : BitVec 5}
    {off : BitVec 27} {w : Word} (hw : BitVec.ofNat 32 (arr.toNat * 2 ^ 27 + off.toNat) = w) :
    exec (.mbistDone pass arr off) s = .next (mbistEnded s g pass w) := by
  have hgal : (mbistReported s pass w).chip.galleries = s.chip.galleries := by rw [mbistReported_chip]
  have hend : mbistGallery (mbistReported s pass w) g pass = updGallery (mbistReported s pass w) g (Gallery.tested pass) :=
    mbistGallery_awake pass (hgal ▸ hg) (by rw [gallery_congr hgal, hwake])
  refine congrArg Host.Outcome.next ?_
  unfold mbistDone
  rw [hw, hat]
  show raiseEvt (if g < 50 then mbistGallery (mbistReported s pass w) g pass else mbistReported s pass w) (pageBase .test 0) 1 = _
  rw [if_pos hlt, hend]
  rfl

theorem gallery_mbistEnded (pass : Bool) (w : Word) : gallery (mbistEnded s g pass w) g = (gallery s g).tested pass := by
  have hgal : (mbistReported s pass w).chip.galleries = s.chip.galleries := by rw [mbistReported_chip]
  unfold mbistEnded
  rw [gallery_congr (congrArg Chip.galleries (raiseEvt_chip _ _ _)), gallery_updGallery _ (hgal ▸ hg), gallery_congr hgal]

end

theorem rd_mbistEnded (s : State) (g : Nat) (pass : Bool) (w : Word) {a : Nat} (ha : a ≠ pageBase .test 0 + 0x28) :
    rd (mbistEnded s g pass w) a = rd (mbistReported s pass w) a := rd_raiseEvt_ne _ _ ha.symm

theorem mbistEnded_pass_regs (s : State) (g : Nat) (w : Word) :
    RegsWithin (· ∈ [Reg.test.MBIST_STATUS, pageBase .test 0 + 0x28]) { s with chip := (mbistEnded s g true w).chip } (mbistEnded s g true w) := by
  have hchip : (mbistEnded s g true w).chip = (updGallery (mbistReported s true w) g (Gallery.tested true)).chip := raiseEvt_chip _ _ _
  have hstatus : RegsWithin (· ∈ [Reg.test.MBIST_STATUS, pageBase .test 0 + 0x28]) s (wr s Reg.test.MBIST_STATUS 0) := .wr _ (by simp)
  rw [hchip]
  exact (hstatus.withChip (updGallery (mbistReported s true w) g (Gallery.tested true)).chip).trans (.raiseEvt (by simp))

end

/-- A change of registers alone, beside other stored objects. -/
theorem RegsWithin.withStore {P : Nat → Prop} {s t : State} (h : RegsWithin P s t) (x : Store) :
    RegsWithin P { s with store := x } { t with store := x } := ⟨by rw [h.eq], h.rd⟩

/-- The clause of O54 on the start of an accepted self-test. -/
theorem mbistStart_accepted {s : State} (hlen : s.chip.galleries.length = 50) (hidle : testBit (rd s Reg.test.MBIST_STATUS) 31 = false)
    (hacc : mbistAccepts s (rdf s Reg.test.MBIST_SEL 7 0) = true) :
    let g := rdf s Reg.test.MBIST_SEL 7 0
    ∃ t, exec .mbistStart s = .next t ∧ testBit (rd t Reg.test.MBIST_STATUS) 31 = true ∧
      t.chip.test.mbistAt = some g ∧ (g < 50 → (gallery t g).mbist = true) ∧ (∀ k, k ≠ g → gallery t k = gallery s k) ∧
      (g < 50 → (gallery t g).lines = []) ∧ ((gallery s g).lines = [] → t.store = s.store) ∧
      OnlyRegs { s with chip := t.chip, store := t.store } t [Reg.test.MBIST_STATUS] := by
  obtain ⟨st, hnone, hstart⟩ := mbistStart_runs hidle hacc
  generalize rdf s Reg.test.MBIST_SEL 7 0 = g at *
  have hself (hg : g < 50) : (updAt s.chip.galleries g Gallery.underTest).getD g Gallery.reset = (gallery s g).underTest :=
    getD_updAt _ _ (hlen ▸ hg)
  have hregs := (RegsWithin.wr (s := updGallery (updTest s fun x => { x with mbistAt := some g }) g Gallery.underTest)
    (a := Reg.test.MBIST_STATUS) 0x80000000 (List.mem_singleton.mpr rfl)).withStore st
  refine ⟨_, congrArg Host.Outcome.next hstart, ?_, rfl, fun hg => congrArg Gallery.mbist (hself hg),
    fun k hk => getD_updAt_ne (l := s.chip.galleries) _ _ hk, fun hg => (congrArg Gallery.lines (hself hg)).trans ?_, hnone, hregs.onlyRegs⟩
  · have hstatus := rd_wr_self (updGallery (updTest s fun x => { x with mbistAt := some g }) g Gallery.underTest) Reg.test.MBIST_STATUS 0x80000000
    exact (congrArg (testBit · 31) hstatus).trans (by decide)
  · exact List.filter_eq_nil_iff.mpr fun d _ => by simp

/-- Settles O54: the pattern tests by `pattern_tests_run_and_end`, and the eye and the self-test by what their ends show. -/
theorem tests_run_and_end : Obligations.Tests_run_and_end := by
  refine ⟨pattern_tests_run_and_end, fun s h w arr off hlen => ⟨⟨_, rfl, rfl, rd_wr_self s Reg.test.EYE_CTRL 0, ?_⟩, fun hidle b => ?_,
    fun hrun b => ?_, fun hbusy => ?_, fun hidle hacc => ?_, mbistStart_accepted hlen, fun k hat hk hwake => ⟨?_, fun hmask => ?_⟩⟩⟩
  · exact ((RegsWithin.wr (s := s) 0 (List.mem_singleton.mpr rfl)).withChip _).onlyRegs
  · exact congrArg Host.Outcome.next (if_pos hidle)
  · obtain ⟨hctrl, hheight, hwidth⟩ := rd_eyeShown s b h w
    refine ⟨_, exec_eyeCaptureDone b h w hrun, rfl, hctrl, fun hb => ?_, fun hb hlink => ?_, ?_⟩
    · rw [hheight, hwidth, hb]
      exact ⟨rfl, rfl⟩
    · rw [hheight, hwidth, hb, hlink]
      exact ⟨rfl, rfl⟩
    · exact (RegsWithin.trans (.trans (.wr _ (by simp)) (.wr _ (by simp))) (.wr _ (by simp))).onlyRegs
  · exact congrArg Host.Outcome.next (if_pos hbusy)
  · exact congrArg Host.Outcome.next ((if_neg (by simp [hidle])).trans (if_neg (by simp [hacc])))
  · obtain ⟨w, hw⟩ : ∃ w, BitVec.ofNat 32 (arr.toNat * 2 ^ 27 + off.toNat) = w := ⟨_, rfl⟩
    have hgal := gallery_mbistEnded (hlen ▸ hk : k < s.chip.galleries.length) true w
    have hchip : (mbistEnded s k true w).chip = (updGallery (mbistReported s true w) k (Gallery.tested true)).chip := raiseEvt_chip _ _ _
    refine ⟨_, exec_mbistDone (hlen ▸ hk) hat hk hwake true hw, ?_, by rw [hchip]; rfl, by rw [hgal]; rfl, by rw [hgal]; rfl, ?_,
      fun i => keptRegion_invalid (by rw [hgal]; rfl) i, (mbistEnded_pass_regs s k w).onlyRegs⟩
    · exact (rd_mbistEnded s k true w (by decide)).trans (rd_wr_self _ _ _)
    · rw [hgal]
      exact Bool.or_false _
  · obtain ⟨w, hw⟩ : ∃ w, BitVec.ofNat 32 (arr.toNat * 2 ^ 27 + off.toNat) = w := ⟨_, rfl⟩
    obtain ⟨hstatus, haddr, hbit⟩ := mbistReported_fail s w
    refine ⟨_, exec_mbistDone (hlen ▸ hk) hat hk hwake false hw, ?_, ?_, ?_, ?_⟩
    · rw [rd_mbistEnded s k false w (by decide), hstatus]
    · rw [rd_mbistEnded s k false w (by decide), haddr, hw]
    · rw [gallery_mbistEnded (hlen ▸ hk)]
      exact Bool.or_true _
    · rw [rd_mbistEnded s k false w (by decide), hbit]

end Sys2Proof.Machine


/-! PROOFS. The PCIe functions: bus mastering, D-states, MSI-X (R413, R426), the doorbells (R418, R425) and the resets (R431, R432). -/
namespace Sys2Proof.Machine

/-! ## A function's configuration state -/

@[simp] theorem pciState_setPciState (s : State) (fn : PciFn) (x : PciState) : pciState (setPciState s fn x) fn = x := by
  cases fn with
  | pf => rfl
  | vf i => simp only [setPciState, pciState, Tbl.get_set, ite_true, Option.getD_some]

theorem pciState_setPciState_ne (s : State) {fn g : PciFn} (x : PciState) (h : g ≠ fn) :
    pciState (setPciState s fn x) g = pciState s g := by
  cases fn <;> cases g
  case pf.pf => exact absurd rfl h
  case pf.vf | vf.pf => rfl
  case vf.vf i j =>
    have hij : i.val ≠ j.val := fun e => h (congrArg PciFn.vf (Fin.ext e.symm))
    simp only [setPciState, pciState, Tbl.get_set, if_neg hij]

theorem setPciState_links (s : State) (fn : PciFn) (x : PciState) :
    setPciState s fn x = { s with links := (setPciState s fn x).links } := by
  cases fn <;> rfl

theorem setPciState_out (s : State) (fn : PciFn) (x : PciState) : (setPciState s fn x).links.out = s.links.out := by
  cases fn <;> rfl

/-! ## Pending vectors -/

/-- A flush of a function's pending vectors: only messages go out and only that function's pending bits change. -/
structure Flushes (fn : PciFn) (s t : State) : Prop where
  links : t = { s with links := t.links }
  same : ∃ p, pciState t fn = { pciState s fn with pba := p }
  others : ∀ g, g ≠ fn → pciState t g = pciState s g

theorem Flushes.refl (fn : PciFn) (s : State) : Flushes fn s s := ⟨rfl, ⟨_, rfl⟩, fun _ _ => rfl⟩

theorem Flushes.trans {fn : PciFn} {s t u : State} (h : Flushes fn s t) (k : Flushes fn t u) : Flushes fn s u := by
  obtain ⟨p, hp⟩ := h.same
  obtain ⟨q, hq⟩ := k.same
  refine ⟨?_, ⟨q, by rw [hq, hp]⟩, fun g hg => (k.others g hg).trans (h.others g hg)⟩
  rw [k.links, h.links]

theorem flushVector_flushes (fn : PciFn) (s : State) (v : Nat) : Flushes fn s (flushVector fn s v) := by
  simp only [flushVector]
  split
  · exact ⟨by cases fn <;> rfl, ⟨_, pciState_setPciState s fn _⟩, fun g hg => pciState_setPciState_ne s _ hg⟩
  · exact .refl fn s

theorem flushMsix_flushes (s : State) (fn : PciFn) : Flushes fn s (flushMsix s fn) := by
  unfold flushMsix
  generalize List.range 64 = l
  induction l generalizing s with
  | nil => exact .refl fn s
  | cons v l ih => exact (flushVector_flushes fn s v).trans (ih _)

/-- A function set back to where it may send: its new state, but for the pending bits, and nothing else of the node. -/
theorem flushMsix_set (s : State) (i : Fin 256) (x : PciState) :
    let t := flushMsix (setPciState s (.vf i) x) (.vf i)
    (∃ p, pciState t (.vf i) = { x with pba := p }) ∧ t = { s with links := t.links } ∧
      ∀ j, j ≠ i → pciState t (.vf j) = pciState s (.vf j) := by
  have h := flushMsix_flushes (setPciState s (.vf i) x) (.vf i)
  refine ⟨?_, ?_, fun j hj => ?_⟩
  · simpa only [pciState_setPciState] using h.same
  · exact h.links
  · have hne : PciFn.vf j ≠ .vf i := fun e => hj (PciFn.vf.inj e)
    rw [h.others _ hne, pciState_setPciState_ne s x hne]

theorem getLsbD_natShift (v : Nat) (hv : v < 64) : ((1 <<< v : Nat) : BitVec 64).getLsbD v = true := by
  rw [BitVec.natCast_eq_ofNat, BitVec.getLsbD_ofNat, Nat.one_shiftLeft, Nat.testBit_two_pow_self]
  simpa using hv

/-- A pending vector that is unmasked while the function may send goes out at once and is pending no more. -/
theorem setVectorMask_pending (s : State) (i : Fin 256) (v : Nat) (hv : v < 16) (hb : (pciState s (.vf i)).bme = true)
    (hd : (pciState s (.vf i)).d3 = false) (hp : (pciState s (.vf i)).pba.getLsbD v = true) :
    ∃ y z : PciState, y.unmasked.getLsbD v = true ∧ y.pba.getLsbD v = false ∧
      setVectorMask s (.vf i) v false = hostMsix (setPciState (setPciState s (.vf i) z) (.vf i) y) (.vf i) v := by
  let z : PciState := { pciState s (.vf i) with unmasked := (pciState s (.vf i)).unmasked ||| ((1 <<< v : Nat) : BitVec 64) }
  have hm : z.unmasked.getLsbD v = true := by
    rw [BitVec.getLsbD_or, getLsbD_natShift v (by omega), Bool.or_true]
  have hv' : ¬ (PciFn.vf i ≠ .pf ∧ 16 ≤ v) := by omega
  have hsend : (z.pba.getLsbD v && z.unmasked.getLsbD v && !z.d3 && (z.bme || PciFn.vf i == .pf)) = true := by
    rw [hm, show z.pba = (pciState s (.vf i)).pba from rfl, hp, show z.d3 = false from hd, show z.bme = true from hb]
    rfl
  refine ⟨{ z with pba := z.pba &&& ~~~((1 : BitVec 64) <<< v) }, z, hm, ?_, ?_⟩
  · simp
  · rw [setVectorMask, if_neg hv']
    change flushVector (.vf i) (setPciState s (.vf i) z) v = _
    simp only [flushVector, pciState_setPciState]
    rw [if_pos hsend]

/-- Settles O4: each command sets the one function's state and flushes the one function's pending vectors. -/
theorem functions_hold_and_send_interrupts : Obligations.Functions_hold_and_send_interrupts := by
  unfold Obligations.Functions_hold_and_send_interrupts
  refine ⟨fun s i => ⟨rfl, ?_, rfl, ?_⟩, fun s i v v_lt hb hd hp => ?_⟩
  · obtain ⟨⟨p, hp⟩, hl, ho⟩ := flushMsix_set s i { pciState s (.vf i) with bme := true }
    exact ⟨_, rfl, congrArg PciState.bme hp, hl, ho⟩
  · obtain ⟨⟨p, hp⟩, hl, ho⟩ := flushMsix_set s i { pciState s (.vf i) with d3 := false }
    exact ⟨_, rfl, congrArg PciState.d3 hp, hl, ho⟩
  · obtain ⟨y, z, hy, hq, ht⟩ := setVectorMask_pending s i v.val v_lt hb hd hp
    have hget : ∀ u, pciState (hostMsix (setPciState u (.vf i) y) (.vf i) v.val) (.vf i) = y := fun u => pciState_setPciState u (.vf i) y
    exact ⟨_, congrArg Host.Outcome.next ht, rfl, by rw [hget]; exact hy, by rw [hget]; exact hq, rfl⟩

/-! ## Doorbells -/

theorem dbErr_ne_dbErrors (t : Nat) (ht : t < 256) : Reg.tstatus.DB_ERR t ≠ Reg.pcie.DB_ERRORS := by
  simp only [Reg.tstatus.DB_ERR, Reg.pcie.DB_ERRORS]
  omega

/-- A refused doorbell sets its channel's DB_ERR bit, counts in DB_ERRORS and changes nothing else. -/
theorem doorbellError_registers (s : State) (c : Fin 4096) :
    let t := doorbellError s c.val
    testBit (rd t (Reg.tstatus.DB_ERR (c.val / 16))) (c.val % 16) = true ∧
      rd t Reg.pcie.DB_ERRORS = counted Reg.pcie.DB_ERRORS (rd s Reg.pcie.DB_ERRORS) ∧
      OnlyRegs s t [Reg.tstatus.DB_ERR (c.val / 16), Reg.pcie.DB_ERRORS] := by
  have hne := dbErr_ne_dbErrors (c.val / 16) (by omega)
  refine ⟨?_, ?_, ?_⟩
  · rw [doorbellError, rd_count, if_neg hne.symm, rd_wr_self, testBit_setBit, decide_eq_true ⟨rfl, by omega⟩, Bool.true_or]
  · rw [doorbellError, rd_count, if_pos rfl, rd_wr_ne _ _ hne]
  · exact ((RegsWithin.wr _ (by simp)).trans (.count (by simp))).onlyRegs

/-- CQ_HEAD without ARM, no completion waiting: the head moves, and the channel's entry changes in nothing else. -/
theorem acceptHead_quiet (s : State) (c v : Nat) (hw : (chan s c).waiting = []) :
    let t := acceptHead s c v false
    chan t c = { chan s c with cqHead := v } ∧ (∀ k, k ≠ c → chan t k = chan s k) ∧
      t = { s with store := t.store } ∧ t.store = { s.store with chans := t.store.chans } := by
  have hs : acceptHead s c v false =
      updChan (updChan s c fun x => { x with cqHead := v, arm := (x.arm || false) && !false }) c fun x => { x with waiting := [] } := by
    simp only [acceptHead, Bool.false_and, Bool.false_eq_true, ite_false, chan_updChan, hw, drainCq]
  refine ⟨?_, fun k hk => ?_, by rw [hs]; rfl, by rw [hs]; rfl⟩
  · rw [hs, chan_updChan, chan_updChan, ← hw]
    simp
  · rw [hs, chan_updChan_ne _ hk, chan_updChan_ne _ hk]

/-- Settles O20: by the tests of the tail and of the head. -/
theorem doorbells_move_the_ring_or_are_errors : Obligations.Doorbells_move_the_ring_or_are_errors := by
  unfold Obligations.Doorbells_move_the_ring_or_are_errors
  intro s c v hd
  have hd' : ¬ (pciState s (vfOf c.val)).d3 = true := by simp [hd]
  refine ⟨fun hok => ?_, fun hok harm hw => ?_, fun hbad => ?_, fun hbad => ?_⟩
  · show Host.Outcome.next (sqTail s c.val v) = _
    rw [sqTail, if_neg hd', if_pos hok]
  · have ht : cqHead s c.val v = acceptHead s c.val (fld v 13 0) false := by
      rw [cqHead, if_neg hd', if_pos hok, harm]
    exact ⟨_, congrArg Host.Outcome.next ht, acceptHead_quiet s c.val _ hw⟩
  · have ht : sqTail s c.val v = doorbellError s c.val := by
      rw [sqTail, if_neg hd', if_neg (by simp [hbad])]
    exact ⟨_, congrArg Host.Outcome.next ht, doorbellError_registers s c⟩
  · have ht : cqHead s c.val v = doorbellError s c.val := by
      rw [cqHead, if_neg hd', if_neg (by simp [hbad])]
    obtain ⟨hbit, -, honly⟩ := doorbellError_registers s c
    exact ⟨_, congrArg Host.Outcome.next ht, hbit, honly⟩

/-! ## Function level resets -/

/-- What a function level reset leaves of the node: memory, chip, the physical function's space, and every object of the store but the rings. -/
structure KeptByFlr (s t : State) : Prop where
  mem : t.mem = s.mem
  chip : t.chip = s.chip
  pf : t.links.pf = s.links.pf
  store : t.store = { s.store with chans := t.store.chans }

theorem KeptByFlr.refl (s : State) : KeptByFlr s s := ⟨rfl, rfl, rfl, rfl⟩

theorem KeptByFlr.trans {s t u : State} (h : KeptByFlr s t) (k : KeptByFlr t u) : KeptByFlr s u :=
  ⟨k.mem.trans h.mem, k.chip.trans h.chip, k.pf.trans h.pf, k.store.trans (by rw [h.store])⟩

/-- Ring state at reset: no entry submitted, none completed, none waiting. -/
def Chan.Cleared (ch : Chan) : Prop := ch.sqHead = 0 ∧ ch.sqTail = 0 ∧ ch.cqHead = 0 ∧ ch.cqTail = 0 ∧ ch.waiting = []

theorem flrChan_keptByFlr (s : State) (c : Nat) : KeptByFlr s (flrChan s c) := by
  unfold flrChan
  split
  · exact .refl s
  · exact ⟨rfl, rfl, rfl, rfl⟩

theorem flrChan_sched (s : State) (c : Nat) : (flrChan s c).sched = s.sched := by
  unfold flrChan
  split <;> rfl

/-- The ring that is reset is cleared, the others stay, and no ring appears or vanishes. -/
theorem flrChan_chans (s : State) (c k : Nat) :
    ((Tbl.get (flrChan s c).store.chans k).isSome = (Tbl.get s.store.chans k).isSome) ∧
      (k ≠ c → chan (flrChan s c) k = chan s k) ∧
      (k = c → (Tbl.get s.store.chans k).isSome = true → (chan (flrChan s c) k).Cleared) := by
  unfold flrChan
  split
  · next hnone => exact ⟨rfl, fun _ => rfl, fun hk hsome => by rw [hk, hnone] at hsome; cases hsome⟩
  · next ch hsome =>
    refine ⟨?_, fun hk => chan_updChan_ne _ hk, fun hk _ => ?_⟩
    · rw [updChan_store, Tbl.get_set]
      split
      · next hk => rw [← hk, hsome]; rfl
      · rfl
    · rw [hk, chan_updChan]
      exact ⟨rfl, rfl, rfl, rfl, rfl⟩

theorem foldl_flrChan (t : Nat) (l : List Nat) (s : State) :
    let u := l.foldl (fun u q => flrChan u (16 * t + q)) s
    KeptByFlr s u ∧ u.sched = s.sched ∧ ∀ c, (Tbl.get s.store.chans c).isSome = true →
      ((∃ q ∈ l, c = 16 * t + q) ∨ (chan s c).Cleared) → (chan u c).Cleared := by
  induction l generalizing s with
  | nil => exact ⟨.refl s, rfl, fun c _ h => h.elim (fun ⟨q, hq, _⟩ => absurd hq List.not_mem_nil) id⟩
  | cons q l ih =>
    obtain ⟨hk, hs, hc⟩ := ih (flrChan s (16 * t + q))
    refine ⟨(flrChan_keptByFlr s _).trans hk, hs.trans (flrChan_sched s _), fun c hsome h => ?_⟩
    obtain ⟨hdom, hother, hself⟩ := flrChan_chans s (16 * t + q) c
    refine hc c (hdom.trans hsome) ?_
    by_cases hcq : c = 16 * t + q
    · exact .inr (hself hcq hsome)
    · rw [hother hcq]
      refine h.imp_left fun ⟨r, hr, hcr⟩ => ⟨r, (List.mem_cons.mp hr).resolve_left ?_, hcr⟩
      rintro rfl
      exact hcq hcr

/-- The first part of a VF_FLR: descriptors go, flights and held completions are silenced. -/
def flrStart (s : State) (t : Nat) : State :=
  { s with
    sched := { s.sched with queued := s.sched.queued.filter (·.chan / 16 ≠ t), flights := s.sched.flights.map (silenceFlight t) }
    faults := { s.faults with
      ended := s.faults.ended.filter (·.chan / 16 ≠ t), endedFlights := s.faults.endedFlights.map (silenceFlight t)
      held := s.faults.held.map fun h => { h with act := h.act.silenced t } } }

/-- Its last part: the tenant's registers and the function's MSI-X state return to reset. -/
def flrFinish (s : State) (i : Fin 256) : State :=
  let u := wr (wr s (Reg.tstatus.DB_ERR i.val) 0) (Reg.tstatus.ENABLE_VER i.val) 0x01010101
  setPciState u (.vf i) { pciState u (.vf i) with flr := true, unmasked := 0, pba := 0, table := [] }

theorem vfFlr_eq (s : State) (i : Fin 256) :
    ∃ u, vfFlr s i = flrFinish u i ∧ KeptByFlr s u ∧ u.sched = (flrStart s i.val).sched ∧
      ∀ c, c / 16 = i.val → (Tbl.get s.store.chans c).isSome = true → (chan u c).Cleared := by
  obtain ⟨hk, hs, hc⟩ := foldl_flrChan i.val (List.range 16) (flrStart s i.val)
  exact ⟨_, rfl, .trans (t := flrStart s i.val) ⟨rfl, rfl, rfl, rfl⟩ hk, hs, fun c hi hsome =>
    hc c hsome (.inl ⟨c % 16, List.mem_range.mpr (by omega), by omega⟩)⟩

theorem vfFlr_keptByFlr (s : State) (i : Fin 256) : KeptByFlr s (vfFlr s i) := by
  obtain ⟨u, hu, hk, -, -⟩ := vfFlr_eq s i
  rw [hu]
  exact hk.trans ⟨rfl, rfl, rfl, rfl⟩

theorem silenceFlight_silent (t : Nat) (g : Flight) (hp : (silenceFlight t g).part.isNone = true)
    (hc : (silenceFlight t g).desc.chan / 16 = t) : (silenceFlight t g).cancel = true ∧ (silenceFlight t g).silent = true := by
  unfold silenceFlight at hp hc ⊢
  split
  · exact ⟨rfl, rfl⟩
  · next hno =>
    rw [if_neg hno] at hp hc
    exact absurd (by simp [hp, hc]) hno

theorem flrFinish_registers (s : State) (i : Fin 256) :
    rd (flrFinish s i) (Reg.tstatus.DB_ERR i.val) = 0 ∧ rd (flrFinish s i) (Reg.tstatus.ENABLE_VER i.val) = 0x01010101 := by
  constructor
  · refine (rd_wr_ne _ _ ?_).trans (rd_wr_self _ _ _)
    simp only [Reg.tstatus.DB_ERR, Reg.tstatus.ENABLE_VER]
    omega
  · exact rd_wr_self _ _ _

theorem flrFinish_pciState (s : State) (i : Fin 256) :
    let x := pciState (flrFinish s i) (.vf i)
    x.flr = true ∧ x.table = [] ∧ x.pba = 0 := by
  simp only [flrFinish, pciState_setPciState, and_self]

theorem flrAll_keptByFlr (s : State) : KeptByFlr s (flrAll s) := by
  unfold flrAll
  generalize List.finRange 256 = l
  induction l generalizing s with
  | nil => exact .refl s
  | cons i l ih =>
    rw [List.foldl_cons]
    exact (vfFlr_keptByFlr s i).trans (ih _)

theorem flrComplete_idle (s : State) (i : Fin 256) (hflr : (pciState s (.vf i)).flr = true) (hf : s.sched.flights = [])
    (he : s.faults.endedFlights = []) : flrComplete s i =
      raiseEvt (count (setPciState s (.vf i) { pciState s (.vf i) with flr := false }) Reg.pcie.FLR_COUNT) (pageBase .pcie 0) 1 := by
  simp only [flrComplete, hflr, hf, he, List.append_nil, List.any_nil, Bool.not_false, Bool.and_self, ite_true]

theorem flrCounted (s : State) (i : Fin 256) :
    let u := setPciState s (.vf i) { pciState s (.vf i) with flr := false }
    RegsWithin (· ∈ [Reg.pcie.FLR_COUNT, pageBase .pcie 0 + 0x28]) u (raiseEvt (count u Reg.pcie.FLR_COUNT) (pageBase .pcie 0) 1) :=
  (RegsWithin.count (by simp)).trans (.raiseEvt (by simp))

/-! ## PCIe resets -/

/-- What the collector may change of the node for an error that stops nothing: registers, and what it has captured. -/
def OnlyCaptures (s t : State) : Prop := t = { s with regs := t.regs, faults := t.faults }

theorem OnlyCaptures.trans {s t u : State} (h : OnlyCaptures s t) (k : OnlyCaptures t u) : OnlyCaptures s u :=
  Eq.trans k (by rw [h])

theorem OnlyCaptures.of_regs {P : Nat → Prop} {s t : State} (h : RegsWithin P s t) : OnlyCaptures s t := by
  have hregs := h.eq
  unfold OnlyCaptures
  rw [hregs]

theorem capture_onlyCaptures (s : State) (k : PageKind) (n b : Nat) (c : FClass) : OnlyCaptures s (capture s k n b c) := by
  have hpush (e : HistEntry) : OnlyCaptures s (pushHist s e) := by
    unfold pushHist
    split <;> exact rfl
  unfold capture
  extract_lets e s1
  have h1 : OnlyCaptures s s1 := by
    unfold s1
    split
    · split
      · exact rfl
      · split <;> exact rfl
    · split
      · exact rfl
      · exact hpush _
  split
  · exact h1.trans rfl
  · exact h1

/-- An error of class C2 changes registers and what the collector has captured, nothing else of the node (R477). -/
theorem raiseErr_onlyCaptures (s : State) {k : PageKind} {b : Nat} (n : Nat) (hc : errClass k b = .c2) :
    OnlyCaptures s (raiseErr s k n b) := by
  unfold raiseErr
  extract_lets p s1 s2
  have h1 : RegsWithin (fun _ => True) s s1 := .trans (.wr _ trivial) (.count trivial)
  have h2 : RegsWithin (fun _ => True) s s2 := by
    unfold s2
    split
    · exact h1
    · exact h1.trans (.wr _ trivial)
  split
  · exact .of_regs h1
  · rw [collect, hc]
    exact (OnlyCaptures.of_regs (h2.trans (.trans (.count trivial) (.raiseEvt trivial)))).trans (capture_onlyCaptures _ k n b .c2)

theorem linkChange_regs (s : State) (r w : Nat) (f : Bool) : linkChange s r w f = { s with regs := (linkChange s r w f).regs } := by
  unfold linkChange
  extract_lets
  split
  · rw [raiseEvt_regs]
    rfl
  · rfl

theorem raiseErr_linkDown (s : State) :
    OnlyCaptures s (raiseErr s .pcie 0 3) ∧ testBit (rd (raiseErr s .pcie 0 3) (pageBase .pcie 0 + 0x30)) 3 = true := by
  refine ⟨raiseErr_onlyCaptures s 0 (by decide), ?_⟩
  rw [(raiseErr_page (s := s) (n := 0) (by decide) (by decide) (errClass_pcie_ne_c0 3)).1, testBit_setBit]
  simp

theorem clearVfs_clears (s : State) : ∀ p ∈ (clearVfs s).links.vfs, p.2.bme = false ∧ p.2.d3 = false := by
  intro p hp
  obtain ⟨q, -, rfl⟩ := List.mem_map.mp hp
  exact ⟨rfl, rfl⟩

/-- The functions' spaces are cleared in `u`, which otherwise stores what `v` does. -/
structure ClearedLike (v u : State) : Prop where
  links : u.links = (clearPf (clearVfs v)).links
  store : u.store = v.store
  mem : u.mem = v.mem

theorem linkChange_clearedLike {v u : State} (h : ClearedLike v u) (r w : Nat) (f : Bool) : ClearedLike v (linkChange u r w f) := by
  rw [linkChange_regs]
  exact ⟨h.links, h.store, h.mem⟩

/-- A reset that takes the link down ends with the report of it; up to there the functions' spaces are cleared and the node keeps what it stores. -/
theorem pcieReset_linkDown (s : State) (k : PcieReset) (hk : k = .hotReset ∨ k = .linkDown ∨ k = .perstN) :
    ∃ u, pcieReset s k = raiseErr u .pcie 0 3 ∧ ClearedLike (flrAll s) u ∧ (k = .perstN → u.chip.pins.perstN = false) := by
  have hclear (v : State) : ClearedLike v (clearPf (clearVfs v)) := ⟨rfl, rfl, rfl⟩
  have hperst (v : State) : ClearedLike v (perstLow (clearPf (clearVfs v))) := ⟨rfl, rfl, rfl⟩
  obtain rfl | rfl | rfl := hk
  · exact ⟨_, rfl, hclear _, nofun⟩
  · exact ⟨_, rfl, linkChange_clearedLike (hclear _) 0 0 false, nofun⟩
  · refine ⟨_, rfl, linkChange_clearedLike (hperst _) 0 0 false, fun _ => ?_⟩
    rw [linkChange_regs]
    rfl

/-- What every reset of the link and of all functions leaves and clears, whatever its kind (R432). -/
structure PcieResetOf (s : State) (k : PcieReset) (t : State) : Prop where
  vfs : ∀ p ∈ t.links.vfs, p.2.bme = false ∧ p.2.d3 = false
  colls : t.store.colls = s.store.colls
  tables : t.store.tables = s.store.tables
  mem : t.mem = s.mem
  chip : k = .vfEnableClear ∨ k = .pfFlr → t.chip = s.chip
  kept : k = .vfEnableClear → t.links.pf = s.links.pf
  pf : k ≠ .vfEnableClear → t.links.pf.bme = false ∧ t.links.pf.pba = 0 ∧ t.links.pf.table = []
  perst : k = .perstN → t.chip.pins.perstN = false
  down : k = .hotReset ∨ k = .linkDown ∨ k = .perstN → testBit (rd t (pageBase .pcie 0 + 0x30)) 3 = true

section
variable {s v u : State} {k : PcieReset} (hkept : KeptByFlr s v)
include hkept

theorem clearVfs_resetOf : PcieResetOf s .vfEnableClear (clearVfs v) where
  vfs := clearVfs_clears v
  colls := by rw [show (clearVfs v).store = v.store from rfl, hkept.store]
  tables := by rw [show (clearVfs v).store = v.store from rfl, hkept.store]
  mem := hkept.mem
  chip _ := hkept.chip
  kept _ := hkept.pf
  pf h := absurd rfl h
  perst := nofun
  down h := by simp at h

theorem clearPf_resetOf : PcieResetOf s .pfFlr (clearPf (clearVfs v)) where
  vfs := clearVfs_clears v
  colls := (clearVfs_resetOf hkept).colls
  tables := (clearVfs_resetOf hkept).tables
  mem := hkept.mem
  chip _ := hkept.chip
  kept := nofun
  pf _ := ⟨rfl, rfl, rfl⟩
  perst := nofun
  down h := by simp at h

theorem raiseErr_resetOf (hk : k = .hotReset ∨ k = .linkDown ∨ k = .perstN) (hcl : ClearedLike v u)
    (hperst : k = .perstN → u.chip.pins.perstN = false) : PcieResetOf s k (raiseErr u .pcie 0 3) := by
  obtain ⟨hcap, hbit⟩ := raiseErr_linkDown u
  have hlinks : (raiseErr u .pcie 0 3).links = (clearPf (clearVfs v)).links := by rw [hcap]; exact hcl.links
  have hstore : (raiseErr u .pcie 0 3).store = v.store := by rw [hcap]; exact hcl.store
  exact {
    vfs := by rw [hlinks]; exact clearVfs_clears v
    colls := by rw [hstore, hkept.store]
    tables := by rw [hstore, hkept.store]
    mem := by rw [hcap]; exact hcl.mem.trans hkept.mem
    chip := fun h => by rcases hk with rfl | rfl | rfl <;> simp at h
    kept := fun h => by subst h; simp at hk
    pf := fun _ => by rw [hlinks]; exact ⟨rfl, rfl, rfl⟩
    perst := fun h => by rw [hcap]; exact hperst h
    down := fun _ => hbit }

end

theorem pcieReset_down (s : State) (k : PcieReset) (hk : k = .hotReset ∨ k = .linkDown ∨ k = .perstN) : PcieResetOf s k (pcieReset s k) := by
  obtain ⟨u, hu, hcl, hperst⟩ := pcieReset_linkDown s k hk
  rw [hu]
  exact raiseErr_resetOf (flrAll_keptByFlr s) hk hcl hperst

theorem pcieReset_resets (s : State) (k : PcieReset) : PcieResetOf s k (pcieReset s k) := by
  cases k with
  | vfEnableClear => exact clearVfs_resetOf (flrAll_keptByFlr s)
  | pfFlr => exact clearPf_resetOf (flrAll_keptByFlr s)
  | hotReset | linkDown | perstN => exact pcieReset_down s _ (by simp)

/-- Settles O6: each VF's reset by its tenant's rings, the end of one by its counter, and a reset of the link by what it adds to those of all
virtual functions. -/
theorem function_resets : Obligations.Function_resets := by
  unfold Obligations.Function_resets
  refine ⟨fun s i => ?_, fun s i hflr hf he => ?_, fun s k => ⟨pcieReset s k, rfl, ?_⟩⟩
  · refine ⟨_, rfl, ?_⟩
    obtain ⟨u, hu, hk, hs, hc⟩ := vfFlr_eq s i
    rw [hu]
    obtain ⟨hdb, hver⟩ := flrFinish_registers u i
    obtain ⟨hfl, htab, hpba⟩ := flrFinish_pciState u i
    have hsched : (flrFinish u i).sched = (flrStart s i.val).sched := hs
    have hstore : (flrFinish u i).store = { s.store with chans := u.store.chans } := hk.store
    refine ⟨fun d hd => ?_, fun f hf hp hi => ?_, hdb, hver, hfl, htab, hpba, by rw [hstore], by rw [hstore], by rw [hstore], by rw [hstore],
      fun c _ hi hsome => hc c hi hsome, hk.mem, hk.chip⟩
    · rw [hsched] at hd
      simpa using (List.mem_filter.mp hd).2
    · rw [hsched] at hf
      obtain ⟨g, -, rfl⟩ := List.mem_map.mp hf
      exact silenceFlight_silent i.val g hp hi
  · refine ⟨_, congrArg Host.Outcome.next (flrComplete_idle s i hflr hf he), ?_⟩
    obtain ⟨hregs, hrd⟩ := flrCounted s i
    refine ⟨?_, ?_, fun a ha ha' => hrd a (by simp [ha, ha']), ?_⟩
    · rw [hregs]
      exact congrArg PciState.flr (pciState_setPciState s (.vf i) { pciState s (.vf i) with flr := false })
    · rw [rd_raiseEvt_ne _ _ (by decide), rd_count, if_pos rfl]
      rfl
    · rw [hregs]
      rfl
  · obtain ⟨hvfs, hcolls, htables, hmem, hchip, hpf, hpf', hperst, hdown⟩ := pcieReset_resets s k
    exact ⟨hvfs, hcolls, htables, hmem, hchip, hpf, hpf', hperst, hdown⟩

end Sys2Proof.Machine


/-! PROOFS. Fabric ports: one port, the table writes (R459 to R462), training, loss and LANE_EN (R440, R450, R451, R474), frames sent and frames
refused (R441, R446, R449, R461). -/
namespace Sys2Proof.Machine

/-! ## One port -/

theorem port_updPort {s : State} {p : Nat} (f : Port → Port) (hp : p < s.links.ports.length) : port (updPort s p f) p = f (port s p) :=
  getD_updAt f Port.reset hp

theorem port_updPort_ne (s : State) {p q : Nat} (f : Port → Port) (h : q ≠ p) : port (updPort s p f) q = port s q :=
  getD_updAt_ne f Port.reset h

theorem updPort_updPort (s : State) (p : Nat) (f g : Port → Port) : updPort (updPort s p f) p g = updPort s p (g ∘ f) := by
  unfold updPort
  rw [updAt_updAt]

theorem updPort_congr {s : State} {p : Nat} {f g : Port → Port} (h : f (port s p) = g (port s p)) :
    updPort s p f = updPort s p g := by
  unfold updPort
  rw [updAt_congr fun x hx => ?_]
  have hx' : port s p = x := by rw [port, List.getD, hx, Option.getD_some]
  rw [← hx', h]

/-- A command that sets one port, and nothing else. -/
theorem updPort_sets {s : State} {p : Nat} {f : Port → Port} {x : Port} (hp : p < s.links.ports.length) (hx : f (port s p) = x) :
    port (updPort s p f) p = x ∧ updPort s p f = updPort s p fun _ => port (updPort s p f) p :=
  ⟨(port_updPort f hp).trans hx, updPort_congr (port_updPort f hp).symm⟩

theorem eq_updPort_port {s : State} {p : Nat} (hp : p < s.links.ports.length) : s = updPort s p fun _ => port s p := by
  have h : updAt s.links.ports p (fun _ => port s p) = s.links.ports := by
    refine List.ext_getElem? fun i => ?_
    rw [updAt_getElem?]
    split
    · next hi => rw [← hi, List.getElem?_eq_getElem hp, Option.map_some, port, List.getD, List.getElem?_eq_getElem hp, Option.getD_some]
    · rfl
  unfold updPort
  rw [h]

/-! ## Table writes -/

section
variable {s : State} {p : Nat} (hw : (port s p).waitWrite = none)
include hw

/-- A route write whose next generation is bound waits. -/
theorem startWrite_bound {i : Nat} {v : Bool} {m : BitVec 48}
    (hb : boundTo (port s p) i ((((Tbl.get (port s p).routes i).getD ⟨false, 0, 0⟩).gen + 1) % 16) = true) :
    startWrite s p (.route i v m) = updPort s p fun t => { t with waitWrite := some (.route i v m) } := by
  simp only [startWrite, hw, hb, ite_true]

theorem startWrite_free {i : Nat} {v : Bool} {m : BitVec 48}
    (hb : boundTo (port s p) i ((((Tbl.get (port s p).routes i).getD ⟨false, 0, 0⟩).gen + 1) % 16) = false) :
    startWrite s p (.route i v m) = updPort s p fun t => completeWrite t (.route i v m) := by
  simp only [startWrite, hw, hb, Bool.false_eq_true, ite_false]

theorem startWrite_cls {i : Nat} {e : ClassEntry} : startWrite s p (.cls i e) = updPort s p fun t => completeWrite t (.cls i e) := by
  simp only [startWrite, hw, Bool.false_eq_true, ite_false]

end

theorem startWrite_waiting {s : State} {p : Nat} (h : (port s p).waitWrite.isSome = true) (w : TableWrite) : startWrite s p w = s := by
  obtain ⟨x, hx⟩ := Option.isSome_iff_exists.mp h
  simp only [startWrite, hx]

theorem completeWrite_route {x : Port} (hw : x.waitWrite = none) (i : Nat) (v : Bool) (m : BitVec 48) :
    completeWrite x (.route i v m) =
      { x with routes := Tbl.set x.routes i ⟨v, (((Tbl.get x.routes i).getD ⟨false, 0, 0⟩).gen + 1) % 16, m⟩ } := by
  obtain ⟨⟩ := x
  subst hw
  rfl

/-- TABLE_WRITE_COMPLETE tries the waiting write again, on the port without it. -/
theorem tableWriteComplete_again {s : State} {p : Nat} {w : TableWrite} (hw : (port s p).waitWrite = some w) :
    tableWriteComplete s p = startWrite (updPort s p fun t => { t with waitWrite := none }) p w := by
  simp only [tableWriteComplete, hw]

theorem completeWrite_cls {x : Port} (hw : x.waitWrite = none) (i : Nat) (e : ClassEntry) :
    completeWrite x (.cls i e) = { x with classes := Tbl.set x.classes i { e with
      gen := ((match Tbl.get x.classes i with | some y => y.gen | none => 0) + 1) % 16 } } := by
  obtain ⟨⟩ := x
  subst hw
  rfl

theorem exec_tableWriteComplete {s : State} {p : Fin 4} {f : Port → Port} (hrb : s.links.readbacks = []) (hfm : s.links.fmHeld = [])
    (h : tableWriteComplete s p.val = updPort s p.val f) : exec (.tableWriteComplete p) s = .next (updPort s p.val f) := by
  show Host.Outcome.next (answerReadbacks (tableWriteComplete s p.val)) = _
  rw [h, answerReadbacks_none (s := updPort s p.val f) hfm hrb]

/-- Settles O37: a write starts, waits, or completes by whether a queued frame is bound to the generation that it takes. -/
theorem table_writes_wait_for_bound_frames : Obligations.Table_writes_wait_for_bound_frames := by
  unfold Obligations.Table_writes_wait_for_bound_frames
  intro s p hlen x i e old j a
  have hp : p.val < s.links.ports.length := by omega
  refine ⟨fun hw hi hb => ?_, fun hw hi hb => ?_, fun hw => ?_, fun hw => ?_, fun k v m hw hrb hfm => ⟨fun hb => ?_, fun hb => ?_⟩⟩
  · refine ⟨updPort s p.val fun t => completeWrite t (.route i (bitsOf e 63 63 == 1) (BitVec.ofNat 48 (bitsOf e 47 0))), ?_,
      updPort_sets hp (completeWrite_route hw _ _ _)⟩
    show Host.Outcome.next (routeWrite s p.val) = _
    rw [routeWrite, if_pos hi, startWrite_free hw hb]
  · refine ⟨updPort s p.val fun t => { t with waitWrite := some (.route i (bitsOf e 63 63 == 1) (BitVec.ofNat 48 (bitsOf e 47 0))) }, _, ?_,
      updPort_sets hp rfl⟩
    show Host.Outcome.next (routeWrite s p.val) = _
    rw [routeWrite, if_pos hi, startWrite_bound hw hb]
  · refine ⟨congrArg Host.Outcome.next ?_, congrArg Host.Outcome.next (startWrite_waiting hw (.cls _ _))⟩
    rw [routeWrite]
    split
    · exact startWrite_waiting hw _
    · rfl
  · let c : ClassEntry := ⟨BitVec.ofNat 64 (rd64 s (Reg.port.CLASS_KEY p.val)), BitVec.ofNat 64 (rd64 s (Reg.port.CLASS_MASK p.val)),
      testBit a 31, 0, fld a 23 16, fld a 1 0⟩
    obtain ⟨hport, hset⟩ := updPort_sets (f := fun t => completeWrite t (.cls j c)) hp (completeWrite_cls hw j c)
    exact ⟨_, _, congrArg Host.Outcome.next (startWrite_cls hw), hport, Nat.mod_eq_of_lt (rd64_lt _ _),
      Nat.mod_eq_of_lt (rd64_lt _ _), rfl, rfl, rfl, rfl, hset⟩
  · have hfree : (port (updPort s p.val fun t => { t with waitWrite := none }) p.val) = { x with waitWrite := none } := port_updPort _ hp
    have hx : { x with waitWrite := some (.route k v m) } = x := by rw [← hw]
    have ht : tableWriteComplete s p.val = updPort s p.val fun t => { t with waitWrite := some (.route k v m) } := by
      rw [tableWriteComplete_again hw, startWrite_bound (by rw [hfree]) (by rw [hfree]; exact hb), updPort_updPort]
      rfl
    exact ⟨_, exec_tableWriteComplete hrb hfm ht, updPort_sets hp hx⟩
  · have hfree : (port (updPort s p.val fun t => { t with waitWrite := none }) p.val) = { x with waitWrite := none } := port_updPort _ hp
    have ht : tableWriteComplete s p.val = updPort s p.val fun t => completeWrite { t with waitWrite := none } (.route k v m) := by
      rw [tableWriteComplete_again hw, startWrite_free (by rw [hfree]) (by rw [hfree]; exact hb), updPort_updPort]
      rfl
    exact ⟨_, exec_tableWriteComplete hrb hfm ht, updPort_sets hp rfl⟩

/-! ## A step of one port -/

/-- `t` is `s` with port `p` at `x`, and beside it registers that `P` allows. -/
structure SetsPort (s t : State) (p : Nat) (x : Port) (P : Nat → Prop) : Prop where
  self : port t p = x
  others : ∀ q, q ≠ p → port t q = port s q
  lt : p < t.links.ports.length
  eq : t = { s with regs := t.regs, links := { s.links with ports := t.links.ports } }
  rd : ∀ a, ¬ P a → rd t a = rd s a

namespace SetsPort
variable {s t u : State} {p : Nat} {x : Port} {P : Nat → Prop}

theorem refl (hp : p < s.links.ports.length) : SetsPort s s p (port s p) P := ⟨rfl, fun _ _ => rfl, hp, rfl, fun _ _ => rfl⟩

theorem upd (h : SetsPort s t p x P) (f : Port → Port) : SetsPort s (updPort t p f) p (f x) P where
  self := by rw [port_updPort f h.lt, h.self]
  others q hq := (port_updPort_ne t f hq).trans (h.others q hq)
  lt := by rw [updPort_links, updAt_length]; exact h.lt
  eq := by rw [updPort, h.eq]
  rd := h.rd

theorem regs (h : SetsPort s t p x P) (k : RegsWithin P t u) : SetsPort s u p x P := by
  have hports : u.links = t.links := by rw [k.eq]
  refine ⟨?_, fun q hq => ?_, by rw [hports]; exact h.lt, ?_, fun a ha => (k.rd a ha).trans (h.rd a ha)⟩
  · rw [port, hports]
    exact h.self
  · rw [port, hports]
    exact h.others q hq
  · rw [k.eq, h.eq]

theorem onlyRegs {l : List Nat} (h : SetsPort s t p x (· ∈ l)) : OnlyRegs { s with links := { s.links with ports := t.links.ports } } t l :=
  ⟨h.eq, h.rd⟩

theorem mono {Q : Nat → Prop} (h : SetsPort s t p x P) (hPQ : ∀ a, P a → Q a) : SetsPort s t p x Q :=
  ⟨h.self, h.others, h.lt, h.eq, fun a ha => h.rd a fun hp => ha (hPQ a hp)⟩

end SetsPort

/-! ## Training, loss, LANE_EN -/

/-- A port that has left service, in state `st`: no lane in use, nothing queued. -/
def Port.out (x : Port) (st : Nat) : Port :=
  { x with st := st, used := 0, ver := 0, queues := [[], [], [], [], []], held := [], sending := none }

theorem leaveUp_up {s : State} {p : Nat} (st : Nat) (hp : p < s.links.ports.length) (hup : (port s p).isUp = true) :
    SetsPort s (leaveUp s p st) p ((port s p).out st) (· ∈ [Reg.port.TX_DISCARD p, pageBase .port p + 0x28]) := by
  unfold leaveUp
  extract_lets t s1 n s2
  rw [if_pos hup]
  have h1 : SetsPort s s1 p { port s p with st := st, used := 0, ver := 0 } (· ∈ [Reg.port.TX_DISCARD p, pageBase .port p + 0x28]) :=
    (SetsPort.refl hp).upd _
  exact ((h1.regs (.countBy (by simp))).upd _).regs (.raiseEvt (by simp))

theorem portTrained_trains {s : State} {p n : Nat} {m : BitVec 4} (hp : p < s.links.ports.length) (hst : (port s p).st = 1)
    (hm : lanesFor n (laneEn s p) (port s p).badLane = some m) :
    SetsPort s (portTrained s p n) p { port s p with st := 2, used := m, ver := 0 } (· ∈ [pageBase .port p + 0x28]) := by
  have hn : n ≠ 0 := by rintro rfl; simp [lanesFor] at hm
  rw [portTrained, if_neg (by simp [hst]), if_neg hn, hm]
  have h1 : SetsPort s (updPort s p fun t => { t with st := 2, used := m, ver := 0 }) p { port s p with st := 2, used := m, ver := 0 }
      (· ∈ [pageBase .port p + 0x28]) := (SetsPort.refl hp).upd _
  dsimp only
  split
  · exact h1.regs (.raiseEvt (by simp))
  · exact h1

theorem startFrame_serving {s : State} {p q : Nat} (h : (port s p).sending = some q) : startFrame s p = s := by
  simp only [startFrame, h]

theorem startFrame_starts {s : State} {p q : Nat} {r : List Nat} (h : (port s p).sending = none) (hq : nextQueue s (port s p) = some (q, r)) :
    startFrame s p = updPort s p fun t => { t with sending := some q, round := r } := by
  simp only [startFrame, h, hq]

theorem startFrame_idle {s : State} {p : Nat} (hq : nextQueue s (port s p) = none) : startFrame s p = s := by
  simp only [startFrame, hq]
  split <;> trivial

/-- The control queue is served first (R449). -/
theorem nextQueue_control (s : State) {t : Port} (h : t.queues.getD 0 [] ≠ []) : nextQueue s t = some (0, t.round) := by
  unfold nextQueue
  extract_lets has serve
  have h0 : has 0 = true := by
    unfold has
    rw [List.isEmpty_eq_false_iff.mpr h]
    rfl
  rw [if_pos h0]

/-- A control frame enters the control queue, and goes out next on a port that transmits nothing. -/
theorem pushEgress_control {s : State} {p : Nat} {f : EgFrame} (hp : p < s.links.ports.length) (hf : egressQueue f = 0)
    (hroom : ((port s p).queues.getD 0 []).length < 256) (hlen : 0 < (port s p).queues.length) :
    pushEgress s p f = updPort s p fun y => { y with queues := updAt y.queues 0 (· ++ [f]), sending := some (y.sending.getD 0) } := by
  have hport := port_updPort (s := s) (fun t => { t with queues := updAt t.queues 0 (· ++ [f]) }) hp
  have hq : (updAt (port s p).queues 0 (· ++ [f])).getD 0 [] ≠ [] := by
    rw [getD_updAt _ _ hlen]
    exact List.append_ne_nil_of_right_ne_nil _ (List.cons_ne_nil _ _)
  simp only [pushEgress, hf, if_pos hroom]
  cases hs : (port s p).sending with
  | none =>
    rw [startFrame_starts (by rw [hport]; exact hs) (nextQueue_control _ (by rw [hport]; exact hq)), updPort_updPort]
    refine updPort_congr ?_
    simp only [Function.comp, hport, hs, Option.getD_none]
  | some q =>
    rw [startFrame_serving (by rw [hport]; exact hs)]
    refine updPort_congr ?_
    rw [hs, Option.getD_some, ← hs]

theorem egressQueue_hello (s : State) (p : Nat) : egressQueue (helloFrame s p) = 0 := rfl

theorem portLinkLoss_down {s : State} {p : Nat} (lane : Option (Fin 4)) (hp : p < s.links.ports.length) (hp4 : p < 4) (hst : (port s p).st = 3)
    (hmask : testBit (rd s (pageBase .port p + 0x34)) 0 = true) :
    SetsPort s (portLinkLoss s p lane) p { (port s p).out 1 with badLane := lane }
        (· ∈ [Reg.port.TX_DISCARD p, pageBase .port p + 0x28, pageBase .port p + 0x30, pageBase .port p + 0x3C]) ∧
      testBit (rd (portLinkLoss s p lane) (pageBase .port p + 0x30)) 0 = true := by
  have hup : (port s p).isUp = true := by rw [Port.isUp, hst]; rfl
  have hleave := leaveUp_up 1 hp hup
  have hmask' : testBit (rd (leaveUp s p 1) (pageBase .port p + 0x34)) 0 = true := by
    rw [hleave.rd _ (by simp only [Reg.port.TX_DISCARD, pageBase, List.mem_cons, List.not_mem_nil, or_false]; omega), hmask]
  have herr := raiseErr_masked_regs (s := leaveUp s p 1) (p := .port) (n := p) (bit := 0) hmask' (by decide)
  rw [portLinkLoss, if_pos hup]
  refine ⟨((hleave.mono fun a ha => ?_).regs (herr.mono fun a ha => ?_)).upd fun t => { t with badLane := lane }, ?_⟩
  · exact List.mem_append_left [_, _] ha
  · exact List.mem_append_right [_, _] ha
  rw [updPort_rd, (raiseErr_page (by simp only [pageBase]; omega) (by simp only [pageBase]; omega) (by decide)).1, testBit_setBit]
  simp

theorem laneEn_wr (s : State) (p : Nat) (v : BitVec 4) : laneEn (wr s (Reg.port.LANE_EN p) (v.setWidth 32)) p = v := by
  rw [laneEn, rdf_wr_self]
  refine BitVec.eq_of_toNat_eq ?_
  simp [fld, bitsOf]
  omega

/-- In hall mode, no C0 fault latched, LANE_EN without a lane in use takes the port out of service. -/
theorem writeLaneEn_out {s : State} {p : Nat} {v : BitVec 4} (hp : p < s.links.ports.length) (hhall : s.hall = true) (hc0 : s.c0 = false)
    (hst : (port s p).st = 3) (hused : (port s p).used &&& v ≠ (port s p).used) :
    SetsPort (wr s (Reg.port.LANE_EN p) (v.setWidth 32)) (writeLaneEn s p v) p
      { (port s p).out (if v = 0 then 5 else 1) with badLane := none } (· ∈ [Reg.port.TX_DISCARD p, pageBase .port p + 0x28]) := by
  have hup : (port s p).isUp = true := by rw [Port.isUp, hst]; rfl
  simp only [writeLaneEn]
  rw [if_neg (by simp [hhall, hc0]), if_pos ⟨hup, hused⟩]
  exact (leaveUp_up (s := wr s (Reg.port.LANE_EN p) (v.setWidth 32)) _ hp hup).upd fun t => { t with badLane := none }

/-- LANE_EN from 0x0 to non-zero starts training at once. -/
theorem writeLaneEn_trains {s : State} {p : Nat} {v : BitVec 4} (hhall : s.hall = true) (hc0 : s.c0 = false) (hold : laneEn s p = 0) (hv : v ≠ 0)
    (hst : (port s p).st ≠ 3) : writeLaneEn s p v =
      updPort (wr s (Reg.port.LANE_EN p) (v.setWidth 32)) p fun t => { t with st := 1, used := 0, badLane := none } := by
  have hup : (port s p).isUp = false := by simpa [Port.isUp] using hst
  simp only [writeLaneEn]
  rw [if_neg (by simp [hhall, hc0]), if_neg (by simp [hup]), if_pos ⟨hold, hv, hup⟩]

/-! ## HELLO -/

theorem port_delivered {s : State} {f : Frame} (h : accepts s f) (p : Nat) : port (delivered s f) p = port s p := by
  rw [(delivered_regs h).eq]
  rfl

theorem delivered_ports {s : State} {f : Frame} (h : accepts s f) : (delivered s f).links = s.links := by rw [(delivered_regs h).eq]

/-- LINK_VER's two bounds: the versions that this node and the sender of a HELLO have in common (R451). -/
theorem rdf_delivered {s : State} {f : Frame} (h : accepts s f) {a : Nat} (ha : a < 0x10000) (hi lo : Nat) :
    rdf (delivered s f) a hi lo = rdf s a hi lo := by
  rw [rdf, rd_delivered h ha, rdf]

theorem hello_up {s : State} {f : Frame} (hp : f.port.val < s.links.ports.length) (hst : (port s f.port.val).st = 2)
    (hver : max (rdf s Reg.atrium.RILTIK_VER 15 8) (leAt f.body 0 1) ≤ min (rdf s Reg.atrium.RILTIK_VER 7 0) (leAt f.body 1 1))
    (hroom : ((port s f.port.val).queues.getD 0 []).length < 256) (hlen : 0 < (port s f.port.val).queues.length) :
    SetsPort s (hello s f) f.port.val { port s f.port.val with
        st := 3, ver := min (rdf s Reg.atrium.RILTIK_VER 7 0) (leAt f.body 1 1)
        queues := updAt (port s f.port.val).queues 0 (· ++ [helloFrame s f.port.val])
        sending := some ((port s f.port.val).sending.getD 0) } (· ∈ [pageBase .port f.port.val + 0x28]) := by
  simp only [hello]
  rw [if_neg (by simp [hst]), if_pos hver, pushEgress_control hp (egressQueue_hello _ _) hroom hlen]
  exact (((SetsPort.refl hp).upd _).upd _).regs (.raiseEvt (by simp))

theorem hello_fails {s : State} {f : Frame} (hp : f.port.val < s.links.ports.length) (hst : (port s f.port.val).st = 2)
    (hver : min (rdf s Reg.atrium.RILTIK_VER 7 0) (leAt f.body 1 1) < max (rdf s Reg.atrium.RILTIK_VER 15 8) (leAt f.body 0 1)) :
    SetsPort s (hello s f) f.port.val { port s f.port.val with st := 4 } (· ∈ [pageBase .port f.port.val + 0x28]) := by
  simp only [hello]
  rw [if_neg (by simp [hst]), if_neg (by omega)]
  exact ((SetsPort.refl hp).upd _).regs (.raiseEvt (by simp))

theorem exec_hello {s : State} {f : Frame} (htyp : f.typ = 0x01) (h : accepts s f) : exec (.hello f) s = .next (hello (delivered s f) f) :=
  congrArg Host.Outcome.next (receive_accepted _ htyp h)

/-- Settles O36: by the port's state, one lemma for each way that it comes up or goes down. -/
theorem ports_come_up_and_go_down : Obligations.Ports_come_up_and_go_down := by
  unfold Obligations.Ports_come_up_and_go_down
  intro s p hlen x ev
  have hp : p.val < s.links.ports.length := by omega
  refine ⟨fun n m hst hm => ?_, fun hst => ?_, fun lane hst hmask => ?_, fun hst hen => ?_, fun v => ⟨fun hhall => ?_, ?_, ?_⟩, ?_, ?_⟩
  · have h := portTrained_trains hp hst hm
    exact ⟨_, rfl, h.self, h.others, h.onlyRegs⟩
  · show Host.Outcome.next (portTrained s p.val 0) = _
    rw [portTrained, if_neg (by simp [x] at hst; simp [hst]), if_pos rfl]
  · obtain ⟨h, hbit⟩ := portLinkLoss_down lane hp p.isLt hst hmask
    exact ⟨_, rfl, h.self, h.others, hbit, h.onlyRegs⟩
  · show Host.Outcome.next (portRetrain s p.val) = _
    rw [portRetrain, if_pos ⟨hst.symm, hen⟩]
  · show Host.Outcome.next (writeLaneEn s p.val v) = _
    simp only [writeLaneEn]
    rw [if_pos (.inl hhall)]
  · intro hhall hc0 hst hused
    have h := writeLaneEn_out hp hhall hc0 hst hused
    refine ⟨_, rfl, by rw [h.self]; rfl, by rw [h.self]; rfl, by rw [h.self]; rfl, ?_⟩
    rw [laneEn, rdf, h.rd _ (by simp [Reg.port.LANE_EN, Reg.port.TX_DISCARD, pageBase]; omega)]
    exact laneEn_wr s p.val v
  · intro hhall hc0 hold hv hst
    refine ⟨_, congrArg Host.Outcome.next (writeLaneEn_trains hhall hc0 hold hv hst), ?_, laneEn_wr s p.val v⟩
    exact congrArg Port.st (port_updPort (s := wr s (Reg.port.LANE_EN p.val) (v.setWidth 32)) _ hp)
  · intro hroom hst hqs
    show Host.Outcome.next (if (port s p.val).st = 2 then _ else _) = _
    have hqs' : 0 < (port s p.val).queues.length := lt_of_lt_of_eq (by decide) hqs.symm
    rw [if_pos hst, pushEgress_control hp (egressQueue_hello _ _) hroom hqs']
  · intro f htyp hport hacc hst u lo hi
    subst hport
    have hpu : f.port.val < u.links.ports.length := by rw [delivered_ports hacc]; exact hp
    have hx : port u f.port.val = x := port_delivered hacc _
    have hlo : rdf u Reg.atrium.RILTIK_VER 15 8 = rdf s Reg.atrium.RILTIK_VER 15 8 := rdf_delivered hacc (by decide) _ _
    have hhi : rdf u Reg.atrium.RILTIK_VER 7 0 = rdf s Reg.atrium.RILTIK_VER 7 0 := rdf_delivered hacc (by decide) _ _
    refine ⟨fun hver hroom hqs => ?_, fun hver => ?_⟩
    · have h := hello_up (s := u) (f := f) hpu (by rw [hx]; exact hst) (by rw [hlo, hhi]; exact hver) (by rw [hx]; exact hroom) (by rw [hx]; omega)
      rw [hx, hhi] at h
      exact ⟨_, exec_hello htyp hacc, h.self, h.onlyRegs⟩
    · have h := hello_fails (s := u) (f := f) hpu (by rw [hx]; exact hst) (by rw [hlo, hhi]; exact hver)
      rw [hx] at h
      exact ⟨_, exec_hello htyp hacc, h.self, h.onlyRegs⟩

end Sys2Proof.Machine


/-! PROOFS. Frames sent and frames refused (R441, R446, R449, R461), NODE_ID (R473) and the levels (R456). -/
namespace Sys2Proof.Machine

/-! ## A frame leaves -/

theorem nextQueue_empty (s : State) {t : Port} (h : ∀ i, t.queues.getD i [] = []) : nextQueue s t = none := by
  unfold nextQueue
  extract_lets has serve
  have hhas : ∀ q, has q = false := fun q => by unfold has; rw [h q]; rfl
  simp [hhas]

theorem startFrame_sets {s t : State} {p : Nat} {x : Port} {P : Nat → Prop} (h : SetsPort s t p x P) :
    ∃ sending round, SetsPort s (startFrame t p) p { x with sending := sending, round := round } P ∧
      (x.sending = none → x.queues.getD 0 [] ≠ [] → sending = some 0) ∧
      (x.sending = none → (∀ i, x.queues.getD i [] = []) → sending = none) := by
  cases hs : x.sending with
  | some q =>
    rw [startFrame_serving (by rw [h.self]; exact hs)]
    exact ⟨x.sending, x.round, h, nofun, nofun⟩
  | none =>
    cases hq : nextQueue t x with
    | none =>
      rw [startFrame_idle (by rw [h.self]; exact hq)]
      exact ⟨x.sending, x.round, h, fun _ hne => absurd hq (by rw [nextQueue_control t hne]; nofun), fun _ _ => hs⟩
    | some qr =>
      rw [startFrame_starts (by rw [h.self]; exact hs) (by rw [h.self]; exact hq)]
      refine ⟨_, _, h.upd _, fun _ hne => ?_, fun _ hemp => absurd hq (by rw [nextQueue_empty t hemp]; nofun)⟩
      rw [nextQueue_control t hne] at hq
      cases hq
      rfl

/-- A port without a held push releases none. -/
theorem releaseHeld_none {s : State} {p : Nat} (q : Nat) (h : (port s p).held = []) : releaseHeld s p q = s := by
  simp only [releaseHeld, h, List.find?_nil]

/-- The frame that leaves: on the wire, counted, its queue without it. -/
def sent (s : State) (p q : Nat) (f : EgFrame) (r : List EgFrame) : State :=
  transmit (updPort s p fun t => { t with queues := updAt t.queues q fun _ => r, sending := none }) p f

theorem frameTransmitted_sent {s : State} {p q : Nat} {f : EgFrame} {r : List EgFrame} (hp : p < s.links.ports.length)
    (hs : (port s p).sending = some q) (hq : (port s p).queues.getD q [] = f :: r) (hheld : (port s p).held = []) :
    frameTransmitted s p q = startFrame (sent s p q f r) p := by
  have hnone : (port (sent s p q f r) p).held = [] := (congrArg Port.held (port_updPort _ hp)).trans hheld
  simp only [frameTransmitted, hs, hq, beq_self_eq_true]
  exact congrArg (startFrame · p) (releaseHeld_none q hnone)

/-- Beside the wire, a frame that leaves moves its port and the port's counter. -/
theorem sent_sets {s : State} {p q : Nat} {f : EgFrame} {r : List EgFrame} (hp : p < s.links.ports.length) :
    SetsPort { s with links := { s.links with wire := s.links.wire ++ [(p, wireBytes s p f)] } } (sent s p q f r) p
      { port s p with queues := updAt (port s p).queues q fun _ => r, sending := none }
      (· ∈ [Reg.port.TX_FRAMES p, Reg.port.TX_FRAMES p + 4]) := by
  have h := ((SetsPort.refl (s := { s with links := { s.links with wire := s.links.wire ++ [(p, wireBytes s p f)] } })
    (P := (· ∈ [Reg.port.TX_FRAMES p, Reg.port.TX_FRAMES p + 4])) hp).upd
      fun t => { t with queues := updAt t.queues q fun _ => r, sending := none }).regs (.count64 (a := Reg.port.TX_FRAMES p) (by simp) (by simp))
  exact h

theorem frameTransmitted_other {s : State} {p q : Nat} (h : (port s p).sending ≠ some q ∨ (port s p).queues.getD q [] = []) :
    frameTransmitted s p q = s := by
  unfold frameTransmitted
  split
  · next f r hs hq =>
    rcases h with h | h
    · exact absurd (by simpa using hs) h
    · rw [h] at hq
      cases hq
  · rfl

/-! ## NODE_ID and the level -/

theorem fld_setBit_top (n : BitVec 15) : fld (setBit (n.setWidth 32) 31) 14 0 = n.toNat := by
  have h : ((n.setWidth 32).toNat ||| 2 ^ 31) % 2 ^ 15 = n.toNat := by
    rw [Nat.or_mod_two_pow, BitVec.toNat_setWidth, Nat.mod_eq_of_lt (a := n.toNat) (by omega), Nat.mod_eq_of_lt n.isLt,
      show (2 ^ 31 % 2 ^ 15 : Nat) = 0 from rfl, Nat.or_zero]
  exact h

theorem writeNodeId_first {s : State} (n : BitVec 15) (h : nodeIdValid s = false) :
    selfNode (writeNodeId s n) = n.toNat ∧ OnlyRegs s (writeNodeId s n) [Reg.atrium.NODE_ID, pageBase .atrium 0 + 0x28] := by
  have hw : writeNodeId s n = raiseEvt (wr s Reg.atrium.NODE_ID (setBit (n.setWidth 32) 31)) (pageBase .atrium 0) 5 := if_neg (by simp [h])
  have hrd : rd (writeNodeId s n) Reg.atrium.NODE_ID = setBit (n.setWidth 32) 31 := by
    rw [hw, rd_raiseEvt_ne _ _ (by decide), rd_wr_self]
  refine ⟨?_, ?_⟩
  · rw [selfNode, nodeIdValid, rdf, hrd, testBit_setBit]
    exact fld_setBit_top n
  · rw [hw]
    exact ((RegsWithin.wr _ (by simp)).trans (.raiseEvt (by simp))).onlyRegs

theorem hallLevelStep_sets (s : State) (high : Word) :
    let a := Reg.atrium.HALL_LEVEL_STEP
    let n := rdf s Reg.atrium.HALL_LEVEL_NEXT 7 0
    let t := hallLevelStep s high
    rd t (a + 4) = high &&& 0xFFFF ∧ rd t a = (Tbl.get s.staged a).getD (rd s a) ∧ Tbl.get t.staged a = none ∧
      OnlyRegs { s with staged := t.staged, step := t.step } t [a, a + 4, pageBase .atrium 0 + 0x28] ∧
      t.step = if s.hall = false ∨ n < rdf s Reg.atrium.FEATURE_LEVEL 15 8 ∨ rdf s Reg.atrium.FEATURE_LEVEL 7 0 < n then s.step
        else { s.step with levelArmed := some (BitVec.ofNat 8 n) } := by
  intro a n t
  let low := (Tbl.get s.staged a).getD (rd s a)
  let s0 := wr (wr s a low) (a + 4) (high &&& 0xFFFF)
  let s1 : State := { s0 with staged := Tbl.del s0.staged a }
  have hlow : rd s1 a = low := (rd_wr_ne _ _ (by decide)).trans (rd_wr_self _ _ _)
  have hhigh : rd s1 (a + 4) = high &&& 0xFFFF := rd_wr_self _ _ _
  have hst : Tbl.get s1.staged a = none := Tbl.get_del_self _ _
  have honly : RegsWithin (· ∈ [a, a + 4, pageBase .atrium 0 + 0x28]) { s with staged := s1.staged } s1 :=
    ⟨rfl, ((RegsWithin.wr (P := (· ∈ [a, a + 4, pageBase .atrium 0 + 0x28])) low (by simp)).trans (.wr _ (by simp))).rd⟩
  have ht : t = if s.hall = false then s1
      else if n < rdf s Reg.atrium.FEATURE_LEVEL 15 8 ∨ rdf s Reg.atrium.FEATURE_LEVEL 7 0 < n then raiseEvt s1 (pageBase .atrium 0) 7
      else { s1 with step := { s1.step with levelArmed := some (BitVec.ofNat 8 n) } } := rfl
  clear_value t
  subst ht
  split
  · next hcard => exact ⟨hhigh, hlow, hst, honly.onlyRegs, by rw [if_pos (.inl hcard)]; rfl⟩
  · next hhall =>
    split
    · next hout =>
      have hregs := raiseEvt_regs s1 (pageBase .atrium 0) 7
      refine ⟨?_, ?_, ?_, ?_, ?_⟩
      · rw [rd_raiseEvt_ne _ _ (by decide), hhigh]
      · rw [rd_raiseEvt_ne _ _ (by decide), hlow]
      · rw [hregs]
        exact hst
      · have h := honly.trans (u := raiseEvt s1 (pageBase .atrium 0) 7) (.raiseEvt (by simp))
        rw [hregs] at h ⊢
        exact h.onlyRegs
      · rw [hregs, if_pos (.inr hout)]
        rfl
    · next hin =>
      refine ⟨hhigh, hlow, hst, ⟨rfl, honly.rd⟩, ?_⟩
      rw [if_neg (by tauto)]
      rfl

/-! ## A frame refused -/

theorem exec_dropped_accepted {s : State} {f : Frame} (h : accepts s f) : exec (.receivedFrameDropped f) s = .next s := by
  show Host.Outcome.next (if (ingress s f).2 = true then s else (ingress s f).1) = _
  rw [if_pos (by exact h)]

theorem exec_dropped_refused {s : State} {f : Frame} (h : ¬accepts s f) : exec (.receivedFrameDropped f) s = .next (delivered s f) := by
  show Host.Outcome.next (if (ingress s f).2 = true then s else (ingress s f).1) = _
  rw [if_neg (by exact h)]
  rfl

/-- A frame that a check drops leaves the state that the check leaves. -/
theorem exec_dropped {s t : State} {f : Frame} (h : ingress s f = (t, false)) : exec (.receivedFrameDropped f) s = .next t := by
  rw [exec_dropped_refused (by rw [accepts, h]; nofun), delivered, h]

section
variable {s : State} {f : Frame} (hhall : s.hall = true)
include hhall

theorem ingress_tagged (htag : f.tagged = true) : ingress s f = (count s (Reg.port.TYPE_DROP f.port.val), false) := by
  simp only [ingress, hhall, htag, Bool.true_eq_false, ite_false, ite_true]

/-- A frame that passes the checks before that of its destination, on an UP port, counts in MISDELIVER where it is for another node. -/
theorem ingress_misdelivered (htag : f.tagged = false) (hfcs : f.fcsOk = true) (hmin : 64 ≤ f.size) (hmax : f.size ≤ 9216)
    (hety : f.etherType.toNat = rdf s Reg.atrium.RILTIK_ETHERTYPE 15 0) (hcrc : f.crcGood = true)
    (hlo : rdf s Reg.atrium.RILTIK_VER 15 8 ≤ f.u 0 1) (hhi : f.u 0 1 ≤ rdf s Reg.atrium.RILTIK_VER 7 0) (htyp : f.typ ≠ 0x01)
    (hup : (port s f.port.val).isUp = true) (hself : f.u 6 2 ≠ selfNode s) (hall : f.u 6 2 ≠ 0xFFFF) :
    ingress s f = (count s (Reg.port.MISDELIVER f.port.val), false) := by
  have hsize : ¬(f.size < 64 ∨ 9216 < f.size) := by omega
  have hver : ¬(f.u 0 1 < rdf s Reg.atrium.RILTIK_VER 15 8 ∨ rdf s Reg.atrium.RILTIK_VER 7 0 < f.u 0 1) := by omega
  have hdst : ¬(f.u 6 2 = 0xFFFF ∧ f.typ = 0x08) ∧ ¬(nodeIdValid s = true ∧ f.u 6 2 = selfNode s) := ⟨fun h => hall h.1, fun h => hself h.2⟩
  simp only [ingress, hhall, htag, hfcs, hcrc, hup, Bool.true_eq_false, Bool.false_eq_true, ite_false, if_neg hsize,
    if_neg (not_not.mpr hety), if_neg hver, if_neg htyp, if_pos hdst]

end

/-- Settles O38: the frame at the head leaves and the next one begins; the ingress checks answer for the others; NODE_ID and the level by their
registers. -/
theorem frames_leave_and_are_refused : Obligations.Frames_leave_and_are_refused := by
  unfold Obligations.Frames_leave_and_are_refused
  intro s p hlen
  have hp : p.val < s.links.ports.length := by omega
  refine ⟨fun q f r hs hq hheld => ?_, fun q h => congrArg Host.Outcome.next (frameTransmitted_other h), fun f => ⟨exec_dropped_accepted,
    exec_dropped_refused, fun hcard => ?_, fun hhall hport htag => ?_, ?_⟩, fun n => ⟨fun h => ?_, fun h => ?_⟩, fun high => ?_⟩
  · obtain ⟨g, r', h, hctl, hnone⟩ := startFrame_sets (sent_sets (q := q.val) (f := f) (r := r) hp)
    refine ⟨_, congrArg Host.Outcome.next (frameTransmitted_sent hp hs hq hheld), by rw [h.eq], by rw [h.self], fun hne => ?_, fun hemp => ?_,
      h.others, ?_, ?_⟩
    · rw [h.self]
      exact hctl rfl hne
    · rw [h.self]
      exact hnone rfl hemp
    · have hcount : rd64 (sent s p.val q.val f r) (Reg.port.TX_FRAMES p.val) = (rd64 s (Reg.port.TX_FRAMES p.val) + 1) % 2 ^ 64 :=
        rd64_wr64 _ _ _ (Nat.mod_lt _ (by decide))
      have hrd (a : Nat) : rd (startFrame (sent s p.val q.val f r) p.val) a = rd (sent s p.val q.val f r) a := by
        rw [rd, startFrame_regs, rd]
      exact (rd64_congr (hrd _) (hrd _)).trans hcount
    · exact ⟨h.eq.trans (by rw [h.eq]), h.rd⟩
  · exact exec_dropped (by rw [ingress]; simp [hcard])
  · subst hport
    exact exec_dropped (ingress_tagged hhall htag)
  · intro hhall hport htag hfcs hmin hmax hety hcrc hlo hhi htyp hup hself hall
    subst hport
    exact exec_dropped (ingress_misdelivered hhall htag hfcs hmin hmax hety hcrc hlo hhi htyp hup hself hall)
  · exact ⟨_, rfl, writeNodeId_first n h⟩
  · exact congrArg Host.Outcome.next (if_pos h)
  · intro a n ok
    obtain ⟨hhigh, hlow, hst, honly, hstep⟩ := hallLevelStep_sets s high
    refine ⟨_, rfl, hhigh, hlow, hst, fun hok => ?_, fun hno => ?_, honly⟩
    · rw [hstep, if_neg (by simp only [ok] at hok; rw [hok.1]; simp; omega)]
    · rw [hstep, if_pos (by by_contra hc; simp at hc; exact hno ⟨hc.1, hc.2.1, hc.2.2⟩)]

end Sys2Proof.Machine


/-! PROOFS. Requests of the fabric manager (R452, R453, R472). -/
namespace Sys2Proof.Machine

/-- Hall mode, node 1, whose port 0 is UP and admits every frame, but has no egress queue. -/
def queueless : State :=
  let x : Port := { Port.reset with st := 3, used := 0xF, ver := 1, classes := [(0, ⟨0, 0, true, 0, 0, 2⟩)], queues := [] }
  wr { State.reset with
    chip := { Chip.reset with pins := { Pins.reset with modeHall := true } }
    links := { Links.reset with ports := x :: List.replicate 3 Port.reset } } Reg.atrium.NODE_ID 0x80000001

/-- The header and payload of a write of 7 to address 0x1FC, one entry, from node 2 to node 1. -/
def deniedWriteBytes : List Byte := frameBytes 1 0x08 0 0 2 1 0 0 (zeros 4 ++ [2, 1, 0, 0] ++ toLe 4 0x1FC ++ [4, 0, 0, 0] ++ toLe 8 7)

def deniedWrite : Frame := ⟨0, true, 64, false, 0x88B5, 0, deniedWriteBytes.take 32, deniedWriteBytes.drop 32⟩

/-- The frames in the control queue of port 0 that a command leaves. -/
def controlFrames : Host.Outcome State Fault Refusal → Nat
  | .next t => ((port t 0).queues.getD 0 []).length
  | _ => 0

theorem accepts_deniedWrite : accepts queueless deniedWrite := by
  unfold accepts
  decide +kernel

theorem controlFrames_deniedWrite : controlFrames (exec (.fmReqWrite deniedWrite) queueless) = 0 := by decide +kernel

/-- Refutes O39, by its last clause. The answer of a denied write is pushed into queue 0 of the ingress port, and the clause counts it there; but it
asks only that fewer than 256 frames wait in that queue, and not that the port has its five queues (R449), as O36 does. Where the list of queues is
empty a push adds nothing. -/
theorem not_the_fabric_manager_reads_and_writes : ¬ Obligations.The_fabric_manager_reads_and_writes := by
  unfold Obligations.The_fabric_manager_reads_and_writes
  intro h
  obtain ⟨-, -, -, -, -, hdenied⟩ := h queueless deniedWrite (by decide) accepts_deniedWrite rfl
  obtain ⟨t, hexec, -, -, -, -, -, hlen⟩ := hdenied ⟨0x1FC, 4, 7⟩ (by decide) (by decide) (by decide) (by decide)
  have hnone : ((port t 0).queues.getD 0 []).length = 0 := (congrArg controlFrames hexec).symm.trans controlFrames_deniedWrite
  have hone : ((port t 0).queues.getD 0 []).length = ((port queueless 0).queues.getD 0 []).length + 1 := hlen
  omega

end Sys2Proof.Machine


/-! PROOFS. GONE and shadow frames (R485, R512). -/
namespace Sys2Proof.Machine

/-! ## The gone set -/

/-- The gone set with a node in it, newest last, at most 1,024 (R485). -/
def goneWith (l : List (Nat × Nat)) (n at_ : Nat) : List (Nat × Nat) :=
  let g := l.filter (·.1 ≠ n) ++ [(n, at_)]
  g.drop (g.length - 1024)

theorem mem_goneWith (l : List (Nat × Nat)) (n at_ : Nat) : (n, at_) ∈ goneWith l n at_ := by
  simp only [goneWith, List.length_append, List.length_singleton]
  rw [List.drop_append_of_le_length (by omega)]
  exact List.mem_append_right _ (List.mem_singleton_self _)

theorem ownerGone_idle {s : State} (h : s.sched.flights = []) (n : Nat) : ownerGone s n = s := by
  unfold ownerGone
  rw [h, List.map_nil, ← h]

/-- A GONE of node `n` is noted and counted, before the flights and pairs that wait for the node. -/
def goneNoted (s : State) (n : Nat) : State :=
  raiseEvt (count (setFaults s fun x => { x with gone := goneWith s.faults.gone n s.ticks }) Reg.fault.GONE_RX) (pageBase .fault 0) 5

theorem goneNoted_regs (s : State) (n : Nat) : RegsWithin (· ∈ [Reg.fault.GONE_RX, pageBase .fault 0 + 0x28])
    (setFaults s fun x => { x with gone := goneWith s.faults.gone n s.ticks }) (goneNoted s n) :=
  (RegsWithin.count (by simp)).trans (.raiseEvt (by simp))

/-- What a GONE of node `n` does to the pairs and flights that wait for the node (R266, R303, R505). -/
def goneFelt (s : State) (n : Nat) : State :=
  let t := ((s.faults.pairs.filter fun p => p.2.streams && p.2.peer == n).map (·.1)).foldl goSolo s
  ownerGone ((t.sched.flights.flatMap fun x => (x.sent.filter fun y => y.node == n).map fun y => (x.id, y.shard)).foldl
    (fun t y => tryReplay t y.1 y.2 n) t) n

theorem gone_eq (s : State) (f : Frame) : gone s f = goneFelt (goneNoted s (f.src % 0x8000)) (f.src % 0x8000) := rfl

theorem goneFelt_idle {s : State} (hpairs : s.faults.pairs = []) (hflights : s.sched.flights = []) (n : Nat) : goneFelt s n = s := by
  simp only [goneFelt, hpairs, hflights, List.filter_nil, List.map_nil, List.foldl_nil, List.flatMap_nil]
  exact ownerGone_idle hflights n

theorem goneNoted_faults (s : State) (n : Nat) : (goneNoted s n).faults = { s.faults with gone := goneWith s.faults.gone n s.ticks } := by
  rw [(goneNoted_regs s n).eq]
  rfl

theorem goneNoted_sched (s : State) (n : Nat) : (goneNoted s n).sched = s.sched := by rw [(goneNoted_regs s n).eq, setFaults_sched]

/-- A GONE where no pair and no flight depends on its sender. -/
theorem gone_noted {s : State} {f : Frame} (hpairs : s.faults.pairs = []) (hflights : s.sched.flights = []) :
    gone s f = goneNoted s (f.src % 0x8000) := by
  rw [gone_eq]
  generalize f.src % 0x8000 = n
  refine goneFelt_idle ?_ ?_ n
  · rw [goneNoted_faults, hpairs]
  · rw [goneNoted_sched, hflights]

theorem goneNoted_takes (s : State) (n : Nat) :
    let t := goneNoted s n
    t.faults = { s.faults with gone := goneWith s.faults.gone n s.ticks } ∧ (n, s.ticks) ∈ t.faults.gone ∧
      rd t Reg.fault.GONE_RX = counted Reg.fault.GONE_RX (rd s Reg.fault.GONE_RX) ∧
      OnlyRegs { s with faults := t.faults } t [Reg.fault.GONE_RX, pageBase .fault 0 + 0x28] := by
  obtain ⟨heq, hrd⟩ := goneNoted_regs s n
  have hgone : (goneNoted s n).faults.gone = goneWith s.faults.gone n s.ticks := by rw [goneNoted_faults]
  refine ⟨goneNoted_faults s n, ?_, ?_, ?_, hrd⟩
  · rw [hgone]
    exact mem_goneWith s.faults.gone n s.ticks
  · rw [goneNoted, rd_raiseEvt_ne _ _ (by decide), rd_count, if_pos rfl, setFaults_rd]
  · rw [goneNoted_faults]
    exact heq

/-! ## Shadow work -/

/-- The node compares what the source forwards (R512). -/
def comparesShadow (s : State) : Prop := s.faults.nodeState = 2 ∨ (s.faults.nodeState = 3 ∧ testBit (rd s Reg.fault.SHADOW_CTRL) 8 = true)

/-- The sender is the source of the object that this node follows. -/
def followsSource (s : State) (f : Frame) : Bool :=
  s.faults.pairs.any fun p => p.2.role == 2 && p.2.peer == f.src && p.2.obj == objColl ((⟨f.body, true, false⟩ : Query).u 26 2)

theorem shadowQuery_ignored {s : State} {f : Frame} (hctl : queryCtlOk f.body = true) (h : ¬(followsSource s f = true ∧ comparesShadow s)) :
    shadowQuery s f = s := by
  unfold shadowQuery
  rw [if_neg (by simp [hctl])]
  exact if_neg h

theorem shadowQuery_part {s : State} {f : Frame} {x : Flight} (hctl : queryCtlOk f.body = true) (hmine : followsSource s f = true)
    (hon : comparesShadow s) (htake : takeQuery s ⟨f.body, true, false⟩ = .ok (addPart s x)) :
    shadowQuery s f = updPart (addPart s x) s.sched.nextFlight fun y => { y with cls := 3 } := by
  unfold shadowQuery
  rw [if_neg (by simp [hctl])]
  refine (if_pos ⟨hmine, hon⟩).trans ?_
  rw [htake]

/-- The part of the next number, and no other, is the one that a change of that number makes. -/
theorem updPart_addPart {s : State} {x : Flight} (g : Flight → Flight) (hid : x.id = s.sched.nextFlight)
    (hfree : ∀ y ∈ s.sched.parts, y.id ≠ s.sched.nextFlight) : updPart (addPart s x) s.sched.nextFlight g = addPart s (g x) := by
  have hold : s.sched.parts.map (fun y => if y.id = s.sched.nextFlight then g y else y) = s.sched.parts :=
    (List.map_congr_left fun y hy => if_neg (hfree y hy)).trans (List.map_id _)
  unfold updPart addPart
  rw [List.map_append, hold, List.map_singleton, if_pos hid]

/-- A comparison waits for the survivors of this shadow part. -/
def shadowWaits (s : State) (key : Nat) : Bool :=
  s.sched.parts.any fun x => match x.part with | some p => p.shadow && shadowKey p.coord p.flightNo p.shard == key | none => false

/-- The flight and shard that a SHADOW_RESULT is of. -/
def resultKey (b : List Byte) : Nat := shadowKey (leAt b 0 2 % 0x8000) (leAt b 4 4) (leAt b 16 2)

theorem compareShadow_waits {s : State} {k : Nat} (h : Tbl.get s.faults.graft.own k = none) : compareShadow s k = s := by
  simp only [compareShadow, h]

theorem shadowResult_taken {s : State} {f : Frame} (hctl : ctlOk f.body = true) (hown : Tbl.get s.faults.graft.own (resultKey f.body) = none) :
    shadowResult s f = if shadowWaits s (resultKey f.body) then
      setGraft s fun g => { g with results := Tbl.set g.results (resultKey f.body * 32 + leAt f.body 18 1) f.body } else s := by
  unfold shadowResult
  extract_lets b k wanted
  have hwanted : wanted = shadowWaits s (resultKey f.body) := by
    have hnone : Tbl.get s.faults.graft.own k = none := hown
    unfold wanted
    rw [hnone]
    rfl
  rw [if_neg (by simp [b, hctl]), hwanted]
  split
  · exact compareShadow_waits hown
  · rfl

/-- Settles O42: GONE by the gone set, a SHADOW_QUERY by whether the node compares, a SHADOW_RESULT by whether a comparison waits for it. -/
theorem gone_and_shadow_frames_are_taken : Obligations.Gone_and_shadow_frames_are_taken := by
  unfold Obligations.Gone_and_shadow_frames_are_taken
  intro s f hacc u b q mine key n gone_
  have hregs : RegsWithin (0x10000 ≤ ·) s u := delivered_regs hacc
  have hfaults : u.faults = s.faults := hregs.faults
  have hsched : u.sched = s.sched := hregs.sched
  have hticks : u.ticks = s.ticks := congrArg Step.ticks hregs.step
  have hmineu : followsSource u f = mine := by rw [followsSource, hfaults]
  have hctrl : rd u Reg.fault.SHADOW_CTRL = rd s Reg.fault.SHADOW_CTRL := rd_delivered hacc (by decide)
  refine ⟨fun htyp hpairs hflights => ?_, fun htyp hctl => ⟨fun hoff => ?_, fun c p hmine hst hc hp hr hfree => ?_⟩, fun htyp hctl hown => ?_⟩
  · have hexec : exec (.gone f) s = .next (goneNoted u (f.src % 0x8000)) :=
      congrArg Host.Outcome.next ((receive_accepted _ htyp hacc).trans (gone_noted (by rw [hfaults]; exact hpairs) (by rw [hsched]; exact hflights)))
    have h := goneNoted_takes u (f.src % 0x8000)
    rw [hfaults, hticks, rd_delivered hacc (show Reg.fault.GONE_RX < 0x10000 by decide)] at h
    exact ⟨_, hexec, h⟩
  · have hoff' : ¬(followsSource u f = true ∧ comparesShadow u) := by
      rintro ⟨hm, hon⟩
      rcases hoff with hno | ⟨hnot2, hnot3⟩
      · rw [hmineu, hno] at hm
        cases hm
      · rw [comparesShadow, hfaults, hctrl] at hon
        rcases hon with h2 | ⟨h3, hen⟩
        · exact hnot2 h2
        · rcases hnot3 with hnot | hdis
          · exact hnot h3
          · rw [hdis] at hen
            cases hen
    exact congrArg Host.Outcome.next ((receive_accepted _ htyp hacc).trans (shadowQuery_ignored hctl hoff'))
  · have hstore : u.store = s.store := by rw [hregs.eq]
    have hcu : Tbl.get u.store.colls q.coll = some c := by rw [hstore]; exact hc
    have hpu : planOf u (q.u 28 2) = some p := by rw [planOf, hsched]; exact hp
    have hquiesce : u.quiesce = s.quiesce := by rw [State.quiesce, rd_delivered hacc (by decide), State.quiesce]
    have hru : queryReason u q = 0 := (queryReason_congr q hregs.step hsched hfaults (by rw [hstore]) hquiesce).trans hr
    have hfreeu : ∀ y ∈ u.sched.parts, y.id ≠ u.sched.nextFlight := fun y hy => by
      rw [hsched] at hy ⊢
      exact hfree y (List.mem_append_right _ hy)
    have hexec : exec (.shadowQuery f) s = .next (addPart u { partOfQuery u c p q u.sched.nextFlight with cls := 3 }) :=
      congrArg Host.Outcome.next ((receive_accepted _ htyp hacc).trans ((shadowQuery_part hctl (hmineu.trans hmine)
        (.inl (by rw [hfaults]; exact hst)) (takeQuery_part hcu hpu hru)).trans (updPart_addPart _ rfl hfreeu)))
    exact ⟨_, _, hexec, addPart_sched hsched _, rfl, rfl, rfl, rfl, rfl⟩
  · have hkey : Tbl.get u.faults.graft.own (resultKey f.body) = none := by rw [hfaults]; exact hown
    have hexec : exec (.shadowResult f) s = .next (if shadowWaits u (resultKey f.body) then _ else u) :=
      congrArg Host.Outcome.next ((receive_accepted _ htyp hacc).trans (shadowResult_taken hctl hkey))
    have hwaits : shadowWaits u (resultKey f.body) = shadowWaits s (resultKey f.body) := by rw [shadowWaits, hsched]; rfl
    rw [hexec, hwaits]
    refine ⟨fun h => ?_, fun h => ?_⟩
    · have hno : shadowWaits s (resultKey f.body) = false := h
      rw [hno]
      rfl
    · have hyes : shadowWaits s (resultKey f.body) = true := h
      rw [hyes]
      rfl

end Sys2Proof.Machine


/-! PROOFS. The service states of the node and its commands (R479, R492, R494, R508, R510, R513). -/
namespace Sys2Proof.Machine

/-! ## A change of the faults beside registers -/

section
variable {s t : State} {P : Nat → Prop} {l : List Nat} {g : Faults → Faults}

theorem RegsWithin.onlyRegs_faults (h : RegsWithin (· ∈ l) (setFaults s g) t) :
    t.faults = g s.faults ∧ OnlyRegs { s with faults := t.faults } t l := by
  have hf : t.faults = g s.faults := h.faults
  refine ⟨hf, ?_, h.rd⟩
  rw [hf]
  exact h.eq

end

/-! ## RESULT -/

section
variable {s : State}

theorem nodeResult_result {r : Nat} (hr : r < 256) : rdf (nodeResult s r) Reg.fault.NODE_CMD_STATUS 7 0 = r :=
  rdf_wrf_self s _ (by decide) hr

theorem nodeResult_regs (r : Nat) : RegsWithin (· ∈ [Reg.fault.NODE_CMD_STATUS]) s (nodeResult s r) := .wrf (by simp)

/-- A command that only answers. -/
theorem nodeResult_only {r : Nat} (hr : r < 256) :
    rdf (nodeResult s r) Reg.fault.NODE_CMD_STATUS 7 0 = r ∧ OnlyRegs s (nodeResult s r) [Reg.fault.NODE_CMD_STATUS] :=
  ⟨nodeResult_result hr, (nodeResult_regs r).onlyRegs⟩

theorem graftStartResult_lt : graftStartResult s < 256 := by
  unfold graftStartResult
  extract_lets
  split
  · decide
  · split
    · decide
    · split <;> decide

/-- In card mode a command ends NO_FABRIC. -/
theorem nodeCmd_card (hcard : s.hall = false) : ∀ c ∈ [Instr.graftStart, .graftAbort, .serve, .fence], exec c s = .next (nodeResult s 3) := by
  have hresult : graftStartResult s = 3 := if_pos hcard
  intro c hc
  simp only [List.mem_cons, List.not_mem_nil, or_false] at hc
  obtain rfl | rfl | rfl | rfl := hc
  · show Host.Outcome.next (graftStart s) = _
    simp only [graftStart, hresult]
    rw [if_neg (by decide)]
  · exact congrArg Host.Outcome.next (if_pos hcard)
  · exact congrArg Host.Outcome.next (if_pos hcard)
  · exact congrArg Host.Outcome.next (if_pos hcard)

/-! ## GRAFT_START -/

/-- The registers that a graft starts with. -/
def graftRegs : List Nat :=
  [Reg.fault.NODE_CMD_STATUS, Reg.fault.SHADOW_RUN, Reg.fault.FIRST_MISMATCH, Reg.fault.FIRST_MISMATCH + 4, Reg.fault.GRAFT_BYTES, Reg.fault.GRAFT_BYTES + 4]

/-- The node with a graft asked for and its counts at 0. -/
def graftAsked (s : State) : State :=
  wr64 (wr64 (wr (setFaults (nodeResult s 0) fun f => { f with graftAsked := true, graft := Graft.reset }) Reg.fault.SHADOW_RUN 0)
    Reg.fault.FIRST_MISMATCH 0) Reg.fault.GRAFT_BYTES 0

theorem graftStart_starts (h : graftStartResult s = 0) : graftStart s = graftAsked s := by
  simp only [graftStart, h, ite_true]
  rfl

theorem graftStart_refused (h : graftStartResult s ≠ 0) : graftStart s = nodeResult s (graftStartResult s) := if_neg h

theorem graftAsked_regs : RegsWithin (· ∈ graftRegs) (setFaults s fun f => { f with graftAsked := true, graft := Graft.reset }) (graftAsked s) :=
  .trans (t := setFaults (nodeResult s 0) fun f => { f with graftAsked := true, graft := Graft.reset })
    (.wrf (a := Reg.fault.NODE_CMD_STATUS) (by simp [graftRegs]))
    (.trans (.wr _ (by simp [graftRegs])) (.trans (.wr64 (by simp [graftRegs]) (by simp [graftRegs])) (.wr64 (by simp [graftRegs]) (by simp [graftRegs]))))

theorem graftAsked_reads : rdf (graftAsked s) Reg.fault.NODE_CMD_STATUS 7 0 = 0 ∧ rd (graftAsked s) Reg.fault.SHADOW_RUN = 0 ∧
    rd64 (graftAsked s) Reg.fault.FIRST_MISMATCH = 0 ∧ rd64 (graftAsked s) Reg.fault.GRAFT_BYTES = 0 := by
  refine ⟨?_, ?_, ?_, rd64_wr64 _ _ _ (by decide)⟩
  · refine Eq.trans ?_ (nodeResult_result (s := s) (r := 0) (by decide))
    rw [rdf, rdf, graftAsked, rd_wr64, rd_wr64, rd_wr_ne _ _ (by decide)]
    rfl
  · rw [graftAsked, rd_wr64, rd_wr64, if_neg (by decide), if_neg (by decide), if_neg (by decide), if_neg (by decide), rd_wr_self]
  · simp [rd64, graftAsked, rd_wr64]

end

/-- The faults of a node that gives a graft up. -/
theorem graftFail_faults (s : State) : RegsWithin (· ∈ [pageBase .fault 0 + 0x28])
    (setFaults s fun f => { f with nodeState := 0, graft := Graft.reset }) (graftFail s) := .raiseEvt (by simp)

section
variable {s : State}

theorem graftAbort_ends (hhall : s.hall = true) (hgraft : grafting s = true) :
    graftAbort s = graftFail (nodeResult (setFaults s fun f => { f with graftAsked := false }) 0) := by
  rw [graftAbort, if_neg (by simp [hhall]), if_pos hgraft]

theorem graftAbort_leaves :
    let t := graftFail (nodeResult (setFaults s fun f => { f with graftAsked := false }) 0)
    RegsWithin (· ∈ [Reg.fault.NODE_CMD_STATUS, pageBase .fault 0 + 0x28])
        (setFaults s fun f => { f with graftAsked := false, nodeState := 0, graft := Graft.reset }) t ∧
      rdf t Reg.fault.NODE_CMD_STATUS 7 0 = 0 := by
  have hfail := (graftFail_faults (nodeResult (setFaults s fun f => { f with graftAsked := false }) 0)).mono
    (Q := (· ∈ [Reg.fault.NODE_CMD_STATUS, pageBase .fault 0 + 0x28])) fun a ha => List.mem_cons_of_mem _ ha
  refine ⟨.trans (t := setFaults (nodeResult s 0) fun f => { f with graftAsked := false, nodeState := 0, graft := Graft.reset })
    (.wrf (a := Reg.fault.NODE_CMD_STATUS) (by simp)) hfail, ?_⟩
  rw [rdf, (graftFail_faults _).rd _ (by decide)]
  exact nodeResult_result (by decide)

end

/-- A step of the faults that leaves RESULT 0. -/
theorem faults_then_result (s : State) (g : Faults → Faults) :
    let t := nodeResult (setFaults s g) 0
    t.faults = g s.faults ∧ rdf t Reg.fault.NODE_CMD_STATUS 7 0 = 0 ∧ OnlyRegs { s with faults := t.faults } t [Reg.fault.NODE_CMD_STATUS] := by
  obtain ⟨hf, honly⟩ := (nodeResult_regs (s := setFaults s g) 0).onlyRegs_faults
  exact ⟨hf, nodeResult_result (by decide), honly⟩

/-- Settles O45: each command by its RESULT, and each end of a graft or of the service by its condition. -/
theorem node_commands_change_the_service_state : Obligations.Node_commands_change_the_service_state := by
  unfold Obligations.Node_commands_change_the_service_state
  intro s st ev g
  refine ⟨fun hcard c hc => ⟨_, nodeCmd_card hcard c hc, nodeResult_only (by decide)⟩, fun h => ?_, fun h => ?_, fun hhall hgraft => ?_,
    fun hhall hst hasked hnone => ?_, fun hhall hst => ⟨?_, fun hdue => ?_, fun hearly => ?_⟩, fun hact hst => ⟨fun hdue => ?_, fun hearly => ?_⟩,
    fun hst => ⟨fun hdue => ?_, fun hearly => ?_⟩, ?_, ?_⟩
  · obtain ⟨hf, honly⟩ := (graftAsked_regs (s := s)).onlyRegs_faults
    obtain ⟨hres, hrun, hmis, hbytes⟩ := graftAsked_reads (s := s)
    exact ⟨_, congrArg Host.Outcome.next (graftStart_starts h), hf, hres, hrun, hmis, hbytes, honly⟩
  · exact ⟨_, congrArg Host.Outcome.next (graftStart_refused h), nodeResult_only graftStartResult_lt⟩
  · obtain ⟨hregs, hres⟩ := graftAbort_leaves (s := s)
    obtain ⟨hf, honly⟩ := hregs.onlyRegs_faults
    exact ⟨_, congrArg Host.Outcome.next (graftAbort_ends hhall hgraft), hf, hres, honly⟩
  · have hserve : serve s = nodeResult (setFaults s fun f => { f with nodeState := 3 }) 0 := by
      rw [serve, if_neg (by simp [hhall]), if_pos ⟨hst, hasked, hnone⟩]
    exact ⟨_, congrArg Host.Outcome.next hserve, faults_then_result s _⟩
  · have hfence : fence s = nodeResult (setFaults s fun f => { f with fenceAsked := true }) 0 := by
      rw [fence, if_neg (by simp [hhall]), if_pos hst]
    exact ⟨_, congrArg Host.Outcome.next hfence, faults_then_result s _⟩
  · exact congrArg Host.Outcome.next (if_pos ⟨hhall, hst, hdue⟩)
  · exact congrArg Host.Outcome.next (if_neg fun ⟨_, _, hdue⟩ => by simp only [g] at hearly; omega)
  · have hfail : graftStall s = graftFail s := if_pos ⟨hact, .inl hst, hdue⟩
    exact ⟨_, congrArg Host.Outcome.next hfail, (graftFail_faults s).onlyRegs_faults⟩
  · exact congrArg Host.Outcome.next (if_neg fun ⟨_, _, hdue⟩ => by simp only [g] at hearly; omega)
  · have hfail : graftWindow s = graftFail s := if_pos ⟨hst, hdue⟩
    exact ⟨_, congrArg Host.Outcome.next hfail, (graftFail_faults s).onlyRegs_faults⟩
  · exact congrArg Host.Outcome.next (if_neg fun ⟨_, hdue⟩ => by simp only [g] at hearly; omega)
  · refine ⟨_, rfl, ?_, onlyRegs_wr s _ _⟩
    rw [State.quiesce, rd_wrf, if_pos rfl, testBit_withFld _ _ (le_refl 0) (le_refl 0) (by decide)]
    rfl
  · refine ⟨_, rfl, ?_, onlyRegs_wr s _ _⟩
    rw [State.quiesce, rd_wrf, if_pos rfl, testBit_withFld _ _ (le_refl 0) (le_refl 0) (by decide)]
    rfl

end Sys2Proof.Machine


/-! PROOFS. Trace units and the merger (R535 to R539, R550). -/
namespace Sys2Proof.Machine

/-! ## One unit -/

section
variable {s t : State} {u : Nat}

theorem traceUnit_updTrace (f : TraceUnit → TraceUnit) (hu : u < s.chip.trace.length) : traceUnit (updTrace s u f) u = f (traceUnit s u) :=
  getD_updAt f TraceUnit.reset hu

theorem traceUnit_updTrace_ne {k : Nat} (f : TraceUnit → TraceUnit) (h : k ≠ u) : traceUnit (updTrace s u f) k = traceUnit s k :=
  getD_updAt_ne f TraceUnit.reset h

/-! ## What a packet leaves -/

/-- `t` is `s` but for the trace units and registers of the trace pages. -/
structure Traces (s t : State) : Prop where
  eq : t = { s with regs := t.regs, chip := { s.chip with trace := t.chip.trace } }
  rd : ∀ a, a < 0x80000 ∨ 0xC0000 ≤ a → rd t a = rd s a
  len : t.chip.trace.length = s.chip.trace.length

namespace Traces

theorem refl (s : State) : Traces s s := ⟨rfl, fun _ _ => rfl, rfl⟩

theorem trans {v : State} (h : Traces s t) (k : Traces t v) : Traces s v :=
  ⟨k.eq.trans (by rw [h.eq]), fun a ha => (k.rd a ha).trans (h.rd a ha), k.len.trans h.len⟩

theorem upd (s : State) (u : Nat) (f : TraceUnit → TraceUnit) : Traces s (updTrace s u f) := ⟨rfl, fun _ _ => rfl, updAt_length _ _ _⟩

theorem wr (s : State) {a : Nat} (w : Word) (hlo : 0x80000 ≤ a) (hhi : a < 0xC0000) : Traces s (wr s a w) :=
  ⟨rfl, fun _ ha => rd_wr_ne s w (by omega), rfl⟩

theorem galleries (h : Traces s t) : t.chip.galleries = s.chip.galleries := by rw [h.eq]
theorem mem (h : Traces s t) : t.mem = s.mem := by rw [h.eq]
theorem sched (h : Traces s t) : t.sched = s.sched := by rw [h.eq]
theorem store (h : Traces s t) : t.store = s.store := by rw [h.eq]
theorem links (h : Traces s t) : t.links = s.links := by rw [h.eq]

end Traces

theorem addLoss_traces (s : State) (u reason n : Nat) : Traces s (addLoss s u reason n) := by
  unfold addLoss
  split
  · exact .refl s
  · exact .upd s u _

theorem traceRegs_between (hu : u < 51) : 0x80000 ≤ Reg.trace.TRACE_LOST u ∧ Reg.trace.TRACE_LOST u < 0xC0000 ∧
    0x80000 ≤ Reg.trace.FIFO_CTRL u ∧ Reg.trace.FIFO_CTRL u < 0xC0000 ∧ Reg.trace.TRACE_LOST u ≠ Reg.trace.FIFO_CTRL u := by
  simp only [Reg.trace.TRACE_LOST, Reg.trace.FIFO_CTRL]
  omega

theorem emit_off (typ : Nat) (payload : List Byte) (h : testBit (rd s (Reg.trace.CTRL u)) 0 = false) : emit s u typ payload = s := if_pos h

theorem emit_traces (hu : u < 51) (typ : Nat) (payload : List Byte) : Traces s (emit s u typ payload) := by
  obtain ⟨hl, hl', hf, hf', -⟩ := traceRegs_between hu
  unfold emit
  extract_lets t bs es s1
  split
  · exact .refl s
  · split
    · exact .upd s u _
    · exact .trans (.trans (.wr s _ hl hl') (.wr _ _ hf hf')) (addLoss_traces s1 u 0 1)

/-! ## SW packets -/

theorem fifo_updTrace {f : TraceUnit → TraceUnit} (hf : ∀ x, (f x).fifo = x.fifo) (s : State) (u k : Nat) :
    (traceUnit (updTrace s u f) k).fifo = (traceUnit s k).fifo := by
  unfold traceUnit updTrace
  rw [List.getD, List.getD, updAt_getElem?]
  split
  · cases s.chip.trace[k]? with
    | none => rfl
    | some x => exact hf x
  · rfl

theorem fifo_addLoss (s : State) (u reason n k : Nat) : (traceUnit (addLoss s u reason n) k).fifo = (traceUnit s k).fifo := by
  unfold addLoss
  split
  · rfl
  · refine fifo_updTrace ?_ s u k
    exact fun _ => rfl

section
variable (hen : testBit (rd s (Reg.trace.CTRL u)) 0 = true) (v : Quad)
include hen

/-- An SW packet is one entry, under the unit's next number. -/
theorem emit_sw_room (hroom : (traceUnit s u).fifo.length < 64) :
    emit s u 0x03 (toLe 8 v.toNat) = updTrace s u fun x => { x with
      fifo := x.fifo ++ [(true, packetHeader s 0x03 u (traceUnit s u).seq false ++ toLe 8 v.toNat)], seq := x.seq + 1 } := by
  have hlen : ¬ 8 < (toLe 8 v.toNat).length := by simp [toLe_length]
  have hfit : (traceUnit s u).fifo.length + 1 ≤ 64 := hroom
  simp only [emit, hen, Bool.true_eq_false, ite_false, if_neg hlen, List.length_singleton, if_pos hfit, decide_eq_false hlen]

theorem emit_sw_full (hfull : 64 ≤ (traceUnit s u).fifo.length) :
    emit s u 0x03 (toLe 8 v.toNat) = addLoss (wr (count s (Reg.trace.TRACE_LOST u)) (Reg.trace.FIFO_CTRL u)
      (setBit (rd s (Reg.trace.FIFO_CTRL u)) 31)) u 0 1 := by
  have hlen : ¬ 8 < (toLe 8 v.toNat).length := by simp [toLe_length]
  have hno : ¬ (traceUnit s u).fifo.length + 1 ≤ 64 := by omega
  simp only [emit, hen, Bool.true_eq_false, ite_false, if_neg hlen, List.length_singleton, if_neg hno]

end

end

/-! ## The merger -/

/-- What the LOSS packets leave of the node: they go out after what was sent, and no FIFO moves. -/
structure LossesWritten (s t : State) : Prop where
  mem : t.mem = s.mem
  sched : t.sched = s.sched
  store : t.store = s.store
  out : s.links.out <+: t.links.out
  fifo : ∀ u, (traceUnit t u).fifo = (traceUnit s u).fifo

theorem LossesWritten.refl (s : State) : LossesWritten s s := ⟨rfl, rfl, rfl, List.prefix_rfl, fun _ => rfl⟩

theorem LossesWritten.trans {s t v : State} (h : LossesWritten s t) (k : LossesWritten t v) : LossesWritten s v :=
  ⟨k.mem.trans h.mem, k.sched.trans h.sched, k.store.trans h.store, h.out.trans k.out, fun u => (k.fifo u).trans (h.fifo u)⟩

theorem bufWrite_written (s : State) (bs : List Byte) : LossesWritten s (bufWrite s bs) :=
  ⟨rfl, rfl, rfl, List.prefix_append _ _, fun _ => rfl⟩

theorem count_written (s : State) (a : Nat) : LossesWritten s (count s a) := ⟨rfl, rfl, rfl, List.prefix_rfl, fun _ => rfl⟩

theorem lossReported (s : State) (u seq : Nat) (g : List (Nat × Nat) → List (Nat × Nat)) :
    LossesWritten s (updTrace { s with chip := { s.chip with mergeSeq := seq } } u fun t => { t with losses := g t.losses }) :=
  ⟨rfl, rfl, rfl, List.prefix_rfl, fun k =>
    fifo_updTrace (f := fun t => { t with losses := g t.losses }) (fun _ => rfl) { s with chip := { s.chip with mergeSeq := seq } } u k⟩

theorem writeLoss_written (s : State) (u reason : Nat) : LossesWritten s (writeLoss s u reason) := by
  unfold writeLoss
  extract_lets l bs s1
  split
  · exact .refl s
  · have h1 : LossesWritten s s1 := .trans (bufWrite_written s _) (.trans (bufWrite_written _ _) (count_written _ _))
    exact h1.trans (lossReported s1 u _ fun l => updAt l reason fun _ => (0, 0))

theorem writeLosses_written (s : State) : LossesWritten s (writeLosses s) := by
  have hunit (l : List Nat) (u : Nat) (s : State) : LossesWritten s (l.foldl (fun t r => writeLoss t u r) s) := by
    induction l generalizing s with
    | nil => exact .refl s
    | cons r l ih =>
      rw [List.foldl_cons]
      exact (writeLoss_written s u r).trans (ih _)
  unfold writeLosses
  generalize List.range 51 = l
  induction l generalizing s with
  | nil => exact .refl s
  | cons u l ih =>
    rw [List.foldl_cons]
    exact (hunit _ u s).trans (ih _)

theorem exec_traceMergerPop {s : State} {u : Fin 51} (b : Bool) (h : mergerUnit s u.val = u.val) :
    exec (.traceMergerPop ⟨u, b⟩) s = .next (mergerPop s u.val b) := by
  show Host.Outcome.next (mergerPop s (mergerUnit s u.val) b) = _
  rw [h]

section
variable {s : State} {u : Nat} (hmerge : testBit (rd s (Reg.trace.MERGE_CTRL 50)) 8 = true)
include hmerge

theorem mergerPop_empty (hempty : (traceUnit s u).fifo = []) (push : Bool) :
    mergerPop s u push = if push then s else wr s (Reg.trace.FIFO_CTRL u) (setBit (rd s (Reg.trace.FIFO_CTRL u)) 30) := by
  simp only [mergerPop, hmerge, hempty, Bool.true_eq_false, ite_false]

/-- In WRAP mode the buffer always has room: the oldest packet goes out. -/
theorem mergerPop_wraps {bs : List Byte} {r : List (Bool × List Byte)} (push : Bool) (hfifo : (traceUnit s u).fifo = (true, bs) :: r)
    (hwrap : sinkMode s = 0) :
    mergerPop s u push = writeLosses (bufWrite (updTrace s u fun t => { t with fifo := t.fifo.drop 1, skip := false }) bs) := by
  have hroom (n : Nat) : bufRoom s n = true := by simp [bufRoom, hwrap]
  simp only [mergerPop, hmerge, hfifo, Bool.true_eq_false, ite_false, Bool.false_eq_true, popEntry, hroom, ite_true, Bool.not_true, Bool.and_false]

end

/-! ## SUMMARY and TRACE_SYNC -/

theorem summaryPacket_due {s : State} {u : Nat} (hu : u < 51) (hlen : s.chip.trace.length = 51) (hen : testBit (rd s (Reg.trace.CTRL u)) 3 = true)
    (hdue : Nat.max 1 (rdf s (Reg.trace.SUMMARY_STEPS u) 15 0) ≤ s.now - (traceUnit s u).lastSummary) :
    let t := summaryPacket s u
    (traceUnit t u).lastSummary = s.now ∧ (traceUnit t u).dozeN = 0 ∧ (traceUnit t u).dozeTiles = 0 ∧
      t.chip.galleries = s.chip.galleries ∧ t.mem = s.mem ∧ t.sched = s.sched ∧ t.links = s.links := by
  obtain ⟨pay, hpay⟩ : ∃ pay, summaryPacket s u =
      updTrace (emit { s with chip := { s.chip with free := s.chip.free + 1 + 1 } } u 0x04 pay) u
        fun t => { t with dozeN := 0, dozeTiles := 0, lastSummary := s.now } := ⟨_, if_pos ⟨hen, hdue⟩⟩
  have h := emit_traces (s := { s with chip := { s.chip with free := s.chip.free + 1 + 1 } }) hu 0x04 pay
  have hunit := traceUnit_updTrace (u := u) (fun t => { t with dozeN := 0, dozeTiles := 0, lastSummary := s.now })
    (show u < (emit { s with chip := { s.chip with free := s.chip.free + 1 + 1 } } u 0x04 pay).chip.trace.length by rw [h.len]; exact hlen ▸ hu)
  rw [hpay]
  refine ⟨by rw [hunit], by rw [hunit], by rw [hunit], ?_, ?_, ?_, ?_⟩
  · exact h.galleries
  · exact h.mem
  · exact h.sched
  · exact h.links

theorem emitSync_traces {s : State} {u : Nat} (hu : u < 51) (hlen : s.chip.trace.length = 51) :
    Traces s (emitSync s u) ∧ (traceUnit (emitSync s u) u).lastSync = s.now := by
  have h := emit_traces (s := s) hu 0x12 (toLe 8 (timestamp s) ++ stepEpochs s)
  refine ⟨h.trans (.upd _ u _), ?_⟩
  rw [emitSync, traceUnit_updTrace _ (by rw [h.len, hlen]; exact hu)]

/-- Settles O53: the packet by room in the FIFO, the merger by what it pops, SUMMARY and TRACE_SYNC by their periods. -/
theorem trace_packets_flow_to_the_host : Obligations.Trace_packets_flow_to_the_host := by
  unfold Obligations.Trace_packets_flow_to_the_host
  intro s u v hlen x ct
  have hu : u.val < s.chip.trace.length := by omega
  refine ⟨fun hoff => congrArg Host.Outcome.next (emit_off _ _ hoff), fun hen hroom => ?_, fun hen hfull => ?_, fun hoff b => ?_,
    fun hmerge hserved => ⟨fun hempty => ?_, fun hempty => ?_, fun bs r b hfifo hwrap => ?_⟩, fun hen hdue => ?_, fun hoff => ?_,
    fun hdue hawake => ?_, fun hfallow => ?_⟩
  · exact ⟨_, congrArg Host.Outcome.next (emit_sw_room hen v hroom), traceUnit_updTrace _ hu, fun k hk => traceUnit_updTrace_ne _ hk, rfl⟩
  · obtain ⟨-, -, -, -, hne⟩ := traceRegs_between u.isLt
    refine ⟨_, congrArg Host.Outcome.next (emit_sw_full hen v hfull), ?_, ?_, ?_⟩
    · rw [fifo_addLoss]
      rfl
    · refine (rd_wr_ne _ _ hne.symm).trans ?_
      rw [rd_count, if_pos rfl]
    · have hregs : RegsWithin (· ∈ [Reg.trace.TRACE_LOST u.val, Reg.trace.FIFO_CTRL u.val]) s (wr (count s (Reg.trace.TRACE_LOST u.val))
          (Reg.trace.FIFO_CTRL u.val) (setBit (rd s (Reg.trace.FIFO_CTRL u.val)) 31)) := .trans (.count (by simp)) (.wr _ (by simp))
      exact ⟨rfl, hregs.rd⟩
  · exact congrArg Host.Outcome.next (if_pos hoff)
  · rw [exec_traceMergerPop true hserved, mergerPop_empty hmerge hempty, if_pos rfl]
  · refine ⟨_, (exec_traceMergerPop false hserved).trans (congrArg Host.Outcome.next (mergerPop_empty hmerge hempty false)), ?_, ?_⟩
    · rw [if_neg (by decide), rd_wr_self, testBit_setBit]
      rfl
    · exact onlyRegs_wr s _ _
  · refine ⟨_, (exec_traceMergerPop b hserved).trans (congrArg Host.Outcome.next (mergerPop_wraps hmerge b hfifo hwrap)), ?_⟩
    have hpop := traceUnit_updTrace (fun t => { t with fifo := t.fifo.drop 1, skip := false }) hu
    generalize hv : updTrace s u.val (fun t => { t with fifo := t.fifo.drop 1, skip := false }) = w at hpop ⊢
    have hlost := writeLosses_written (bufWrite w bs)
    have hfifo' : (traceUnit (bufWrite w bs) u.val).fifo = r := by
      rw [(bufWrite_written w bs).fifo, hpop]
      show x.fifo.drop 1 = r
      rw [hfifo]
      rfl
    subst hv
    exact ⟨(hlost.fifo u.val).trans hfifo', hlost.out, hlost.mem, hlost.sched, hlost.store⟩
  · exact ⟨_, rfl, summaryPacket_due u.isLt hlen hen hdue⟩
  · exact congrArg Host.Outcome.next (if_neg fun h => by rw [hoff] at h; cases h.1)
  · obtain ⟨h, hsync⟩ := emitSync_traces u.isLt hlen
    exact ⟨_, congrArg Host.Outcome.next (if_pos ⟨hdue, hawake⟩), hsync, h.galleries, h.mem, h.sched, h.links⟩
  · exact congrArg Host.Outcome.next (if_neg fun h => by rw [hfallow] at h; cases h.2)

end Sys2Proof.Machine


/-! PROOFS. Fallow galleries (R541 to R545, R602). -/
namespace Sys2Proof.Machine

/-! ## A step of one gallery -/

/-- `t` is `s` with gallery `g` at `x`, free words drawn, and beside it registers that `P` allows. -/
structure SetsGallery (s t : State) (g : Nat) (x : Gallery) (P : Nat → Prop) : Prop where
  self : gallery t g = x
  lt : g < t.chip.galleries.length
  eq : t = { s with regs := t.regs, chip := { s.chip with galleries := t.chip.galleries, free := t.chip.free } }
  rd : ∀ a, ¬ P a → rd t a = rd s a

namespace SetsGallery
variable {s t u : State} {g : Nat} {x : Gallery} {P Q : Nat → Prop}

theorem refl (hg : g < s.chip.galleries.length) : SetsGallery s s g (gallery s g) P := ⟨rfl, hg, rfl, fun _ _ => rfl⟩

theorem upd (h : SetsGallery s t g x P) (f : Gallery → Gallery) : SetsGallery s (updGallery t g f) g (f x) P where
  self := by rw [gallery_updGallery f h.lt, h.self]
  lt := by rw [updGallery_chip, updAt_length]; exact h.lt
  eq := by rw [updGallery, h.eq]
  rd := h.rd

theorem regs (h : SetsGallery s t g x P) (k : RegsWithin P t u) : SetsGallery s u g x P := by
  have hchip : u.chip = t.chip := by rw [k.eq]
  refine ⟨?_, by rw [hchip]; exact h.lt, ?_, fun a ha => (k.rd a ha).trans (h.rd a ha)⟩
  · rw [gallery, hchip]
    exact h.self
  · rw [k.eq, h.eq]

theorem draw (h : SetsGallery s t g x P) : SetsGallery s (freshWord t).2 g x P where
  self := h.self
  lt := h.lt
  eq := by rw [freshWord, h.eq]
  rd := h.rd

theorem onlyRegs {l : List Nat} (h : SetsGallery s t g x (· ∈ l)) :
    OnlyRegs { s with chip := { s.chip with galleries := t.chip.galleries, free := t.chip.free } } t l := ⟨h.eq, h.rd⟩

theorem trace (h : SetsGallery s t g x P) (k : Nat) : traceUnit t k = traceUnit s k := by
  unfold traceUnit
  rw [h.eq]

end SetsGallery

/-! ## Entering -/

section
variable {s : State} {g : Nat}

theorem pushEnter_booked (hforced : (gallery s g).forced = false) (hbooked : galleryBooked s g = true) : pushEnter s g = s :=
  if_neg fun ⟨_, _, h⟩ => h.elim (by simp [hforced]) (by simp [hbooked])

/-- The registers that the entry of gallery `g` may change. -/
def entryRegs (g : Nat) : List Nat :=
  [Reg.gallery.FALLOW_ENTRIES g, Reg.gallery.FALLOW_STATUS g, Reg.gallery.FLUSH_LINES g, pageBase .gallery g + 0x28]

/-- Every dirty line goes; FLUSH_LINES stays where there is none. -/
theorem writeLines_all (hg : g < s.chip.galleries.length) :
    SetsGallery s (writeLines s g fun _ => true) g { gallery s g with lines := [] } (· ∈ [Reg.gallery.FLUSH_LINES g]) ∧
      ((gallery s g).lines = [] → writeLines s g (fun _ => true) = s) := by
  cases hl : (gallery s g).lines with
  | nil =>
    have hw : writeLines s g (fun _ => true) = s := by simp [writeLines, hl]
    have hx : { gallery s g with lines := [] } = gallery s g := by rw [← hl]
    rw [hw, hx]
    exact ⟨.refl hg, fun _ => rfl⟩
  | cons d l =>
    have hw : writeLines s g (fun _ => true) = countBy (updGallery (freshWord s).2 g fun x => { x with lines := x.lines.filter fun _ => !true })
        (Reg.gallery.FLUSH_LINES g) (freshWord s).1.toNat := by
      simp [writeLines, hl]
    have hf (x : Gallery) : x.lines.filter (fun _ => !true) = [] := by simp
    rw [hw]
    refine ⟨?_, nofun⟩
    have h := (((SetsGallery.refl hg (P := (· ∈ [Reg.gallery.FLUSH_LINES g]))).draw.upd fun x => { x with lines := x.lines.filter fun _ => !true }).regs
      (.countBy (a := Reg.gallery.FLUSH_LINES g) (n := (freshWord s).1.toNat) (by simp)))
    rw [hf] at h
    exact h

theorem drainUnit_empty (h : (traceUnit s g).fifo = []) (n : Nat) : drainUnit s g n = s := by
  cases n with
  | zero => rfl
  | succ n => rw [drainUnit, h, if_pos List.isEmpty_nil]

/-- The gate is reached: no flight has booked the gallery, and its unit takes no packet. -/
theorem pushEnter_quiet (hst : (gallery s g).fstate = 1) (hpushed : (gallery s g).pushedEnter = false) (hfree : galleryBooked s g = false)
    (hoff : testBit (rd (writeLines s g fun _ => true) (Reg.trace.CTRL g)) 0 = false) :
    pushEnter s g = updGallery (writeLines s g fun _ => true) g fun x => { x with pushedEnter := true } := by
  simp only [pushEnter]
  rw [if_pos ⟨hst, hpushed, .inr hfree⟩, emit_off _ _ hoff]

/-- The registers that a scheduled gate leaves. -/
def gateWords (s : State) (g : Nat) : State :=
  raiseEvt (wrf (count s (Reg.gallery.FALLOW_ENTRIES g)) (Reg.gallery.FALLOW_STATUS g) 31 24 1) (pageBase .gallery g) 0

theorem gateWords_regs (s : State) (g : Nat) : RegsWithin (· ∈ entryRegs g) s (gateWords s g) :=
  .trans (.count (by simp [entryRegs])) (.trans (.wrf (by simp [entryRegs])) (.raiseEvt (by simp [entryRegs])))

theorem gateWords_reads (s : State) (g : Nat) :
    rd (gateWords s g) (Reg.gallery.FALLOW_ENTRIES g) = counted (Reg.gallery.FALLOW_ENTRIES g) (rd s (Reg.gallery.FALLOW_ENTRIES g)) ∧
      rdf (gateWords s g) (Reg.gallery.FALLOW_STATUS g) 31 24 = 1 ∧ rd (gateWords s g) (Reg.gallery.FLUSH_LINES g) = rd s (Reg.gallery.FLUSH_LINES g) := by
  have hes : Reg.gallery.FALLOW_STATUS g ≠ Reg.gallery.FALLOW_ENTRIES g := by simp only [Reg.gallery.FALLOW_STATUS, Reg.gallery.FALLOW_ENTRIES]; omega
  have hfs : Reg.gallery.FALLOW_STATUS g ≠ Reg.gallery.FLUSH_LINES g := by simp only [Reg.gallery.FALLOW_STATUS, Reg.gallery.FLUSH_LINES]; omega
  have hfe : Reg.gallery.FALLOW_ENTRIES g ≠ Reg.gallery.FLUSH_LINES g := by simp only [Reg.gallery.FALLOW_ENTRIES, Reg.gallery.FLUSH_LINES]; omega
  have hevt (a : Nat) (ha : a ∈ [Reg.gallery.FALLOW_ENTRIES g, Reg.gallery.FALLOW_STATUS g, Reg.gallery.FLUSH_LINES g]) :
      pageBase .gallery g + 0x28 ≠ a := by
    simp only [List.mem_cons, List.not_mem_nil, or_false, Reg.gallery.FALLOW_ENTRIES, Reg.gallery.FALLOW_STATUS, Reg.gallery.FLUSH_LINES] at ha
    simp only [pageBase]
    omega
  refine ⟨?_, ?_, ?_⟩
  · rw [gateWords, rd_raiseEvt_ne _ _ (hevt _ (by simp)), rd_wrf, if_neg hes, rd_count, if_pos rfl]
  · rw [gateWords, rdf, rd_raiseEvt_ne _ _ (hevt _ (by simp)), rd_wrf, if_pos rfl]
    exact (fld_withFld _ _ _ _ (by decide)).trans rfl
  · rw [gateWords, rd_raiseEvt_ne _ _ (hevt _ (by simp)), rd_wrf, if_neg hfs, rd_count, if_neg hfe]

theorem gate_scheduled (hforced : (gallery s g).forced = false) :
    gate s g = updGallery (gateWords s g) g fun x => { x with
      fstate := if fallowMode s g = 2 then 3 else 2, fromOff := fallowMode s g == 2, postponed := false, pushedEnter := false, dozing := 0 } := by
  simp only [gate, gateWords, hforced, Bool.not_false, Bool.true_and, beq_iff_eq, Bool.false_eq_true, ite_false]

theorem fallowGate_passes (hg : g < s.chip.galleries.length) (hpage : g < 50) (hst : (gallery s g).fstate = 1) (hforced : (gallery s g).forced = false)
    (hpushed : (gallery s g).pushedEnter = false) (hfree : galleryBooked s g = false) (hempty : (traceUnit s g).fifo = [])
    (hoff : testBit (rd s (Reg.trace.CTRL g)) 0 = false) :
    let t := fallowGate s g
    SetsGallery s t g { gallery s g with
        lines := [], fstate := if fallowMode s g = 2 then 3 else 2, fromOff := fallowMode s g == 2, postponed := false, pushedEnter := false, dozing := 0 }
        (· ∈ entryRegs g) ∧
      rd t (Reg.gallery.FALLOW_ENTRIES g) = counted (Reg.gallery.FALLOW_ENTRIES g) (rd s (Reg.gallery.FALLOW_ENTRIES g)) ∧
      rdf t (Reg.gallery.FALLOW_STATUS g) 31 24 = 1 ∧
      ((gallery s g).lines = [] → rd t (Reg.gallery.FLUSH_LINES g) = rd s (Reg.gallery.FLUSH_LINES g)) := by
  intro t
  obtain ⟨hlines, hnone⟩ := writeLines_all hg
  have hoff' : testBit (rd (writeLines s g fun _ => true) (Reg.trace.CTRL g)) 0 = false := by
    rw [hlines.rd _ (by simp only [List.mem_singleton, Reg.trace.CTRL, Reg.gallery.FLUSH_LINES]; omega), hoff]
  generalize hv : writeLines s g (fun _ => true) = v at hlines hnone hoff'
  have h1 := hlines.upd fun x => { x with pushedEnter := true }
  have hmode : fallowMode (updGallery v g fun x => { x with pushedEnter := true }) g = fallowMode s g := by
    rw [fallowMode, rdf, h1.rd _ (by simp only [List.mem_singleton, Reg.gallery.FALLOW_REQ, Reg.gallery.FLUSH_LINES]; omega), fallowMode, rdf]
  have ht : t = gate (updGallery v g fun x => { x with pushedEnter := true }) g := by
    have hpush : pushEnter s g = updGallery v g fun x => { x with pushedEnter := true } := by
      rw [← hv] at hoff' ⊢
      exact pushEnter_quiet hst hpushed hfree hoff'
    simp only [t, fallowGate, hpush, h1.self, drainUnit_empty ((congrArg TraceUnit.fifo (h1.trace g)).trans hempty), h1.trace g, hempty,
      Bool.true_eq_false, ite_false, List.isEmpty_nil, ite_true]
  have hflush (hnil : (gallery s g).lines = []) (a : Nat) : rd (updGallery v g fun x => { x with pushedEnter := true }) a = rd s a := by
    rw [updGallery_rd, hnone hnil]
  generalize updGallery v g (fun x => { x with pushedEnter := true }) = w at h1 hmode ht hflush
  have hw : SetsGallery s w g { gallery s g with lines := [], pushedEnter := true } (· ∈ entryRegs g) :=
    ⟨h1.self, h1.lt, h1.eq, fun a ha => h1.rd a fun hm => ha (by simp [entryRegs, List.mem_singleton.mp hm])⟩
  rw [gate_scheduled (by rw [h1.self]; exact hforced), hmode] at ht
  obtain ⟨hentries, hstatus, hlines'⟩ := gateWords_reads w g
  have hne : Reg.gallery.FALLOW_ENTRIES g ∉ [Reg.gallery.FLUSH_LINES g] := by
    simp only [List.mem_singleton, Reg.gallery.FALLOW_ENTRIES, Reg.gallery.FLUSH_LINES]
    omega
  rw [h1.rd _ hne] at hentries
  rw [ht]
  exact ⟨(hw.regs (gateWords_regs w g)).upd _, hentries, hstatus, fun hnil => hlines'.trans (hflush hnil _)⟩

end

/-! ## Waking -/

/-- The word whose bit `i` is set for each `i` below `n` that is chosen. -/
theorem maskFold (p : Nat → Bool) (n : Nat) :
    let k := (List.range n).foldl (fun m i => if p i then m + 2 ^ i else m) 0
    k < 2 ^ n ∧ ∀ i, i < n → k.testBit i = p i := by
  induction n with
  | zero => exact ⟨Nat.one_pos, nofun⟩
  | succ n ih =>
    obtain ⟨hlt, hbit⟩ := ih
    rw [List.range_succ, List.foldl_append, List.foldl_cons, List.foldl_nil]
    generalize (List.range n).foldl (fun m i => if p i then m + 2 ^ i else m) 0 = k at hlt hbit
    have hpow : 2 ^ (n + 1) = 2 ^ n + 2 ^ n := by omega
    cases hp : p n with
    | true =>
      refine ⟨by simp only [ite_true]; omega, fun i hi => ?_⟩
      simp only [ite_true, Nat.add_comm k]
      rcases Nat.lt_succ_iff_lt_or_eq.mp hi with h | rfl
      · rw [Nat.testBit_two_pow_add_gt h, hbit i h]
      · rw [Nat.testBit_two_pow_add_eq, Nat.testBit_lt_two_pow hlt, hp]
        rfl
    | false =>
      refine ⟨by simp only [Bool.false_eq_true, ite_false]; omega, fun i hi => ?_⟩
      simp only [Bool.false_eq_true, ite_false]
      rcases Nat.lt_succ_iff_lt_or_eq.mp hi with h | rfl
      · exact hbit i h
      · rw [Nat.testBit_lt_two_pow hlt, hp]

theorem keptMask_bits (s : State) (x : Gallery) : keptMask s x < 2 ^ 16 ∧ ∀ i, i < 16 → (keptMask s x).testBit i = keptRegion s x i :=
  maskFold (keptRegion s x) 16

theorem keptRegion_congr {s t : State} (h : ∀ a, a < 0x1000000 → rd t a = rd s a) (x : Gallery) (i : Nat) : keptRegion t x i = keptRegion s x i := by
  unfold keptRegion
  rw [rd64_congr (h Reg.atrium.TRELLIS_EPOCH (by decide)) (h (Reg.atrium.TRELLIS_EPOCH + 4) (by decide)),
    rd64_congr (h Reg.atrium.PIN_EPOCH (by decide)) (h (Reg.atrium.PIN_EPOCH + 4) (by decide))]

/-- The gallery that wakes with the regions of a mask kept. -/
def Gallery.woken (k : Nat) (x : Gallery) : Gallery :=
  { x with
    fstate := 4, wakeAsked := false, invalid := false, forced := false
    tags := (List.range 16).map fun i => if k.testBit i then x.tags.getD i 0 else 0 }

section
variable {s : State} {g : Nat}

/-- The registers that a wake leaves. -/
def wakeWords (s : State) (g k : Nat) : State := wrf (wr s (Reg.gallery.FALLOW_REQ g) 0) (Reg.gallery.FALLOW_STATUS g) 15 0 k

theorem fallowWake_wakes (hst : (gallery s g).fstate = 2) (hmbist : (gallery s g).mbist = false) :
    fallowWake s g = updGallery (wakeWords s g (keptMask s (gallery s g))) g (Gallery.woken (keptMask s (gallery s g))) := by
  have hlow (a : Nat) (ha : a < 0x1000000) : rd (wr s (Reg.gallery.FALLOW_REQ g) 0) a = rd s a :=
    rd_wr_ne _ _ (by simp only [Reg.gallery.FALLOW_REQ]; omega)
  have hmask : keptMask (wr s (Reg.gallery.FALLOW_REQ g) 0) (gallery s g) = keptMask s (gallery s g) := by
    unfold keptMask
    simp only [keptRegion_congr hlow]
  have hgal : gallery (wr s (Reg.gallery.FALLOW_REQ g) 0) g = gallery s g := rfl
  simp only [fallowWake, wakeGallery, hgal, hst, hmbist, hmask]
  rfl

theorem wakeWords_reads (k : Nat) (hk : k < 2 ^ 16) :
    rd (wakeWords s g k) (Reg.gallery.FALLOW_REQ g) = 0 ∧ rdf (wakeWords s g k) (Reg.gallery.FALLOW_STATUS g) 15 0 = k ∧
      RegsWithin (· ∈ [Reg.gallery.FALLOW_REQ g, Reg.gallery.FALLOW_STATUS g]) s (wakeWords s g k) := by
  have hne : Reg.gallery.FALLOW_STATUS g ≠ Reg.gallery.FALLOW_REQ g := by simp only [Reg.gallery.FALLOW_STATUS, Reg.gallery.FALLOW_REQ]; omega
  refine ⟨?_, ?_, .trans (.wr _ (by simp)) (.wrf (by simp))⟩
  · rw [wakeWords, rd_wrf, if_neg hne, rd_wr_self]
  · exact rdf_wrf_self _ _ (by decide) hk

theorem woken_tag (x : Gallery) {k i : Nat} (hi : i < 16) (hk : k.testBit i = false) : (x.woken k).tags.getD i 0 = 0 := by
  simp [Gallery.woken, hi, hk]

/-! ## Leaving -/

theorem exitPackets_leaves (hg : g < 50) (hlen : g < s.chip.galleries.length) (kept mode : Nat) :
    gallery (exitPackets s g kept mode) g = { gallery s g with ret := true } ∧
      (∀ a, a ≠ pageBase .gallery g + 0x28 → a < 0x80000 ∨ 0xC0000 ≤ a → rd (exitPackets s g kept mode) a = rd s a) ∧
      (exitPackets s g kept mode).sched = s.sched ∧ (exitPackets s g kept mode).store = s.store ∧ (exitPackets s g kept mode).mem = s.mem := by
  have hsync : Traces s (emitSync s g) := (emit_traces (by omega) _ _).trans (.upd _ g _)
  obtain ⟨v, hexit, hv⟩ : ∃ v, exitPackets s g kept mode = raiseEvt (updGallery v g fun x => { x with ret := true }) (pageBase .gallery g) 1 ∧
      Traces s v := ⟨_, rfl, hsync.trans (emit_traces (by omega) _ _)⟩
  have hregs := raiseEvt_regs (updGallery v g fun x => { x with ret := true }) (pageBase .gallery g) 1
  rw [hexit]
  refine ⟨?_, fun a ha hpage => ?_, ?_, ?_, ?_⟩
  · rw [hregs]
    refine (gallery_updGallery (s := v) (fun x => { x with ret := true }) (by rw [hv.galleries]; exact hlen)).trans ?_
    rw [gallery_congr hv.galleries]
  · rw [rd_raiseEvt_ne _ _ ha.symm, updGallery_rd, hv.rd a hpage]
  · rw [hregs]
    exact hv.sched
  · rw [hregs]
    exact hv.store
  · rw [hregs]
    exact hv.mem

theorem Tbl.get_filter_out {α : Type} (t : Tbl α) {p : Nat → Bool} {k : Nat} (hk : p k = false) : Tbl.get (t.filter fun x => p x.1) k = none := by
  induction t with
  | nil => rfl
  | cons x t ih =>
    rw [List.filter_cons]
    split
    · next hx =>
      have hne : x.1 ≠ k := fun e => by rw [e, hk] at hx; cases hx
      rw [Tbl.get, if_neg hne, ih]
    · exact ih

theorem rd_resetTilePages {a : Nat} (hlo : 0x1001000 + 0x20000 * g ≤ a) (hhi : a < 0x1011000 + 0x20000 * g) : rd (resetTilePages s g) a = resetOf a := by
  have hnone : Tbl.get (resetTilePages s g).regs a = none :=
    Tbl.get_filter_out s.regs (p := fun k => !(decide (0x1001000 + 0x20000 * g ≤ k) && decide (k < 0x1011000 + 0x20000 * g))) (by simp [hlo, hhi])
  rw [rd, hnone, Option.getD_none]

/-- The gallery and the registers of an entry that is given up before the gate. -/
def abortWords (s : State) (g : Nat) : State :=
  updGallery (wrf (wr s (Reg.gallery.FALLOW_REQ g) 0) (Reg.gallery.FALLOW_STATUS g) 15 0 0xFFFF) g fun x => { x with
    fstate := 4, leave := false, forced := false, postponed := false, pushedEnter := false }

theorem fallowAbort_exits (hst : (gallery s g).fstate = 1) : ∃ mode, fallowAbort s g = exitPackets (abortWords s g) g 0xFFFF mode :=
  ⟨_, if_pos hst⟩

end

/-- Settles O49: the request, the gate, the wake, the exit and the abort, each by the state of the gallery. -/
theorem fallow_is_entered_and_left : Obligations.Fallow_is_entered_and_left := by
  unfold Obligations.Fallow_is_entered_and_left
  intro s g hlen htrace x rq
  have hg : g.val < s.chip.galleries.length := by omega
  have hpage : ∀ a ∈ [rq, Reg.gallery.FALLOW_STATUS g.val], a ≠ pageBase .gallery g.val + 0x28 ∧ (a < 0x80000 ∨ 0xC0000 ≤ a) := by
    intro a ha
    simp only [rq, List.mem_cons, List.not_mem_nil, or_false, Reg.gallery.FALLOW_REQ, Reg.gallery.FALLOW_STATUS] at ha
    simp only [pageBase]
    omega
  refine ⟨fun off => ⟨fun hst => ?_, fun hst => ?_⟩, fun hst hforced hpushed hbooked => ?_, fun hst hforced hpushed hfree hempty hoff => ?_,
    fun hst hmbist => ?_, fun hst hret => ?_, fun hst => ?_⟩
  · exact congrArg Host.Outcome.next (if_pos hst)
  · refine ⟨_, congrArg Host.Outcome.next (if_neg (not_not.mpr hst)), ?_, gallery_updGallery _ hg, ?_⟩
    · rw [updGallery_rd, rd_wr_self]
    · exact ((RegsWithin.wr _ (List.mem_singleton_self _)).updGallery g.val _).onlyRegs
  · have hsame := pushEnter_booked (s := s) (g := g.val) hforced hbooked
    refine congrArg Host.Outcome.next ?_
    simp only [fallowGate, hsame]
    exact if_pos hpushed
  · obtain ⟨h, hentries, hstatus, hflush⟩ := fallowGate_passes hg g.isLt hst hforced hpushed hfree hempty hoff
    exact ⟨_, rfl, by rw [h.self], by rw [h.self], by rw [h.self], hentries, hstatus, hflush, h.onlyRegs⟩
  · obtain ⟨hlt, hbits⟩ := keptMask_bits s x
    obtain ⟨hreq, hstatus, hregs⟩ := wakeWords_reads (s := s) (g := g.val) _ hlt
    have hself := gallery_updGallery (s := wakeWords s g.val (keptMask s x)) (g := g.val) (Gallery.woken (keptMask s x)) hg
    refine ⟨_, congrArg Host.Outcome.next (fallowWake_wakes hst hmbist), by rw [hself]; rfl, hreq, fun i hi => ⟨?_, fun hno => ?_⟩,
      (hregs.updGallery g.val _).onlyRegs⟩
    · rw [show rdf (updGallery (wakeWords s g.val (keptMask s x)) g.val (Gallery.woken (keptMask s x))) (Reg.gallery.FALLOW_STATUS g.val) 15 0 =
        keptMask s x from hstatus, hbits i hi]
    · rw [hself]
      exact woken_tag _ hi ((hbits i hi).trans hno)
  · obtain ⟨hself, hrd, hsched, hstore, hmem⟩ := exitPackets_leaves (s := resetTilePages s g.val) g.isLt hg
      (rdf s (Reg.gallery.FALLOW_STATUS g.val) 15 0) (if x.fromOff then 2 else 1)
    refine ⟨_, congrArg Host.Outcome.next (if_pos ⟨hst, hret⟩), hself, fun a hlo hhi => ?_, hsched, hstore, hmem⟩
    rw [hrd a (by simp only [pageBase]; omega) (by omega)]
    exact rd_resetTilePages hlo hhi
  · obtain ⟨mode, hmode⟩ := fallowAbort_exits hst
    obtain ⟨hself, hrd, hsched, hstore, hmem⟩ := exitPackets_leaves (s := abortWords s g.val) g.isLt
      (by rw [abortWords, updGallery_chip, updAt_length]; exact hg) 0xFFFF mode
    obtain ⟨hreq, hstatus, -⟩ := wakeWords_reads (s := s) (g := g.val) 0xFFFF (by decide)
    have hgal : gallery (abortWords s g.val) g.val = { x with fstate := 4, leave := false, forced := false, postponed := false, pushedEnter := false } :=
      gallery_updGallery (s := wakeWords s g.val 0xFFFF) _ hg
    rw [hgal] at hself
    refine ⟨_, congrArg Host.Outcome.next hmode, by rw [hself], by rw [hself], by rw [hself], ?_, ?_, hsched, hstore, hmem⟩
    · obtain ⟨hevt, hout⟩ := hpage rq (by simp)
      exact (hrd rq hevt hout).trans hreq
    · obtain ⟨hevt, hout⟩ := hpage (Reg.gallery.FALLOW_STATUS g.val) (by simp)
      rw [rdf, hrd _ hevt hout]
      exact hstatus

end Sys2Proof.Machine


/-! PROOFS. Mirror pairs: the entries, and the stream of a source (R496, R497, R504). -/
namespace Sys2Proof.Machine

/-! ## The pair table -/

section
variable {s : State} {i : Nat}

theorem pairAt_of_get {p : Pair} (h : Tbl.get s.faults.pairs i = some p) : pairAt s i = p := by
  unfold pairAt
  rw [h]
  rfl

theorem pairAt_congr {t : State} (h : t.faults = s.faults) : pairAt t i = pairAt s i := by
  unfold pairAt
  rw [h]

theorem pairAt_updPair (g : Pair → Pair) : pairAt (updPair s i g) i = g (pairAt s i) := pairAt_of_get (Tbl.get_set_self _ _ _)

theorem updPair_setFaults (g : Pair → Pair) :
    updPair s i g = setFaults s fun x => { x with pairs := Tbl.set x.pairs i (g ((Tbl.get x.pairs i).getD Pair.blank)) } := rfl

end

/-! ## Frames that a node sends do not depend on its faults -/

section
variable {s t : State}

theorem OnlySends.refl (s : State) : OnlySends s s := ⟨_, _, rfl⟩

theorem OnlySends.trans {u : State} (h : OnlySends s t) (k : OnlySends t u) : OnlySends s u := by
  obtain ⟨_, _, rfl⟩ := h
  obtain ⟨_, _, rfl⟩ := k
  exact ⟨_, _, rfl⟩

theorem OnlySends.faults (h : OnlySends s t) : t.faults = s.faults := by
  obtain ⟨_, _, rfl⟩ := h
  rfl

theorem OnlySends.store (h : OnlySends s t) : t.store = s.store := by
  obtain ⟨_, _, rfl⟩ := h
  rfl

theorem OnlySends.mem (h : OnlySends s t) : t.mem = s.mem := by
  obtain ⟨_, _, rfl⟩ := h
  rfl

theorem OnlySends.sched (h : OnlySends s t) : t.sched = s.sched := by
  obtain ⟨_, _, rfl⟩ := h
  rfl

theorem sendUnit_sends (s : State) (i : Nat) (u : MUnit) : OnlySends s (sendUnit s i u) := by
  unfold sendUnit
  exact List.foldlRecOn u.frags _ (motive := OnlySends s) (.refl s) fun t h _ _ => h.trans (sendFrame_sends ..)

theorem sendAck_sends (s : State) (i seq status cls : Nat) : OnlySends s (sendAck s i seq status cls) := sendFrame_sends ..

variable (g : Faults → Faults)

theorem startFrame_setFaults (s : State) (p : Nat) : startFrame (setFaults s g) p = setFaults (startFrame s p) g := by
  have hport : port (setFaults s g) p = port s p := rfl
  have hnext : nextQueue (setFaults s g) = nextQueue s := rfl
  unfold startFrame
  rw [hport, hnext]
  split <;> rfl

theorem pushEgress_setFaults (s : State) (p : Nat) (f : EgFrame) : pushEgress (setFaults s g) p f = setFaults (pushEgress s p f) g := by
  have hport : port (setFaults s g) p = port s p := rfl
  unfold pushEgress
  rw [hport]
  dsimp only
  split
  · exact startFrame_setFaults g (updPort s p fun t => { t with queues := updAt t.queues (egressQueue f) (· ++ [f]) }) p
  · rfl

theorem sendFrame_setFaults (s : State) (typ flags cls dst object flow : Nat) (payload : List Byte) :
    sendFrame (setFaults s g) typ flags cls dst object flow payload = setFaults (sendFrame s typ flags cls dst object flow payload) g := by
  have hports : eligiblePorts (setFaults s g) dst = eligiblePorts s dst := rfl
  unfold sendFrame
  rw [hports]
  dsimp only
  split
  · rfl
  · exact pushEgress_setFaults g s _ _

/-- The frames of a unit do not depend on what of the pair says nothing of its two ends. -/
theorem sendUnit_updPair_links {s : State} {i : Nat} {g : Pair → Pair} (u : MUnit) (hpeer : (g (pairAt s i)).peer = (pairAt s i).peer)
    (hobj : (g (pairAt s i)).obj = (pairAt s i).obj) (hpeerObj : (g (pairAt s i)).peerObj = (pairAt s i).peerObj) :
    (sendUnit (updPair s i g) i u).links = (sendUnit s i u).links := by
  have hhall (o : Nat) : hallObj (updPair s i g) o = hallObj s o := rfl
  unfold sendUnit
  simp only [pairAt_updPair, hpeer, hobj, hpeerObj, hhall]
  rw [updPair_setFaults, List.foldl_hom (setFaults · _) fun t x => (sendFrame_setFaults _ t ..)]
  rfl

theorem rd_sendUnit {a : Nat} (ha : a < 0x10000) (hne : a ≠ Reg.atrium.NO_ROUTE) (s : State) (i : Nat) (u : MUnit) : rd (sendUnit s i u) a = rd s a := by
  unfold sendUnit
  exact List.foldlRecOn u.frags _ (motive := fun t => rd t a = rd s a) rfl fun t h _ _ => (rd_sendFrame ha hne ..).trans h

end

/-! ## Pair entries -/

section
variable {s : State}

theorem pairResult_lt (e : Nat) : pairResult s e < 256 := by
  unfold pairResult
  split
  · decide
  · split
    · decide
    · split <;> decide

theorem pairWrite_accepted (h : pairResult s (rd64 s Reg.fault.PAIR_ENTRY) = 0) :
    pairWrite s = updPair (wrf s Reg.fault.PAIR_STATUS 7 0 0) (rdf s Reg.fault.PAIR_SEL 7 0)
      fun p => { p with next := some (BitVec.ofNat 64 (rd64 s Reg.fault.PAIR_ENTRY)) } := by
  simp only [pairWrite, h, ite_true]

theorem pairWrite_refused (h : pairResult s (rd64 s Reg.fault.PAIR_ENTRY) ≠ 0) :
    pairWrite s = wrf s Reg.fault.PAIR_STATUS 7 0 (pairResult s (rd64 s Reg.fault.PAIR_ENTRY)) := if_neg h

theorem pairStatus_wrf {r : Nat} (hr : r < 256) : rdf (wrf s Reg.fault.PAIR_STATUS 7 0 r) Reg.fault.PAIR_STATUS 7 0 = r :=
  rdf_wrf_self s _ (by decide) hr

theorem wrf_pairStatus_rd (r a : Nat) (ha : a ∉ [Reg.fault.PAIR_STATUS]) : rd (wrf s Reg.fault.PAIR_STATUS 7 0 r) a = rd s a :=
  (RegsWithin.wrf (P := (· ∈ [Reg.fault.PAIR_STATUS])) (by simp)).rd a ha

/-! ## Resends -/

variable {i : Nat} {u : MUnit}

theorem mirrorResend_idle (h : (pairAt s i).streams = false) : mirrorResend s i = s := by
  unfold mirrorResend
  rw [h]
  rfl

theorem mirrorResend_single (hstreams : (pairAt s i).streams = true) (hunits : (pairAt s i).units = [u]) : mirrorResend s i = resendUnit i s u := by
  unfold mirrorResend
  rw [if_pos hstreams, hunits]
  rfl

theorem resendUnit_early (h : s.now < u.sentAt + 2) : resendUnit i s u = s := if_neg fun ⟨_, hdue⟩ => by omega

/-- The pair with a unit marked as sent in this step. -/
def sentNow (now seq : Nat) (p : Pair) : Pair := { p with units := p.units.map fun x => if x.seq = seq then { x with sentAt := now } else x }

theorem resendUnit_due (hacked : u.acked = false) (hdue : u.sentAt + 2 ≤ s.now) :
    resendUnit i s u = count (sendUnit (updPair s i (sentNow s.now u.seq)) i u) Reg.fault.STREAM_RESENDS := if_pos ⟨hacked, hdue⟩

theorem sentNow_single {p : Pair} (h : p.units = [u]) (now : Nat) : sentNow now u.seq p = { p with units := [{ u with sentAt := now }] } := by
  simp [sentNow, h]

theorem resent (hunits : (pairAt s i).units = [u]) :
    let t := count (sendUnit (updPair s i (sentNow s.now u.seq)) i u) Reg.fault.STREAM_RESENDS
    pairAt t i = { pairAt s i with units := [{ u with sentAt := s.now }] } ∧
      rd t Reg.fault.STREAM_RESENDS = counted Reg.fault.STREAM_RESENDS (rd s Reg.fault.STREAM_RESENDS) ∧
      t.links = (sendUnit s i u).links ∧ t.store = s.store ∧ t.sched = s.sched ∧ t.mem = s.mem := by
  have hsends := sendUnit_sends (updPair s i (sentNow s.now u.seq)) i u
  refine ⟨?_, ?_, sendUnit_updPair_links u rfl rfl rfl, hsends.store, hsends.sched, hsends.mem⟩
  · exact (pairAt_congr hsends.faults).trans ((pairAt_updPair _).trans (sentNow_single hunits _))
  · rw [rd_count, if_pos rfl, rd_sendUnit (by decide) (by decide), updPair_rd]

/-! ## Acknowledgements -/

/-- With nothing waiting for the stream, the end of a unit is all that its acknowledgement does; a PREP waits for its batch instead. -/
theorem ackUnit_ends {seq : Nat} (hfind : ((pairAt s i).units.find? fun x => x.seq == seq) = some u) (htyp : u.typ ≠ 0x50)
    (hheld : s.faults.held = []) : ackUnit s i seq = updPair s i fun q => { q with units := q.units.filter (·.seq ≠ seq) } := by
  unfold ackUnit
  rw [hfind]
  dsimp only
  rw [if_neg htyp]
  simp only [releaseHeldActs, updPair, hheld, List.map_nil, List.filter_nil, List.foldl_nil]

theorem mirrorAck_taken {f : Frame} {p : Pair} (hctl : ctlOk f.body = true)
    (hfind : (s.faults.pairs.find? fun x => x.2.streams && x.2.peer == f.src && x.2.obj == (parseMHdr f.body).srcObj) = some (i, p))
    (hstatus : (parseMHdr f.body).status ≠ 1) : mirrorAck s f = ackUnit s i (parseMHdr f.body).seq := by
  unfold mirrorAck
  rw [hctl, if_neg (by decide)]
  dsimp only
  rw [hfind]
  exact if_neg hstatus

end

/-- Settles O43: a pair write by whether its entry is accepted, a resend by whether its unit is due, an acknowledgement by the unit that it names. -/
theorem pairs_are_written_and_streamed : Obligations.Pairs_are_written_and_streamed := by
  unfold Obligations.Pairs_are_written_and_streamed
  intro s
  refine ⟨?_, fun i h => congrArg Host.Outcome.next (mirrorResend_idle h), fun i u hstreams hunits hacked => ⟨fun hearly => ?_, fun hdue => ?_⟩, ?_⟩
  · dsimp only
    refine ⟨pairWrite s, rfl, ?_⟩
    by_cases hr : pairResult s (rd64 s Reg.fault.PAIR_ENTRY) = 0
    · rw [pairWrite_accepted hr]
      exact ⟨(pairStatus_wrf (by decide)).trans hr.symm, fun _ => rfl, fun h => absurd hr h, rfl, wrf_pairStatus_rd 0⟩
    · rw [pairWrite_refused hr]
      exact ⟨pairStatus_wrf (pairResult_lt _), fun h => absurd h hr, fun _ => rfl, rfl, wrf_pairStatus_rd _⟩
  · exact congrArg Host.Outcome.next ((mirrorResend_single hstreams hunits).trans (resendUnit_early hearly))
  · exact ⟨_, congrArg Host.Outcome.next ((mirrorResend_single hstreams hunits).trans (resendUnit_due hacked hdue)), resent hunits⟩
  · intro f i p u htyp hacc hctl hdr hfind hget hstatus hunit htypNe hheld
    have hfaults : (delivered s f).faults = s.faults := (delivered_regs hacc).faults
    rw [← hfaults] at hfind hget hheld
    rw [← pairAt_of_get hget] at hunit
    exact congrArg Host.Outcome.next ((receive_accepted _ htyp hacc).trans
      ((mirrorAck_taken hctl hfind hstatus).trans (ackUnit_ends hunit htypNe hheld)))

end Sys2Proof.Machine


/-! PROOFS. Mirror pairs: the follower (R499 to R504). -/
namespace Sys2Proof.Machine

/-! ## Commits and row updates leave the faults -/

section
variable {s : State}

theorem foldl_faults {α : Type} {f : State → α → State} (hf : ∀ t x, (f t x).faults = t.faults) (l : List α) (s : State) :
    (l.foldl f s).faults = s.faults :=
  List.foldlRecOn l f (motive := fun t : State => t.faults = s.faults) rfl fun _ h _ _ => (hf _ _).trans h

theorem setUse_faults (n : Nat) : (setUse s n).faults = s.faults := by
  unfold setUse
  rw [wr_faults, wr_faults]

theorem setDurable_faults : (setDurable s).faults = s.faults := by
  unfold setDurable
  rw [wr64_faults]

theorem dirtyBuckets_faults (range first : Nat) (old new : Tbl (List KeyEntry)) : (dirtyBuckets s range first old new).faults = s.faults := by
  unfold dirtyBuckets
  refine foldl_faults (fun t x => ?_) _ s
  dsimp only
  split <;> rfl

theorem dirtyMap_faults (n : Nat) (old : Tbl (List KeyEntry)) : (dirtyMap s n old).faults = s.faults := by
  unfold dirtyMap
  split
  · rfl
  · exact dirtyBuckets_faults ..

theorem commitTo_faults {u : State} {id : Option Nat} {n ep : Nat} {ins ifAbs : Bool} {seq : Option Nat} {given : Option (List Nat)}
    {items done : List UpdItem} {first : Nat} (h : (commitTo s id n ep ins ifAbs seq given items).1 = some (u, done, first)) :
    u.faults = s.faults := by
  unfold commitTo at h
  split at h
  · cases h
  · extract_lets c0 a c1 sched s1 tooMany new j s2 at h
    split at h
    · cases h
    · cases h
      rw [setDurable_faults, setUse_faults]
      exact dirtyMap_faults (s := s1) n _

theorem dirtyRow_faults (n : Nat) (t : Table) (idx : Nat) : (dirtyRow s n t idx).faults = s.faults := by
  refine foldl_faults (fun u j => ?_) _ s
  dsimp only
  split <;> rfl

theorem countRowLost_faults (n : Nat) (t : Table) (idx : Nat) : (countRowLost s n t idx).faults = s.faults := by
  unfold countRowLost
  dsimp only
  split
  · rfl
  · exact raiseEvt_faults _ _ _

theorem scatterRow_faults (n : Nat) (p : OptParams) (gradFmt : Nat) (key : Quad) (grad : List Byte) :
    (scatterRow s n p gradFmt key grad).1.faults = s.faults := by
  unfold scatterRow
  dsimp only
  repeat' split
  all_goals simp only [count_faults, setUse_faults, dirtyBuckets_faults, setTable_faults, dirtyRow_faults, countRowLost_faults]

theorem applyRows_faults (n : Nat) (t : Table) (u : MUnit) : (applyRows s n t u).faults = s.faults := by
  unfold applyRows
  exact foldl_faults (fun _ _ => foldl_faults (fun _ _ => scatterRow_faults ..) _ _) _ _

end

/-! ## The units that a follower holds -/

/-- A unit that is not held any more. -/
def withoutUnit (seq : Nat) (p : Pair) : Pair := { p with units := p.units.filter (·.seq ≠ seq) }

/-- The pair after a unit has been applied: a PREP stays held until it is settled. -/
def unitApplied (u : MUnit) (p : Pair) : Pair :=
  { p with applied := u.seq, units := if u.typ = 0x50 then p.units else p.units.filter (·.seq ≠ u.seq) }

theorem filter_newest {l : List MUnit} {u : MUnit} (h : ∀ x ∈ l, x.seq < u.seq) : (l ++ [u]).filter (·.seq ≠ u.seq) = l := by
  have hold : l.filter (·.seq ≠ u.seq) = l := List.filter_eq_self.mpr fun x hx => by
    have := h x hx
    simp only [ne_eq, decide_not, Bool.not_eq_eq_eq_not, Bool.not_true, decide_eq_false_iff_not]
    omega
  rw [List.filter_append, hold]
  simp

theorem filter_newest_without {l : List MUnit} {u : MUnit} (h : ∀ x ∈ l, x.seq < u.seq) (seq : Nat) :
    ((l ++ [u]).filter (·.seq ≠ seq)).filter (·.seq ≠ u.seq) = l.filter (·.seq ≠ seq) := by
  rw [List.filter_comm, filter_newest h]

theorem updPair_congr {s : State} {i : Nat} {f g : Pair → Pair} (h : f (pairAt s i) = g (pairAt s i)) : updPair s i f = updPair s i g := by
  unfold updPair
  rw [h]

/-- A unit of one fragment. -/
def soleUnit (f : Frame) : MUnit :=
  let h := parseMHdr f.body
  ⟨h.seq, f.typ, h.op, h.epoch, f.cls, h.entries, 1, [(0, h.first, h.cnt, f.body.drop 64)], 0, false, 0, 0⟩

section
variable {s t : State} {f : Frame} {i : Nat} {p : Pair} {u : MUnit}

theorem soleUnit_whole : (soleUnit f).whole = true := rfl

theorem soleUnit_body : (soleUnit f).body = f.body.drop 64 := by
  simp [MUnit.body, soleUnit]

/-- A unit of one fragment that was not held before joins those held. -/
theorem addFrag_new (hold : ∀ x ∈ p.units, x.seq < (parseMHdr f.body).seq) (hno : (parseMHdr f.body).fragNo = 0)
    (hcount : (parseMHdr f.body).fragCount = 1) :
    addFrag p f.typ f.cls (parseMHdr f.body) (f.body.drop 64) = { p with units := p.units ++ [soleUnit f] } := by
  have hnone : p.units.find? (·.seq == (parseMHdr f.body).seq) = none := List.find?_eq_none.mpr fun x hx => by
    have := hold x hx
    simp only [beq_iff_eq]
    omega
  unfold addFrag soleUnit
  dsimp only
  rw [hnone, hno, hcount]

/-- Draining stops after a unit that is applied and is the newest of those held. -/
theorem drainUnits_newest (hfind : (pairAt s i).units.find? (fun x => x.seq == (pairAt s i).applied + 1 && x.whole) = some u)
    (happly : applyUnit s i u = .yes t) (hlast : ∀ x ∈ (pairAt t i).units, x.seq ≤ u.seq) (n : Nat) :
    drainUnits s i (n + 1) = updPair t i (unitApplied u) := by
  have hstop : ∀ n, drainUnits (updPair t i (unitApplied u)) i n = updPair t i (unitApplied u)
    | 0 => rfl
    | n + 1 => by
      have hnone : (unitApplied u (pairAt t i)).units.find? (fun x => x.seq == (unitApplied u (pairAt t i)).applied + 1 && x.whole) = none := by
        refine List.find?_eq_none.mpr fun x hx => ?_
        have hmem : x ∈ (pairAt t i).units := by
          simp only [unitApplied] at hx
          split at hx
          · exact hx
          · exact List.mem_of_mem_filter hx
        have := hlast x hmem
        simp only [unitApplied, Bool.and_eq_true, beq_iff_eq]
        omega
      rw [drainUnits, pairAt_updPair, hnone]
  rw [drainUnits, hfind]
  dsimp only
  rw [happly]
  exact hstop n

/-! ## The next unit of a stream arrives -/

/-- A follower's node as a frame of the ingress checks finds it: pair `i`, whose entry is `p`, takes the frame and goes on. -/
structure Follows (s : State) (f : Frame) (i : Nat) (p : Pair) : Prop where
  ctl : ctlOk f.body = true
  find : (s.faults.pairs.find? fun x => x.2.role == 2 && x.2.peer == f.src && x.2.obj == (parseMHdr f.body).dstObj) = some (i, p)
  get : Tbl.get s.faults.pairs i = some p
  going : p.diverged = false

/-- The frame is the whole next unit of the stream of pair `i`, no later unit is held, and nothing stops its application. -/
structure TakesNext (s : State) (f : Frame) (i : Nat) (p : Pair) : Prop extends Follows s f i p where
  seq : (parseMHdr f.body).seq = p.applied + 1
  older : ∀ x ∈ p.units, x.seq ≤ p.applied
  fragNo : (parseMHdr f.body).fragNo = 0
  fragCount : (parseMHdr f.body).fragCount = 1
  room : heldBytes p + f.body.length ≤ 0x200000000
  free : copying s p.obj = false

/-- The unit is held and acknowledged. -/
def unitHeld (s : State) (f : Frame) (i : Nat) : State :=
  sendAck (updPair s i fun q => { q with units := q.units ++ [soleUnit f] }) i (parseMHdr f.body).seq 0 f.cls

theorem mirrorUnit_again (h : Follows s f i p) (hold : (parseMHdr f.body).seq ≤ p.applied) :
    mirrorUnit s f = sendAck s i (parseMHdr f.body).seq 0 f.cls := by
  unfold mirrorUnit
  rw [h.ctl, if_neg (by decide)]
  dsimp only
  rw [h.find]
  dsimp only
  rw [h.going, if_neg (by decide), if_pos hold]

theorem unitHeld_sends : OnlySends (updPair s i fun q => { q with units := q.units ++ [soleUnit f] }) (unitHeld s f i) := sendAck_sends ..

namespace TakesNext
variable (h : TakesNext s f i p)
include h

theorem pair : pairAt (unitHeld s f i) i = { p with units := p.units ++ [soleUnit f] } := by
  rw [pairAt_congr unitHeld_sends.faults, pairAt_updPair, pairAt_of_get h.get]

theorem newest : ∀ x ∈ p.units, x.seq < (soleUnit f).seq := fun x hx => by
  have hseq : (soleUnit f).seq = p.applied + 1 := h.seq
  have := h.older x hx
  omega

theorem find_next : (p.units ++ [soleUnit f]).find? (fun x => x.seq == p.applied + 1 && x.whole) = some (soleUnit f) := by
  have hseq : (soleUnit f).seq = p.applied + 1 := h.seq
  have hnone : p.units.find? (fun x => x.seq == p.applied + 1 && x.whole) = none := List.find?_eq_none.mpr fun x hx => by
    have := h.older x hx
    simp only [Bool.and_eq_true, beq_iff_eq]
    omega
  rw [List.find?_append, hnone]
  simp [hseq, soleUnit_whole]

theorem find_held : (p.units ++ [soleUnit f]).find? (fun x => x.seq == (parseMHdr f.body).seq) = some (soleUnit f) := by
  have hnone : p.units.find? (fun x => x.seq == (parseMHdr f.body).seq) = none := List.find?_eq_none.mpr fun x hx => by
    have := h.newest x hx
    simp only [beq_iff_eq]
    exact Nat.ne_of_lt this
  rw [List.find?_append, hnone]
  simp [soleUnit]

theorem heldBytes_le : heldBytes { p with units := p.units ++ [soleUnit f] } ≤ 0x200000000 := by
  have hroom := h.room
  have hsum : heldBytes { p with units := p.units ++ [soleUnit f] } = heldBytes p + (soleUnit f).body.length := by
    simp [heldBytes, sumOf]
  rw [hsum, soleUnit_body, List.length_drop]
  omega

theorem role : p.role = 2 := by
  have := List.find?_some h.find
  simp only [Bool.and_eq_true, beq_iff_eq] at this
  exact this.1.1

theorem copying_held : copying (unitHeld s f i) p.obj = false := by
  have hfree := h.free
  unfold copying at hfree ⊢
  rw [unitHeld_sends.faults, unitHeld_sends.store]
  exact hfree

/-- The node holds and acknowledges the unit, and drains what it holds. -/
theorem mirrorUnit_drains : mirrorUnit s f = drainUnits (unitHeld s f i) i (p.units.length + 1) := by
  have hadd : (updPair s i fun p => addFrag p f.typ f.cls (parseMHdr f.body) (f.body.drop 64)) =
      updPair s i fun q => { q with units := q.units ++ [soleUnit f] } := by
    refine updPair_congr ?_
    rw [pairAt_of_get h.get]
    exact addFrag_new h.newest h.fragNo h.fragCount
  have hseq : ¬ (parseMHdr f.body).seq ≤ p.applied := by
    rw [h.seq]
    omega
  have hpair : pairAt (updPair s i fun q => { q with units := q.units ++ [soleUnit f] }) i = { p with units := p.units ++ [soleUnit f] } := by
    rw [pairAt_updPair, pairAt_of_get h.get]
  unfold mirrorUnit
  rw [h.ctl, if_neg (by decide)]
  dsimp only
  rw [h.find]
  dsimp only
  rw [h.going, if_neg (by decide), if_neg hseq, hadd, hpair, h.find_held]
  dsimp only
  rw [if_neg (Nat.not_lt.mpr h.heldBytes_le), soleUnit_whole, if_pos rfl]
  show drainPair (unitHeld s f i) i = _
  unfold drainPair
  rw [h.pair, if_pos ⟨h.role, h.going, h.copying_held⟩, List.length_append, List.length_singleton]

/-- What a unit that can be applied leaves. -/
theorem mirrorUnit_applies (happly : applyUnit (unitHeld s f i) i (soleUnit f) = .yes t)
    (hlast : ∀ x ∈ (pairAt t i).units, x ∈ p.units ++ [soleUnit f]) : mirrorUnit s f = updPair t i (unitApplied (soleUnit f)) := by
  refine h.mirrorUnit_drains.trans (drainUnits_newest ?_ happly (fun x hx => ?_) _)
  · rw [h.pair]
    exact h.find_next
  · obtain hx | hx := List.mem_append.mp (hlast x hx)
    · exact (h.newest x hx).le
    · rw [List.mem_singleton.mp hx]

end TakesNext

/-! ## Units about a collection -/

theorem openPrep_held {pr : MUnit} (hopen : openPrep p (parseMHdr f.body).entries (parseMHdr f.body).seq = some pr) :
    openPrep { p with units := p.units ++ [soleUnit f] } (soleUnit f).entries (soleUnit f).seq = some pr := by
  have hold : p.units.find? (fun x => x.typ == 0x50 && x.seq < (soleUnit f).seq && x.entries == (soleUnit f).entries) = some pr := hopen
  unfold openPrep
  rw [List.find?_append, hold, Option.some_or]

namespace TakesNext
variable {c : Coll} {pr : MUnit} (h : TakesNext s f i p)
include h

section
variable (hobj : p.obj < 4096) (hcoll : Tbl.get s.store.colls p.obj = some c)
include hobj hcoll

theorem applyUnit_coll : applyUnit (unitHeld s f i) i (soleUnit f) =
    if f.typ = 0x51 then applyCommit (unitHeld s f i) i { p with units := p.units ++ [soleUnit f] } c (soleUnit f)
    else if f.typ = 0x52 then applyClose (unitHeld s f i) i { p with units := p.units ++ [soleUnit f] } c (soleUnit f)
    else .yes (unitHeld s f i) := by
  unfold applyUnit
  rw [h.pair]
  dsimp only
  rw [if_pos hobj, unitHeld_sends.store, updPair_store, hcoll]
  rfl

theorem prep_taken (htyp : f.typ = 0x50) : mirrorUnit s f = updPair (unitHeld s f i) i (unitApplied (soleUnit f)) := by
  refine h.mirrorUnit_applies ?_ fun x hx => ?_
  · rw [h.applyUnit_coll hobj hcoll, htyp]
    rfl
  · rwa [h.pair] at hx

/-- The ABORT of a PREP drops it. -/
theorem abort_taken (htyp : f.typ = 0x51) (hop : leAt f.body 22 1 = 1)
    (hopen : openPrep p (parseMHdr f.body).entries (parseMHdr f.body).seq = some pr) :
    mirrorUnit s f = updPair (updPair (unitHeld s f i) i (withoutUnit pr.seq)) i (unitApplied (soleUnit f)) := by
  have hop' : (soleUnit f).op = 1 := hop
  refine h.mirrorUnit_applies ?_ fun x hx => ?_
  · rw [h.applyUnit_coll hobj hcoll, if_pos htyp]
    unfold applyCommit
    rw [openPrep_held hopen]
    exact if_pos hop'
  · rw [pairAt_updPair, h.pair] at hx
    exact List.mem_of_mem_filter hx

/-- The COMMIT of a PREP commits its batch as the source did. -/
theorem commit_taken {x : State} {d : List UpdItem} {n : Nat} {e : Bool} (htyp : f.typ = 0x51) (hop : leAt f.body 22 1 = 0)
    (hopen : openPrep p (parseMHdr f.body).entries (parseMHdr f.body).seq = some pr)
    (hfree : pr.op = 0x20 → slotsFree c (prepItems c pr) (((f.body.drop 64).drop 8).map (·.toNat)) = true)
    (hcommit : commitTo (updPair (unitHeld s f i) i (withoutUnit pr.seq)) none p.obj (parseMHdr f.body).epoch (pr.op == 0x20) false
      (some (leAt (f.body.drop 64) 0 8)) (some (((f.body.drop 64).drop 8).map (·.toNat))) (prepItems c pr) = (some (x, d, n), e)) :
    mirrorUnit s f = updPair x i (unitApplied (soleUnit f)) ∧
      pairAt x i = withoutUnit pr.seq { p with units := p.units ++ [soleUnit f] } := by
  have hop' : (soleUnit f).op = 0 := hop
  have hepoch : (soleUnit f).epoch = (parseMHdr f.body).epoch := rfl
  have hpair : pairAt x i = withoutUnit pr.seq { p with units := p.units ++ [soleUnit f] } := by
    rw [pairAt_congr (commitTo_faults (congrArg Prod.fst hcommit)), pairAt_updPair, h.pair]
  refine ⟨h.mirrorUnit_applies ?_ fun y hy => ?_, hpair⟩
  · rw [h.applyUnit_coll hobj hcoll, if_pos htyp]
    unfold applyCommit
    rw [openPrep_held hopen]
    dsimp only
    rw [hop', if_neg (by decide), soleUnit_body, if_neg fun ⟨hins, hwait⟩ => Bool.false_ne_true (hwait.symm.trans (hfree hins))]
    unfold withoutUnit at hcommit
    rw [hepoch, hcommit]
  · rw [hpair] at hy
    exact List.mem_of_mem_filter hy

/-- A CLOSE that names no transplant closes its epoch. -/
theorem close_taken (htyp : f.typ = 0x52) (hnone : leAt (f.body.drop 64) 8 2 = 0) :
    mirrorUnit s f = updPair (updPair (unitHeld s f i) i fun q => { q with closed := (parseMHdr f.body).epoch }) i (unitApplied (soleUnit f)) := by
  refine h.mirrorUnit_applies ?_ fun x hx => ?_
  · rw [h.applyUnit_coll hobj hcoll, htyp]
    show applyClose _ _ _ _ _ = _
    unfold applyClose
    rw [soleUnit_body, hnone, Nat.mul_zero, List.take_zero]
    rfl
  · rw [pairAt_updPair, h.pair] at hx
    exact hx

end

/-! ## Units about a table -/

/-- The gradients of a ROWS are applied. -/
theorem rows_taken {x : Table} (hobj : 4096 ≤ p.obj) (htable : Tbl.get s.store.tables (p.obj - 4096) = some x) (htyp : f.typ = 0x53) :
    mirrorUnit s f = updPair (applyRows (unitHeld s f i) (p.obj - 4096) x (soleUnit f)) i (unitApplied (soleUnit f)) ∧
      pairAt (applyRows (unitHeld s f i) (p.obj - 4096) x (soleUnit f)) i = { p with units := p.units ++ [soleUnit f] } := by
  have htyp' : (soleUnit f).typ = 0x53 := htyp
  have hpair := (pairAt_congr (applyRows_faults (s := unitHeld s f i) (p.obj - 4096) x (soleUnit f))).trans h.pair
  refine ⟨h.mirrorUnit_applies ?_ fun y hy => ?_, hpair⟩
  · unfold applyUnit
    rw [h.pair]
    dsimp only
    rw [if_neg (Nat.not_lt.mpr hobj), unitHeld_sends.store, updPair_store, htable]
    exact if_pos htyp'
  · rwa [hpair] at hy

/-! ## The pair afterwards -/

theorem pair_applied (htyp : f.typ ≠ 0x50) :
    unitApplied (soleUnit f) { p with units := p.units ++ [soleUnit f] } = { p with applied := (parseMHdr f.body).seq } := by
  have htyp' : (soleUnit f).typ ≠ 0x50 := htyp
  unfold unitApplied
  rw [if_neg htyp', filter_newest h.newest]
  rfl

theorem pair_settled (htyp : f.typ = 0x51) (seq : Nat) : unitApplied (soleUnit f) (withoutUnit seq { p with units := p.units ++ [soleUnit f] }) =
    { p with units := p.units.filter (·.seq ≠ seq), applied := (parseMHdr f.body).seq } := by
  have htyp' : (soleUnit f).typ ≠ 0x50 := fun e => absurd (e.symm.trans htyp) (by decide)
  unfold unitApplied withoutUnit
  rw [if_neg htyp', filter_newest_without h.newest]
  rfl

end TakesNext

theorem pair_held (htyp : f.typ = 0x50) : unitApplied (soleUnit f) { p with units := p.units ++ [soleUnit f] } =
    { p with units := p.units ++ [soleUnit f], applied := (parseMHdr f.body).seq } := by
  have htyp' : (soleUnit f).typ = 0x50 := htyp
  unfold unitApplied
  rw [if_pos htyp']
  rfl

end

/-- Settles O44: the next unit joins those held and is applied at once, each type as its lemma says; it is then the newest unit that draining
finds. -/
theorem follower_applies_the_stream : Obligations.Follower_applies_the_stream := by
  unfold Obligations.Follower_applies_the_stream
  intro s f i p hacc hctl v h b unit w hfind hget hgoing
  have hregs : RegsWithin (0x10000 ≤ ·) s v := delivered_regs hacc
  have hfollows : Follows v f i p := ⟨hctl, hregs.faults ▸ hfind, hregs.faults ▸ hget, hgoing⟩
  have hstore : (unitHeld v f i).store = s.store := unitHeld_sends.store.trans hregs.store
  have hmem : (unitHeld v f i).mem = s.mem := unitHeld_sends.mem.trans hregs.mem
  have hsched : (unitHeld v f i).sched = s.sched := unitHeld_sends.sched.trans hregs.sched
  refine ⟨fun htyp hold => ?_, fun hseq hold hno hcount hroom hfree => ?_⟩
  · exact congrArg Host.Outcome.next ((receive_accepted _ htyp hacc).trans (mirrorUnit_again hfollows hold))
  have hcopying : copying v p.obj = false := by
    unfold copying at hfree ⊢
    rw [hregs.faults, hregs.store]
    exact hfree
  have hnext : TakesNext v f i p := ⟨hfollows, hseq, hold, hno, hcount, hroom, hcopying⟩
  refine ⟨fun c hobj hcoll => ?_, fun x hobj htable htyp => ?_⟩
  · rw [← hregs.store] at hcoll
    refine ⟨fun htyp => ?_, fun pr x d n e htyp hop hopen hslots hcommit => ?_, fun pr htyp hop hopen => ?_, fun htyp hnone => ?_⟩
    · refine ⟨_, congrArg Host.Outcome.next ((receive_accepted _ htyp hacc).trans (hnext.prep_taken hobj hcoll htyp)), ?_,
        updPair_links .., (updPair_store ..).trans hstore, (updPair_mem ..).trans hmem, (updPair_sched ..).trans hsched⟩
      rw [pairAt_updPair, hnext.pair]
      exact pair_held htyp
    · obtain ⟨htaken, hpair⟩ := hnext.commit_taken hobj hcoll htyp hop hopen hslots hcommit
      refine ⟨_, congrArg Host.Outcome.next ((receive_accepted _ htyp hacc).trans ((if_pos hop).trans htaken)), updPair_store .., updPair_mem .., ?_⟩
      rw [pairAt_updPair, hpair]
      exact hnext.pair_settled htyp pr.seq
    · refine ⟨_, congrArg Host.Outcome.next ((receive_accepted _ htyp hacc).trans ((if_pos hop).trans (hnext.abort_taken hobj hcoll htyp hop hopen))),
        ?_, (updPair_store ..).trans ((updPair_store ..).trans hstore), (updPair_mem ..).trans ((updPair_mem ..).trans hmem)⟩
      rw [pairAt_updPair, pairAt_updPair, hnext.pair]
      exact hnext.pair_settled htyp pr.seq
    · refine ⟨_, congrArg Host.Outcome.next ((receive_accepted _ htyp hacc).trans (hnext.close_taken hobj hcoll htyp hnone)), ?_,
        (updPair_store ..).trans ((updPair_store ..).trans hstore), (updPair_mem ..).trans ((updPair_mem ..).trans hmem)⟩
      rw [pairAt_updPair, pairAt_updPair, hnext.pair]
      exact congrArg (fun q : Pair => { q with closed := h.epoch }) (hnext.pair_applied (by rw [htyp]; decide))
  · rw [← hregs.store] at htable
    obtain ⟨htaken, hpair⟩ := hnext.rows_taken hobj htable htyp
    refine ⟨_, congrArg Host.Outcome.next ((receive_accepted _ htyp hacc).trans htaken), updPair_store .., updPair_mem .., ?_⟩
    rw [pairAt_updPair, hpair]
    exact hnext.pair_applied (by rw [htyp]; decide)

end Sys2Proof.Machine


/-! PROOFS. Interrupts of the management cores (R525 to R531, R548). -/
namespace Sys2Proof.Machine

/-! ## Cores and the sources of the controller -/

section
variable {s t : State} {c k n : Nat} {x y z : Src}

theorem getCore_updCore (f : CoreSt → CoreSt) (h : c < s.chip.intc.cores.length) : getCore (updCore s c f) c = f (getCore s c) :=
  getD_updAt f _ h

theorem getCore_updCore_ne (f : CoreSt → CoreSt) (h : k ≠ c) : getCore (updCore s c f) k = getCore s k := getD_updAt_ne f _ h

/-- A core that is enabled is one of the node's. -/
theorem core_lt (h : (getCore s c).enabled = true) : c < s.chip.intc.cores.length := by
  by_contra hge
  unfold getCore at h
  rw [List.getD_eq_default _ _ (Nat.le_of_not_lt hge)] at h
  exact Bool.false_ne_true h

theorem mem_putSrc {p : Nat × Src} (h : p ∈ (putSrc s n x).chip.intc.srcs) : p = (n, x) ∨ p ∈ s.chip.intc.srcs := by
  by_cases hx : x = Src.reset
  · have hsrcs : (putSrc s n x).chip.intc.srcs = Tbl.del s.chip.intc.srcs n := if_pos hx
    exact .inr (Tbl.mem_del (hsrcs ▸ h)).1
  · have hsrcs : (putSrc s n x).chip.intc.srcs = Tbl.set s.chip.intc.srcs n x := if_neg hx
    exact Tbl.mem_set (hsrcs ▸ h)

theorem rebind_activeOn (s : State) (n : Nat) (x : Src) : (rebind s n x).activeOn = x.activeOn := by
  have hlevel : (x.levelNow s n).activeOn = x.activeOn := by
    unfold Src.levelNow
    split <;> rfl
  unfold rebind
  dsimp only
  split
  · exact hlevel
  · split
    · split <;> exact hlevel
    · exact hlevel

/-- What a core selects is a listed source that is active nowhere. -/
theorem selected_some {p : Nat × Src} (h : selected s c = some p) : p ∈ s.chip.intc.srcs ∧ p.2.activeOn = none := by
  have hmem : ∀ (l : List (Nat × Src)) (best : Option (Nat × Src)), (∀ b, best = some b → b ∈ s.chip.intc.srcs ∧ b.2.activeOn = none) →
      (∀ q ∈ l, q ∈ s.chip.intc.srcs ∧ q.2.activeOn = none) → ∀ p, l.foldl (fun best p => match best with
        | none => some p
        | some b => if ranksAbove s p b then some p else some b) best = some p → p ∈ s.chip.intc.srcs ∧ p.2.activeOn = none := by
    intro l
    induction l with
    | nil => exact fun best hbest _ p hp => hbest p hp
    | cons q l ih =>
      intro best hbest hl p hp
      rw [List.foldl_cons] at hp
      refine ih _ (fun b hb => ?_) (fun r hr => hl r (List.mem_cons_of_mem _ hr)) p hp
      have hq := hl q List.mem_cons_self
      cases best with
      | none => exact Option.some.inj hb ▸ hq
      | some a =>
        dsimp only at hb
        split at hb
        · exact Option.some.inj hb ▸ hq
        · exact Option.some.inj hb ▸ hbest a rfl
  refine hmem _ none nofun (fun q hq => ?_) p h
  obtain ⟨hsrc, hcond⟩ := List.mem_filter.mp hq
  simp only [Bool.and_eq_true, Option.isNone_iff_eq_none] at hcond
  exact ⟨hsrc, hcond.1.2⟩

/-! ## What binding and taking leave -/

/-- `t` is `s` after cores have taken sources: only the controller and two registers of its page have moved, CORE_EN stands, and a core that is off
has taken nothing. -/
structure Settles (s t : State) : Prop where
  eq : t = { s with regs := t.regs, chip := { s.chip with intc := t.chip.intc } }
  rd : ∀ a, a ≠ Reg.intc.NEST_FULL → a ≠ pageBase .intc 0 + 0x28 → rd t a = rd s a
  enabled : ∀ k, (getCore t k).enabled = (getCore s k).enabled
  off : ∀ k, (getCore s k).enabled = false → getCore t k = getCore s k
  active : ∀ k, (∃ p ∈ t.chip.intc.srcs, p.2.activeOn = some k) → (getCore s k).enabled = true ∨ ∃ p ∈ s.chip.intc.srcs, p.2.activeOn = some k

namespace Settles

theorem refl (s : State) : Settles s s := ⟨rfl, fun _ _ _ => rfl, fun _ => rfl, fun _ _ => rfl, fun _ h => .inr h⟩

theorem trans {u : State} (h : Settles s t) (k : Settles t u) : Settles s u where
  eq := k.eq.trans (by rw [h.eq])
  rd a h1 h2 := (k.rd a h1 h2).trans (h.rd a h1 h2)
  enabled c := (k.enabled c).trans (h.enabled c)
  off c hc := (k.off c ((h.enabled c).trans hc)).trans (h.off c hc)
  active c hc := (k.active c hc).elim (fun he => .inl ((h.enabled c).symm.trans he)) (h.active c)

theorem putSrc (hx : ∀ k, x.activeOn = some k → (getCore s k).enabled = true) : Settles s (putSrc s n x) where
  eq := rfl
  rd _ _ _ := rfl
  enabled _ := rfl
  off _ _ := rfl
  active k := fun ⟨p, hp, hk⟩ => (mem_putSrc hp).elim (fun e => .inl (hx k (e ▸ hk : (n, x).2.activeOn = some k))) fun h => .inr ⟨p, h, hk⟩

theorem updCore {f : CoreSt → CoreSt} (hon : (getCore s c).enabled = true) (hf : ∀ k, (f k).enabled = k.enabled) :
    Settles s (updCore s c f) where
  eq := rfl
  rd _ _ _ := rfl
  enabled k := by
    by_cases hk : k = c
    · rw [hk, getCore_updCore f (core_lt hon), hf]
    · rw [getCore_updCore_ne f hk]
  off k hk := getCore_updCore_ne f fun e => Bool.false_ne_true (hk.symm.trans (e ▸ hon))
  active _ h := .inr h

theorem regs (h : RegsWithin (· ∈ [Reg.intc.NEST_FULL, pageBase .intc 0 + 0x28]) s t) : Settles s t := by
  have hchip : t.chip = s.chip := by rw [h.eq]
  have hcore (k : Nat) : getCore t k = getCore s k := by
    unfold getCore
    rw [hchip]
  refine ⟨?_, fun a h1 h2 => h.rd a (by simp [h1, h2]), fun k => by rw [hcore], fun k _ => hcore k, fun k hk => .inr ?_⟩
  · rw [hchip]
    exact h.eq
  · rwa [hchip] at hk

theorem rebindAll : Settles s (rebindAll s) where
  eq := rfl
  rd _ _ _ := rfl
  enabled _ := rfl
  off _ _ := rfl
  active k := fun ⟨p, hp, hk⟩ => by
    obtain ⟨q, hq, rfl⟩ := List.mem_map.mp hp
    exact .inr ⟨q, hq, (rebind_activeOn s q.1 q.2).symm.trans hk⟩

theorem takeSource (hon : (getCore s c).enabled = true) : Settles s (takeSource s c n) := by
  unfold Machine.takeSource
  refine .trans (.putSrc fun k hk => ?_) (.updCore hon fun _ => rfl)
  exact Option.some.inj hk ▸ hon

theorem enterCore (s : State) (c : Nat) : Settles s (enterCore s c) := by
  unfold Machine.enterCore
  split
  · exact .refl s
  · next n x hsel =>
    split
    · next hgo =>
      simp only [Bool.and_eq_true] at hgo
      split
      · exact .takeSource hgo.1
      · split
        · exact .refl s
        · refine .trans (.putSrc fun k hk => ?_) (.regs (.trans (.count (by simp)) (.raiseEvt (by simp))))
          exact absurd ((selected_some hsel).2.symm.trans hk) nofun
    · exact .refl s

theorem settle (s : State) : Settles s (settle s) :=
  List.foldlRecOn [0, 1, 2, 3] Machine.enterCore (motive := Settles s) .rebindAll fun t h k _ => h.trans (.enterCore t k)

end Settles

/-! ## CORE_EN and the watchdog -/

theorem coreEn_set (hc : c < s.chip.intc.cores.length) (e : Bool) :
    (getCore (setCoreEn s c e) c).enabled = e ∧ (∀ k, k ≠ c → (getCore (setCoreEn s c e) k).enabled = (getCore s k).enabled) ∧
      setCoreEn s c e = { s with regs := (setCoreEn s c e).regs, chip := { s.chip with intc := (setCoreEn s c e).chip.intc } } := by
  have h : Settles (updCore s c fun k => { k with enabled := e }) (setCoreEn s c e) := .settle _
  refine ⟨?_, fun k hk => ?_, h.eq⟩
  · rw [h.enabled, getCore_updCore _ hc]
  · rw [h.enabled, getCore_updCore_ne _ hk]

/-- The node as the watchdog of a core leaves it before its sources are bound again. -/
def coreRestarted (s : State) (c : Nat) : State :=
  let s2 := updCore (raiseErr s .atrium 0 5) c fun _ => ⟨false, []⟩
  setIntc s2 { s2.chip.intc with srcs := s2.chip.intc.srcs.map fun p => (p.1, releaseActive c p.2) }

theorem releaseActive_ne (c : Nat) (x : Src) : (releaseActive c x).activeOn ≠ some c := by
  unfold releaseActive
  split
  · nofun
  · assumption

theorem mcWdog_restarts (hc : c < s.chip.intc.cores.length) (hmask : testBit (rd s (pageBase .atrium 0 + 0x34)) 5 = true) :
    getCore (mcWdog s c) c = ⟨false, []⟩ ∧ testBit (rd (mcWdog s c) (pageBase .atrium 0 + 0x30)) 5 = true ∧
      (∀ p ∈ (mcWdog s c).chip.intc.srcs, p.2.activeOn ≠ some c) ∧
      mcWdog s c = { s with regs := (mcWdog s c).regs, chip := { s.chip with intc := (mcWdog s c).chip.intc } } := by
  have h : Settles (coreRestarted s c) (mcWdog s c) := .settle _
  have hregs := raiseErr_masked_regs (s := s) (p := .atrium) (n := 0) (bit := 5) hmask (by decide)
  have hchip : (raiseErr s .atrium 0 5).chip = s.chip := by rw [hregs.eq]
  have hcore : getCore (coreRestarted s c) c = ⟨false, []⟩ :=
    getCore_updCore (s := raiseErr s .atrium 0 5) (fun _ => ⟨false, []⟩) (by rw [hchip]; exact hc)
  refine ⟨(h.off c (by rw [hcore])).trans hcore, ?_, fun p hp hk => ?_, h.eq.trans ?_⟩
  · have hbit : rd (coreRestarted s c) (pageBase .atrium 0 + 0x30) = rd (raiseErr s .atrium 0 5) (pageBase .atrium 0 + 0x30) := rfl
    rw [h.rd _ (by decide) (by decide), hbit, raiseErr_masked s .atrium 0 5 hmask (by decide), rd_count, if_neg (by decide), rd_wr_self,
      testBit_setBit]
    simp
  · obtain hon | ⟨q, hq, hqk⟩ := h.active c ⟨p, hp, hk⟩
    · rw [hcore] at hon
      exact Bool.false_ne_true hon
    · obtain ⟨r, _, rfl⟩ := List.mem_map.mp hq
      exact releaseActive_ne c r.2 hqk
  · obtain ⟨r, hr⟩ : ∃ r, raiseErr s .atrium 0 5 = { s with regs := r } := ⟨_, hregs.eq⟩
    unfold coreRestarted
    rw [hr]
    rfl

/-! ## One source -/

/-- The node with one source listed. -/
def withSource (s : State) (n : Nat) (y : Src) : State := setIntc s { s.chip.intc with srcs := [(n, y)] }

theorem eq_withSource (h : s.chip.intc.srcs = [(n, x)]) : s = withSource s n x := by
  unfold withSource
  rw [← h]
  rfl

theorem getSrc_withSource : getSrc (withSource s n x) n = x := by
  simp [getSrc, withSource, setIntc, Tbl.get]

theorem putSrc_withSource (hy : y ≠ Src.reset) : putSrc (withSource s n x) n y = withSource s n y := by
  have hset : Tbl.set [(n, x)] n y = [(n, y)] := by simp [Tbl.set]
  unfold putSrc
  rw [if_neg hy]
  exact congrArg (fun l => setIntc s { s.chip.intc with srcs := l }) hset

theorem rebindAll_withSource : rebindAll (withSource s n x) = withSource s n (rebind s n x) := rfl

/-- A core selects the one source there is, where it is bound to it, enabled, and pending. -/
theorem selected_withSource (h : t.chip.intc.srcs = [(n, y)]) (c : Nat) :
    selected t c = if (y.bound == some c && y.enable && y.activeOn.isNone && y.isPending) = true then some (n, y) else none := by
  unfold selected
  rw [h, List.filter_singleton]
  dsimp only
  generalize (y.bound == some c && y.enable && y.activeOn.isNone && y.isPending) = b
  cases b <;> rfl

theorem enterCore_none (h : selected s c = none) : enterCore s c = s := by
  unfold enterCore
  rw [h]

/-- Of the cores in turn, one changes the node, before and after which the others change nothing. -/
theorem foldl_once {f : State → Nat → State} {c : Nat} (hs : ∀ k, k ≠ c → f s k = s) (hc : f s c = t) (ht : ∀ k, f t k = t) :
    ∀ l : List Nat, c ∈ l → l.foldl f s = t
  | k :: l, h => by
    rw [List.foldl_cons]
    by_cases hk : k = c
    · rw [hk, hc]
      exact List.foldlRecOn l f (motive := fun u => u = t) rfl fun _ hu j _ => hu ▸ ht j
    · rw [hs k hk]
      exact foldl_once hs hc ht l ((List.mem_cons.mp h).resolve_left fun e => hk e.symm)

/-- The source that a core has taken. -/
def taken (c : Nat) (z : Src) : Src := { z with pending := false, activeOn := some c, bound := none, last := c, full := false }

/-- The node after core `c` has taken its one source. -/
def sourceTaken (s : State) (c n : Nat) (z : Src) : State :=
  updCore (withSource s n (taken c z)) c fun k => { k with nest := (n, tierOf s z.urgency) :: k.nest }

/-- The one source, as binding leaves it, is one that core `c` takes (R526, R527). -/
structure Takes (s : State) (c : Nat) (z : Src) : Prop where
  core : c < 4
  on : (getCore s c).enabled = true
  bound : z.bound = some c
  enable : z.enable = true
  inactive : z.activeOn = none
  pending : z.isPending = true
  wins : preempts s (getCore s c).nest z.urgency = true
  room : (getCore s c).nest.length < 8

theorem ne_reset_of_enable (h : x.enable = true) : x ≠ Src.reset := fun e => Bool.false_ne_true ((congrArg Src.enable e).symm.trans h)

theorem enterCore_takes (h : Takes s c z) : enterCore (withSource s n z) c = sourceTaken s c n z := by
  have hsel : selected (withSource s n z) c = some (n, z) := by
    rw [selected_withSource (t := withSource s n z) rfl, if_pos]
    simp [h.bound, h.enable, h.inactive, h.pending]
  have hgo : ((getCore (withSource s n z) c).enabled && preempts (withSource s n z) (getCore (withSource s n z) c).nest z.urgency) = true :=
    Bool.and_eq_true_iff.mpr ⟨h.on, h.wins⟩
  have hroom : (getCore (withSource s n z) c).nest.length < 8 := h.room
  have henable : (taken c z).enable = true := h.enable
  unfold enterCore
  rw [hsel]
  dsimp only
  rw [if_pos hgo, if_pos hroom]
  unfold takeSource
  rw [getSrc_withSource]
  dsimp only
  show updCore (putSrc (withSource s n z) n (taken c z)) c _ = _
  rw [putSrc_withSource (ne_reset_of_enable henable)]
  rfl

/-- The one source is taken by the core that it is bound to, and by no other. -/
theorem settle_withSource (hz : rebind s n y = z) (h : Takes s c z) : settle (withSource s n y) = sourceTaken s c n z := by
  have hcore := h.core
  unfold settle
  rw [rebindAll_withSource, hz]
  refine foldl_once (fun k hk => enterCore_none ?_) (enterCore_takes h) (fun k => enterCore_none ?_) _ ?_
  · rw [selected_withSource (t := withSource s n z) rfl, if_neg]
    simp [h.bound, Ne.symm hk]
  · rw [selected_withSource (t := sourceTaken s c n z) (y := taken c z) rfl, if_neg]
    simp [taken]
  · simp only [List.mem_cons, List.not_mem_nil, or_false]
    omega

theorem sourceTaken_takes (h : Takes s c z) :
    let t := sourceTaken s c n z
    getSrc t n = taken c z ∧ (getCore t c).nest = (n, tierOf s z.urgency) :: (getCore s c).nest ∧ (∀ k, k ≠ c → getCore t k = getCore s k) ∧
      t = { s with chip := { s.chip with intc := t.chip.intc } } := by
  refine ⟨getSrc_withSource (s := s), ?_, fun k hk => getCore_updCore_ne (s := withSource s n (taken c z)) _ hk, rfl⟩
  unfold sourceTaken
  rw [getCore_updCore (s := withSource s n (taken c z)) _ (core_lt (s := s) h.on)]
  rfl

/-! ## A source that fires -/

theorem getSrc_single (h : s.chip.intc.srcs = [(n, x)]) : getSrc s n = x := by
  rw [eq_withSource h]
  exact getSrc_withSource

theorem putSrc_single (h : s.chip.intc.srcs = [(n, x)]) (hy : y ≠ Src.reset) : putSrc s n y = withSource s n y := by
  conv_lhs => rw [eq_withSource h]
  exact putSrc_withSource hy

/-- What the level of its input leaves of a source. -/
theorem levelNow_eq (y : Src) (s : State) (n : Nat) :
    y.levelNow s n = { y with input := if y.sense = 0 then y.input && sourceInput s n else y.input } := by
  unfold Src.levelNow
  split <;> rfl

theorem bindTarget_levelNow : bindTarget s (y.levelNow s n) = bindTarget s y := by
  rw [levelNow_eq]
  rfl

/-- A pending source that is bound nowhere is bound to its next enabled target. -/
theorem rebind_binds (hn : isAssigned n = true) (hactive : y.activeOn = none) (hbound : y.bound = none)
    (hpending : (y.levelNow s n).isPending = true) (hbind : bindTarget s y = some c) :
    rebind s n y = { y.levelNow s n with bound := some c } := by
  have hactive' : (y.levelNow s n).activeOn = none := by rw [levelNow_eq]; exact hactive
  have hbound' : (y.levelNow s n).bound = none := by rw [levelNow_eq]; exact hbound
  unfold rebind
  dsimp only
  rw [hn, hpending, hactive', hbound', bindTarget_levelNow, hbind]
  rfl

/-- A pending source that is bound to an enabled target stays bound to it. -/
theorem rebind_keeps (hn : isAssigned n = true) (hactive : y.activeOn = none) (hbound : y.bound = some c)
    (hpending : (y.levelNow s n).isPending = true) (htarget : enabledTarget s y c = true) : rebind s n y = y.levelNow s n := by
  have hactive' : (y.levelNow s n).activeOn = none := by rw [levelNow_eq]; exact hactive
  have hbound' : (y.levelNow s n).bound = some c := by rw [levelNow_eq]; exact hbound
  have htarget' : enabledTarget s (y.levelNow s n) c = true := by rw [levelNow_eq]; exact htarget
  unfold rebind
  dsimp only
  rw [hn, hpending, hactive', hbound']
  exact if_pos htarget'

/-- A source that would be bound to core `c`, which takes it as it takes the urgency. -/
structure Bindable (s : State) (n c : Nat) (x : Src) : Prop where
  core : c < 4
  assigned : isAssigned n = true
  enable : x.enable = true
  inactive : x.activeOn = none
  unbound : x.bound = none
  target : bindTarget s x = some c
  wins : preempts s (getCore s c).nest x.urgency = true
  room : (getCore s c).nest.length < 8

namespace Bindable

theorem enabledTarget (h : Bindable s n c x) : enabledTarget s x c = true := List.find?_some h.target

/-- A source like it, bound to the core and pending. -/
theorem takes (h : Bindable s n c x) (hbound : z.bound = some c) (henable : z.enable = x.enable) (hactive : z.activeOn = x.activeOn)
    (hurgency : z.urgency = x.urgency) (hpending : z.isPending = true) : Takes s c z where
  core := h.core
  on := (Bool.and_eq_true_iff.mp h.enabledTarget).2
  bound := hbound
  enable := henable.trans h.enable
  inactive := hactive.trans h.inactive
  pending := hpending
  wins := hurgency ▸ h.wins
  room := h.room

/-- SW_TRIGGER of a source: it is pending, bound, and taken. -/
theorem swTrigger (h : Bindable s n c x) (hsrcs : s.chip.intc.srcs = [(n, x)]) :
    ∃ z, swTrigger s n = sourceTaken s c n z ∧ Takes s c z ∧ z.urgency = x.urgency ∧
      taken c z = { x with
        input := if x.sense = 0 then x.input && sourceInput s n else x.input, pending := false, activeOn := some c, last := c, full := false } := by
  have hpending : (({ x with pending := true } : Src).levelNow s n).isPending = true := by rw [levelNow_eq]; rfl
  have hbinds := rebind_binds h.assigned (y := { x with pending := true }) h.inactive h.unbound hpending h.target
  have htakes : Takes s c { ({ x with pending := true } : Src).levelNow s n with bound := some c } :=
    h.takes rfl (by rw [levelNow_eq]) (by rw [levelNow_eq]) (by rw [levelNow_eq]) hpending
  have hput : putSrc s n { x with pending := true } = withSource s n { x with pending := true } :=
    putSrc_single hsrcs (ne_reset_of_enable h.enable)
  refine ⟨_, ?_, htakes, by rw [levelNow_eq], ?_⟩
  · unfold Machine.swTrigger
    rw [if_pos h.assigned, getSrc_single hsrcs, hput, settle_withSource hbinds htakes]
  · rw [levelNow_eq, taken, ← h.unbound]

/-- A LEVEL source whose input is seen asserted is bound and taken. -/
theorem assertSource (h : Bindable s n c x) (hsrcs : s.chip.intc.srcs = [(n, x)]) (hsoft : isSoftSource n = false) (hsense : x.sense = 0)
    (hinput : sourceInput s n = true) :
    ∃ z, assertSource s n .steady = sourceTaken s c n z ∧ Takes s c z ∧ z.urgency = x.urgency ∧
      taken c z = { x with input := true, pending := false, activeOn := some c, last := c, full := false } := by
  have hlevel (b : Option Nat) : ({ x with input := true, bound := b } : Src).levelNow s n = { x with input := true, bound := b } := by
    rw [levelNow_eq, hsense, hinput]
    rfl
  have hpending (b : Option Nat) : ({ x with input := true, bound := b } : Src).isPending = true := by
    simp [Src.isPending, hsense, h.inactive]
  have hseen : ({ x with input := sourceInput s n, pending := x.pending || sensedEdge x.sense x.input (sourceInput s n) } : Src) =
      { x with input := true, bound := x.bound } := by
    rw [hinput, hsense]
    simp [sensedEdge]
  have hbinds : rebind s n { x with input := true, bound := x.bound } = { x with input := true, bound := some c } := by
    rw [rebind_binds (y := { x with input := true, bound := x.bound }) h.assigned h.inactive h.unbound
      ((congrArg _ (hlevel _)).trans (hpending _)) h.target, hlevel]
  have hkeeps : rebind s n { x with input := true, bound := some c } = { x with input := true, bound := some c } := by
    rw [rebind_keeps (y := { x with input := true, bound := some c }) h.assigned h.inactive rfl
      ((congrArg _ (hlevel _)).trans (hpending _)) h.enabledTarget, hlevel]
  have htakes : Takes s c { x with input := true, bound := some c } := h.takes rfl rfl rfl rfl (hpending _)
  have hput : putSrc s n { x with input := true, bound := x.bound } = withSource s n { x with input := true, bound := x.bound } :=
    putSrc_single hsrcs (ne_reset_of_enable h.enable)
  refine ⟨_, ?_, htakes, rfl, ?_⟩
  · unfold Machine.assertSource
    rw [h.assigned, hsoft, if_neg (by decide), getSrc_single hsrcs]
    dsimp only
    rw [hseen, hput, rebindAll_withSource, hbinds, getSrc_withSource]
    exact settle_withSource hkeeps htakes
  · rw [taken, ← h.unbound]

end Bindable

/-! ## Completion and return -/

theorem settle_none (h : ∀ k, selected (rebindAll s) k = none) : settle s = rebindAll s :=
  List.foldlRecOn [0, 1, 2, 3] enterCore (motive := fun u => u = rebindAll s) rfl fun _ hu k _ => by
    rw [hu, enterCore_none (h k)]

/-- A source that is not pending is bound nowhere. -/
theorem rebind_idle (h : (y.levelNow s n).isPending = false) : rebind s n y = { y.levelNow s n with bound := none } := by
  unfold rebind
  dsimp only
  rw [h, if_pos (by simp)]

theorem selected_nil (h : s.chip.intc.srcs = []) (k : Nat) : selected s k = none := by
  unfold selected
  rw [h]
  rfl

theorem rebindAll_nil (h : s.chip.intc.srcs = []) : rebindAll s = s := by
  unfold rebindAll
  rw [h, List.map_nil, ← h]
  rfl

/-- With no source listed, settling changes nothing. -/
theorem settle_nil (h : s.chip.intc.srcs = []) : settle s = s := by
  rw [settle_none (by rw [rebindAll_nil h]; exact selected_nil h), rebindAll_nil h]

theorem completeSource_active (h : (getSrc s n).activeOn = some c) :
    completeSource s c n = settle (putSrc s n { getSrc s n with activeOn := none }) := if_pos h

/-- COMPLETE of the one source, which does not fire again: it is active and bound nowhere. -/
theorem completeSource_single (hsrcs : s.chip.intc.srcs = [(n, x)]) (hactive : x.activeOn = some c) (hpending : x.pending = false)
    (hlevel : x.sense ≠ 0 ∨ x.input = false) :
    let t := completeSource s c n
    getSrc t n = { x with activeOn := none, bound := none } ∧ t.chip.intc.cores = s.chip.intc.cores ∧
      t = { s with chip := { s.chip with intc := t.chip.intc } } := by
  dsimp only
  rw [completeSource_active ((congrArg _ (getSrc_single hsrcs)).trans hactive), getSrc_single hsrcs]
  by_cases hreset : ({ x with activeOn := none } : Src) = Src.reset
  · have hput : putSrc s n { x with activeOn := none } = setIntc s { s.chip.intc with srcs := [] } := by
      unfold putSrc
      rw [if_pos hreset, hsrcs]
      simp [Tbl.del]
    have hbound : ({ x with activeOn := none, bound := none } : Src) = Src.reset := by
      have hnone : x.bound = none := congrArg Src.bound hreset
      rwa [hnone] at hreset
    rw [hput, settle_nil (s := setIntc s { s.chip.intc with srcs := [] }) rfl, hbound]
    exact ⟨rfl, rfl, rfl⟩
  · have hidle : (({ x with activeOn := none } : Src).levelNow s n) = { x with activeOn := none } := by
      rw [levelNow_eq]
      obtain hs | hi := hlevel
      · rw [if_neg hs]
      · rw [hi, Bool.false_and, ite_self]
    have hrebind : rebind s n { x with activeOn := none } = { x with activeOn := none, bound := none } := by
      rw [rebind_idle, hidle]
      rw [hidle]
      obtain hs | hi := hlevel
      · simp [Src.isPending, hpending, hs]
      · simp [Src.isPending, hpending, hi]
    rw [putSrc_single hsrcs hreset, settle_none, rebindAll_withSource, hrebind]
    · exact ⟨getSrc_withSource, rfl, rfl⟩
    · intro k
      rw [rebindAll_withSource, hrebind, selected_withSource (t := withSource s n _) rfl, if_neg]
      simp

/-- COMPLETE of a source that is not active on the core. -/
theorem completeSource_bad (h : (getSrc s n).activeOn ≠ some c) (hmask : testBit (rd s (pageBase .intc 0 + 0x34)) 0 = true) :
    testBit (rd (completeSource s c n) (pageBase .intc 0 + 0x30)) 0 = true ∧
      OnlyRegs s (completeSource s c n) [pageBase .intc 0 + 0x30, pageBase .intc 0 + 0x3C] := by
  have hbad : completeSource s c n = raiseErr s .intc 0 0 := if_neg h
  rw [hbad]
  refine ⟨?_, (raiseErr_masked_regs hmask (by decide)).onlyRegs⟩
  rw [raiseErr_masked s .intc 0 0 hmask (by decide), rd_count, if_neg (by decide), rd_wr_self, testBit_setBit]
  simp

/-- With no source listed, a return leaves the handler's nest and does no more. -/
theorem handlerReturn_nil {e : Nat × Nat} {r : List (Nat × Nat)} (hsrcs : s.chip.intc.srcs = []) (hnest : (getCore s c).nest = e :: r) :
    handlerReturn s c = updCore s c fun k => { k with nest := r } := by
  have hnone : (updCore s c fun k => { k with nest := r }).chip.intc.srcs = [] := hsrcs
  unfold handlerReturn
  rw [hnest]
  dsimp only
  rw [rebindAll_nil hnone, handoff, selected_nil hnone]
  exact settle_nil hnone

end

/-- Settles O51: of one source, a trigger or an assertion is `sourceTaken`, and its completion unbinds it; over all sources, what settling leaves
of the cores is `Settles`. -/
theorem interrupts_are_taken_and_completed : Obligations.Interrupts_are_taken_and_completed := by
  unfold Obligations.Interrupts_are_taken_and_completed
  intro s n c x hcores
  have hc : c.val < s.chip.intc.cores.length := by rw [hcores]; exact c.isLt
  refine ⟨fun hsrcs hn henable hinactive hunbound htarget hwins hroom => ?_, fun hn ph => ⟨?_, ?_⟩, fun hsrcs hactive hpending hlevel => ?_,
    fun hactive hmask => ?_, fun hsrcs e r hnest => ?_, fun e => ?_, fun hmask => ?_⟩
  · have h : Bindable s n.val c.val x := ⟨c.isLt, hn, henable, hinactive, hunbound, htarget, hwins, hroom⟩
    refine ⟨?_, fun hsoft hsense hinput => ?_⟩
    · obtain ⟨z, ht, htakes, hurgency, hz⟩ := h.swTrigger hsrcs
      rw [← hz, ← hurgency]
      exact ⟨_, congrArg Host.Outcome.next ht, sourceTaken_takes htakes⟩
    · obtain ⟨z, ht, htakes, hurgency, hz⟩ := h.assertSource hsrcs hsoft hsense hinput
      rw [← hz, ← hurgency]
      exact ⟨_, congrArg Host.Outcome.next ht, sourceTaken_takes htakes⟩
  · refine congrArg Host.Outcome.next (if_neg ?_)
    rw [hn]
    decide
  · refine congrArg Host.Outcome.next (if_pos ?_)
    rw [hn]
    rfl
  · exact ⟨_, rfl, completeSource_single hsrcs hactive hpending hlevel⟩
  · exact ⟨_, rfl, completeSource_bad hactive hmask⟩
  · exact ⟨_, congrArg Host.Outcome.next (handlerReturn_nil hsrcs hnest), getCore_updCore _ hc, fun k hk => getCore_updCore_ne _ hk, rfl⟩
  · exact ⟨_, rfl, coreEn_set hc e⟩
  · exact ⟨_, rfl, mcWdog_restarts hc hmask⟩

end Sys2Proof.Machine
